-- ==== Sys2Proof/Word.lean ====
section
/-!
DEFINITION. The word types of the model and their plainest arithmetic (R1-R4).
-/
namespace Sys2Proof

/-- One byte. -/
abbrev Byte := BitVec 8
/-- One 32-bit word. -/
abbrev Word := BitVec 32
/-- One 64-bit word. -/
abbrev DWord := BitVec 64
/-- A time or a duration, in ns of module time (R34). -/
abbrev Ns := Nat
/-- A voltage in µV (R114). -/
abbrev UV := Int
/-- A rail number, 0-255 (R9). -/
abbrev RailN := Fin 256
/-- A cascade chain number, 0-15 (R9). -/
abbrev ChainN := Fin 16
/-- A sequence group number, 0-63 (R135). -/
abbrev GroupN := Fin 64
/-- A field point number, 0-127 (R9). -/
abbrev PointN := Fin 128
/-- A scan converter number, 0-15. -/
abbrev ConvN := Fin 16
/-- A host target number, 0-63 (R251). -/
abbrev TgtN := Fin 64
/-- A program number, 0-255. -/
abbrev ProgN := Fin 256
/-- A logical spindle pair, 0-7. -/
abbrev LPairN := Fin 8
/-- A physical spindle pair, 0-8. -/
abbrev PPairN := Fin 9
/-- A Headstock queue number, 0-4095. -/
abbrev QueueN := Fin 4096

end Sys2Proof
end

