-- ==== Sys2Proof/Config.lean ====
section
/-!
DEFINITION. The configuration that the Cabochon key gives the module, decoded: one structure for each
section type of R100. The key's flash and its image as data. The values that the spec leaves open.
-/
namespace Sys2Proof

/-- One section of an image (R98, R99): its table entry, its header fields and its body. -/
structure Sec where
  typ : Nat
  inst : Nat
  fmt : Nat
  serial : DWord
  digest : List Byte
  recCount : Nat
  recSize : Nat
  body : List Byte
deriving DecidableEq, Repr

/-- A Cabochon key as it stands in F1 (R50, R92-R95): its identity sector, its two selector pages and its two
banks, each bank as the bytes programmed from its start. `vkeyShort` is a short on VKEY (R67). -/
structure Key where
  vkeyShort : Bool
  identity : List Byte
  selA : List Byte
  selB : List Byte
  bank0 : List Byte
  bank1 : List Byte
deriving DecidableEq, Repr

/-- A decoded selector page (R94). -/
structure Selector where
  gen : Word
  bank : Bool
  digest : List Byte
deriving DecidableEq, Repr

/-- A decoded image header (R96). -/
structure ImgHdr where
  serial : DWord
  buildUtc : DWord
  imageLen : Nat
  sectionCount : Nat
  position : List Byte
  hwMin : Nat
  hwMax : Nat
  customerKeyId : DWord
deriving DecidableEq, Repr

/-- One record of the sync object table in MODULE (R371). -/
structure CSync where
  used : Bool
  timer : Bool
  external : Bool
  programs : BitVec 256
  hosts : BitVec 64
  source : Nat
  timerUs : Nat
deriving DecidableEq, Repr

/-- MODULE section: R86, R167, R185, R276, R290. -/
structure CModule where
  cycleUs : Nat
  faultLimit : Nat
  wakeEn : BitVec 7
  pfwUsed : Bool
  wakeTimerMin : Nat
  longPressS : Nat
  netSpeedRequired : Bool
  restartWhileMoving : Bool
  touchUsed : Bool
  networkOffAllowed : Bool
  standstillConfirm : Nat
  probeStep : Nat
  marginGuard : Nat
  probeHoldMs : Nat
  probeIntervalH : Nat
  holdMaxS : Nat
  holdSlew : Nat
  probingEnabled : Bool
  holdWhileMoving : Bool
  healthWarn : Nat
  probesMax : Nat
  faultClasses : BitVec 32
  syncs : List CSync
deriving DecidableEq, Repr

/-- A rail table entry (R114). Voltages in µV, currents in mA, times in µs. -/
structure CRail where
  used : Bool
  pushPull : Bool
  pgUsed : Bool
  trimAllowed : Bool
  trimPol : Bool
  probeAllowed : Bool
  warmRestart : Bool
  ocUsed : Bool
  range : Nat
  sets : BitVec 5
  nominal : UV
  upLo : UV
  upHi : UV
  warnLo : UV
  warnHi : UV
  faultLo : UV
  faultHi : UV
  imonFs : Nat
  ocLimit : Nat
  ocRampLimit : Nat
  ocCount : Nat
  pgFilter : Nat
  rampDelay : Nat
  rampSlope : Nat
  rampTol : UV
  pgDelay : Nat
  drainThresh : UV
  drainTimeout : Nat
  prebiasMin : UV
  trimMin : Int
  trimMax : Int
  trimGain : Nat
  serial : DWord
deriving DecidableEq, Repr

/-- A step record of a plan (R136). -/
structure CStep where
  rails : List RailN
  priorUp : Bool
  hasDelay : Bool
  cascade : Bool
  field : Bool
  flagCond : Bool
  fieldPol : Bool
  flagPol : Bool
  chains : BitVec 16
  delay : Nat
  timeout : Nat
  waitRail : Option RailN
  point : PointN
  flag : Fin 64
deriving DecidableEq, Repr

/-- A group record of a plan with its steps (R136). -/
structure CGroup where
  after : Option Nat
  inChain : Option ChainN
  outChain : Option ChainN
  domain : Option (Fin 16)
  allowance : Nat
  inFilter : Nat
  steps : List CStep
deriving DecidableEq, Repr

/-- A PLAN section (R136). -/
structure CPlan where
  retries : Nat
  retryPause : Nat
  groups : List CGroup
deriving DecidableEq, Repr

/-- A fault reaction set record (R150). -/
structure CReact where
  used : Bool
  trigRails : BitVec 256
  trigAnalog : BitVec 64
  members : BitVec 256
  causes : BitVec 6
  chains : BitVec 16
deriving DecidableEq, Repr

/-- An alert input record of EVENT (R258). -/
structure CAlert where
  filter : Nat
  used : Bool
  pol : Bool
  rise : Bool
  fall : Bool
  wake : Bool
deriving DecidableEq, Repr

/-- The EVENT section (R258): hold-offs of the 32 groups, alert inputs, default routing sets. -/
structure CEvent where
  holdoff : List Nat
  alert : List CAlert
  route : List (BitVec 64)
deriving DecidableEq, Repr

/-- A user region record of SECURITY (R267, R488). -/
structure CRegion where
  trace : Bool
  readProt : Bool
  writeProt : Bool
  pages : Nat
deriving DecidableEq, Repr

/-- The SECURITY section (R488). -/
structure CSecurity where
  minLen : Nat
  hostRelease : Bool
  regions : List CRegion
deriving DecidableEq, Repr

/-- The WATCHDOG section (R459). `action`: 0 EVENT, 1 HOST_RESET, 2 DOMAIN_CYCLE. -/
structure CWatchdog where
  openMs : Nat
  closeMs : Nat
  firstS : Nat
  action : Nat
  domain : Fin 16
  lock : Bool
  spnTimeoutUs : Nat
deriving DecidableEq, Repr

/-- A scan list entry (R208). -/
structure CScanEntry where
  input : BitVec 10
  winEn : Bool
  currentMode : Bool
  winLo : Int
  winHi : Int
deriving DecidableEq, Repr

/-- A SCAN section (R208). `avg` is the number of conversions, 1, 2, 4 or 8; `lowPower` is LOWPOWER_LEVELS. -/
structure CScan where
  avg : Nat
  snapInput : BitVec 10
  lowPower : BitVec 4
  calIntervalMin : Nat
  entries : List CScanEntry
deriving DecidableEq, Repr

/-- A fixed-speed comparator record of TRIP (R241). For rail comparators only `hyst` is used. -/
structure CCmp where
  used : Bool
  loEn : Bool
  hiEn : Bool
  hyst : BitVec 2
  lo : Nat
  hi : Nat
deriving DecidableEq, Repr

/-- A sampled comparator record S6-S15 of TRIP (R241). -/
structure CSmp where
  used : Bool
  wake : Bool
  rising : Bool
  hyst : BitVec 2
  point : Fin 64
  count : Nat
  thresh : Nat
deriving DecidableEq, Repr

/-- The TRIP section (R241): comparators 0-319, then S6-S15. -/
structure CTrip where
  smpPeriod : Nat
  cmps : List CCmp
  smps : List CSmp
deriving DecidableEq, Repr

/-- A PROGRAM section (R309). `beads` and `subs` are (START, WCET); WCETs in 0.1 ns. -/
structure CProg where
  task : Bool
  pair : Fin 8
  order : Nat
  crit : Nat
  div : Nat
  phase : Nat
  init : Bool
  stopOnFault : Bool
  wcetCycle : Nat
  dataBase : Nat
  dataLen : Nat
  locBase : Nat
  locLen : Nat
  queue : Option (Fin 4096)
  flagOwn : BitVec 64
  eventOwn : BitVec 224
  fieldOwn : BitVec 128
  hostBase : Nat
  hostLen : Nat
  beads : List (Nat × Nat)
  subs : List (Nat × Nat)
  code : List Word
  digest : List Byte
deriving DecidableEq, Repr

/-- A level record of HEADSTOCK (R335). -/
structure CLevel where
  plan : Fin 8
  minH : Nat
  pKey : Nat
  pAllow : Nat
deriving DecidableEq, Repr

/-- A source of R340: analog input or internal point. -/
inductive TSrc where
  | analog (a : Fin 64) | internal (k : Fin 64)
deriving DecidableEq, Repr

/-- A thermal domain record (R340). -/
structure CTherm where
  used : Bool
  c : Nat
  rOn : Nat
  rOff : Nat
  tLim : Int
  amb : TSrc
  meas : Option TSrc
  pBase : Nat
  ambGain : Int
  ambOffset : Int
  measGain : Int
  measOffset : Int
deriving DecidableEq, Repr

/-- A host domain record (R352). -/
structure CDom where
  used : Bool
  therm : Fin 8
  alwaysOn : Bool
  maxInflight : Nat
  wakeUj : Nat
  idleMs : Nat
deriving DecidableEq, Repr

/-- A queue record (R343); `dom` none is a spindle task queue. -/
structure CQueue where
  used : Bool
  prio : Nat
  dom : Option (Fin 16)
  therm : Fin 8
  notify : Option (Fin 32)
  est : Nat
  latency : Nat
  depth : Nat
deriving DecidableEq, Repr

/-- The HEADSTOCK section (R332, R333). `levels` are NORMAL to RESERVE; queues that are not used are not listed. -/
structure CHds where
  upHold : Nat
  hyst : Nat
  fanSrc : Nat
  fanPoint : PointN
  lineMeter : Bool
  battTimeout : Nat
  depth : Nat
  pairMw : Nat
  urgent : Option Nat
  lookahead : Nat
  levels : List CLevel
  therms : List CTherm
  doms : List CDom
  queues : List (Fin 4096 × CQueue)
deriving DecidableEq, Repr

/-- Modes of a field point (R392). -/
inductive PMode where
  | unused | inputT1 | inputT3 | input110 | output
deriving DecidableEq, Repr

/-- SAFE of an output point (R392). -/
inductive SafeVal where
  | off | on | hold
deriving DecidableEq, Repr

/-- A point record of FIELD (R392). -/
structure CPoint where
  mode : PMode
  safe : SafeVal
  debounceUs : Nat
deriving DecidableEq, Repr

/-- A FIELD section (R392). -/
structure CField where
  used : Bool
  sampleUs : Nat
  timeoutMs : Nat
  points : List CPoint
deriving DecidableEq, Repr

/-- A set record of METER (R407). -/
structure CMSet where
  used : Bool
  lineSense : Bool
  reverse : Bool
  vScale : Nat
  iScale : Nat
  vGain : Int
  vOffset : Int
  iGain : Int
  iOffset : Int
  iDelay : Int
deriving DecidableEq, Repr

/-- The METER section (R407). -/
structure CMeter where
  lossPct : Nat
  locMaxAge : Nat
  sets : List CMSet
deriving DecidableEq, Repr

/-- A stream record of RECORD (R426). -/
structure CStream where
  used : Bool
  prot : Bool
  copies : Nat
  units : BitVec 8
  retainH : Nat
  bufMib : Nat
deriving DecidableEq, Repr

/-- The AGEING section (R446). -/
structure CAgeing where
  narrowEn : Bool
  estEn : Bool
  thermEn : Bool
  narrowMax : Nat
  healthEol : Nat
  thermMax : Nat
  estMin : Nat
  estMax : Nat
  warnH : Nat
deriving DecidableEq, Repr

/-- The LINKS section (R377, R471). -/
structure CLinks where
  linkEn : BitVec 8
  storageEn : BitVec 8
  netEn : BitVec 4
  wakeEn : BitVec 4
  ptpEn : BitVec 4
  ptpDomain : Nat
  roles : BitVec 8
  prefix_ : Nat
  addrs : List Word
  speedComId : Word
  speedOffset : Nat
  locOffset : Nat
  locComId : Word
  cmdComId : Word
  statusComId : Word
  edivoAddr : Word
  edivoPrefix : Nat
  edivoTcp : Nat
  sessionTimeout : Nat
  hsbEnabled : Bool
  preferPrimary : Bool
  seekMs : Nat
  mirrorBase : Nat
  mirrorLen : Nat
  pairId : DWord
  syncLead : Nat
deriving DecidableEq, Repr

/-- The running configuration, decoded from the sections in force (R100): absent sections turn their function off. Before
any successful LOAD every section is absent. -/
structure Cfg where
  module : Option CModule := none
  rail : Vector (Option CRail) 256 := Vector.replicate 256 none
  plan : Vector (Option CPlan) 8 := Vector.replicate 8 none
  react : Option (List CReact) := none
  scan : Vector (Option CScan) 16 := Vector.replicate 16 none
  trip : Option CTrip := none
  event : Option CEvent := none
  security : Option CSecurity := none
  watchdog : Option CWatchdog := none
  prog : Vector (Option CProg) 256 := Vector.replicate 256 none
  hds : Option CHds := none
  field : Vector (Option CField) 8 := Vector.replicate 8 none
  meter : Option CMeter := none
  record : Option (List CStream) := none
  ageing : Option CAgeing := none
  links : Option CLinks := none
deriving DecidableEq, Repr

/-! ### Values that the spec leaves open -/

/-- A free value: the spec does not fix it, and nothing here does. Applied to the counter `free` of State, which the step
that uses it advances. -/
opaque freeNat : Nat → Nat

/-- PBKDF2-HMAC-SHA-384 with 20,000 iterations of a password and its salt (R486), left uninterpreted. -/
opaque pbkdf2 : List Byte → List Byte → List Byte
/-- HMAC-SHA-384 of a key and a message (R487), left uninterpreted. -/
opaque hmac384 : List Byte → List Byte → List Byte
/-- SHA-384 (R281), left uninterpreted. -/
opaque sha384 : List Byte → List Byte
/-- The nonce that a CHALLENGE draws (R487). -/
opaque nonce : Nat → List Byte
/-- The signature of a data set under the meter key (R419), left uninterpreted. -/
opaque meterSign : List Byte → List Byte
/-- The meter public key of the n-th provisioning (R490). -/
opaque meterPub : Nat → List Byte
/-- Whether an ECDSA signature over P-384 with SHA-384 verifies (R97, R419, R491): the public key, the message, and r followed by
s. Left uninterpreted. -/
opaque ecdsaP384 : List Byte → List Byte → List Byte → Bool
/-- The Koraltus public key in the module's read-only memory (R97), which the spec does not print. -/
opaque makerKey : List Byte
/-- Whether a maker token verifies (R494): the key, the message, and the token's 128 bytes, whose layout the spec does not give. Left
uninterpreted. -/
opaque makerToken : List Byte → List Byte → List Byte → Bool
/-- The CODE instances that a hardware revision requires (R101), which the spec does not list. -/
opaque codeNeeded : Nat → BitVec 16
/-- A byte of the program memories as BAR2 shows it (R296): the spec does not say where in a bank a program stands. -/
opaque progMemByte : Nat → Nat → Byte

end Sys2Proof
end

