-- ==== Sys2Proof/Syntax.lean ====
section
/-!
DEFINITION. The commands that the block takes: one constructor for each row of spec/opcode_table.json, with the
operands that the row's happening carries from outside (an object's number, a measured value, a received message).
-/
namespace Sys2Proof

/-- The operand of a row whose happening carries nothing from outside: it only marks that its moment has come. -/
abbrev Marker := Unit

/-- What the self-test at CHECK finds (R21, R79, R244, R265, R330): failed converters, failed comparators (0-319, then
320 + j for Sj), failed spindle pairs, and whether any other unit failed. -/
structure SelfTest where
  convs : BitVec 16
  cmps : List (Fin 336)
  pairs : BitVec 9
  other : Bool
deriving DecidableEq, Repr

/-- A PTP Announce message as the best master clock algorithm sees it (R475). -/
structure Announce where
  priority1 : Nat
  clockClass : Nat
  accuracy : Nat
  variance : Nat
  priority2 : Nat
  identity : Nat
  utcOffsetValid : Bool
  leap61 : Bool
  leap59 : Bool
deriving DecidableEq, Repr

/-- An owner of a staging session, an unlock or a store command (R104, R274). -/
inductive Owner where
  | host | session (n : Fin 4)
deriving DecidableEq, Repr

/-- How the programming of a staged bank ended (R105). -/
inductive StageWrite where
  | ok (image : List Byte) | keyWriteError | hostReadError
deriving DecidableEq, Repr

/-- The samples of one measurement set in one meter burst (R206, R405): voltage and current codes, and whether either
saturated. -/
structure MeterSample where
  v : Int
  i : Int
  sat : Bool
deriving DecidableEq, Repr

/-- The results of one set's 200 ms window (R408, R424): means in V, 0.1 A, W and var (fundamental reactive power, 0 on DC),
the fundamental in 0.01 Hz, and the window's length in ns. -/
structure MeterWin where
  vRms : Nat
  iRms : Nat
  p : Int
  q : Int
  freq : Nat
  ns : Nat
deriving DecidableEq, Repr

/-- What a 100 ms window of one set's line voltage shows (R411): the least and greatest fundamental in 0.01 Hz (0 without
one), rms and magnitude of the mean in V over the window, whether the AC part stays below 10 % of the mean, and the
greatest magnitude in V. -/
structure LineWin where
  freqMin : Nat
  freqMax : Nat
  rmsMin : Nat
  rmsMax : Nat
  meanMin : Nat
  meanMax : Nat
  dc : Bool
  peak : Nat
deriving DecidableEq, Repr

/-- What a scrub of the flash array finds (R263-R265): corrected bits in all, sectors retired, user pages hit by an
uncorrectable error (region, page, and the bytes of the newest older valid version, if one exists), converters whose corrections in
the CALIBRATION region are so hit (with offset, gain and operating minute of the newest older valid version, if one exists), the
number of such groups elsewhere in system regions, and the 16-byte groups so hit in each copy of the Inclusion record. -/
structure ScrubResult where
  corrected : Nat
  retired : Nat
  wearPct : Nat
  bad : List (Fin 16 × Nat × Option (List Byte))
  badCal : List (Fin 16 × Option (Int × Int × Nat))
  badSys : Nat
  badA : List Nat
  badB : List Nat
deriving DecidableEq, Repr

/-- A record (R427); `payload` are its payload bytes. -/
structure Rec where
  seq : Nat
  stream : Fin 64
  mtime : DWord
  utc : DWord
  utcQual : Nat
  shadow : Bool
  rewritten : Bool
  leap : Bool
  poweron : BitVec 16
  typ : Byte
  payloadLen : Nat
  payload : List Byte
deriving DecidableEq, Repr

/-- A chunk as a unit holds it (R429, R434). -/
structure Chunk where
  stream : Fin 64
  copy : Nat
  open_ : Bool
  first : Nat
  last : Nat
  newestUtc : DWord
  bytes : Nat
  recs : List Rec
deriving DecidableEq, Repr

/-- What verification finds on a unit (R438): a valid label with its chunks, no label, another position's label, or an
inconsistent table. -/
inductive UnitCheck where
  | good (chunks : List Chunk) | blank | foreign | badIndex
deriving DecidableEq, Repr

/-- What a re-plan measures (R28, R448, R453, R454): the factor that the die shows at each core voltage offset from 0 to
60 mV in steps of 5, the differences of every comparator's threshold output from the ideal at codes 64 and 960 in units
of 1/16,384 step, and K_R and K_C of each thermal domain in 1/1,024 where they can be formed. -/
structure ReplanIn where
  factors : List (BitVec 16)
  offsets : List (Int × Int)
  kR : List (Option Nat)
  kC : List (Option Nat)
deriving DecidableEq, Repr
/-- The commands of RSQ_RAIL_CMD (R131). -/
inductive RailCode where
  | on | off | clear | release | park | unpark
deriving DecidableEq, Repr

/-- The mismatch kinds (R319). -/
inductive MKind where
  | store | operation | beadEnd | timeout | parity | injected | shadow
deriving DecidableEq, Repr

/-- A partner command (R382, R386): a rail command or an on request. -/
inductive PCmd where
  | rail (n : RailN) (code : RailCode)
  | on
deriving DecidableEq, Repr

/-- The TAKE_PREP answer of a standby for a paired take (R389). -/
inductive TakePrep where
  | none | prepared | refused
deriving DecidableEq, Repr

/-- A mirror as shipped or received (R382). `region` holds the bytes of the mirror region that are not 0, by offset. -/
structure Mirror where
  cycle : DWord
  region : List (Nat × Byte)
  runSerial : DWord
  banks : BitVec 8
  applied : List DWord
  periodSeq : Word
  label : DWord
  dsSeq : Word
  recMarker : Nat
  cmds : List PCmd
  take : Option (DWord × List (Nat × Nat))
deriving DecidableEq, Repr

/-- A heartbeat as it arrives (R380); `state` is HSB_STATE and `mod` MODULE_STATE as coded, `crcOk` its CRC. -/
structure Heartbeat where
  serial : DWord
  link : Fin 2
  pairId : DWord
  state : Fin 5
  mod : Nat
  epoch : Word
  prefer : Bool
  cycle : DWord
  close : DWord
  echo : DWord
  mirrorOk : DWord
  prep : TakePrep
  relinquish : Bool
  crcOk : Bool
deriving DecidableEq, Repr

/-- What a Girdle sensor reports (R484). -/
inductive Breach where
  | mesh | light | pressure | supply
deriving DecidableEq, Repr

/-- The SET_PASSWORD fields of an AUTH message (R489). -/
structure PwdFields where
  index : Byte
  salt : List Byte
  verifier : List Byte
  len : Byte
deriving DecidableEq, Repr

/-- What an Edivo RECORD_READ names (R441, R479): records of a stream, or bytes of a FOREIGN unit. -/
inductive EdivoRecords where
  | stream (i : Fin 64) (seq : DWord) (len : Nat)
  | foreign (k : Fin 8) (addr : DWord) (len : Nat)
deriving DecidableEq, Repr

/-- What an Edivo EXPORT names (R285, R419, R457, R479). -/
inductive Export where
  | inclusion (copyB : Bool) (page : Nat)
  | laterFault (slot : Nat)
  | history (perm : Bool) (index : Nat)
  | dataSet (ds : Word)
deriving DecidableEq, Repr


/-- The commands and events of the CW512, one constructor for each row of spec/opcode_table.json, in its order. -/
inductive Instr where
  /-- SUPPLY_START_THRESHOLD (R73): VIN has been present for 5 ms without a break, and the module leaves OFF for START. -/
  | supplyStartThreshold
  /-- VIN_ABSENCE_BEGIN (R59): VIN falls below 14.4 V, or leaves the fluctuation band, and the hold-up store begins to bridge the absence. -/
  | vinAbsenceBegin
  /-- SUPPLY_LOSS_DECLARED (R59): An absence of VIN reaches 10 ms: LOSS_SEEN is set and the energy horizon counts the supply as absent. -/
  | supplyLossDeclared
  /-- FLUCTUATION_EXPIRY (R59): VIN has stayed between 14.4 V and 16.8 V for 100 ms and is now classified absent. -/
  | fluctuationExpiry
  /-- VIN_RETURN (R59): VIN returns to present, which ends the absence or interruption and restarts deferred commits and charging. -/
  | vinReturn
  /-- PFW_ASSERT (R75): Filtered PFW_N changes level; while it is asserted and enabled, the horizon counts the supply as absent. -/
  | pfwAssert (asserted : Bool)
  /-- INTERNAL_RAIL_FAULT (R74): An internal rail stays out of its window for 10 µs: every EN and CAS_OUT is dropped and the module resets with cause INTERNAL_RAIL. -/
  | internalRailFault
  /-- INTERNAL_TEMP_MEASURE (R71): A die temperature measurement raises or clears INTERNAL_HOT or INTERNAL_OVERTEMP. -/
  | internalTempMeasure (temps : List Int)
  /-- HOLDUP_ENERGY_UPDATE (R76): Every 1 ms the module computes the usable energy of the hold-up store. -/
  | holdupEnergyUpdate (vinMv bankMv : Nat) (railsGood : Bool)
  /-- HOLDUP_CHARGE_STALLED (R81): The store has not reached 5 J after 10 s of charging, so CHARGE_STALLED is set. -/
  | holdupChargeStalled
  /-- KEY_LOAD_COMPLETE (R102): The key read and its checks end; the configuration is applied and the module enters CHECK, or it enters SAFE_HOLD with a load result code. -/
  | keyLoadComplete (ended : Marker)
  /-- SELFTEST_COMPLETE (R21): Self-test and re-plan at CHECK end, and the module enters SEQUENCE, possibly DEGRADED, or SAFE_HOLD. -/
  | selftestComplete (test : SelfTest) (m : ReplanIn)
  /-- SLOWDOWN_MEASURE (R27): Every 1 ms the canary rings are counted and the slowdown factor is recomputed. -/
  | slowdownMeasure (factor : BitVec 16)
  /-- TIME_BASE_CHECK (R32): Every 1 ms the relaxation oscillator checks the time base and sets TB_FAULT on a deviation of more than 1,000 ppm. -/
  | timeBaseCheck (ppm : Int)
  /-- MTIME_LO_READ (R35): A read of GLB_MTIME_LO captures the high word of module time into GLB_MTIME_HI. -/
  | mtimeLoRead
  /-- UTC_LO_READ (R361): A read of LNK_UTC_LO captures the high word of UTC. -/
  | utcLoRead
  /-- CYCLE_LO_READ (R361): A read of SPN_CYCLE_LO captures the high word of the cycle number. -/
  | cycleLoRead
  /-- CMD_SEQ_LO_READ (R361): A read of GLB_CMD_APPLIED_LO or GLB_CMD_ISSUED_LO captures the high word of that pair. -/
  | cmdSeqLoRead (src : Fin 64) (issued : Bool)
  /-- PTP_ANNOUNCE_RX (R475): A PTP Announce message is received and the best master clock algorithm selects the port. -/
  | ptpAnnounceRx (port : Fin 4) (a : Announce)
  /-- PTP_SYNC_RX (R475): A Sync message from the selected master gives an offset and may lead to a lock declaration. -/
  | ptpSyncRx (port : Fin 4) (offset : Int) (delay : Nat) (utc : DWord)
  /-- UTC_HOLDOVER (R36): No valid Sync arrives for 3 s and UTC enters HOLDOVER. -/
  | utcHoldover
  /-- LEAP_SECOND (R39): An announced leap second is applied to the UTC count. -/
  | leapSecond (positive : Bool)
  /-- KEY_REMOVED (R50): KEY_PRES_N breaks: during LOAD this is a missing key, elsewhere KEY_REMOVED is raised. -/
  | keyRemoved
  /-- KEY_INSERTED (R103): A key is inserted; KEY_INSERTED is raised and MISMATCH is judged. -/
  | keyInserted (key : Key)
  /-- STAGE (R105): A STAGE command erases the inactive bank and begins programming the new image. -/
  | stage (owner : Owner) (downgrade : Bool)
  /-- STAGE_WRITE_DONE (R105): Programming of the staged bank ends, the bank reads WRITTEN and verification begins. -/
  | stageWriteDone (r : StageWrite)
  /-- STAGE_VERIFY_DONE (R105): Verification of the staged bank ends with STAGED or FAILED, and the differing sections are counted. -/
  | stageVerifyDone (ended : Marker)
  /-- VERIFY (R106): The VERIFY command re-runs verification of the inactive bank without rewriting it. -/
  | verify (owner : Owner)
  /-- STAGE_ABORT (R104): The session owner's ABORT ends the staging session. -/
  | stageAbort (owner : Owner)
  /-- SWITCH (R112): The SWITCH command is judged and starts writing the pre-erased selector copy. -/
  | switch (owner : Owner)
  /-- SELECTOR_WRITE_DONE (R112): The selector copy is written: the staged bank becomes ACTIVE, RUN_SERIAL is set and PENDING_RESTART may be set. -/
  | selectorWriteDone
  /-- TAKE (R108): The TAKE command starts preparation of a set of up to 32 sections. -/
  | take (count : BitVec 6)
  /-- TAKE_PREPARED (R108): Preparation of a take set ends, and the set waits for its COMMIT or is refused. -/
  | takePrepared (ended : Marker)
  /-- RAIL_CMD_ON (R131): A host ON to a rail is taken in and judged at the next COMMIT as an on event. -/
  | railCmdOn (n : RailN)
  /-- RAIL_CMD_OFF (R131): A host OFF to a rail is taken in and judged at the next COMMIT. -/
  | railCmdOff (n : RailN)
  /-- RAIL_CMD_CLEAR (R131): A host CLEAR returns a FAULT rail with DRAINED set to OFF at COMMIT. -/
  | railCmdClear (n : RailN)
  /-- RAIL_CMD_RELEASE (R131): A host RELEASE returns a LOCKOUT rail with DRAINED set to OFF, at COMMIT or, in SAFE_HOLD, at once. -/
  | railCmdRelease (n : RailN)
  /-- RAIL_CMD_PARK (R131): A host PARK takes an OFF or LOCKOUT rail to PARKED. -/
  | railCmdPark (n : RailN)
  /-- RAIL_CMD_UNPARK (R131): A host UNPARK takes a PARKED rail to OBSERVE. -/
  | railCmdUnpark (n : RailN)
  /-- COMPARATOR_CROSSING (R236): A fixed-speed comparator output leaves or returns to INSIDE, setting edge flags and reaching the event router. -/
  | comparatorCrossing (i : Fin 320) (level : Int)
  /-- RAMP_DELAY_END (R120): RAMP_DELAY after EN expires; the ramp reference starts to rise and the lower tracking bound becomes active. -/
  | rampDelayEnd (n : RailN)
  /-- RAMP_DEADLINE (R121): A rail still in RAMP at its ramp deadline enters FAULT with SLOW_RISE. -/
  | rampDeadline (n : RailN)
  /-- PG_CHANGE (R122): The PG input of a rail changes level and starts or cancels its PG judgements. -/
  | pgChange (n : RailN) (good : Bool)
  /-- PG_DELAY_EXPIRY (R122): PG is not good by PG_DELAY after the first clean result in the UP window, so the rail faults with PG_MISMATCH. -/
  | pgDelayExpiry (n : RailN)
  /-- PG_FILTER_EXPIRY (R122): PG has been not good for PG_FILTER in UP or MARGIN (PG_MISMATCH), or good for PG_FILTER in drained OFF (PG_STUCK_GOOD). -/
  | pgFilterExpiry (n : RailN)
  /-- DISCHARGE_TIMEOUT (R125): DRAIN_TIMEOUT expires in DRAIN or FAULT, and the rail enters LOCKOUT with NO_DRAIN. -/
  | dischargeTimeout (n : RailN)
  /-- SCAN_SLOT_END (R203): A converter slot ends and the result is written with its flags and judged by its window and the rail logic. -/
  | scanSlotEnd (c : ConvN) (x : Int)
  /-- TRIM_CLIPPED (R63): A TRIM output saturates outside its compliance range, and CLIPPED is set. -/
  | trimClipped (n : RailN) (clipped : Bool)
  /-- STEP_DELAY_EXPIRY (R139): The DELAY of an eligible step expires. -/
  | stepDelayExpiry (g : GroupN) (k : Fin 32)
  /-- STEP_TIMEOUT (R154): A step's TIMEOUT expires before it is done, and the attempt fails with STEP_TIMEOUT. -/
  | stepTimeout (g : GroupN) (k : Fin 32)
  /-- CAS_IN_ACCEPTED (R143): CAS_IN has read one level for IN_FILTER coarse ticks and is accepted high or low. -/
  | casInAccepted (c : ChainN) (high : Bool)
  /-- ALLOWANCE_EXPIRY (R146): A group's downstream ALLOWANCE after the fall of CAS_OUT ends, and its rails are taken down. -/
  | allowanceExpiry (g : GroupN)
  /-- RETRY_PAUSE_END (R155): RETRY_PAUSE ends; CLEAR is issued to drained FAULT rails and the next attempt starts. -/
  | retryPauseEnd
  /-- RERUN (R158): The RERUN command lifts an exhaustion bar or restarts FAILED groups. -/
  | rerun
  /-- HOST_OFF_REQUEST (R168): A module off request through GLB_OFF_CMD is judged at COMMIT and leads to RUN_DOWN or the STABLED shut-down. -/
  | hostOffRequest
  /-- HOST_ON_REQUEST (R168): A module on request through GLB_OFF_CMD is judged at COMMIT and may return the module from RUN_DOWN to SEQUENCE. -/
  | hostOnRequest
  /-- HOST_RESTART (R83): Writing 0xA5C3 to GLB_RESTART requests a module restart, answered by R83 and R22. -/
  | hostRestart
  /-- STANDSTILL_INPUT_CHANGE (R165): STANDSTILL is asserted for 10 ms, or stops being asserted, and the standstill reading changes. -/
  | standstillInputChange (asserted : Bool)
  /-- MOTION_JUDGEMENT (R165): Every 1 ms motion is judged from the standstill input and the network speed reports. -/
  | motionJudgement
  /-- STANDSTILL_CONFIRMED (R166): Standstill has held for STANDSTILL_CONFIRM, and RUN_DOWN proceeds to steps 2–4 of R169. -/
  | standstillConfirmed
  /-- STABLED_FLUSH_END (R169): The juridical flush of step 2 of R169 ends, the commit group completes and the run-down set is shut down. -/
  | stabledFlushEnd
  /-- TOUCH_SAMPLE (R173): Every 5 ms the touch key is sampled and touches begin or end. -/
  | touchSample (count : Int)
  /-- TOUCH_FORCE_OFF (R174): A held touch reaches LONG_PRESS and issues an off request at authority level 1. -/
  | touchForceOff
  /-- TOUCH_RUNDOWN_OFF (R174): A held touch reaches 20 s and forces the run-down set off in RUN_DOWN. -/
  | touchRundownOff
  /-- TOUCH_STUCK (R178): A touch is held for 1 h; the key enters STUCK and a stuck baseline is taken. -/
  | touchStuck
  /-- TOUCH_POWERUP_RELEASE (R175): A key held at power-up is released for 2 s and returns to IDLE with a new baseline. -/
  | touchPowerupRelease
  /-- DISPLAY_PAGE_TIMEOUT (R179): After 60 s without a touch the display returns to page 0. -/
  | displayPageTimeout
  /-- MRST_PRESS (R180): The first assertion of MRST_N begins a press. -/
  | mrstPress
  /-- MRST_RELEASE (R180): Ten reads of MRST_N not asserted end a press; a press of 20 ms to 8 s asserts a host reset. -/
  | mrstRelease
  /-- MRST_RESTART_PRESS (R180): A press reaches 8 s and requests a module restart. -/
  | mrstRestartPress
  /-- MRST_STUCK (R181): A press held beyond 60 s raises MRST_STUCK and the input is ignored. -/
  | mrstStuck
  /-- MRST_HELD_END (R181): MRST_N held at START has read not asserted for 100 ms and is judged again. -/
  | mrstHeldEnd
  /-- HOST_RESET_END (R180): The 100 ms of HOST_RST_N ends; the host link retrains and a first watchdog window starts. -/
  | hostResetEnd
  /-- MARGIN_HOLD (R186): A HOLD request to a rail is judged at COMMIT and starts or retargets a margin hold. -/
  | marginHold (n : RailN) (target : BitVec 8)
  /-- MARGIN_END (R186): An END request to a rail is judged at COMMIT and ends its hold. -/
  | marginEnd (n : RailN)
  /-- MARGIN_SLEW_STEP (R187): Every 10 µs a slewing TRIM code moves by HOLD_SLEW toward its target. -/
  | marginSlewStep (n : RailN)
  /-- HOLD_EXPIRED (R187): HOLD_MAX expires, and the hold ends with MARGIN_HOLD_EXPIRED. -/
  | holdExpired (n : RailN)
  /-- PROBE_ABORT_ALL (R191): Writing ABORT_ALL ends every running probe with ABORTED_HOST. -/
  | probeAbortAll
  /-- PROBE_REQUEST (R190): Writing REQUEST marks RAIL as requested for the next probe. -/
  | probeRequest (n : RailN)
  /-- PROBE_STEP_APPLY (R193): At sample 512 of the probe snapshot the TRIM code steps to the probe code. -/
  | probeStepApply (n : RailN)
  /-- PROBE_SNAPSHOT_END (R193): The probe snapshot ends and the converter resumes its list. -/
  | probeSnapshotEnd (n : RailN) (samples : List (Option Int))
  /-- PROBE_HOLD_END (R193): PROBE_HOLD after the step, the code returns to 0 and the probe ends PROBE_DONE. -/
  | probeHoldEnd (n : RailN)
  /-- METER_BURST (R206): Every 20 µs converters 14 and 15 take the meter samples of the four sets. -/
  | meterBurst (samples : List MeterSample) (wins : List (Option MeterWin))
  /-- CALIBRATION_DUE (R217): CAL_INTERVAL has passed, and the converter starts calibrating once its start conditions hold. -/
  | calibrationDue (c : ConvN)
  /-- CALIBRATION_DONE (R216): A calibration passes, and the converter is REJOINING, or fails, and it is FAILED. -/
  | calibrationDone (c : ConvN) (gain offset : Int) (agree : Bool)
  /-- CONVERTER_OUT (R216): The OUT command takes a converter out of service while its partner covers it. -/
  | converterOut (c : ConvN)
  /-- CONVERTER_IN (R216): The IN command returns a converter from OUT through calibration. -/
  | converterIn (c : ConvN)
  /-- CONVERTER_CALIBRATE (R216): The CALIBRATE command starts a calibration. -/
  | converterCalibrate (c : ConvN)
  /-- SNAPSHOT_TRIGGER_CMD (R221): TRIGGER in SCN_SNAP_CMD fires a common trigger that never freezes the Inclusion record. -/
  | snapshotTriggerCmd
  /-- SNAPSHOT_BURST_END (R221): A common burst completes; converters resume and the Inclusion record copy may begin. -/
  | snapshotBurstEnd (samples : List (List (Option Int)))
  /-- SCN_RES_READ (R204): A read of SCN_RES captures the age stamp into SCN_RES_AGE. -/
  | scnResRead (r : Fin 1024)
  /-- SAMPLED_SAMPLING (R240): At a sampling coarse tick all sixteen sampled comparators judge their inputs. -/
  | sampledSampling (levels : List Int)
  /-- ALERT_ACCEPTED (R256): An alert input level is stable for FILTER fine ticks and is accepted, raising its source or latching. -/
  | alertAccepted (i : Fin 8) (high : Bool)
  /-- HOLDOFF_END (R254): A group's hold-off after an MSI-X write ends and the group may be assigned again. -/
  | holdoffEnd (g : Fin 32)
  /-- EVT_CLAIM (R253): A read of EVT_TGT_CLAIM claims the source assigned to the target. -/
  | evtClaim (t : TgtN)
  /-- EVT_COMPLETE (R253): A write to EVT_TGT_COMPLETE returns the source to IDLE and frees the target. -/
  | evtComplete (t : TgtN) (src : BitVec 10)
  /-- EVT_PEND_WRITE (R255): A write to EVT_PEND sets or discards pending sources bit by bit. -/
  | evtPendWrite (g : Fin 32) (w : Word)
  /-- EVT_MASK_WRITE (R250): A write to EVT_MASK replaces the masks of a group. -/
  | evtMaskWrite (g : Fin 32) (w : Word)
  /-- EVT_PRIO_WRITE (R251): A write to EVT_TGT_PRIO changes target eligibility and priority for arbitration. -/
  | evtPrioWrite (t : TgtN) (prio : BitVec 8)
  /-- GATHER_TIMEOUT (R270): 1 s after the oldest gathered write, a commit group starts. -/
  | gatherTimeout
  /-- COMMIT_GROUP_DONE (R272): A commit group's marker is programmed and DURABLE_SEQ advances. -/
  | commitGroupDone
  /-- NV_SCRUB (R264): Once per 24 h of operating time the flash array is scrubbed. -/
  | nvScrub (r : ScrubResult)
  /-- NVS_READ (R269): READ copies the newest version of a page into NVS_DATA. -/
  | nvsRead (owner : Owner)
  /-- NVS_WRITE (R268): WRITE gathers new versions of the pages it touches. -/
  | nvsWrite (owner : Owner) (len : BitVec 9)
  /-- NVS_COMMIT_NOW (R270): COMMIT_NOW starts a commit group. -/
  | nvsCommitNow (owner : Owner)
  /-- NVS_UNLOCK_READ (R274): UNLOCK_READ checks a read password and unlocks the region. -/
  | nvsUnlockRead (owner : Owner)
  /-- NVS_UNLOCK_WRITE (R274): UNLOCK_WRITE checks a write password and unlocks the region. -/
  | nvsUnlockWrite (owner : Owner)
  /-- NVS_UNLOCK_CLEAR (R274): UNLOCK_CLEAR checks the clear password. -/
  | nvsUnlockClear (owner : Owner)
  /-- NVS_LOCK (R274): LOCK ends the owner's unlock. -/
  | nvsLock (owner : Owner)
  /-- NVS_READ_INC (R285): READ_INC copies a page of the Inclusion record into NVS_DATA. -/
  | nvsReadInc (owner : Owner)
  /-- NVS_READ_LFL (R285): READ_LFL copies a later-fault entry into NVS_DATA. -/
  | nvsReadLfl (owner : Owner)
  /-- NVS_CLEAR (R286): CLEAR of a scope is authenticated, makes a juridical entry and starts a commit. -/
  | nvsClear (owner : Owner) (scope : BitVec 3) (force : Bool) (n : RailN)
  /-- PASSWORD_LOCKOUT_EXPIRY (R275): A password lockout ends and checks are made again. -/
  | passwordLockoutExpiry (i : Fin 35)
  /-- INCLUSION_COPY_A_DONE (R279): Copy A of the Inclusion record is complete and copy B is written. -/
  | inclusionCopyADone
  /-- INCLUSION_COPY_B_DONE (R279): Copy B is complete; the record is FROZEN and the snapshot buffer is released. -/
  | inclusionCopyBDone
  /-- INCLUSION_CLEAR_DONE (R278): Both copies are erased and the record returns to ARMED. -/
  | inclusionClearDone
  /-- SEAL_DONE (R282): The seal page is programmed at step 3 of LAST_GASP. -/
  | sealDone
  /-- LAST_GASP_FLUSH_END (R88): The juridical buffer is empty or 70 ms have passed, and step 2 begins. -/
  | lastGaspFlushEnd
  /-- LAST_GASP_DROP_STEP (R89): After the 10 µs spacing the next step of the reverse drop deasserts its EN. -/
  | lastGaspDropStep
  /-- WAKE_TIMER_EXPIRY (R85): TIMER_MIN minutes after entry to STABLED the wake timer wakes the module. -/
  | wakeTimerExpiry
  /-- CLOSING_TICK (R291): The closing tick of a cycle is reached and COMMIT starts if EXECUTE has ended. -/
  | closingTick
  /-- INPUT_FREEZE (R291): At the first fine tick after COMMIT the input image is taken and cyclic programs start. -/
  | inputFreeze
  /-- LD (R301): BA takes the operand bit. -/
  | iLd (l : LPairN)
  /-- LDN (R301): BA takes the inverse of the operand bit. -/
  | iLdn (l : LPairN)
  /-- AND (R301): BA is ANDed with the operand bit. -/
  | iAnd (l : LPairN)
  /-- ANDN (R301): BA is ANDed with the inverse of the operand bit. -/
  | iAndn (l : LPairN)
  /-- OR (R301): BA is ORed with the operand bit. -/
  | iOr (l : LPairN)
  /-- ORN (R301): BA is ORed with the inverse of the operand bit. -/
  | iOrn (l : LPairN)
  /-- XOR (R301): BA is XORed with the operand bit. -/
  | iXor (l : LPairN)
  /-- ST (R301): The operand bit takes BA. -/
  | iSt (l : LPairN)
  /-- SET (R301): If BA, the operand bit is set. -/
  | iSet (l : LPairN)
  /-- RST (R301): If BA, the operand bit is cleared. -/
  | iRst (l : LPairN)
  /-- NOT (R301): BA is inverted. -/
  | iNot (l : LPairN)
  /-- BPUSH (R301): BA is pushed on the bit stack. -/
  | iBpush (l : LPairN)
  /-- BPOPAND (R301): BA is ANDed with the popped bit. -/
  | iBpopand (l : LPairN)
  /-- BPOPOR (R301): BA is ORed with the popped bit. -/
  | iBpopor (l : LPairN)
  /-- RE (R301): Rising-edge detection against a memory bit. -/
  | iRe (l : LPairN)
  /-- FE (R301): Falling-edge detection against a memory bit. -/
  | iFe (l : LPairN)
  /-- TON (R302): On-delay timer evaluated against reference time T. -/
  | iTon (l : LPairN)
  /-- TOF (R302): Off-delay timer evaluated against reference time T. -/
  | iTof (l : LPairN)
  /-- TP (R302): Pulse timer evaluated against reference time T. -/
  | iTp (l : LPairN)
  /-- CTU (R303): Up counter on rising BA, compared with ACC. -/
  | iCtu (l : LPairN)
  /-- CTD (R303): Down counter on rising BA, compared with 0. -/
  | iCtd (l : LPairN)
  /-- CRST (R301): If BA, the counter is set to 0. -/
  | iCrst (l : LPairN)
  /-- LDW (R301): ACC takes the operand word. -/
  | iLdw (l : LPairN)
  /-- LDI (R301): ACC takes the sign-extended immediate. -/
  | iLdi (l : LPairN)
  /-- LDIH (R301): ACC bits 31:16 take the immediate. -/
  | iLdih (l : LPairN)
  /-- STW (R301): The operand word takes ACC. -/
  | iStw (l : LPairN)
  /-- ADD (R301): Saturating addition of the operand to ACC. -/
  | iAdd (l : LPairN)
  /-- SUB (R301): Saturating subtraction of the operand from ACC. -/
  | iSub (l : LPairN)
  /-- MUL (R301): Saturating multiplication of ACC by the operand. -/
  | iMul (l : LPairN)
  /-- DIV (R301): Saturating division of ACC by the operand, truncated toward zero. -/
  | iDiv (l : LPairN)
  /-- ANDW (R301): Bitwise AND of ACC with the operand word. -/
  | iAndw (l : LPairN)
  /-- ORW (R301): Bitwise OR of ACC with the operand word. -/
  | iOrw (l : LPairN)
  /-- XORW (R301): Bitwise XOR of ACC with the operand word. -/
  | iXorw (l : LPairN)
  /-- SHL (R301): ACC is shifted left. -/
  | iShl (l : LPairN)
  /-- SHR (R301): ACC is shifted right with the sign kept. -/
  | iShr (l : LPairN)
  /-- MOVA (R301): Wn takes ACC. -/
  | iMova (l : LPairN)
  /-- MOVW (R301): ACC takes Wn. -/
  | iMovw (l : LPairN)
  /-- ADDI (R301): Saturating addition of the immediate to ACC. -/
  | iAddi (l : LPairN)
  /-- CMPEQ (R301): BA takes ACC equal to the operand word. -/
  | iCmpeq (l : LPairN)
  /-- CMPNE (R301): BA takes ACC not equal to the operand word. -/
  | iCmpne (l : LPairN)
  /-- CMPGT (R301): BA takes ACC greater than the operand word. -/
  | iCmpgt (l : LPairN)
  /-- CMPLT (R301): BA takes ACC less than the operand word. -/
  | iCmplt (l : LPairN)
  /-- LIM (R301): ACC is limited between two registers. -/
  | iLim (l : LPairN)
  /-- SCALE (R301): ACC is scaled with a 64-bit intermediate. -/
  | iScale (l : LPairN)
  /-- ABS (R301): ACC takes its saturating absolute value. -/
  | iAbs (l : LPairN)
  /-- RESC (R301): ACC takes a result value from IN and BA whether it is clean. -/
  | iResc (l : LPairN)
  /-- RAIL (R304): If BA, a rail command is merged into the rail slot of the output image. -/
  | iRail (l : LPairN)
  /-- MRG (R304): If BA, a margin request is merged into the rail slot. -/
  | iMrg (l : LPairN)
  /-- EVT (R305): If BA, an owned program event is marked for COMMIT. -/
  | iEvt (l : LPairN)
  /-- SIGSYNC (R306): If BA, the store buffer is drained and the sync object is signalled. -/
  | iSigsync (l : LPairN)
  /-- WAITSYNC (R306): The bead ends and the program waits for the sync object. -/
  | iWaitsync (l : LPairN)
  /-- LOCK (R306): The program tries to acquire a hardware lock without waiting. -/
  | iLock (l : LPairN)
  /-- UNLOCK (R306): The store buffer is drained and a hardware lock is released. -/
  | iUnlock (l : LPairN)
  /-- JMP (R307): Forward jump within the bead. -/
  | iJmp (l : LPairN)
  /-- JC (R307): Forward jump if BA. -/
  | iJc (l : LPairN)
  /-- JNC (R307): Forward jump if not BA. -/
  | iJnc (l : LPairN)
  /-- LOOP (R301): Wn is decremented and the program jumps back while the counts allow. -/
  | iLoop (l : LPairN)
  /-- CALL (R307): A subroutine of the program is called. -/
  | iCall (l : LPairN)
  /-- RET (R307): Return from a subroutine. -/
  | iRet (l : LPairN)
  /-- BEND (R317): The bead ends with a checkpoint after the bead-end comparison. -/
  | iBend (l : LPairN)
  /-- PEND (R313): The bead and the run end; a task completes its item. -/
  | iPend (l : LPairN)
  /-- NOP (R301): No operation. -/
  | iNop (l : LPairN)
  /-- PROGRAM_RESTART (R313): RESTART in SPN_PROG_CMD returns a STOPPED program to INACTIVE. -/
  | programRestart (n : ProgN)
  /-- PROGRAM_STOP (R313): STOP in SPN_PROG_CMD stops a program at its next INACTIVE or DONE. -/
  | programStop (n : ProgN)
  /-- MISMATCH (R319): The lockstep comparator declares a mismatch; the pair stops and is retired. -/
  | mismatch (q : PPairN) (kind : MKind) (ckOk : Bool)
  /-- REPLAY_END (R322): The replayed bead ends; the journal is reconciled and divergence is judged. -/
  | replayEnd (l : LPairN)
  /-- PAIR_SELFTEST (R328): The SELFTEST command starts the self-test of a RETIRED pair. -/
  | pairSelftest (q : PPairN)
  /-- PAIR_INJECT (R331): The INJECT command forces a mismatch at an ACTIVE pair's next store. -/
  | pairInject (q : PPairN)
  /-- PAIR_SELFTEST_START (R328): The first HOUSEKEEP at least 1 s after retirement starts the pair's self-test. -/
  | pairSelftestStart (q : PPairN)
  /-- PAIR_SELFTEST_DONE (R329): A pair's self-test passes, and it shadows, or fails. -/
  | pairSelftestDone (q : PPairN) (pass : Bool)
  /-- PAIR_SHADOW_DONE (R329): A full shadowed cycle without disagreement makes the pair SPARE. -/
  | pairShadowDone (q : PPairN) (agree : Bool)
  /-- SPARE_SELFCHECK_FAIL (R328): The spare's background self-check fails and it is retired. -/
  | spareSelfcheckFail (q : PPairN)
  /-- LEVEL_RECOMPUTE (R336): Every 1 ms the Headstock recomputes the horizon, the target level, tokens and thermal allowances. -/
  | levelRecompute (due : Marker) (pMod : Nat)
  /-- BATTERY_WRITE (R338): A write to HDS_BATTERY reports a battery allocation valid for BATT_TIMEOUT_MS. -/
  | batteryWrite (joules : Word)
  /-- BATTERY_TIMEOUT (R338): The allocation lapses; E_batt becomes 0 and BATT_STALE is set. -/
  | batteryTimeout
  /-- QUEUE_PUSH (R344): A PUSH doorbell queues a spindle task item or advances a host ring tail. -/
  | queuePush (q : QueueN) (w : Word)
  /-- QUEUE_COMPLETE (R345): A COMPLETE doorbell completes a dispatched host item. -/
  | queueComplete (q : QueueN) (index : BitVec 16) (aborted : Bool)
  /-- QUEUE_CANCEL (R355): A CANCEL doorbell cancels a queued item or requests an abort. -/
  | queueCancel (q : QueueN) (index : BitVec 16)
  /-- QUEUE_FLUSH (R345): FLUSH in HDS_Q_CTL cancels every QUEUED item of the selected queue. -/
  | queueFlush
  /-- DESCRIPTOR_READ_DONE (R344): The read of a head host descriptor completes and the queue becomes READY. -/
  | descriptorReadDone (q : QueueN) (est : Word)
  /-- DISPATCH_ROUND (R347): A dispatch round judges the ready queues and dispatches at most one item. -/
  | dispatchRound
  /-- DOMAIN_IDLE_TIMEOUT (R353): A host domain idle for IDLE_DOWN_MS is requested down. -/
  | domainIdleTimeout (d : Fin 16)
  /-- LCK_ACQUIRE (R369): A host target tries to acquire a hardware lock. -/
  | lckAcquire (t : TgtN) (o : Fin 1024)
  /-- LCK_RELEASE (R369): A host target releases a lock. -/
  | lckRelease (t : TgtN) (o : Fin 1024)
  /-- LCK_RELEASE_CLEAR_POISON (R369): A host target releases a lock and clears POISONED. -/
  | lckReleaseClearPoison (t : TgtN) (o : Fin 1024)
  /-- SYNC_SIGNAL (R372): A host target signals a sync object. -/
  | syncSignal (t : TgtN) (o : Fin 1024)
  /-- SYNC_WAIT (R373): A host target registers a wait on a sync object. -/
  | syncWait (t : TgtN) (o : Fin 1024) (notify : Fin 32) (prio : BitVec 8)
  /-- SYNC_CANCEL_WAIT (R373): A host target cancels its registered wait. -/
  | syncCancelWait (t : TgtN)
  /-- RESET_EPOCH (R368): A host target raises its epoch and orphans its locks. -/
  | resetEpoch (t : TgtN)
  /-- SYNC_TIMER_SIGNAL (R372): A TIMER sync object is signalled every TIMER_US coarse ticks. -/
  | syncTimerSignal (o : Fin 1024)
  /-- BAR_ACCESS_ERROR (R362): An unaligned, oversize, narrow or unmapped access is dropped or aborted and recorded in GLB_ACCESS_ERR. -/
  | barAccessError (bar : Fin 3) (offset bytes : Nat) (write : Bool)
  /-- REGISTER_WRITE (R360): A write to a register without behaviour of its own updates RW fields, clears W1C bits or is ignored. -/
  | registerWrite (bar2 : Bool) (offset : Nat) (lanes : BitVec 4) (data : Word)
  /-- HEARTBEAT_SEND (R380): Every 8 µs a heartbeat is sent on each up tailstock link. -/
  | heartbeatSend
  /-- HEARTBEAT_RX (R380): A heartbeat from the partner is received and arbitration and role changes are judged. -/
  | heartbeatRx (link : Fin 2) (b : Heartbeat)
  /-- PARTNER_LOSS (R381): 24 µs without a valid heartbeat on either link declares partner loss. -/
  | partnerLoss
  /-- TAILSTOCK_LINK_LOSS (R381): One tailstock link stops carrying valid heartbeats and is reported down. -/
  | tailstockLinkLoss (link : Fin 2)
  /-- SEEK_TIMEOUT (R378): SEEK_MS passes without an eligible partner and the module becomes PRIMARY. -/
  | seekTimeout
  /-- MIRROR_RX (R382): A complete mirror with a good CRC is received on a tailstock link. -/
  | mirrorRx (m : Mirror)
  /-- HANDOVER (R378): HANDOVER in HSB_CMD makes a PRIMARY relinquish at the next COMMIT. -/
  | handover
  /-- PARTNER_COMMAND (R386): A write to HSB_PCMD queues a partner command for the next mirror. -/
  | partnerCommand (n : RailN) (code : BitVec 4)
  /-- FIELD_SAMPLE (R395): A group's sampling pulse reads its inputs and advances the debounce counts. -/
  | fieldSample (g : Fin 8) (contacts : BitVec 16) (current : Nat)
  /-- SILENT_LOGIC_EXPIRY (R399): An output point's timer expires and the point takes its SAFE value. -/
  | silentLogicExpiry (p : PointN)
  /-- GROUP_SUPPLY_LOST (R394): L+ below 18 V for 1 ms switches the group's outputs off and its inputs to 0. -/
  | groupSupplyLost (g : Fin 8)
  /-- GROUP_SUPPLY_RETURNED (R394): L+ at 18.5 V or more for 10 ms returns the group supply. -/
  | groupSupplyReturned (g : Fin 8)
  /-- GROUP_OVERLOAD (R401): Group current above 2.5 A for 1 ms latches the group off. -/
  | groupOverload (g : Fin 8)
  /-- POINT_OVERLOAD (R400): A point enters current limit or thermal shutdown. -/
  | pointOverload (p : PointN) (thermal : Bool)
  /-- POINT_OVERLOAD_CLEAR (R400): A point conducts 0.25 A or less for 10 ms and POINT_OVL clears. -/
  | pointOverloadClear (p : PointN)
  /-- FIELD_GROUP_RESET (R401): RESET in FIO_GROUP_CMD clears a group overload latch. -/
  | fieldGroupReset (g : Fin 8)
  /-- LINE_JUDGEMENT (R410): Every 1 ms each LINE_SENSE set judges its voltage and line loss is declared. -/
  | lineJudgement (levels : List Nat)
  /-- SYSTEM_CLASSIFY (R411): A 100 ms window, repeated every 10 ms, classifies the supply system. -/
  | systemClassify (wins : List LineWin)
  /-- DATA_SET_SIGNED (R419): A data set is signed, stored in the METER region and handed to the meter stream. -/
  | dataSetSigned
  /-- METER_DS_SELECT (R418): A write to MTR_DS_SEL loads a stored data set into MTR_DS_DATA. -/
  | meterDsSelect (ds : Word)
  /-- STREAM_TAIL_WRITE (R437): A write to REC_STR_TAIL gives the engine new host descriptors to read. -/
  | streamTailWrite (i : Fin 64) (tail : BitVec 16)
  /-- BLOCK_WRITE (R433): A full or 100 ms old 4 KiB block, or a SYNC record, is written to a unit. -/
  | blockWrite (i : Fin 64)
  /-- UNIT_FLUSH (R433): Every 100 ms a Flush is issued to each unit. -/
  | unitFlush (writeMbs inMbs : Nat)
  /-- UNIT_WRITE_DONE (R433): A write or flush on a unit completes and DURABLE_SEQ advances. -/
  | unitWriteDone (k : Fin 8) (flush : Bool)
  /-- UNIT_PRESENT (R438): PRSNT_N asserted for 100 ms starts training of the unit. -/
  | unitPresent (k : Fin 8)
  /-- UNIT_CONTROLLER_READY (R438): A trained unit's controller is ready and verification begins. -/
  | unitControllerReady (k : Fin 8) (met : Bool) (chunks wearPct : Nat)
  /-- UNIT_TRAINING_TIMEOUT (R438): No ready controller 1 s after PERST_N release: the unit is FAILED. -/
  | unitTrainingTimeout (k : Fin 8)
  /-- UNIT_VERIFY_DONE (R438): Verification puts the unit IN_SERVICE, BLANK, FOREIGN or FAILED. -/
  | unitVerifyDone (k : Fin 8) (r : UnitCheck)
  /-- UNIT_SHUTDOWN_DONE (R438): A releasing unit is durable and shut down, so it becomes REMOVABLE. -/
  | unitShutdownDone (k : Fin 8)
  /-- UNIT_REMOVED (R438): PRSNT_N is released; the unit becomes ABSENT and unwritten records are rewritten. -/
  | unitRemoved (k : Fin 8)
  /-- STORAGE_LINK_DOWN (R440): A unit's link drops and is retrained for up to 1 s. -/
  | storageLinkDown (k : Fin 8)
  /-- UNIT_WRITE_ERROR (R440): A write error or 1 s of lost link fails the unit and rewrites its records elsewhere. -/
  | unitWriteError (k : Fin 8) (linkLost : Bool)
  /-- UNIT_RELEASE (R438): RELEASE in REC_UNIT_CMD takes a unit out of service. -/
  | unitRelease (k : Fin 8) (force : Bool)
  /-- UNIT_ADMIT (R438): ADMIT cycles PERST_N of a FAILED unit. -/
  | unitAdmit (k : Fin 8)
  /-- UNIT_FORMAT (R438): FORMAT writes a label and an empty chunk table to a unit. -/
  | unitFormat (k : Fin 8) (force : Bool)
  /-- RECORD_READ (R441): READ in REC_RD_CMD copies records of a stream into host memory. -/
  | recordRead (i : Fin 64)
  /-- RECORD_READ_ABORT (R441): ABORT in REC_RD_CMD stops a running readback. -/
  | recordReadAbort
  /-- RECORD_READ_DONE (R441): A readback ends with its answer. -/
  | recordReadDone (hostError : Bool) (damaged : Option Nat)
  /-- REPLAN_DUE (R444): 500 operating hours since the last re-plan start a re-plan. -/
  | replanDue
  /-- REPLAN (R444): REPLAN in AGE_CMD starts a re-plan. -/
  | replan
  /-- REPLAN_END (R444): A re-plan ends and its results are set to take effect. -/
  | replanEnd (m : ReplanIn)
  /-- CORE_OFFSET_STEP (R445): Every 1 ms a raised core voltage offset moves by 5 mV. -/
  | coreOffsetStep
  /-- HOLDUP_TEST_START (R449): The hold-up test discharge starts once its conditions hold. -/
  | holdupTestStart
  /-- HOLDUP_TEST_END (R449): The 100 ms test discharge ends with capacitance and ESR, or is abandoned. -/
  | holdupTestEnd (dv step : Nat)
  /-- REFERENCE_CHECK (R447): Every 1 s the internal references are compared and outvoted or rejoined. -/
  | referenceCheck (ab bc ca : Int)
  /-- CELL_CHECK (R443): Every 1 h the secret-store cell voltage is measured. -/
  | cellCheck (mv : Nat)
  /-- LOAD_ESTIMATE_SAMPLE (R451): Every 1 s the rack load is measured against the key's prediction. -/
  | loadEstimateSample (due : Marker)
  /-- AGE_HIST_SELECT (R457): A write to AGE_HIST_SEL loads a history record into AGE_HIST_DATA. -/
  | ageHistSelect (sel : BitVec 13)
  /-- HOST_WDG_SERVICE (R460): A write to WDG_HOST_SVC services the host watchdog or expires it EARLY. -/
  | hostWdgService (w : Word)
  /-- HOST_WDG_EXPIRY (R461): The close time passes without service; the expiry ACTION is performed. -/
  | hostWdgExpiry
  /-- SPINDLE_WDG_EXPIRY (R462): A bead runs beyond SPN_TIMEOUT_US and the pair is retired. -/
  | spindleWdgExpiry (q : PPairN)
  /-- WDG_DISABLE_ARM (R463): Writing 0x1ACF to WDG_DISABLE arms the disable sequence. -/
  | wdgDisableArm (owner : Owner)
  /-- WDG_DISABLE_CONFIRM (R463): Writing 0xE532 within 1 ms disables the named watchdogs or is refused. -/
  | wdgDisableConfirm (owner : Owner) (which : BitVec 2)
  /-- PERST_ASSERT (R468): PERST_N is asserted, resetting the host-facing state and taking the link down. -/
  | perstAssert
  /-- HOST_FUNCTION_RESET (R468): A Hot Reset or Function Level Reset resets the host-facing state. -/
  | hostFunctionReset
  /-- HOST_LINK_DOWN (R469): The host link is lost at the Data Link Layer and retraining begins. -/
  | hostLinkDown
  /-- HOST_LINK_UP (R469): The host link comes up, LINK_RECOVERED is raised and assignments are reconciled. -/
  | hostLinkUp (width rate : Nat)
  /-- NET_OFF_REQUEST (R473): A TRDP MD off request is judged at the next COMMIT as source 4. -/
  | netOffRequest
  /-- NET_ON_REQUEST (R473): A TRDP MD on request is judged at the next COMMIT. -/
  | netOnRequest
  /-- NET_RAIL_COMMAND (R473): A TRDP MD rail command is judged at the next COMMIT at level 5. -/
  | netRailCommand (n : RailN) (code : BitVec 8)
  /-- SPEED_REPORT_RX (R472): A vehicle speed telegram is received and judged for validity. -/
  | speedReportRx (port : Fin 4) (data : List Byte)
  /-- LOCATION_RX (R472): A location telegram is received and stored if valid. -/
  | locationRx (port : Fin 4) (data : List Byte)
  /-- STATUS_TELEGRAM (R474): Every 100 ms a PRIMARY or DISABLED module publishes its status telegram. -/
  | statusTelegram
  /-- WAKE_FRAME_RX (R476): A wake frame on an enabled port in STABLED wakes the module. -/
  | wakeFrameRx (port : Fin 4) (payload : List Byte)
  /-- EDIVO_HELLO (R479): HELLO returns serial, revision, RUN_SERIAL and session level. -/
  | edivoHello (n : Fin 4)
  /-- EDIVO_READ (R479): READ returns BAR0 registers or BAR2 bytes. -/
  | edivoRead (n : Fin 4) (bar2 : Bool) (offset count : Nat)
  /-- EDIVO_COMMAND (R479): COMMAND makes one write to a session copy of a command register. -/
  | edivoCommand (n : Fin 4) (offset : Nat) (data : Word)
  /-- EDIVO_STAGE_DATA (R479): STAGE_DATA delivers the next part of a staged image. -/
  | edivoStageData (n : Fin 4) (data : List Byte)
  /-- EDIVO_RECORD_READ (R479): RECORD_READ returns records of a stream or a FOREIGN unit. -/
  | edivoRecordRead (n : Fin 4) (what : EdivoRecords)
  /-- EDIVO_EXPORT (R479): EXPORT returns Inclusion pages, later-fault entries, history records or meter data sets. -/
  | edivoExport (n : Fin 4) (what : Export)
  /-- EDIVO_TEST_MODE (R480): TEST_MODE enters or leaves maintenance test mode. -/
  | edivoTestMode (n : Fin 4) (enter : Bool)
  /-- EDIVO_BYE (R479): BYE ends the session. -/
  | edivoBye (n : Fin 4)
  /-- EDIVO_SESSION_CLOSE (R477): A session ends on TCP close, releasing its unlocks and aborting its staging. -/
  | edivoSessionClose (n : Fin 4)
  /-- EDIVO_SESSION_TIMEOUT (R477): A session silent for SESSION_TIMEOUT_S ends. -/
  | edivoSessionTimeout (n : Fin 4)
  /-- CHALLENGE (R487): AUTH CHALLENGE returns a nonce and the password's salt. -/
  | challenge (n : Fin 4) (index : Byte)
  /-- LOGIN (R489): AUTH LOGIN checks a proof and raises the session level. -/
  | login (n : Fin 4) (index : Byte) (proof : List Byte)
  /-- SET_PASSWORD (R489): AUTH SET_PASSWORD stores a new verifier. -/
  | setPassword (n : Fin 4) (p : PwdFields)
  /-- PROVISION (R490): AUTH PROVISION waits for a presence touch and then provisions the module. -/
  | provision (n : Fin 4) (key : List Byte) (p : List PwdFields)
  /-- PRESENCE_TIMEOUT (R490): No short touch arrives within 30 s, and the operation is answered NO_PRESENCE. -/
  | presenceTimeout
  /-- REKEY (R491): AUTH REKEY replaces the customer key after checking its signature. -/
  | rekey (n : Fin 4) (key : List Byte) (sig : List Byte)
  /-- RELEASE_FOR_RETURN (R492): RELEASE_FOR_RETURN from Edivo or SEC_CMD erases the secrets and user regions and restarts the module. -/
  | releaseForReturn (owner : Owner) (force : Bool)
  /-- RELEASE_DONE (R492): The steps of a release end and the module restarts into UNPROVISIONED. -/
  | releaseDone
  /-- LOGOUT (R489): AUTH LOGOUT returns the session to VIEW. -/
  | logout (n : Fin 4)
  /-- MAKER (R494): AUTH MAKER verifies a Koraltus token and sets FACTORY. -/
  | maker (n : Fin 4) (token : List Byte)
  /-- GIRDLE_BREACH (R484): A Girdle breach erases the wrapping key and the wrapped area and sets BREACHED. -/
  | girdleBreach (cause : Breach)
  /-- CAL_OVERDUE (R217): A calibration has waited more than CAL_INTERVAL beyond its due time, so CAL_OVERDUE is raised once for that due time. -/
  | calOverdue (c : ConvN)
  /-- MSIX_MASK_CHANGE (R251): Host software enables MSI-X or clears the function mask in configuration space, or unmasks a vector in the BAR4 MSI-X table. The target becomes eligible and an arbitration pass runs. -/
  | msixMaskChange (en fnMask : Bool) (vecMask : BitVec 64)
  /-- STORAGE_LINK_RECOVERED (R440): A storage link that dropped retrains within 1 s, and the writes that were in flight are reissued to the same addresses. -/
  | storageLinkRecovered (k : Fin 8)
  /-- STREAM_PAYLOAD_ADMITTED (R437): The engine's read of a host stream payload from host memory completes. The record is admitted to the buffer and takes its SEQ, and HEAD passes the descriptor. -/
  | streamPayloadAdmitted (i : Fin 64) (len : Word) (typ : Byte) (sync : Bool) (payload : List Byte)
  /-- PTP_MASTER_LOSS (R475): The selected port loses its qualified master, and the best qualified port is selected at once. -/
  | ptpMasterLoss (port : Fin 4)
  /-- NET_LINK_CHANGE (R481): A train network port or the maintenance port links or loses its link, which raises the port's source and, under TB_FAULT, enters the later-fault list. -/
  | netLinkChange (port : Fin 5) (isUp g1000 : Bool)
  /-- EDIVO_SESSION_OPEN (R477): A TCP connection to the Edivo port opens a session at level VIEW, up to 4 at once. -/
  | edivoSessionOpen
  /-- EDIVO_BAD_FRAME (R478): An Edivo message arrives with a wrong MAGIC, VERSION or CRC; it is answered BAD_FRAME and otherwise ignored. -/
  | edivoBadFrame (n : Fin 4)
deriving DecidableEq, Repr

end Sys2Proof
end

