-- ==== Sys2Proof/Machine/State.lean ====
section
/-!
DEFINITION. The machine's state as plain data: every register, buffer, queue, counter, mode and pin that the spec
gives the CW512, and State.reset. Register fields that the manual numbers inside a word are held as the value
they code; Machine/Registers.lean gives each register's word (R11-R13, R497-R499).
-/
namespace Sys2Proof.Machine
open Sys2Proof

/-- The module states (R18). -/
inductive ModSt where
  | off | stabled | start | load | check | sequence | run | runDown | lastGasp | safeHold | unprovisioned
deriving DecidableEq, Repr

/-- The energy plan levels (R14). -/
inductive Level where
  | normal | lean | coast | reserve | lastGasp
deriving DecidableEq, Repr

/-- The rail states (R124). -/
inductive RailSt where
  | off | wait | ramp | up | margin | drain | fault | lockout | observe | parked
deriving DecidableEq, Repr

/-- The rail fault causes (R14, R128). -/
inductive Cause where
  | uv | ov | oc | slowRise | fastRise | pgMismatch | noDrain
deriving DecidableEq, Repr

/-- Every answer that an ANSWER field of the module gives; each register codes its own subset. -/
inductive Ans where
  | none | accepted | noChange | pending | held | contradicted
  | refusedDrain | refusedFault | refusedLockout | refusedObserve | refusedParked | refusedState
  | refusedMoving | refusedRail | refusedTrim | refusedRange | clipped
  | refusedPartner | refusedBusy | refusedPassword | wrongPassword | lockedOut | noSecret
  | bufferFull | notExported | stale | uncommitted | damaged
  | refusedLevel | tooShort | badSignature | notStreamed | noPresence
  | busy | signalled | notSignaller | refusedLock | acquired | poisoned | notOwner | done | orphaned | deadlock | cancelled | linkDown
  | taken | unchanged | refusedClass | refusedDependency | refusedKey | refusedAbsent | refusedLate | refusedSet
  | abandoned | hostWriteError | hostReadError | aborted | queued
  | discarded | notFound | refusedSupply | found | refusedJuridical | truncated | refusedNoSpare
deriving DecidableEq, Repr

/-- The sources of commands that are judged at COMMIT (R363), and of the requests that act at once. -/
inductive Src where
  | host | edivo | network | partner | program (n : ProgN) | touch | mrst | plan
deriving DecidableEq, Repr

/-- Module state, outputs and reset bookkeeping (R18-R23, R71, R74, R82-R90).
`resetCause` and `wakeSrc` are coded as in GLB_RESET_CAUSE. `lgStep` is the last-gasp step running, 0 for none; `lgFlushDone`, `lgCommitDone`, `lgSealDone`
and `lgMib` are what GLB_RESET_CAUSE shows of the newest seal page at the last START (R282).
`railResets` are the times of the INTERNAL_RAIL resets (R74); `wokeAt` is the coarse tick in which a wake source ended STABLED (R85).
`loaded` says that a LOAD succeeded since the module left OFF, `loadOk` since the last START (R86, R126). -/
structure Glb where
  st : ModSt := .off
  level : Level := .normal
  fault : Bool := false
  ready : Bool := false
  degraded : Bool := false
  resetCause : Nat := 0
  wakeSrc : Nat := 0
  restartAns : Ans := .none
  wakeEn : BitVec 7 := 0
  timerMin : BitVec 16 := 0
  hot : Bool := false
  overtemp : Bool := false
  heldOff : Option Src := none
  restart : Option Src := none
  lgStep : Nat := 0
  lgFlushOk : Bool := false
  lgCommitOk : Bool := false
  lgUnflushed : Nat := 0
  lgFlushDone : Bool := false
  lgCommitDone : Bool := false
  lgSealDone : Bool := false
  lgMib : Nat := 0
  wakeLatch : Option Nat := none
  wokeAt : Option Nat := none
  loaded : Bool := false
  loadOk : Bool := false
  dieTemp : Int := 0
  temps : List Int := List.replicate 6 0
  railResets : List Ns := []
deriving DecidableEq, Repr

/-- Module time, its snapshots, and UTC (R32-R39, R361). `utcQual`: 0 INVALID, 1 LOCKED, 2 HOLDOVER.
`slewLeft` is the signed rest of a slew in ns; `stepDue` a step in ns that waits for the next coarse tick (R37); `leapDue` an
announced leap second, true for a positive one, that waits for its place in the day; `leapLeft` the rest of a positive leap second in ns;
`leapLast` and `stepped` are the W1C bits; `holdSince` the entry to HOLDOVER. -/
structure TimeSt where
  mtime : DWord := 0
  mtimeHi : Word := 0
  tbFault : Bool := false
  tbSeen : Bool := false
  utc : DWord := 0
  utcHi : Word := 0
  utcQual : Nat := 0
  slewLeft : Int := 0
  stepDue : Option Int := none
  leapDue : Option Bool := none
  stepped : Bool := false
  leapLast : Bool := false
  leapLeft : Nat := 0
  holdSince : Ns := 0
deriving DecidableEq, Repr

/-- Module supply and hold-up store (R59, R73-R81). `pfwPin` is PFW_N asserted after its filter;
`lossDeclared` says that the present absence has reached 10 ms. -/
structure Supply where
  vinMv : Nat := 0
  present : Bool := false
  lossDeclared : Bool := false
  pfwPin : Bool := false
  pfwAssertedInStabled : Bool := false
  lossSeen : Bool := false
  interruptionSeen : Bool := false
  bankMv : Nat := 0
  usableMj : Nat := 0
  railsGood : Bool := false
  stalled : Bool := false
  monitorDisagree : Bool := false
deriving DecidableEq, Repr

/-- What is kept of a rail in the non-volatile store: RSQ_RAIL_CAUSE, probe results and loop health
(R128, R197, R198). `zetaSum` is the running sum of the baseline dampings, `healthSet` says that a HEALTH has been computed, `lastValidNs` is the operating time in ns of
the last valid probe since the entry landed. -/
structure RailKept where
  seen : BitVec 7 := 0
  count : Nat := 0
  settle : Nat := 0
  overshoot : Nat := 0
  damping : Nat := 0
  valid : Bool := false
  notSettled : Bool := false
  gainMismatch : Bool := false
  health : Nat := 0
  baseCount : Nat := 0
  zetaSum : Nat := 0
  healthSet : Bool := false
  lastValidNs : Option Nat := none
deriving DecidableEq, Repr

/-- Why a margin hold or probe ended (RSQ_MARGIN_STAT.END_REASON). -/
inductive EndReason where
  | none | endCmd | holdExpired | marginOut | railLeft | moduleState | probeDone | level | groupRamp
  | snapshotPreempted | clipped | converter | preemptedByHold | abortedHost
deriving DecidableEq, Repr

/-- What a rail in MARGIN does: MODE of RSQ_MARGIN_STAT. -/
inductive MarginMode where
  | none | hold | probe | ret
deriving DecidableEq, Repr

/-- The margin state of a rail (R183-R195). `code` is the TRIM code in force, `target` the code slewed to,
`offset` the hold's target in 0.1 %; `zeroSince` marks a return whose code already read 0 before the last
conversion; `probeCode` is the step code of a running probe, `stepped` whether it has been applied,
`snapping` whether the probe snapshot still runs;
`skip` that the slot running when the code reached 0 measures this rail (R195). -/
structure Margin where
  mode : MarginMode := .none
  code : Int := 0
  target : Int := 0
  offset : Int := 0
  clipped : Bool := false
  answer : Ans := .none
  endReason : EndReason := .none
  probeCode : Int := 0
  stepped : Bool := false
  snapping : Bool := false
  resultDue : Bool := false
  samples : List Int := []
  holdSum : Int := 0
  holdCount : Nat := 0
  stepAt : Ns := 0
  skip : Bool := false
  holder : Option Src := none
deriving DecidableEq, Repr

/-- The discharge timeout of a rail (R125, R134). -/
inductive Discharge where
  | stopped | running | suspended
deriving DecidableEq, Repr

/-- One rail channel (R124-R134). `was` is the state before the last change and `since` the fine tick of that change (R129,
R130); `causeAt` is the last fine tick in which a cause met the rail in FAULT, and `cleared` what the last CLEAR of it took away:
its fine tick, the cause, and whose CLEAR it was (R133); `onPending` names the sources of the ONs that wait in DRAIN (R131);
`lastClean` is the last clean SENSE result since START, in 1/256 µV, in which every result code is exact (R210); `upSeen` says that a clean result fell in the UP
window in this RAMP; `delayEndAt` is when the start delay ended; `obsCount`/`obsPass` are the two-scan count
and the pass of the home list it started in; `pgStuck` the once-per-stay mark of PG_STUCK_GOOD;
`effLo`/`effHi` the effective warning edges; the last three the answers
to the programs' ON or OFF, CLEAR and margin request at the last COMMIT (R297). -/
structure Rail where
  st : RailSt := .parked
  cause : Option Cause := none
  was : RailSt := .parked
  since : Ns := 0
  causeAt : Option Ns := none
  cleared : Option (Ns × Option Cause × Src) := none
  onPending : List Src := []
  drained : Bool := false
  pg : Bool := false
  warnLo : Bool := false
  warnHi : Bool := false
  dropped : Option (Fin 128) := none
  warm : Bool := false
  answer : Ans := .none
  lastClean : Option Int := none
  lastImon : Int := 0
  v0 : Int := 0
  upSeen : Bool := false
  delayEndAt : Option Ns := none
  ocCount : Nat := 0
  obsCount : Nat := 0
  obsPass : Nat := 0
  pgStuck : Bool := false
  discharge : Discharge := .stopped
  effLo : UV := 0
  effHi : UV := 0
  mg : Margin := {}
  progOn : Ans := .none
  progClear : Ans := .none
  progMargin : Ans := .none
deriving DecidableEq, Repr

/-- The margin planner (R190, RSQ_PROBE_CTL, RSQ_PROBE_STAT). -/
structure Planner where
  pause : Bool := false
  rail : BitVec 8 := 0
  requested : Option RailN := none
  validCount : Nat := 0
deriving DecidableEq, Repr

/-- A rail command waiting for COMMIT (R131, R363-R366). -/
structure RailReq where
  src : Src
  rail : RailN
  code : RailCode
deriving DecidableEq, Repr

/-- A margin request waiting for COMMIT: `target` is the HOLD's offset in 0.1 %, none for END (R186, R189). -/
structure MarginReq where
  src : Src
  rail : RailN
  target : Option Int
deriving DecidableEq, Repr

/-- An answer given to a source other than host software (R131, R363): it leaves the block with the source's reply. -/
structure RailAnswer where
  src : Src
  rail : RailN
  margin : Bool
  ans : Ans
deriving DecidableEq, Repr

/-- The sequencer states (R159). -/
inductive SeqState where
  | idle | running | complete | retryShutdown | retryPause | exhausted | stopped | shutdown
deriving DecidableEq, Repr

/-- The group states of RSQ_GROUP_STAT. -/
inductive GroupState where
  | idle | running | up | shuttingDown | down | failed
deriving DecidableEq, Repr

/-- DOWN_REASON of RSQ_GROUP_STAT. -/
inductive DownReason where
  | none | domainRequest | casInLost | shed
deriving DecidableEq, Repr

/-- One step of a running group (R139, R140): its marks, and the rails skipped as shed at its start. -/
structure StepSt where
  eligible : Bool := false
  delayDone : Bool := false
  started : Bool := false
  done : Bool := false
  skipped : List RailN := []
deriving DecidableEq, Repr

/-- One group of the held plan. -/
structure GroupSt where
  st : GroupState := .idle
  reason : DownReason := .none
  steps : List StepSt := []
deriving DecidableEq, Repr

/-- The failure reasons of R154. -/
inductive FailReason where
  | railFault | stepTimeout | dropped | commandedOff | noDrain | railUnavailable
deriving DecidableEq, Repr

/-- RSQ_SEQ_FAIL. -/
structure SeqFail where
  reason : Option FailReason := none
  group : Nat := 0
  step : Nat := 0
  rail : Nat := 0
  plan : Nat := 0
deriving DecidableEq, Repr

/-- RSQ_REACT_STAT of one fault reaction set; `actedAt` is the fine tick in which it last acted (R130). -/
structure ReactSt where
  count : Nat := 0
  lastSrc : Nat := 0
  analog : Bool := false
  lastCause : Option Cause := none
  actedAt : Option Ns := none
deriving DecidableEq, Repr

/-- What a running shut-down is for (R161). `group` covers R145, R149 and R461; `shed` is R148. -/
inductive ShutKind where
  | toStabled | runDownShed | runDownSet | retry | restart | group | shed | toSafeStabled
deriving DecidableEq, Repr

/-- How far a shut-down has come with one group: waiting for the groups after it, waiting its allowance,
working at the step with this index (steps run from the last to 0), or finished (R161). -/
inductive GroupProg where
  | waiting | allowance | atStep (k : Nat) | finished
deriving DecidableEq, Repr

/-- A running shut-down: its kind, its scope, the plan whose groups order it, each group's progress, the
groups held back for an allowance although their CAS_OUT is already low (R148), and whether the unplanned
rails have been issued OFF (R161). `reason` is what its groups become when it ends. -/
structure Shut where
  kind : ShutKind
  scope : List RailN
  plan : Fin 8
  groups : List (Nat × GroupProg)
  heldBack : List Nat
  unplanned : Bool
  reason : DownReason := .none
deriving DecidableEq, Repr

/-- A Headstock request for a domain group, held until COMMIT in RUN (R149). -/
structure DomReq where
  dom : Fin 16
  up : Bool
deriving DecidableEq, Repr

/-- The sequencer, the chains and the reaction sets (R135-R160). `casRaw` is the raw CAS_IN; `casDropped` the
chains a reaction set has dropped since their group last became UP; `fails` the failures of R154 not yet judged;
`acted` the reaction sets that acted on the last fault (R280). -/
structure Seq where
  held : Fin 8 := 0
  level : Level := .normal
  levelPlan : Fin 8 := 0
  adoptions : Nat := 0
  st : SeqState := .idle
  attempt : Nat := 0
  barred : Bool := false
  pauseAt : Ns := 0
  pauseOver : Bool := false
  fails : List (FailReason × RailN) := []
  fail : SeqFail := {}
  cmdAns : Ans := .none
  rerun : Option Src := none
  /-- A RERUN request of Edivo that waits for the next COMMIT (R365). -/
  rerunEdivo : Bool := false
  casIn : BitVec 16 := 0
  casOut : BitVec 16 := 0
  casDropped : BitVec 16 := 0
  flags : BitVec 64 := 0
  groups : Vector GroupSt 64 := Vector.replicate 64 {}
  react : Vector ReactSt 128 := Vector.replicate 128 {}
  domReqs : List DomReq := []
  acted : BitVec 128 := 0
deriving DecidableEq, Repr

/-- The module-level shut-downs (R161-R172): the ones running, and RSQ_SHUT_STAT. `phase` is coded as PHASE;
`flushed` says that the flush of step 2 of R169 has ended and its commit group runs. -/
structure ShutSt where
  jobs : List Shut := []
  kind : Nat := 0
  phase : Nat := 0
  lockouts : Nat := 0
  rundownForced : Bool := false
  flushed : Bool := false
deriving DecidableEq, Repr

/-- The motion rule (R165, R166). `lastFast` and `lastSlow` are the module times of the last report above and
at or below 0.5 km/h; `stillSince` when the present unbroken standstill began to be counted. -/
structure Motion where
  moving : Bool := true
  standstillIn : Bool := false
  lastFast : Option Ns := none
  lastSlow : Option Ns := none
  netSpeed : Nat := 0
  stillSince : Option Ns := none
  confirmed : Bool := false
deriving DecidableEq, Repr

/-- The touch-key states (R175). -/
inductive TouchState where
  | idle | touched | waitRelease | heldAtPowerup | stuck | unused
deriving DecidableEq, Repr

/-- The touch key and the status display (R173-R179). `base` is the baseline in use, `stuckBase` that of STUCK;
`held` the samples of the present touch and `relRun` those of the present release; `samples` the last 20, newest first;
`first` counts the samples since OFF, up to 20; `drift` the samples since the baseline last moved; `forced` says that this
touch has acted as a force-off; `alerts` the unacknowledged alerts by SEQ. `lastAction` is coded as LAST_ACTION. -/
structure Touch where
  st : TouchState := .idle
  raw : Bool := false
  stuckSeen : Bool := false
  heldSeen : Bool := false
  lastAction : Nat := 0
  base : Int := 0
  stuckBase : Int := 0
  held : Nat := 0
  relRun : Nat := 0
  samples : List Int := []
  first : Nat := 0
  drift : Nat := 0
  forced : Bool := false
  page : Fin 4 := 0
  alerts : List Nat := []
deriving DecidableEq, Repr

/-- The manual-reset input (R180, R181). `st`: 0 IDLE, 1 PRESSED, 2 IGNORED. -/
structure Mrst where
  st : Nat := 0
  level : Bool := false
  pressAt : Ns := 0
  fired : Bool := false
  hostRst : Bool := false
  hostRstAt : Ns := 0
  stuckSeen : Bool := false
  ans : Ans := .none
  hostResets : Nat := 0
deriving DecidableEq, Repr

/-- The converter states (R216). -/
inductive ConvState where
  | scanning | calibrating | rejoining | out | failed | builtIn
deriving DecidableEq, Repr

/-- One result as a register or the pre-trigger history holds it (R204, R210, R211, R215). -/
structure Res where
  value : Int := 0
  ovr : Bool := false
  settling : Bool := false
  recovering : Bool := false
  windowOut : Bool := false
  input : BitVec 10 := 0
  covered : Bool := false
  stamp : BitVec 16 := 0
deriving DecidableEq, Repr

/-- One result register (R204, R213-R215): the result, its last four with the newest first, the SETTLING results
still due, and the captured age stamp of SCN_RES_AGE. -/
structure ResReg where
  res : Res := {}
  hist : List Res := []
  settle : Nat := 0
  age : BitVec 16 := 0
deriving DecidableEq, Repr

/-- The slot that a converter runs: of its own list or of the list it covers, the position and the entry (R203, R218). -/
structure Slot where
  own : Bool
  pos : Nat
  entry : CScanEntry
deriving DecidableEq, Repr
/-- One scan converter (R200-R220). `cur` is the slot that runs, as it was at its start; `pos` is the entry its own list is at;
`pass` counts the passes of its own list and `passAt` is when the present one began; `overPrev` says that the previous slot on this
converter over-ranged; `rejoinLeft` are the slots left of the full pass of REJOINING, and `joinDue` says that it waits for its
partner's slot boundary to take up its list; `calDue` that a calibration waits; `overdue` is CAL_OVERDUE; `probe` the rail whose probe
snapshot runs; `burst` that it takes part in the running burst. What waits for a slot boundary: `leaveDue` an accepted OUT or CALIBRATE,
`wantLow` the power mode that the level asks for, `listDue` a landed list with `settleDue`, its entries' SETTLING results. -/
structure Conv where
  st : ConvState := .builtIn
  covering : Bool := false
  lowPower : Bool := false
  pos : Nat := 0
  pass : Nat := 0
  passAt : Ns := 0
  cur : Option Slot := none
  overPrev : Bool := false
  rejoinLeft : Nat := 0
  calDue : Bool := false
  overdue : Bool := false
  scanTime : Nat := 0
  cmdAns : Ans := .none
  calCount : Nat := 0
  failSeen : Bool := false
  probe : Option RailN := none
  burst : Bool := false
  joinDue : Bool := false
  leaveDue : Option ConvState := none
  wantLow : Bool := false
  listDue : Bool := false
  settleDue : List (Nat × Nat) := []
deriving DecidableEq, Repr

/-- One snapshot as SCN_SNAP_INFO and SCN_SNAP_DATA show it (R221-R224). -/
structure Snap where
  input : BitVec 10 := 0
  lowRate : Bool := false
  absent : Bool := false
  aborted : Bool := false
  ovrCount : Nat := 0
  gaps : Nat := 0
  time : Ns := 0
  samples : List Int := []
deriving DecidableEq, Repr

/-- A common snapshot buffer (R222, R223): 16 snapshots, the histories copied at the trigger, and the sample indexes of
late triggers. -/
structure SnapBuf where
  snaps : Vector Snap 16 := Vector.replicate 16 {}
  hists : List (List Res) := []
  late : List Nat := []
deriving DecidableEq, Repr

/-- The scan converters and their snapshots as a whole (R200-R227). `cur` is the buffer of the running burst. -/
structure Scan where
  conv : Vector Conv 16 := Vector.replicate 16 {}
  res : Vector ResReg 1024 := Vector.replicate 1024 {}
  burst : Bool := false
  burstAt : Ns := 0
  cur : Fin 2 := 0
  lastBuf : Fin 2 := 0
  heldBuf : Option (Fin 2) := none
  lateTriggers : Nat := 0
  bursts : Nat := 0
  buf : Vector SnapBuf 2 := Vector.replicate 2 {}
  probeBuf : Vector Snap 16 := Vector.replicate 16 {}
  selConv : Fin 16 := 0
  selBuf : Fin 4 := 0
  snapAns : Ans := .none
deriving DecidableEq, Repr

/-- The output of a fixed-speed comparator (R230). -/
inductive CmpOut where
  | below | inside | above
deriving DecidableEq, Repr

/-- A fixed-speed comparator (R230, R236, R237). `level` is the input it last judged, in the unit of R229
(µV, or nA in current mode), none before any. -/
structure Cmp where
  out : CmpOut := .inside
  loEdge : Bool := false
  hiEdge : Bool := false
  edges : Nat := 0
  level : Option Int := none
deriving DecidableEq, Repr

/-- A sampled comparator (R240). `beyondRun`/`backRun` count consecutive samplings beyond and back. -/
structure Smp where
  beyond : Bool := false
  edge : Bool := false
  crossings : Nat := 0
  beyondRun : Nat := 0
  backRun : Nat := 0
deriving DecidableEq, Repr

/-- The trip comparators as a whole (R228-R245). `trimLag` holds, for each comparator whose new offset trim has not wholly taken
effect, how far the trim in force lies above it, in 1/64 step (R238). -/
structure Trip where
  cmp : Vector Cmp 320 := Vector.replicate 320 {}
  smp : Vector Smp 16 := Vector.replicate 16 {}
  selftestFail : Bool := false
  failedCmp : Nat := 0
  trimLag : List (Fin 320 × Int) := []
deriving DecidableEq, Repr

/-- A meter data set (R418): the fields that are signed, and whether the record engine has accepted it (R419).
`energy` holds consumed Wh, regenerated Wh, inductive varh and capacitive varh of each used set. -/
structure DataSet where
  absence : Bool
  shadow : Bool
  periodSeq : Word
  dsSeq : Word
  label : DWord
  startUtc : DWord
  endUtc : DWord
  startM : DWord
  endM : DWord
  flags : BitVec 32
  system : Nat
  sets : BitVec 4
  poweron : BitVec 16
  energy : List (Option (Nat × Nat × Nat × Nat))
  lat : Int
  lon : Int
  locAge : Nat
  absentSlots : Nat
  signature : List Byte
  streamed : Bool
  opNsEnd : Nat
deriving DecidableEq, Repr

/-- A history record (R456). `kind`: 1 CHECK, 2 PERIODIC, 3 COMMAND. `healths` holds the HEALTH of each rail with BASELINE_SET at
the record, which R454 fits. -/
structure HistRec where
  kind : Nat
  mtime : DWord
  utc : DWord
  utcQual : Nat
  opHours : Nat
  poweron : BitVec 16
  coreOffset : Nat
  factor : BitVec 16
  f60 : BitVec 16
  dAb : Int
  dBc : Int
  dCa : Int
  cellMv : Nat
  cap : Nat
  esr : Nat
  fullDj : Nat
  retired : Nat
  wearPct : Nat
  trimLimit : Nat
  estCorr : Nat
  corr24 : Nat
  kR : List Nat
  kC : List Nat
  forecasts : List Nat
  rail : Nat
  health : Nat
  healths : List (Nat × Nat)
deriving DecidableEq, Repr

/-- AGE_FORECAST of one item (R454, R455). -/
structure Forecast where
  years : Nat := 0xFFFF
  warn : Bool := false
  detail : Nat := 0
deriving DecidableEq, Repr

/-- An event as the router handles it (R246): its stamp, its source, the word of detail it carries, and its LEAP flag (R39). -/
structure Ev where
  time : Ns
  src : Nat
  detail : Nat
  leap : Bool := false
deriving DecidableEq, Repr

/-- An interrupt source that is not IDLE (R249): PENDING, or SERVED by a target. `stamp` is the event's stamp. -/
structure SrcSt where
  served : Bool
  stamp : Ns
deriving DecidableEq, Repr

/-- A host target's delivery state (R251-R253): the assigned source and whether it has been claimed. -/
structure Tgt where
  prio : BitVec 8 := 0xFF
  source : Option Nat := none
  claimed : Bool := false
  stamp : Ns := 0
  time : DWord := 0
  completeErr : Bool := false
deriving DecidableEq, Repr

/-- An alert input (R256, R257): its accepted level after polarity, the level of its contact (true is high), and the module times of
the first accepted change of each direction of the contact held in the asynchronous latch. -/
structure AlertSt where
  level : Bool := false
  raw : Bool := false
  latchRise : Option Ns := none
  latchFall : Option Ns := none
deriving DecidableEq, Repr

/-- An event lost in the present fine tick (R249): its source, its stamp, and LOST and the count of its group before it. -/
structure LostEv where
  src : Nat
  stamp : Ns
  bitWas : Bool
  countWas : Nat
deriving DecidableEq, Repr

/-- The event router and interrupt controller (R246-R261). `srcs` lists the sources that are not IDLE, lowest number
first; `lostNow` the events lost in the fine tick of the last loss, oldest first; `barred` the groups under hold-off; `vecMask`, `pba` and the two flags are the MSI-X state of R251 and R467;
`log` is the last 1,024 events handled, newest first (R277); `msix` the MSI-X messages sent, newest first. -/
structure Evt where
  srcs : List (Nat × SrcSt) := []
  mask : Vector (BitVec 32) 32 := Vector.replicate 32 0xFFFFFFFF
  route : Vector (BitVec 64) 1024 := Vector.replicate 1024 0
  holdoff : Vector (BitVec 16) 32 := Vector.replicate 32 0
  barred : BitVec 32 := 0
  lost : BitVec 32 := 0
  lostCount : Vector Nat 32 := Vector.replicate 32 0
  lostNow : List LostEv := []
  tgt : Vector Tgt 64 := Vector.replicate 64 {}
  msixEn : Bool := false
  fnMask : Bool := true
  vecMask : BitVec 64 := BitVec.allOnes 64
  pba : BitVec 64 := 0
  alert : Vector AlertSt 8 := Vector.replicate 8 {}
  latched : BitVec 8 := 0
  log : List Ev := []
  msix : List (Fin 64) := []
deriving DecidableEq, Repr

/-- A later-fault entry (R283). `cls` is the fault class bit, none when it is no class; `detail` up to three words. -/
structure Lfl where
  seq : Nat
  src : Option Nat
  cls : Option Nat
  st : ModSt
  poweron : BitVec 16
  time : DWord
  utc : DWord
  cycle : DWord
  name : String
  detail : List Nat
deriving DecidableEq, Repr

/-- A juridical entry (R435, and every rule that makes one): the stamps of its record, and the payload's fields. -/
structure Jur where
  time : DWord
  utc : DWord
  utcQual : Nat
  src : Option Nat
  st : Nat
  level : Nat
  cycle : DWord
  name : String
  detail : List Nat
deriving DecidableEq, Repr

/-- The Inclusion record's states (R278). -/
inductive IncState where
  | armed | capturing | commitA | commitB | frozen | clearing
deriving DecidableEq, Repr

/-- What the Inclusion record holds beside its snapshot (R277, R280, R281): the header's fields and the context
captured at the freeze tick. `context` is the words of the module context in the order of R280. -/
structure IncRec where
  cls : Nat
  recordNo : Nat
  src : Nat
  poweron : BitVec 16
  time : DWord
  utc : DWord
  utcQual : Nat
  st : ModSt
  level : Level
  heldPlan : Nat
  sampleIndex : Nat
  cycle : DWord
  runSerial : DWord
  name : String
  trigger : List Nat
  reacts : BitVec 128
  classes : BitVec 32
  rails : List (Word × Word × Option Int × Int)
  cmps : List Word
  points : List Word
  spindles : List (Nat × Nat × Option LPairN × Nat)
  applied : List DWord
  context : List Word
  events : List Ev
  buf : SnapBuf
deriving DecidableEq, Repr

/-- The Inclusion record (R277-R287). It has its own sectors and write path, and is kept. `pages` are the pages of
copy A read since the freeze, and of copy B with 1,024 added (R285); `badA`, `badB` the 16-byte groups of a copy with an
uncorrectable error (R263). -/
structure Inclusion where
  st : IncState := .armed
  exported : Bool := false
  copyA : Option IncRec := none
  copyB : Option IncRec := none
  cap : Option IncRec := none
  recordNo : Nat := 0
  pages : List Nat := []
  badA : List Nat := []
  badB : List Nat := []
deriving DecidableEq, Repr

/-- A page of a user region that the store holds (R266-R269): region, logical page and its 256 bytes. -/
structure UserPage where
  region : Fin 16
  page : Nat
  bytes : List Byte
deriving DecidableEq, Repr

/-- The attempt counter and the lockout of one password (R275, R486): failures in a row, whether it has ever been
locked out, and the operating time in ns at which the lockout that runs began (none: no lockout runs). -/
structure PwdSt where
  fails : Nat := 0
  everLocked : Bool := false
  lockedSince : Option Ns := none
deriving DecidableEq, Repr

/-- An accepted clear that waits for its commit (R286); `scope` is coded as SCOPE of NVS_CMD. -/
structure ClearReq where
  scope : Nat
  rail : RailN
deriving DecidableEq, Repr

/-- What a converter keeps of its last calibration (R216, R217): corrections and the operating minute; `lost` while the region holds
no readable calibration of it (R217, R264). -/
structure CalKept where
  offset : Int := 0
  gain : Int := 0
  at_ : Nat := 0
  lost : Bool := false
deriving DecidableEq, Repr

/-- The non-volatile store's content as a reader sees it, gathered writes included (R262-R272): the system regions
of R266 and the user regions. The state holds it three times: as read, as committed, and as being committed. -/
structure NvData where
  poweron : BitVec 16 := 0
  opNs : Nat := 0
  tbFinding : Bool := false
  clearIncDue : Bool := false
  pwd : Vector PwdSt 35 := Vector.replicate 35 {}
  cal : Vector CalKept 16 := Vector.replicate 16 {}
  cmpTrim : Vector Int 320 := Vector.replicate 320 0
  agedBase : Int := 0
  rail : Vector RailKept 256 := Vector.replicate 256 {}
  physRetirements : Vector Nat 9 := Vector.replicate 9 0
  physSelfFails : Vector Nat 9 := Vector.replicate 9 0
  lfl : List Lfl := []
  lflSeq : Nat := 0
  lflOverflow : Nat := 0
  pendingJur : List Jur := []
  user : List UserPage := []
  clears : List ClearReq := []
  unflushedMib : Nat := 0
  stabledMib : Nat := 0
  fade : Bool := false
  fullDj : Nat := 0
  capUf : Nat := 137000
  reserveMv : Nat := 14750
  wdgLock : Bool := false
  periodSeq : Word := 0
  dsSeq : Word := 0
  dataSets : List DataSet := []
  overwritten : Nat := 0
  lastLabel : DWord := 0
  replans : Nat := 0
  lastReplanNs : Nat := 0
  esr : Nat := 0
  esrHigh : Bool := false
  holdupTestNs : Nat := 0
  cellMv : Nat := 0
  ring : List HistRec := []
  perm : List HistRec := []
  forecast : Vector Forecast 6 := Vector.replicate 6 {}
  factor : BitVec 16 := 0x1000
  coreOffset : Nat := 0
  beyond : Bool := false
  estCorr : Nat := 0x0400
  kR : Vector Nat 8 := Vector.replicate 8 1024
  kC : Vector Nat 8 := Vector.replicate 8 1024
  seqBlock : Vector Nat 64 := Vector.replicate 64 0
  secLoad : Option CSecurity := none
  releasing : Nat := 0
  takenSecs : List (Nat × Nat) := []
  sealNo : Nat := 0
deriving DecidableEq, Repr

/-- The states of NVS_STAT (R270, R271). -/
inductive NvState where
  | recovering | idle | gathering | committing | deferred
deriving DecidableEq, Repr

/-- An unlock that is held (R274). `write` tells a write unlock from a read unlock; `region` 16 is the clear
password. -/
structure Unlock where
  owner : Owner
  region : Fin 17
  write : Bool
deriving DecidableEq, Repr

/-- What a failed password check was for. -/
inductive PwdUse where
  | unlock | login | release
deriving DecidableEq, Repr

/-- A WRONG_PASSWORD that waits for the commit group `seq` with its count (R275). -/
structure WrongDue where
  owner : Owner
  use : PwdUse
  seq : BitVec 32
deriving DecidableEq, Repr

/-- A WRITE that waits for a commit to end (R270). -/
structure NvWait where
  owner : Owner
  region : Fin 16
  page : Nat
  off : Nat
  bytes : List Byte
deriving DecidableEq, Repr

/-- The non-volatile store (R262-R275, NVS registers). `dirty` are the user pages of the group that gathers, `dirtyC` those of
the group that commits; `again` says that a commit follows the one that runs. -/
structure Nv where
  cur : NvData := {}
  durable : NvData := {}
  committing : Option NvData := none
  st : NvState := .recovering
  ans : Ans := .none
  gathered : Nat := 0
  gatherSince : Option Ns := none
  gatherSeq : BitVec 32 := 1
  durableSeq : BitVec 32 := 0
  wrongDue : List WrongDue := []
  waitWr : List NvWait := []
  dirty : List (Fin 16 × Nat) := []
  dirtyC : List (Fin 16 × Nat) := []
  again : Bool := false
  retired : Nat := 0
  wearPct : Nat := 0
  ampl : Nat := 16
  corrBits : Nat := 0
  uncorr : Nat := 0
  uncorrSeen : Bool := false
  stalePages : List (Fin 16 × Nat) := []
  addrPage : BitVec 16 := 0
  addrOff : BitVec 8 := 0
  addrRegion : Fin 16 := 0
  pwd : Vector Word 8 := Vector.replicate 8 0
  data : Vector Word 64 := Vector.replicate 64 0
  incPage : BitVec 10 := 0
  incCopy : Bool := false
  lflSel : BitVec 8 := 0
  unlocks : List Unlock := []
  rollback : Option (BitVec 32) := none
  sealPending : List Lfl := []
  sealOverflow : Nat := 0
deriving DecidableEq, Repr

/-- The newest seal page (R282): valid, results of steps 1 and 2, the record's state and number, the later-fault
entries made after step 2 (at most 8) and the count of further ones; `history` is the cause history of the rails that the last commit
does not hold (R134). `no` counts the seal pages: while the store's `sealNo` is another number, the commit group that enters this
page's entries into the list is not durable yet. -/
structure Seal where
  valid : Bool := false
  time : DWord := 0
  utc : DWord := 0
  poweron : BitVec 16 := 0
  flushDone : Bool := false
  commitDone : Bool := false
  unflushedMib : Nat := 0
  incState : IncState := .armed
  pendingInc : Bool := false
  recordNo : Nat := 0
  kept : List Lfl := []
  further : Nat := 0
  no : Nat := 0
  history : List (RailN × BitVec 7 × Nat) := []
deriving DecidableEq, Repr

/-- The state of a key bank (SEC_KEY_STAT). -/
inductive BankSt where
  | invalid | written | verified | active
deriving DecidableEq, Repr

/-- The state of the staging session (SEC_STG_STAT). -/
inductive StgState where
  | idle | writing | verifying | staged | failed
deriving DecidableEq, Repr

/-- The key, its banks and the load result (R92-R103, R112); `wasRead` says that a LOAD has read its identity since START. `loadedSerial`/`loadedDigest` are those of the key and
manifest read at LOAD; `selGen` the current generation; `verifyOnly` a VERIFY session. Result codes are those of
LOAD results. -/
structure KeySt where
  key : Option Key := none
  mismatch : Bool := false
  activeBank : Bool := false
  selCopy : Bool := false
  selValid : Bool := false
  bank0 : BankSt := .invalid
  bank1 : BankSt := .invalid
  pendingRestart : Bool := false
  selGen : Word := 0
  keySerial : DWord := 0
  loadedSerial : DWord := 0
  loadedDigest : List Byte := []
  loadCode : BitVec 8 := 0
  loadType : BitVec 8 := 0
  loadInst : BitVec 8 := 0
  runSerial : DWord := 0
  wasRead : Bool := false
deriving DecidableEq, Repr

/-- A difference between the staged image and the running configuration (R105): section, and whether it has been
answered TAKEN or UNCHANGED. -/
structure Differ where
  typ : Nat
  inst : Nat
  taken : Bool
deriving DecidableEq, Repr

/-- The staging session (R104-R106). `owner`: none, host or an Edivo session. `source` is SEC_STG_ADDR and SEC_STG_LEN as the
STAGE of the session found them. -/
structure Stage where
  addr : DWord := 0
  len : Word := 0
  st : StgState := .idle
  owner : Option Owner := none
  result : BitVec 8 := 0
  writtenMib : Nat := 0
  downgrade : Bool := false
  verifyOnly : Bool := false
  stagedSerial : DWord := 0
  stagedDigest : List Byte := []
  stagedSecs : List Sec := []
  diffs : List Differ := []
  copyErased : Bool := false
  switching : Bool := false
  source : DWord × Word := (0, 0)
deriving DecidableEq, Repr

/-- The state of SEC_TAKE_STAT. -/
inductive TakeState where
  | idle | preparing | ready | done | refused | abandoned
deriving DecidableEq, Repr

/-- One part of a take set as SEC_TAKE_PART shows it. -/
structure TakePart where
  typ : BitVec 8 := 0
  inst : BitVec 8 := 0
  ans : Ans := .none
deriving DecidableEq, Repr

/-- The take (R107-R111). `set` is the number of parts of the set in hand; `prepared` its sections (none: the
take removes that program); `meterDue` a PERIOD part waiting for its boundary. -/
structure Take where
  cycle : DWord := 0
  st : TakeState := .idle
  seq : Nat := 0
  parts : Vector TakePart 32 := Vector.replicate 32 {}
  count : Nat := 0
  target : DWord := 0
  prepared : List (Nat × Nat × Option Sec) := []
  meterDue : Option (Sec × CMeter) := none
deriving DecidableEq, Repr

/-- The supervision cycle (R289-R294). `phase` is coded as PHASE: 0 STOPPED, 1 EXECUTE,
2 HOUSEKEEP, 3 COMMIT or INPUT_FREEZE. `closeAt` is the closing tick of the cycle in progress; `late` says that it has been
reached and COMMIT waits for EXECUTE; `first` is FIRST_CYCLE. -/
structure Cyc where
  num : DWord := 0
  numHi : Word := 0
  phase : Nat := 0
  stretch : Nat := 0
  stretchSeen : Bool := false
  stretchLast : Bool := false
  overrun : Bool := false
  skips : Nat := 0
  closeAt : Ns := 0
  late : Bool := false
  first : Bool := false
  freezeAt : Ns := 0
deriving DecidableEq, Repr

/-- The registers of a spindle for the program it runs (R299). `bits` is the bit stack and `calls` the call stack, top
first; `pc` is a word index in the program's code; `loops` holds for each LOOP entered its place, its target, the call
depth and the jumps taken since it was entered from above (R301). -/
structure Regs where
  ba : Bool := false
  acc : Word := 0
  w : Vector Word 32 := Vector.replicate 32 0
  ovf : Bool := false
  bits : List Bool := []
  calls : List Nat := []
  pc : Nat := 0
  loops : List (Nat × Nat × Nat × Nat) := []
deriving DecidableEq, Repr

/-- A checkpoint (R317): the registers, the next bead, the reference time T in coarse ticks and a task's item. -/
structure Ckpt where
  regs : Regs := {}
  bead : Nat := 0
  t : Word := 0
  item : Option (QueueN × Nat) := none
deriving DecidableEq, Repr

/-- The program states (R313). -/
inductive PSt where
  | inactive | running | waiting | done | stopped | dropped | absent
deriving DecidableEq, Repr

/-- The program fault codes (R312). -/
inductive PFault where
  | illegalOpcode | storeProtected | addressRange | jumpRange | stack | beadRange | imageEcc | waitExpired
deriving DecidableEq, Repr

/-- One program (R313, SPN_PROG registers). `ck` is its checkpoint; `waitObj` the object a WAITING program waits for, with
its wait completed in `woken` (the Bool says DEADLOCK_BROKEN); `stopDue` a STOP accepted and not yet in force; `abortDue` an
abort request for its item (R355); `refreshed` that a run ended at PEND without fault in this cycle (R398);
`beadTime` the bead time of a task's run, in ns. -/
structure ProgSt where
  st : PSt := .absent
  initDue : Bool := false
  lastFault : Option PFault := none
  consecutive : Nat := 0
  faultBead : Nat := 0
  faultWord : Nat := 0
  faults : Nat := 0
  lastUs : Nat := 0
  cmdAns : Ans := .none
  stopDue : Bool := false
  abortDue : Bool := false
  ck : Ckpt := {}
  waitObj : Option (Fin 1024) := none
  woken : Option Bool := none
  refreshed : Bool := false
  startAt : Ns := 0
  beadTime : Nat := 0
deriving DecidableEq, Repr

/-- An operation of the bead journal (R318). A store holds, byte by byte, address, mask, data written and the value the
byte held before the bead's first store to it (none where the bead had stored it before). -/
inductive JOp where
  | store (bytes : List (Nat × Byte × Byte × Option Byte))
  | rail (n : RailN) (code : Nat)
  | mrg (n : RailN) (req : BitVec 9)
  | evt (e : Fin 256)
  | sigsync (o : Fin 1024)
  | lock (k : Fin 256) (ba : Bool) (acc : Word)
  | unlock (k : Fin 256) (clear : Bool) (released : Bool)
deriving DecidableEq, Repr

/-- One entry of a store buffer (R308): the bytes it stores, each with address, mask and data; 1, 2 or 4 of them. -/
structure BufEntry where
  bytes : List (Nat × Byte × Byte)
deriving DecidableEq, Repr

/-- A replay in progress (R320-R323): the journal still to be matched, the whole journal, the bytes stored by the
replay, its own operations beside those that matched, whether it has diverged, and when the divergence of the two spindles happened. -/
structure Replay where
  rest : List JOp
  whole : List JOp
  stored : List Nat := []
  live : List JOp := []
  diverged : Bool := false
  since : Ns := 0
deriving DecidableEq, Repr

/-- A logical pair (R288, R289, SPN_LPAIR registers). `due` are the cyclic programs still to start in this cycle;
`ready` the programs that wait to run again; `cur` the program whose bead runs, with its live registers; `freezeAt` the freeze
of a cycle whose EXECUTE still runs on the pair. -/
structure LPair where
  phys : Option PPairN := none
  bank : Bool := false
  bankLoaded : Bool := false
  execLast : Nat := 0
  execMax : Nat := 0
  wcetUs : Nat := 0
  due : List ProgN := []
  ready : List ProgN := []
  cur : Option ProgN := none
  regs : Regs := {}
  bead : Nat := 0
  t : Word := 0
  beadAt : Ns := 0
  buf : List BufEntry := []
  journal : List JOp := []
  replay : Option Replay := none
  freezeAt : Ns := 0
deriving DecidableEq, Repr

/-- The physical pair states (R328). -/
inductive PPSt where
  | active | spare | retired | selftest | shadowing | failed
deriving DecidableEq, Repr

/-- A physical pair (R328, SPN_PHYS registers). `lpA`, `lpB` are the logical pairs served, the lower-numbered first;
`inject` an INJECT that forces the mismatch at the next store; `sharedIn` the cycle in which the pair became shared by a takeover (R326); watchdog registers are in Wdg. -/
structure PPair where
  st : PPSt := .active
  lpA : Option LPairN := none
  lpB : Option LPairN := none
  lastKind : Option MKind := none
  retires : Nat := 0
  cmdAns : Ans := .none
  inject : Bool := false
  sharedIn : Option DWord := none
deriving DecidableEq, Repr

/-- The last replacement (SPN_REPL registers). -/
structure Repl where
  retired : Option PPairN := none
  taker : Option PPairN := none
  lpair : LPairN := 0
  shared : Bool := false
  kind : Option MKind := none
  diverged : Bool := false
  count : Nat := 0
  lostCk : Bool := false
  bead : Nat := 0
  prog : Nat := 0
  duration : Nat := 0
  time : DWord := 0
deriving DecidableEq, Repr

/-- A physical pair at entry to START (R288, R328). -/
def PPair.fresh (q : Fin 9) : PPair :=
  if h : q.val < 8 then { st := .active, lpA := some ⟨q.val, h⟩ } else { st := .spare }

/-- The spindles (R288-R331). `uncounted` counts the bytes and locks that a reconciliation could not restore (R323);
`checkFactor` is the slowdown factor of the last fit check and `budgetDropped` the programs suspended by R311. -/
structure Spn where
  lpair : Vector LPair 8 := Vector.ofFn (fun l : Fin 8 => { phys := some ⟨l.val, by omega⟩ })
  phys : Vector PPair 9 := Vector.ofFn PPair.fresh
  prog : Vector ProgSt 256 := Vector.replicate 256 {}
  repl : Repl := {}
  uncounted : Nat := 0
  lostLocks : Nat := 0
  checkFactor : BitVec 16 := 0
  budgetDropped : List ProgN := []
deriving DecidableEq, Repr

/-- The lock states (R369). -/
inductive LockState where
  | free | held | orphaned
deriving DecidableEq, Repr

/-- An owner of a lock (R368). -/
inductive LockOwner where
  | pair (l : LPairN) | host (t : TgtN)
deriving DecidableEq, Repr

/-- A hardware lock (R368, R369). -/
structure LockSt where
  st : LockState := .free
  poisoned : Bool := false
  owner : LockOwner := .pair 0
  epoch : Nat := 0
deriving DecidableEq, Repr

/-- A registered wait (R372, R373). -/
inductive Waiter where
  | prog (n : ProgN) | host (t : TgtN)
deriving DecidableEq, Repr

/-- A sync object (R372): its count and its registered waits, oldest first, each with its registration number. -/
structure SyncSt where
  count : Nat := 0
  waits : List (Nat × Waiter) := []
deriving DecidableEq, Repr

/-- A host target's lock registers (R373): `wait` is its registered wait (object, priority, notification source). -/
structure LckTgt where
  done : Bool := true
  acquired : Bool := false
  poisoned : Bool := false
  heldOwn : Bool := false
  answer : Ans := .none
  opSeq : BitVec 16 := 0
  epoch : Nat := 0
  wait : Option (Fin 1024 × Nat × Fin 32) := none
deriving DecidableEq, Repr

/-- Locks, sync objects and deadlocks (R368-R376). -/
structure Lck where
  lock : Vector LockSt 256 := Vector.replicate 256 {}
  sync : Vector SyncSt 1024 := Vector.replicate 1024 {}
  tgt : Vector LckTgt 64 := Vector.replicate 64 {}
  pairEpoch : Vector Nat 8 := Vector.replicate 8 0
  dlObject : Fin 1024 := 0
  dlVictimHost : Bool := false
  dlVictim : Nat := 0
  dlCount : Nat := 0
  orphans : Nat := 0
  regNo : Nat := 0
deriving DecidableEq, Repr

/-- GLB_ACCESS_ERR (R362): cause code, BAR code and offset of the first error. -/
structure AccErr where
  err : Bool := false
  cause : Nat := 0
  bar : Nat := 0
  offset : Nat := 0
deriving DecidableEq, Repr

/-- A module off or on request that waits for COMMIT (R168, R365). -/
structure ModReq where
  src : Src
  off : Bool
deriving DecidableEq, Repr

/-- Command sequence numbers (R366) and the pending module requests (R365). `applied` and the two captured high words are
those of sources 0-4; only source 2 has an ISSUED of its own. -/
structure Cmd where
  applied : Vector DWord 5 := Vector.replicate 5 0
  issuedHost : DWord := 0
  appliedHi : Vector Word 5 := Vector.replicate 5 0
  issuedHi : Vector Word 5 := Vector.replicate 5 0
  modReqs : List ModReq := []
  offAns : Ans := .none
  modAnswers : List (Src × Ans) := []
  forceOff : Bool := false
deriving DecidableEq, Repr

/-- The states of a queue item (R345); a COMPLETE or CANCELLED item leaves the queue. -/
inductive ItemSt where
  | queued | dispatched | aborting
deriving DecidableEq, Repr

/-- A queue item (R344, R345). `ready` is its ready time once it is the head; `desc` the descriptor's EST_UJ once read
(host items), 0 for none; `byEst` says that it was charged by the queue's estimate; `meas` the energy measured so far, in µJ,
`measured` whether any rail of its domain counted, `late` that its wait has reached LATENCY_US. -/
structure Item where
  index : Nat
  arg : Word
  pushed : Ns
  ready : Option Ns := none
  st : ItemSt := .queued
  desc : Option Nat := none
  charge : Nat := 0
  byEst : Bool := true
  meas : Rat := 0
  measured : Bool := false
  late : Bool := false
deriving DecidableEq, Repr

/-- The last denial of a queue (DENY). -/
inductive Deny where
  | none | targetBusy | unpowered | tokens | heat
deriving DecidableEq, Repr

/-- A Headstock queue (R343-R351, HDS_Q registers). `items` are its items, oldest first; `cancels` the CANCEL writes that
no round has sampled yet; `fullCycle` the cycle in which QUEUE_FULL was last entered. -/
structure Queue where
  enable : Bool := false
  ringLog2 : BitVec 5 := 0
  cplLog2 : BitVec 5 := 0
  ring : DWord := 0
  cpl : DWord := 0
  est : Nat := 0
  head : Nat := 0
  tail : Nat := 0
  full : Nat := 0
  fullCycle : Option DWord := none
  missed : Bool := false
  deny : Deny := .none
  items : List Item := []
  cancels : List Nat := []
  cplNext : Nat := 0
  cplPhase : Bool := false
deriving DecidableEq, Repr

/-- The host domain states (R353). -/
inductive DomSt where
  | off | reqUp | on | reqDown | unused
deriving DecidableEq, Repr

/-- A host compute power domain (R352-R354). -/
structure Dom where
  st : DomSt := .off
  inflight : Nat := 0
  wakes : Nat := 0
  base : DWord := 0
  sizeLog2 : BitVec 5 := 0
  enable : Bool := false
  next : Nat := 0
  phase : Bool := false
  seq : Word := 0
  cycling : Bool := false
deriving DecidableEq, Repr

/-- A thermal domain (R340-R342). `tAmb` in °C; `theta` in K; `allow` in µJ; `deposit` the energy charged since the last
recompute. -/
structure Therm where
  tAmb : Rat := 0
  theta : Rat := 0
  temp : Rat := 0
  limited : Bool := false
  isOver : Bool := false
  allow : Int := 0
  deposit : Nat := 0
deriving DecidableEq, Repr

/-- A write of the block into host memory: grant records, completion records and readbacks (R346, R354, R441). -/
structure HostWr where
  addr : DWord
  bytes : List Byte
deriving DecidableEq, Repr

/-- The Headstock (R332-R358). `holdSince` and `holdTarget` are the UP_HOLD count; `reserving` the reserving queue of
R349; `power` the load in mW of NORMAL to RESERVE at each 1 ms recompute of the last second, the newest first (P_MEAS of R334). -/
structure Hds where
  target : Level := .normal
  line : Bool := false
  fans : Bool := true
  supplyOk : Bool := false
  battStale : Bool := false
  battValid : Bool := false
  battAt : Ns := 0
  alloc : Word := 0
  unbounded : Bool := false
  horizon : Word := 0
  eAvail : Nat := 0
  pMw : Nat := 0
  pMod : Nat := 0
  holdSince : Option Ns := none
  holdTarget : Level := .normal
  tokens : Int := 0
  reserving : Option QueueN := none
  power : List (List Nat) := []
  therm : Vector Therm 8 := Vector.replicate 8 {}
  dom : Vector Dom 16 := Vector.replicate 16 {}
  queue : Vector Queue 4096 := Vector.replicate 4096 {}
  qSel : QueueN := 0
deriving DecidableEq, Repr

/-- The tailstock states (R378). -/
inductive HsbSt where
  | disabled | seeking | primary | standbySync | standbyReady
deriving DecidableEq, Repr

/-- What the last valid heartbeat of the partner said (R380), with its arrival. -/
structure Beat where
  serial : DWord := 0
  pairId : DWord := 0
  st : HsbSt := .seeking
  mod : Nat := 0
  epoch : Word := 0
  prefer : Bool := false
  cycle : DWord := 0
  close : DWord := 0
  mirrorOk : DWord := 0
  prep : TakePrep := .none
  relinquish : Bool := false
  at_ : Ns := 0
deriving DecidableEq, Repr

/-- The tailstock (R377-R391, HSB registers and LNK_TAIL registers). `got` is a mirror received complete and not yet
applied; `sent` the last mirror shipped; `beats` the rounds of heartbeats sent and `sentBeats` the last on each link; `relinquish` says that heartbeats carry RELINQUISH;
`handover` that a HANDOVER waits for COMMIT; `missed` counts COMMITs in a row without an applied mirror;
`marker` the record marker of the last applied mirror; `pairedTake` a paired take that travels in the mirror. -/
structure Hsb where
  st : HsbSt := .seeking
  up : BitVec 2 := 0
  partner : Option Beat := none
  eligible : Bool := false
  aligned : Bool := false
  unsynced : Bool := false
  readyCount : Nat := 0
  missed : Nat := 0
  epoch : Word := 0
  lostSeen : Bool := false
  takeoverSeen : Bool := false
  dualSeen : Bool := false
  pairMismatch : Bool := false
  bankDiffer : Bool := false
  discarded : Nat := 0
  takeovers : Nat := 0
  late : Nat := 0
  takeTime : DWord := 0
  cmdAns : Ans := .none
  pcmdAns : Ans := .none
  queue : List PCmd := []
  got : Option Mirror := none
  sent : Option Mirror := none
  lastApplied : DWord := 0
  appliedNow : Bool := false
  markersTaken : Bool := false
  takeoverFreeze : Bool := false
  marker : Nat := 0
  relinquish : Bool := false
  handover : Bool := false
  arbitrated : Bool := false
  prep : TakePrep := .none
  pairedTake : Option (DWord × List (Nat × Nat)) := none
  beats : Nat := 0
  sentBeats : Vector (Option Heartbeat) 2 := Vector.replicate 2 none
  linkSerial : Vector DWord 2 := Vector.replicate 2 0
  linkNo : BitVec 2 := 0
  crcErr : Vector Nat 2 := Vector.replicate 2 0
  miswired : Bool := false
deriving DecidableEq, Repr

/-- One field point (R396-R400). `inSafe` and `hold` are SAFE and the value that HOLD keeps; `cnt` the sample that started
the present debounce count and the value it counts toward; `cmd` the value taken at the last COMMIT; `timerAt` when
the silent-logic timer last restarted; `thermal` thermal shutdown. -/
structure Point where
  raw : Bool := false
  debounced : Bool := false
  cnt : Option Ns := none
  cmd : Bool := false
  inSafe : Bool := false
  hold : Bool := false
  timerAt : Option Ns := none
  ovl : Bool := false
  ovlSeen : Bool := false
  thermal : Bool := false
deriving DecidableEq, Repr

/-- One field group (R394, R401, FIO_GROUP registers). `waiting` says that its supply has returned and its outputs wait
for a COMMIT; `everOk` that the supply has been judged since START, so that its next change raises an event. -/
structure FGroup where
  supplyOk : Bool := false
  latched : Bool := false
  lostSeen : Bool := false
  overSeen : Bool := false
  current : Nat := 0
  overloads : Nat := 0
  cmdAns : Ans := .none
  waiting : Bool := true
  everOk : Bool := false
deriving DecidableEq, Repr

/-- The field points (R392-R404). `outputsOff` says that a module state holds every output off. -/
structure Fio where
  group : Vector FGroup 8 := Vector.replicate 8 {}
  point : Vector Point 128 := Vector.replicate 128 {}
  outputsOff : Bool := true
  committed : Bool := false
deriving DecidableEq, Repr

/-- One measurement set (R405-R412): its classified system, the last 200 ms means, the energies of the open period with the
carry of earlier ones, in mWh and mvarh, and what is below that resolution. -/
structure MSet where
  system : Nat := 0
  vRms : Nat := 0
  iRms : Nat := 0
  p : Int := 0
  q : Int := 0
  freq : Nat := 0
  consumed : Nat := 0
  regenerated : Nat := 0
  inductive_ : Nat := 0
  capacitive : Nat := 0
  rawPos : Nat := 0
  rawNeg : Nat := 0
  rawInd : Nat := 0
  rawCap : Nat := 0
deriving DecidableEq, Repr

/-- The meter (R405-R424). `flags` are the open period's; `sysTime` the meter bursts spent in each system code;
`classified` says that a window has been classified since START or a landing (R412), `resume` that the absence of R417 is
still to be judged, `settings` that the next period is the first under a landed section, `unsigned_` the data sets that
wait for their signature. -/
structure Mtr where
  line : Bool := false
  disagree : Bool := false
  lossSeen : Bool := false
  changeSeen : Bool := false
  system : Nat := 0
  classified : Bool := false
  sets : Vector MSet 4 := Vector.replicate 4 {}
  open_ : Bool := false
  untimed : Bool := true
  label : DWord := 0
  startUtc : DWord := 0
  startM : DWord := 0
  slotEnd : DWord := 0
  flags : BitVec 32 := 0
  sysTime : Vector Nat 16 := Vector.replicate 16 0
  shadowRole : Bool := false
  resume : Bool := true
  settings : Bool := false
  unsigned_ : List DataSet := []
  dsSel : Word := 0
  dsAns : Ans := .none
  dsData : List Byte := []
deriving DecidableEq, Repr

/-- A record in the buffer (R431, R433): `left` the bytes of it that no block holds yet, the units on which it is written,
covered by the Flush in flight, and durable. `sync` is its descriptor's SYNC. -/
structure BufRec where
  rcd : Rec
  sync : Bool := false
  left : Nat := 0
  written : BitVec 8 := 0
  flushing : BitVec 8 := 0
  durable : BitVec 8 := 0
deriving DecidableEq, Repr

/-- The storage unit states (R438). -/
inductive UnitSt where
  | absent | training | verifying | inService | releasing | removable | blank | foreign | failed
deriving DecidableEq, Repr

/-- The causes of FAILED (FAIL_CAUSE). -/
inductive FailCause where
  | noLink | unsupported | indexBad | writeError | linkLost
deriving DecidableEq, Repr

/-- A storage unit (R429, R438, REC_UNIT registers). `chunks` lists the chunks that are not FREE. -/
structure StUnit where
  st : UnitSt := .absent
  present : Bool := false
  perst : Bool := true
  surpriseSeen : Bool := false
  recoveredSeen : Bool := false
  failCause : Option FailCause := none
  wearPct : Nat := 0
  cmdAns : Ans := .none
  capChunks : Nat := 0
  chunks : List Chunk := []
  linkDown : Bool := false
deriving DecidableEq, Repr

/-- A stream (R425, R431-R437, REC_STR registers). `next` is the SEQ of the next record, `units` the units of its
OPEN chunks, first copy first; `full` says that it waits for a chunk. -/
structure Stream where
  full : Bool := false
  single : Bool := false
  dropped : Nat := 0
  accepted : Nat := 0
  durable : Nat := 0
  next : Nat := 0
  ring : DWord := 0
  enable : Bool := false
  ringLog2 : BitVec 5 := 0
  tail : BitVec 16 := 0
  head : BitVec 16 := 0
  buf : List BufRec := []
  units : List (Fin 8) := []
deriving DecidableEq, Repr

/-- The record engine (R425-R442, REC registers). `hostStopped` says that host streams have stopped (R87). -/
structure RecEng where
  lostSeen : Bool := false
  writeMbs : Nat := 0
  inMbs : Nat := 0
  rdAddr : DWord := 0
  rdLen : Word := 0
  rdSeq : DWord := 0
  rdState : Nat := 0
  rdAns : Ans := .none
  rdKib : Nat := 0
  rdNext : DWord := 0
  rdStream : Fin 64 := 0
  unit : Vector StUnit 8 := Vector.replicate 8 {}
  stream : Vector Stream 64 := Vector.replicate 64 {}
  hostStopped : Bool := false
deriving DecidableEq, Repr

/-- The results of a re-plan that wait to take effect (R445). -/
structure Replan where
  cmpTrim : List (Fin 320 × Int) := []
  cap : Option (Nat × Nat) := none
  warn : List (RailN × UV × UV) := []
  estCorr : Nat := 0x0400
  kR : List Nat := []
  kC : List Nat := []
  factor : BitVec 16 := 0
  eKlow : BitVec 16 := 0
  baseline : Option Int := none
deriving DecidableEq, Repr

/-- The spalting monitor (R443-R458, AGE registers). `state`: 0 IDLE, 1 RUNNING, 2 HOLDUP_PENDING; `rejoin` since when an
outvoted reference has agreed with both others; `coreTarget` the core voltage offset being stepped to;
`refFail` a disagreement of the references that the next CHECK fails for (R447);
`tested` the result of a test discharge in the running re-plan (capacitance in µF, ESR); `load` the seconds of R451 with
their operating time, P_MEAS and P_KEY, newest first; `eKlow` the domains whose lower estimate bound is E_K (R452);
`trimLate` the trims that wait for a rail to leave RAMP (R448). -/
structure Age where
  state : Nat := 0
  kind : Nat := 0
  refDisagree : Bool := false
  refFail : Bool := false
  refOutSeen : Bool := false
  outvoted : BitVec 3 := 0
  rejoin : Vector (Option Ns) 3 := Vector.replicate 3 none
  changed : BitVec 8 := 0
  trimLimit : Nat := 0
  narrowed : Nat := 0
  dAb : Int := 0
  dBc : Int := 0
  dCa : Int := 0
  cmdAns : Ans := .none
  histSel : BitVec 13 := 0
  histAns : Ans := .none
  histData : List Byte := []
  coreTarget : Nat := 0
  due : Option Replan := none
  testing : Bool := false
  tested : Option (Nat × Nat) := none
  load : List (Nat × Nat × Nat) := []
  eKlow : BitVec 16 := 0
  trimLate : List (Fin 320 × Int) := []
deriving DecidableEq, Repr

/-- The states of WDG_HOST_STAT. -/
inductive WdgSt where
  | disabled | first | window | stopped
deriving DecidableEq, Repr

/-- A spindle watchdog (R462, WDG_SPN registers). -/
structure SpnWdg where
  enabled : Bool := true
  expiredSeen : Bool := false
  expiries : Nat := 0
  word : Nat := 0
  prog : Nat := 0
  bead : Nat := 0
  time : DWord := 0
deriving DecidableEq, Repr

/-- The watchdogs (R459-R464). `since` is when the present window opened; `armed` when WDG_DISABLE was armed. -/
structure Wdg where
  st : WdgSt := .first
  started : Bool := false
  since : Ns := 0
  expiredSeen : Bool := false
  late : Option Bool := none
  expiries : Nat := 0
  last : Word := 0
  time : DWord := 0
  armed : Option Ns := none
  ans : Ans := .none
  spn : Vector SpnWdg 9 := Vector.replicate 9 {}
deriving DecidableEq, Repr

/-- The levels of an Edivo session (R477). -/
inductive SLevel where
  | view | maintenance | provisioning
deriving DecidableEq, Repr

/-- An Edivo session (R477-R480): its level, the last message, the nonce of its last CHALLENGE with the index named and
the time, its copies of NVS_ADDR, NVS_PWD and NVS_DATA, a WDG_DISABLE it armed, test mode. -/
structure Session where
  level : SLevel := .view
  lastAt : Ns := 0
  nonce : Option (List Byte × Nat × Ns) := none
  addrPage : BitVec 16 := 0
  addrOff : BitVec 8 := 0
  addrRegion : Fin 16 := 0
  pwd : Vector Word 8 := Vector.replicate 8 0
  data : Vector Word 64 := Vector.replicate 64 0
  wdgArmed : Option Ns := none
  testMode : Bool := false
  maker : Bool := false
deriving DecidableEq, Repr

/-- A train network port (R470, R475); `heard` is the last Announce of a master not yet qualified. -/
structure NetPort where
  link : Bool := false
  g1000 : Bool := false
  rxErr : Nat := 0
  heard : Option Announce := none
  qualified : Option Announce := none
deriving DecidableEq, Repr

/-- Links, PTP, location and Edivo sessions (R465-R482, LNK registers). `leap` is the leap second that the selected master has
announced, true for leap61 (R39, R475). `lost` are the sources of the links that went down and have not been up again (R481). `replies` are the Edivo replies sent, newest
first: session, STATUS, answer and payload words; `netReplies` the MD replies. -/
structure Lnk where
  width : Nat := 0
  rate : Nat := 0
  up : Bool := false
  refLost : Bool := false
  downSeen : Bool := false
  retrains : Nat := 0
  downAt : DWord := 0
  upAt : DWord := 0
  lostAt : Option DWord := none
  perst : Bool := false
  trainedSinceStart : Bool := false
  net : Vector NetPort 4 := Vector.replicate 4 {}
  ptpPort : Fin 4 := 0
  ptpMaster : Bool := false
  ptpClass : Nat := 0
  goodSyncs : Nat := 0
  ptpOffset : Int := 0
  ptpDelay : Nat := 0
  leap : Option Bool := none
  lastSync : Option Ns := none
  lat : Int := 0
  lon : Int := 0
  locAt : Option Ns := none
  edivoLink : Bool := false
  sessions : Vector (Option Session) 4 := Vector.replicate 4 none
  opened : Nat := 0
  lost : List Nat := []
  replies : List (Fin 4 × Nat × Ans × List Word) := []
  telegrams : List (List Byte) := []
deriving DecidableEq, Repr

/-- A password verifier (R483, R486): salt and verifier. -/
structure Verifier where
  salt : List Byte
  verifier : List Byte
deriving DecidableEq, Repr

/-- A presence proof that is awaited (R490, R492). -/
inductive Presence where
  | provision (sess : Fin 4) (key : List Byte) (v : List Verifier)
  | release (sess : Option (Fin 4)) (force : Bool)
deriving DecidableEq, Repr

/-- The secret store and the security registers (R483-R496). The secret store is a device of its own and outlives START
and OFF. `wrapKey` says that the wrapping key stands; `cause` codes SEC_GIRDLE.CAUSE; `stepNo` the release step running. -/
structure Sec_ where
  wrapKey : Bool := false
  areaErased : Bool := false
  custKey : List Byte := []
  meterKey : Bool := false
  verifiers : Vector (Option Verifier) 35 := Vector.replicate 35 none
  factory : Bool := false
  released : Bool := false
  cellLow : Bool := false
  supplyLow : Bool := false
  ans : Ans := .none
  pwd : Vector Word 8 := Vector.replicate 8 0
  breached : Bool := false
  cause : Nat := 0
  breaches : Nat := 0
  releases : Nat := 0
  releaseTime : DWord := 0
  releaseUtc : DWord := 0
  meterPub : List Byte := []
  waiting : Option (Presence × Ns) := none
  releaseForce : Bool := false
  provisions : Nat := 0
  breachSinceStart : Bool := false
deriving DecidableEq, Repr

/-- What the factory fixed in the module: its serial, its base MAC address, its hardware revision, the touch
threshold DELTA the hold-up store's ESR when new, in 0.1 mΩ, and the threshold of S2 in mV
(R33, R173, R239, R449, R470). -/
structure Factory where
  serial : DWord := 0
  mac : BitVec 48 := 0
  hwRev : Nat := 0
  delta : Nat := 0
  esr0 : Nat := 0
  girdleMv : Nat := 0
deriving DecidableEq, Repr

/-- Why the machine stops with a fault. No command of this block stops it for a fault of its own: the spec reports every
failure in registers and events. The one constructor is there for an access of the model outside the image
memory of R289, which no command makes; safe. -/
inductive Fault where
  /-- An image or program memory address outside the memory (R295, R296). Raised by no command: each command checks
  its addresses first. Safe: the machine stops. -/
  | outsideMemory
deriving DecidableEq, Repr

/-- Why a command has no meaning. -/
inductive Refusal where
  /-- The command is not modelled yet; raised by Dispatch for an arm without a meaning. Safe. -/
  | notModelled (mnemonic : String)
  /-- The command's operands break WellFormed, so that no hardware could send it (for example six die temperatures are
  not six). Raised by the meanings that take such operands. Safe: the machine stops. -/
  | illFormed
deriving DecidableEq, Repr

/-- The state of the CW512 as a block: every register, buffer, queue, counter, mode and pin the spec gives it, the
command queue `pending` (first in, first out), and `free`, the model's own counter that makes each free value
fresh. -/
structure State where
  g : Glb := {}
  time : TimeSt := {}
  sup : Supply := {}
  key : KeySt := {}
  stg : Stage := {}
  take : Take := {}
  run : List Sec := []
  cfg : Cfg := {}
  prev : Cfg := {}
  jur : List Jur := []
  cyc : Cyc := {}
  rails : Vector Rail 256 := Vector.replicate 256 {}
  railReqs : List RailReq := []
  marginReqs : List MarginReq := []
  answers : List RailAnswer := []
  planner : Planner := {}
  seq : Seq := {}
  shut : ShutSt := {}
  motion : Motion := {}
  touch : Touch := {}
  mrst : Mrst := {}
  scan : Scan := {}
  trip : Trip := {}
  evt : Evt := {}
  nv : Nv := {}
  sealPg : Seal := {}
  inc : Inclusion := {}
  mem : List Host.Cell := []
  ecc : List Nat := []
  spn : Spn := {}
  lck : Lck := {}
  acc : AccErr := {}
  cmd : Cmd := {}
  hds : Hds := {}
  hsb : Hsb := {}
  fio : Fio := {}
  mtr : Mtr := {}
  reng : RecEng := {}
  age : Age := {}
  wdg : Wdg := {}
  lnk : Lnk := {}
  sec : Sec_ := {}
  fac : Factory := {}
  hostWr : List HostWr := []
  free : Nat := 0
  pending : List Instr := []
deriving DecidableEq, Repr

/-- The machine right after power is applied and before VIN has reached the start threshold: OFF (R18, R73), every
register at its Reset value of the spec (R12), "kept" fields at the values that the assumption log names. -/
def State.reset : State := {}

end Sys2Proof.Machine
end

