-- ==== Sys2Proof/Machine/Basics.lean ====
section
/-!
DEFINITION. Tables, codes and the small readings of the state that every other file uses.
-/
namespace Sys2Proof.Machine
open Sys2Proof

/-! ### Tables -/

/-- Entry `i` of a table replaced. -/
def tset {α : Type} {n : Nat} (v : Vector α n) (i : Fin n) (x : α) : Vector α n := v.set i x
/-- Entry `i` of a table changed by `f`. -/
def tmod {α : Type} {n : Nat} (v : Vector α n) (i : Fin n) (f : α → α) : Vector α n := v.set i (f v[i])
/-- Every entry of a table changed by `f`. -/
def tmap {α β : Type} {n : Nat} (f : α → β) (v : Vector α n) : Vector β n :=
  ⟨⟨v.toList.map f⟩, by simp⟩
/-- A counter that saturates at `m`. -/
def satInc (m x : Nat) : Nat := min m (x + 1)
/-- The 64-bit word of a natural number. -/
def dw (n : Nat) : DWord := BitVec.ofNat 64 n

/-! ### Codes -/

/-- STATE of GLB_STATE (R18). OFF has no code and reads as START until the link trains. -/
def ModSt.code : ModSt → Nat
  | .off => 0 | .start => 1 | .load => 2 | .check => 3 | .sequence => 4 | .run => 5 | .runDown => 6
  | .lastGasp => 7 | .safeHold => 8 | .unprovisioned => 9 | .stabled => 10
/-- PLAN_LEVEL of GLB_STATE. -/
def Level.code : Level → Nat
  | .normal => 0 | .lean => 1 | .coast => 2 | .reserve => 3 | .lastGasp => 4
/-- STATE of RSQ_RAIL_STAT. -/
def RailSt.code : RailSt → Nat
  | .off => 0 | .wait => 1 | .ramp => 2 | .up => 3 | .margin => 4 | .drain => 5 | .fault => 6 | .lockout => 7
  | .observe => 8 | .parked => 9
/-- CAUSE of RSQ_RAIL_STAT. -/
def Cause.code : Cause → Nat
  | .uv => 1 | .ov => 2 | .oc => 3 | .slowRise => 4 | .fastRise => 5 | .pgMismatch => 6 | .noDrain => 7
/-- The bit of a cause in SEEN (R128) and in CAUSES of a reaction set (R150); for a fault class, R276. -/
def Cause.bit : Cause → Nat
  | .uv => 0 | .ov => 1 | .oc => 2 | .slowRise => 3 | .fastRise => 4 | .pgMismatch => 5 | .noDrain => 6
/-- The name of a cause (R14). -/
def Cause.name : Cause → String
  | .uv => "UV" | .ov => "OV" | .oc => "OC" | .slowRise => "SLOW_RISE" | .fastRise => "FAST_RISE"
  | .pgMismatch => "PG_MISMATCH" | .noDrain => "NO_DRAIN"
/-- The order of R129 among causes of one fine tick, first first. -/
def Cause.rank : Cause → Nat
  | .ov => 0 | .oc => 1 | .uv => 2 | .fastRise => 3 | .slowRise => 4 | .pgMismatch => 5 | .noDrain => 6

/-! ### Time and module state -/

/-- Module time in ns (R34). -/
def State.now (s : State) : Ns := s.time.mtime.toNat
/-- UTC as a record carries it: 0 when INVALID (R281, R283). -/
def State.utcNow (s : State) : DWord := if s.time.utcQual = 0 then 0 else s.time.utc
/-- The first coarse tick edge at or after a time: where a counted duration that is held in coarse ticks begins (R8). -/
def usUp (t : Ns) : Ns := (t + 999) / 1000 * 1000
/-- The coarse tick edge from which a duration that starts now is counted (R8). -/
def State.tickUs (s : State) : Ns := usUp s.now
/-- One day of UTC in ns (R39). -/
def dayNs : Nat := 86400000000000
/-- Where in the day a due leap second acts (R39): a positive one once the count stands at 23:59:59.999 999 990, a negative one
at 23:59:58.999 999 990. -/
def TimeSt.leapHere (t : TimeSt) : Option Bool :=
  match t.leapDue with
  | some true => if dayNs ≤ t.utc.toNat % dayNs + 10 then some true else none
  | some false => if dayNs ≤ t.utc.toNat % dayNs + 1000000010 then some false else none
  | none => none
/-- The UTC count over one fine tick where no leap second acts (R36, R37): a slew moves it by 1 ns every 5 µs, which is 200 ppm.
DESIGN CHOICE: "the last servo rate" of HOLDOVER is the fine tick rate once a slew in progress has run out; the manual gives the
servo no other rate (log entry 115). -/
def TimeSt.runUtc (t : TimeSt) : TimeSt :=
  if t.slewLeft = 0 || t.mtime.toNat / 10 % 500 ≠ 0 then { t with utc := t.utc + 10 }
  else if 0 < t.slewLeft then { t with utc := t.utc + 11, slewLeft := t.slewLeft - 1 }
  else { t with utc := t.utc + 9, slewLeft := t.slewLeft + 1 }
/-- The UTC count over one fine tick (R36, R37, R39): it stands still for the 10⁸ fine ticks of a positive leap second and jumps
over a negative one. -/
def TimeSt.tickUtc (t : TimeSt) : TimeSt :=
  if t.utcQual = 0 then t
  else if 10 < t.leapLeft then { t with leapLeft := t.leapLeft - 10 }
  else if 0 < t.leapLeft then ({ t with leapLeft := 0 }).runUtc
  else match t.leapHere with
    | some true => { t with leapDue := none, leapLast := true, leapLeft := 1000000000 }
    | some false => { t with leapDue := none, leapLast := true, utc := t.utc + 1000000010 }
    | none => t.runUtc
/-- Module time over one fine tick (R34). -/
def TimeSt.tick (t : TimeSt) : TimeSt := { t.tickUtc with mtime := t.mtime + 10 }
/-- The times at the first fine tick edge after now, which stamp what happens now (R35). -/
def State.edge (s : State) : TimeSt := s.time.tick
/-- The stamp of an event that happens now (R35). -/
def State.stamp (s : State) : Ns := s.now + 10
/-- The UTC stamp of a record made now: 0 when INVALID (R35, R281, R283). -/
def State.stampUtc (s : State) : DWord := if s.time.utcQual = 0 then 0 else s.edge.utc
/-- The states in which the supervision cycle runs (R20). -/
def ModSt.cycleRuns : ModSt → Bool
  | .sequence | .run | .runDown => true
  | _ => false
/-- The cycle number as a later-fault entry carries it (R283). -/
def State.cycleNow (s : State) : DWord := if s.g.st.cycleRuns then s.cyc.num else 0
/-- The states in which the event router runs (R257, R260). -/
def State.routerRuns (s : State) : Bool :=
  match s.g.st with
  | .off | .stabled => false
  | .lastGasp => s.g.lgStep ≤ 3
  | _ => true
/-- The states whose time counts as operating time (R264). -/
def ModSt.operating : ModSt → Bool
  | .off | .stabled => false
  | _ => true
/-- The host link and the maintenance port can be up: in every state outside OFF and STABLED, in START only once the internal rails
are good (R80, R84). -/
def State.linksPowered (s : State) : Bool := s.g.st.operating && (s.g.st != .start || s.sup.railsGood)
/-- The maintenance port runs (R18, R56, R471, R477): where LINK_EN enables it, before any LINKS section is in force, and, so that
diagnosis is possible, in SAFE_HOLD and UNPROVISIONED whatever LINK_EN says (DEDUCED, log entry 119). -/
def State.portEn (s : State) : Bool :=
  match s.cfg.links with
  | some l => l.linkEn.getLsbD 1 || s.g.st = .safeHold || s.g.st = .unprovisioned
  | none => true

/-- The secret store holds a customer key that can be read (R21, R483). -/
def State.hasKey (s : State) : Bool := s.sec.wrapKey && !s.sec.custKey.isEmpty

/-- Rail `n`. -/
def State.rail (s : State) (n : RailN) : Rail := s.rails[n]
/-- Rail `n` changed by `f`. -/
def State.modRail (s : State) (n : RailN) (f : Rail → Rail) : State := { s with rails := tmod s.rails n f }
/-- The entry in force of rail `n`, when the configuration has one. -/
def State.railCfg (s : State) (n : RailN) : Option CRail := s.cfg.rail[n]
/-- Whether rail `n` is declared used (R56, R114). -/
def State.railUsed (s : State) (n : RailN) : Bool :=
  match s.railCfg n with
  | some c => c.used
  | none => false
/-- The MODULE section in force, else that of the last successful LOAD since leaving OFF (R86). -/
def State.modCfg (s : State) : Option CModule :=
  match s.cfg.module with
  | some m => some m
  | none => s.prev.module
/-- PFW_N is enabled (R75, R86). -/
def State.pfwUsed (s : State) : Bool := match s.modCfg with | some m => m.pfwUsed | none => false
/-- FAULT_CLASSES in force: 0 until a LOAD succeeds (R276). -/
def State.faultClasses (s : State) : BitVec 32 :=
  match s.cfg.module with
  | some m => m.faultClasses
  | none => 0

end Sys2Proof.Machine
end

