-- ==== Sys2Proof/Machine/Windows.lean ====
section
/-!
DEFINITION. Windows and thresholds (R116, R184, R210, R229-R235): what the comparators judge against, as pure readings of
the state, and the output a comparator takes at a level.
-/
namespace Sys2Proof

/-- SENSE full scale in µV (R61, R114). -/
def CRail.fs (c : CRail) : Int := if c.range = 0 then 1600000 else if c.range = 1 then 6400000 else 32000000
/-- Code of the effective FAULT_LO: rounded down (R116). -/
def CRail.loCode (c : CRail) : Int := c.faultLo * 1024 / c.fs
/-- Code of the effective FAULT_HI: rounded up (R116). -/
def CRail.hiCode (c : CRail) : Int := -((-(c.faultHi * 1024)) / c.fs)
/-- A SENSE result code in 1/256 µV (R210). -/
def CRail.volts (c : CRail) (code : Int) : Int := code * (c.fs * 256 / 32768)
/-- The tracking band's half width T in steps (R233). -/
def CRail.tolSteps (c : CRail) : Int := -((-(c.rampTol * 1024)) / c.fs)
/-- The rails that a plan's steps name. -/
def CPlan.rails (p : CPlan) : List RailN := p.groups.flatMap (fun g => g.steps.flatMap (·.rails))

/-- The rails of a group. -/
def CGroup.rails (g : CGroup) : List RailN := g.steps.flatMap (·.rails)
/-- Group and step of a plan that name a rail. -/
def CPlan.locate (p : CPlan) (n : RailN) : Option (Nat × Nat) :=
  (List.range p.groups.length).findSome? (fun g => match p.groups[g]? with
    | none => none
    | some x => (x.steps.findIdx? (fun c : CStep => c.rails.contains n)).map (fun k => (g, k)))
/-- The groups that wait on `g` through AFTER, directly or in turn, with `g` itself. -/
def CPlan.dependents (p : CPlan) (g : Nat) : List Nat :=
  ((List.range p.groups.length).zip p.groups).foldl (fun (acc : List Nat) x =>
    match x.2.after with
    | some a => if acc.contains a then acc ++ [x.1] else acc
    | none => acc) [g]

end Sys2Proof

namespace Sys2Proof.Machine
open Sys2Proof

/-! ### Windows and thresholds (R116, R184, R210, R229-R233) -/

/-- The lower edge of the margin window, in 1/256000 µV: the effective edge is k × FS ÷ 1,024 (R184). -/
def marginLo (m : CModule) (c : CRail) : Int := c.loCode * c.fs * 250 + 256 * m.marginGuard * c.nominal
/-- The upper edge of the margin window, in 1/256000 µV (R184). -/
def marginHi (m : CModule) (c : CRail) : Int := c.hiCode * c.fs * 250 - 256 * m.marginGuard * c.nominal
/-- Whether a voltage in 1/256000 µV lies in the margin window of R184. -/
def inMargin (m : CModule) (c : CRail) (v : Int) : Bool := marginLo m c ≤ v && v ≤ marginHi m c
/-- Whether a voltage in 1/256 µV lies in the margin window of R184. -/
def inMarginWindow (m : CModule) (c : CRail) (v : Int) : Bool := inMargin m c (1000 * v)
/-- The ramp reference in 1/256 of 10 nV, in which the start voltage V0 is exact (R232). -/
def Rail.ref (r : Rail) (c : CRail) (now : Ns) : Int :=
  let v0 := r.v0 * 100
  match r.delayEndAt with
  | none => v0
  | some t => min (c.nominal * 25600) (v0 + c.rampSlope * 256 * ((now - t) / 10 : Nat))
/-- The state that causes are judged in: a rail that a reaction set drops to DRAIN in this fine tick still trips by the state it
was in, since two rails of one set may trip in one fine tick (R130). -/
def Rail.judged (r : Rail) (now : Ns) : RailSt := if r.st = .drain && r.dropped.isSome && r.since = now then r.was else r.st
/-- The thresholds of a rail comparator by rail state (R231, R233); none is off. -/
def railThr (r : Rail) (c : CRail) (now : Ns) : Option Int × Option Int :=
  match r.judged now with
  | .parked => (none, none)
  | .up | .margin => (some c.loCode, some c.hiCode)
  | .ramp =>
    let ref := r.ref c now
    let fl := ref * 1024 / (c.fs * 25600)
    let ce := -((-(ref * 1024)) / (c.fs * 25600))
    let lo := fl - c.tolSteps
    (if r.delayEndAt.isSome && 1 ≤ lo then some lo else none, some (min (ce + c.tolSteps) c.hiCode))
  | _ => (none, some c.hiCode)
/-- Whether the fixed-speed comparators have their thresholds (R243). -/
def State.cmpPowered (s : State) : Bool :=
  s.g.loadOk && (match s.g.st with
    | .off | .stabled | .start | .load => false
    | .lastGasp => s.g.lgStep ≤ 3
    | _ => true)
/-- The scan entry of an input in force, with its mode (R209). -/
def State.entryOf (s : State) (input : BitVec 10) : Option CScanEntry :=
  s.cfg.scan.toList.findSome? (fun o => match o with
    | some l => l.entries.find? (fun e => e.input == input)
    | none => none)
/-- The comparator number of rail `n` (R228). -/
def railCmp (n : RailN) : Fin 320 := ⟨n.val, by omega⟩
/-- The TRIP record of comparator `i` (R241). -/
def State.cmpRec (s : State) (i : Fin 320) : Option CCmp :=
  match s.cfg.trip with
  | some t => t.cmps[i.val]?
  | none => none
/-- Analog `a` stands in current mode (R209). -/
def State.currentMode (s : State) (a : Nat) : Bool :=
  match s.entryOf (0x200#10 + BitVec.ofNat 10 a) with
  | some e => e.currentMode
  | none => false
/-- Base and span of a comparator's threshold coding, in µV or nA (R229). -/
def State.cmpSpan (s : State) (i : Fin 320) : Int × Int :=
  if h : i.val < 256 then
    match s.railCfg ⟨i.val, h⟩ with
    | some c => (0, c.fs)
    | none => (0, 1600000)
  else if s.currentMode (i.val - 256) then (0, 25000000) else (-10000000, 20000000)
/-- The thresholds of comparator `i` in force (R231, R235); none is off. -/
def State.thr (s : State) (i : Fin 320) : Option Int × Option Int :=
  if !s.cmpPowered then (none, none)
  else if h : i.val < 256 then
    match s.railCfg ⟨i.val, h⟩ with
    | some c => if c.used then railThr (s.rail ⟨i.val, h⟩) c s.now else (none, none)
    | none => (none, none)
  else
    match s.cmpRec i with
    | some c => if c.used then (if c.loEn then some (c.lo : Int) else none, if c.hiEn then some (c.hi : Int) else none)
                else (none, none)
    | none => (none, none)
/-- Hysteresis steps of a HYST code (R230). -/
def hystSteps (h : BitVec 2) : Int := if h = 0 then 0 else if h = 1 then 5 else if h = 2 then 15 else 31
/-- The output of a comparator whose input level, in threshold steps times the span, is `x` = (level − base) × 1,024
(R230): a departure needs no hysteresis, a return lies H steps inside the threshold crossed. -/
def judgeOut (out : CmpOut) (lo hi : Option Int) (span h x : Int) : CmpOut :=
  let fresh := match lo, hi with
    | some l, some u => if x < l * span then .below else if u * span < x then .above else .inside
    | some l, none => if x < l * span then .below else .inside
    | none, some u => if u * span < x then .above else .inside
    | none, none => .inside
  match out, lo, hi with
  | .below, some l, _ => if x < (l + h) * span then .below else fresh
  | .above, _, some u => if (u - h) * span < x then .above else fresh
  | _, _, _ => fresh
/-- The output comparator `i` takes at a level, against the thresholds in force. -/
def State.judgeCmp (s : State) (i : Fin 320) (level : Int) : CmpOut :=
  let t := s.thr i
  let sp := s.cmpSpan i
  let h := match s.cmpRec i with | some c => hystSteps c.hyst | none => 0
  judgeOut s.trip.cmp[i].out t.1 t.2 sp.2 h ((level - sp.1) * 1024)

/-- Whether the slot that runs on some converter measures SENSE of rail `n` (R195, R203). -/
def State.measuring (s : State) (n : RailN) : Bool :=
  s.scan.conv.toList.any (fun c => match c.cur with
    | some k => k.entry.input == BitVec.ofNat 10 n.val
    | none => false)

end Sys2Proof.Machine
end

