-- ==== Sys2Proof/Machine/Words.lean ====
section
/-!
DEFINITION. Register words that images, records and telegrams carry besides BAR0: each as its chapter lays its fields
out. Machine/Registers.lean uses them for BAR0.
-/
namespace Sys2Proof

/-- MODE of a point record (R392). -/
def PMode.code : PMode → Nat
  | .unused => 0 | .inputT1 => 1 | .inputT3 => 2 | .input110 => 3 | .output => 4
/-- SAFE of a point record (R392). -/
def SafeVal.code : SafeVal → Nat
  | .off => 0 | .on => 1 | .hold => 2

end Sys2Proof

namespace Sys2Proof.Machine
open Sys2Proof

/-- A word made of fields: place of the lowest bit, width and value, the value cut to its width (R11). -/
def pack (l : List (Nat × Nat × Nat)) : Word :=
  BitVec.ofNat 32 (l.foldl (fun a f => a + (f.2.2 % 2 ^ f.2.1) * 2 ^ f.1) 0)
/-- A one-bit field. -/
def bit1 (p : Nat) (b : Bool) : Nat × Nat × Nat := (p, 1, b.toNat)
/-- The two's complement code of an integer in `w` bits. -/
def scode (w : Nat) (x : Int) : Nat := (x % (2 ^ w : Int)).toNat
/-- A value that saturates at the top of its field. -/
def sat (m x : Nat) : Nat := min m x
/-- The bytes of a natural number, least significant first (R11). -/
def leBytes : Nat → Nat → List Byte
  | 0, _ => []
  | n + 1, x => BitVec.ofNat 8 (x % 256) :: leBytes n (x / 256)
/-- The bytes of a natural number, most significant first. -/
def beBytes (n x : Nat) : List Byte := (leBytes n x).reverse
/-- The number that bytes spell, least significant first. -/
def leNat : List Byte → Nat
  | [] => 0
  | b :: rest => b.toNat + 256 * leNat rest
/-- One byte taken into a CRC-32 (reflected polynomial 0xEDB8_8320). -/
def crcByte (c : Word) (b : Byte) : Word :=
  (List.range 8).foldl (fun (c : Word) _ => if c.getLsbD 0 then (c >>> 1) ^^^ 0xEDB88320 else c >>> 1)
    (c ^^^ BitVec.setWidth 32 b)
/-- CRC-32 of bytes. -/
def crc32 (l : List Byte) : Word := ~~~(l.foldl crcByte 0xFFFFFFFF)
/-- Bytes with their CRC-32 behind them, least significant byte first. -/
def withCrc (l : List Byte) : List Byte := l ++ leBytes 4 (crc32 l).toNat
/-- The words that bytes spell, padded with 0x00 to `n` words. -/
def bytesToWords : Nat → List Byte → List Word
  | 0, _ => []
  | n + 1, l => BitVec.ofNat 32 (leNat (l.take 4)) :: bytesToWords n (l.drop 4)
/-- The bytes of words, least significant first. -/
def wordsToBytes (l : List Word) : List Byte := l.flatMap (fun w => leBytes 4 w.toNat)
/-- The bytes of a name, padded with 0x00 to 16 (R283). -/
def nameBytes (n : String) : List Byte :=
  ((n.toList.map (fun c => BitVec.ofNat 8 c.toNat)) ++ List.replicate 16 (0#8)).take 16

/-- GLB_STATE (R18). OFF has no code and reads as START. -/
def State.wGlbState (s : State) : Word :=
  pack [(0, 4, if s.g.st = .off then 1 else s.g.st.code), (4, 3, s.g.level.code), bit1 8 s.motion.moving,
    bit1 9 s.g.fault, bit1 10 s.g.ready, bit1 11 s.g.degraded]
/-- Whether PFW_N counts: asserted, filtered and enabled by the key (R75). -/
def State.pfw (s : State) : Bool :=
  s.sup.pfwPin && s.pfwUsed
/-- GLB_SUPPLY (R59, R75). -/
def State.wSupply (s : State) : Word :=
  pack [(0, 16, sat 65535 s.sup.vinMv), bit1 16 s.sup.present, bit1 17 s.pfw, bit1 18 s.sup.lossSeen,
    bit1 19 s.sup.interruptionSeen]
/-- Whether the store charges (R78). -/
def State.charging (s : State) : Bool :=
  s.sup.present && decide (s.sup.bankMv < 27000) && !s.age.testing &&
    (match s.g.st with
    | .off | .stabled | .lastGasp => false
    | _ => true)
/-- Whether the bank is at or below the reserve threshold (R77). -/
def State.atReserve (s : State) : Bool := (s.trip.smp[(1 : Fin 16)]).beyond
/-- GLB_HOLDUP (R76-R81). -/
def State.wHoldup (s : State) : Word :=
  pack [(0, 16, sat 65535 s.sup.usableMj), bit1 16 s.charging, bit1 17 s.atReserve, bit1 18 s.nv.cur.fade,
    bit1 19 s.sup.stalled, (20, 12, sat 4095 s.nv.cur.fullDj)]
/-- Whether a report above 0.5 km/h arrived within 1 s (R165). -/
def State.netMoving (s : State) : Bool :=
  match s.motion.lastFast with
  | some t => decide (s.now ≤ t + 1000000000)
  | none => false
/-- Whether a report of at most 0.5 km/h arrived within 1 s (R165). -/
def State.netStill (s : State) : Bool :=
  match s.motion.lastSlow with
  | some t => decide (s.now ≤ t + 1000000000)
  | none => false
/-- STANDSTILL_CONFIRM in ns (R166, R167). -/
def State.confirmNs (s : State) : Ns :=
  match s.modCfg with
  | some m => m.standstillConfirm * 100000000
  | none => 0
/-- The confirmation time left, in 100 ms (R166). -/
def State.confirmLeft (s : State) : Nat :=
  match s.motion.stillSince with
  | none => 0
  | some t => if s.motion.confirmed then 0 else (s.confirmNs - (s.now - t) + 99999999) / 100000000
/-- GLB_MOTION (R165, R166). -/
def State.wMotion (s : State) : Word :=
  pack [bit1 0 s.motion.moving, bit1 1 s.motion.standstillIn, bit1 2 s.netMoving, bit1 3 s.netStill,
    bit1 4 s.motion.confirmed, (5, 10, s.confirmLeft), (16, 16, sat 65535 s.motion.netSpeed)]
/-- RSQ_PLAN_SEL. -/
def State.wPlanSel (s : State) : Word :=
  pack [(0, 3, s.seq.held.val), (4, 3, s.seq.level.code), (8, 3, s.seq.levelPlan.val), (16, 16, s.seq.adoptions)]
/-- STATE of RSQ_SEQ_STAT (R159). -/
def SeqState.code : SeqState → Nat
  | .idle => 0 | .running => 1 | .complete => 2 | .retryShutdown => 3 | .retryPause => 4 | .exhausted => 5
  | .stopped => 6 | .shutdown => 7
/-- The pause left, in ms (R155). -/
def State.pauseLeft (s : State) : Nat :=
  if s.seq.st = .retryPause then
    match s.cfg.plan[s.seq.held] with
    | some p => sat 65535 ((p.retryPause * 1000000 - (s.now - s.seq.pauseAt) + 999999) / 1000000)
    | none => 0
  else 0
/-- RSQ_SEQ_STAT. -/
def State.wSeqStat (s : State) : Word :=
  pack [(0, 4, s.seq.st.code), (4, 4, s.seq.attempt),
    (8, 3, match s.cfg.plan[s.seq.held] with | some p => p.retries | none => 0), bit1 11 s.seq.barred,
    (16, 16, s.pauseLeft)]
/-- The codes of *Failure reasons* (R154). -/
def FailReason.code : FailReason → Nat
  | .railFault => 1 | .stepTimeout => 2 | .dropped => 3 | .commandedOff => 4 | .noDrain => 5 | .railUnavailable => 6
/-- RSQ_SEQ_FAIL. -/
def State.wSeqFail (s : State) : Word :=
  let f := s.seq.fail
  pack [(0, 4, match f.reason with | some r => r.code | none => 0), (4, 6, f.group), (10, 5, f.step), (16, 8, f.rail),
    (24, 3, f.plan)]
/-- RSQ_CHAIN. -/
def State.wChain (s : State) : Word := s.seq.casOut ++ s.seq.casIn
/-- STATE of RSQ_GROUP_STAT. -/
def GroupState.code : GroupState → Nat
  | .idle => 0 | .running => 1 | .up => 2 | .shuttingDown => 3 | .down => 4 | .failed => 5
/-- DOWN_REASON of RSQ_GROUP_STAT. -/
def DownReason.code : DownReason → Nat
  | .none => 0 | .domainRequest => 1 | .casInLost => 2 | .shed => 3
/-- RSQ_GROUP_STAT of a group. -/
def GroupSt.word (g : GroupSt) : Word :=
  pack [(0, 3, g.st.code), (4, 5, (g.steps.findIdx? (fun x => !x.done)).getD 0),
    (16, 2, if g.st = .down then g.reason.code else 0)]
/-- ANSWER of RSQ_RAIL_STAT. -/
def Ans.railCode : Ans → Nat
  | .accepted => 1 | .noChange => 2 | .refusedDrain => 3 | .refusedFault => 4 | .refusedLockout => 5
  | .refusedObserve => 6 | .refusedParked => 7 | .refusedState => 8 | .contradicted => 9 | .pending => 10
  | _ => 0
/-- EN is asserted in RAMP, UP and MARGIN, and in no other state (R124). -/
def RailSt.en : RailSt → Bool
  | .ramp | .up | .margin => true
  | _ => false
/-- What the EN contact of rail `n` does (R61, R62): high impedance in OFF and in PARKED, else asserted or deasserted. -/
def State.enPin (s : State) (n : RailN) : Option Bool :=
  if s.g.st = .off || (s.rail n).st = .parked then none else some (s.rail n).st.en
/-- The current code of the TRIM contact of rail `n`; none is high impedance, in OFF and on a rail whose entry forbids trim
(R61, R63). -/
def State.trimPin (s : State) (n : RailN) : Option Int :=
  match s.railCfg n with
  | some c => if s.g.st = .off || !c.trimAllowed then none else some (s.rail n).mg.code
  | none => none
/-- RSQ_RAIL_STAT of a rail. -/
def Rail.word (r : Rail) : Word :=
  pack [(0, 4, r.st.code), (4, 3, match r.cause with | some c => c.code | none => 0), bit1 7 (!r.onPending.isEmpty),
    bit1 8 r.drained, bit1 9 (r.pg && r.st != .parked), bit1 10 r.st.en, bit1 11 r.warnLo, bit1 12 r.warnHi,
    bit1 13 r.dropped.isSome, bit1 14 r.warm, (16, 4, r.answer.railCode),
    (24, 7, match r.dropped with | some k => k.val | none => 0)]
/-- MODE of RSQ_MARGIN_STAT. -/
def MarginMode.code : MarginMode → Nat
  | .none => 0 | .hold => 1 | .probe => 2 | .ret => 3
/-- END_REASON of RSQ_MARGIN_STAT. -/
def EndReason.code : EndReason → Nat
  | .none => 0 | .endCmd => 1 | .holdExpired => 2 | .marginOut => 3 | .railLeft => 4 | .moduleState => 5
  | .probeDone => 6 | .level => 7 | .groupRamp => 8 | .snapshotPreempted => 9 | .clipped => 10 | .converter => 11
  | .preemptedByHold => 12 | .abortedHost => 13
/-- ANSWER of RSQ_MARGIN_STAT. -/
def Ans.marginCode : Ans → Nat
  | .accepted => 1 | .noChange => 2 | .refusedState => 3 | .refusedRail => 4 | .refusedTrim => 5
  | .refusedRange => 6 | .refusedMoving => 7 | .contradicted => 8 | .clipped => 9
  | _ => 0
/-- RSQ_MARGIN_STAT of a rail. -/
def Rail.marginWord (r : Rail) : Word :=
  let m := r.mg
  pack [(0, 2, m.mode.code), bit1 2 (m.code != m.target), bit1 3 m.clipped, (4, 4, m.answer.marginCode),
    (8, 12, scode 12 m.code), (20, 4, m.endReason.code)]
/-- OUT of TRP_CMP. -/
def CmpOut.code : CmpOut → Nat
  | .below => 0 | .inside => 1 | .above => 2
/-- The offset trim in force of comparator `i`, in 1/64 step (R238). -/
def State.trimNow (s : State) (i : Fin 320) : Int :=
  s.nv.cur.cmpTrim[i] + (match s.trip.trimLag.find? (fun x => x.1 == i) with | some x => x.2 | none => 0)
/-- A new offset trim of comparator `x.1` is due: the trim in force moves toward it from where it stands (R238). -/
def State.lagTrim (s : State) (x : Fin 320 × Int) : State :=
  let rest := s.trip.trimLag.filter (fun y => y.1 != x.1)
  let d := s.trimNow x.1 - x.2
  { s with trip := { s.trip with trimLag := if d = 0 then rest else rest ++ [(x.1, d)] } }
/-- The offset trims in force over one fine tick: each moves by 1/64 of a step toward its new value (R238). -/
def State.slewTrims (s : State) : State :=
  let step (d : Int) : Int := if 0 < d then d - 1 else d + 1
  { s with trip := { s.trip with
      trimLag := (s.trip.trimLag.map (fun x => (x.1, step x.2))).filter (fun x => x.2 != 0) } }
/-- TRP_CMP of comparator `i`. -/
def State.wCmp (s : State) (i : Fin 320) : Word :=
  let c := s.trip.cmp[i]
  pack [(0, 2, c.out.code), bit1 2 c.loEdge, bit1 3 c.hiEdge,
    (4, 2, match s.cmpRec i with | some r => r.hyst.toNat | none => 0),
    bit1 6 (if h : i.val < 256 then decide ((s.rail ⟨i.val, h⟩).st = .ramp) else false),
    (8, 6, scode 6 (s.trimNow i)), (16, 16, c.edges)]
/-- The record of sampled comparator `j`, for S6-S15 (R241). -/
def State.smpRec (s : State) (j : Fin 16) : Option CSmp :=
  if j.val < 6 then none
  else match s.cfg.trip with
    | some t => t.smps[j.val - 6]?
    | none => none
/-- TRP_SMP of sampled comparator `j`. S4 watches the release of PFW_N, the rest of S0-S5 a fall
(R85, R239). -/
def State.wSmp (s : State) (j : Fin 16) : Word :=
  let x := s.trip.smp[j]
  let rc := s.smpRec j
  pack [bit1 0 x.beyond, bit1 1 x.edge,
    bit1 2 (decide (j.val < 6) || (match rc with | some r => r.used | none => false)),
    bit1 3 (match rc with | some r => r.wake | none => false),
    bit1 4 (match rc with | some r => r.rising | none => decide (j.val = 4)),
    (8, 6, match rc with | some r => r.point.val | none => 0), (16, 16, x.crossings)]
/-- HDS_THERM of domain `h`: T_h in 0.01 °C, rounded down (R341). -/
def State.wTherm (s : State) (h : Fin 8) : Word :=
  let t := s.hds.therm[h]
  pack [(0, 16, scode 16 (t.temp * 100).floor), bit1 16 t.limited, bit1 17 t.isOver,
    bit1 18 (match s.cfg.hds with
      | some c => (match c.therms[h.val]? with | some x => x.used | none => false)
      | none => false)]
/-- SCN_RES of a result (R211). -/
def Res.word (r : Res) : Word :=
  pack [(0, 16, scode 16 r.value), bit1 16 r.ovr, bit1 17 r.settling, bit1 18 r.recovering, bit1 19 r.windowOut,
    (20, 10, r.input.toNat), bit1 30 r.covered]
/-- SCN_SNAP_INFO of a snapshot. -/
def Snap.word (b : Snap) : Word :=
  pack [(0, 10, b.input.toNat), bit1 10 b.lowRate, bit1 11 b.absent, bit1 12 b.aborted, (16, 8, b.ovrCount),
    (24, 8, b.gaps)]
/-- FIO_POINT of point `p`. -/
def State.wPoint (s : State) (p : PointN) : Word :=
  let k : Option CPoint := match s.cfg.field[Fin.ofNat 8 (p.val / 16)] with
    | some f => f.points[p.val % 16]?
    | none => none
  let x := s.fio.point[p]
  pack [(0, 3, match k with | some c => c.mode.code | none => 0), (3, 2, match k with | some c => c.safe.code | none => 0),
    bit1 5 x.raw, bit1 6 x.ovlSeen, (16, 16, match k with | some c => c.debounceUs | none => 0)]

end Sys2Proof.Machine
end

