-- ==== Sys2Proof/Machine/Ops.lean ====
section
/-!
DEFINITION. The named operations that every meaning shares: events and interrupt arbitration, sync signals, the
later-fault list, juridical entries and record admission, gathering for the non-volatile store, the common snapshot
trigger, the freeze of the Inclusion record and the FAULT output.
-/
namespace Sys2Proof

/-- The length of a record: header and payload, padded to 16 bytes (R427). -/
def Rec.len (r : Rec) : Nat := 64 + (r.payloadLen + 15) / 16 * 16

end Sys2Proof

namespace Sys2Proof.Machine
open Sys2Proof

/-! ### Interrupt sources and arbitration (R246-R254) -/

/-- The group of a source (R248). -/
def srcGroup (n : Nat) : Fin 32 := Fin.ofNat 32 (n / 32)
/-- The state of source `n`; none is IDLE (R249). -/
def Evt.find (e : Evt) (n : Nat) : Option SrcSt := (e.srcs.find? (fun p => p.1 == n)).map (·.2)
/-- Source `n` put in a state, keeping the list in order of number. -/
def srcsPut (n : Nat) (x : SrcSt) : List (Nat × SrcSt) → List (Nat × SrcSt)
  | [] => [(n, x)]
  | (m, y) :: rest =>
    if n < m then (n, x) :: (m, y) :: rest
    else if n = m then (n, x) :: rest
    else (m, y) :: srcsPut n x rest
/-- Source `n` back to IDLE. -/
def srcsDrop (n : Nat) (l : List (Nat × SrcSt)) : List (Nat × SrcSt) := l.filter (fun p => p.1 != n)
/-- Whether the mask of source `n` is set (R250). -/
def Evt.masked (e : Evt) (n : Nat) : Bool := e.mask[srcGroup n].getLsbD (n % 32)
/-- Whether target `t` is eligible (R251). -/
def Evt.eligible (e : Evt) (t : TgtN) : Bool :=
  e.msixEn && !e.fnMask && !e.vecMask.getLsbD t && e.tgt[t].prio != 0xFF && e.tgt[t].source.isNone
/-- The better of two targets by R252: the lower priority value, on a tie the lower number (`a` comes first). -/
def Evt.better (e : Evt) (a : Option TgtN) (t : TgtN) : Option TgtN :=
  match a with
  | none => some t
  | some b => if e.tgt[t].prio < e.tgt[b].prio then some t else some b
/-- The target that a pass would assign a source with routing set `route` to (R252). -/
def Evt.best (e : Evt) (route : BitVec 64) : Option TgtN :=
  ((List.finRange 64).filter (fun t : TgtN => route.getLsbD t.val && e.eligible t)).foldl e.better none
/-- One source's turn in an arbitration pass (R252): assigned if it is PENDING, unmasked, its group not barred and a
target of its routing set eligible; the MSI-X message is sent and a hold-off above 0 bars the group (R254). -/
def Evt.tryAssign (e : Evt) (n : Nat) : Evt :=
  match e.find n with
  | some ⟨false, stamp⟩ =>
    if e.masked n || e.barred.getLsbD (srcGroup n) then e
    else
      match e.best e.route[Fin.ofNat 1024 n] with
      | none => e
      | some t =>
        { e with
          srcs := srcsPut n ⟨true, stamp⟩ e.srcs
          tgt := tmod e.tgt t (fun x => { x with source := some n, claimed := false, stamp := stamp })
          msix := t :: e.msix
          barred := if e.holdoff[srcGroup n] = 0 then e.barred else e.barred ||| (1#32 <<< (n / 32)) }
  | _ => e
/-- A whole arbitration pass, lowest source number first (R252). -/
def Evt.arbitrate (e : Evt) : Evt := (e.srcs.map (·.1)).foldl Evt.tryAssign e
/-- Whether some target has become eligible since `old`, a cause of a pass (R252). -/
def Evt.gained (e old : Evt) : Bool := (List.finRange 64).any (fun t : TgtN => e.eligible t && !old.eligible t)
/-- A pass runs where it has a cause (R252). -/
def Evt.passIf (e : Evt) (cause : Bool) : Evt := if cause then e.arbitrate else e
/-- An event reaches its source (R249): IDLE becomes PENDING and a pass runs; otherwise the event is lost. -/
def Evt.post (e : Evt) (n : Nat) (stamp : Ns) : Evt :=
  match e.find n with
  | none => ({ e with srcs := srcsPut n ⟨false, stamp⟩ e.srcs }).arbitrate
  | some _ =>
    { e with
      lost := e.lost ||| (1#32 <<< (n / 32))
      lostCount := tmod e.lostCount (srcGroup n) (satInc 65535)
      lostNow := e.lostNow.filter (fun x => x.stamp == stamp) ++
        [⟨n, stamp, e.lost.getLsbD (n / 32), e.lostCount[srcGroup n]⟩] }
/-- A completion of source `n` in the fine tick `stamp` (R249, R253): it is taken before an event of its source in that tick, which
is then not lost but PENDING; otherwise the source is IDLE. -/
def Evt.completed (e : Evt) (n : Nat) (stamp : Ns) : Evt :=
  let mine (x : LostEv) : Bool := x.stamp == stamp && srcGroup x.src == srcGroup n
  match e.lostNow.find? (fun x => x.stamp == stamp && x.src == n), e.lostNow.find? mine with
  | some x, some first =>
    let rest := (e.lostNow.erase x).filter mine
    let bit := e.lost.getLsbD (n / 32) && (first.bitWas || !rest.isEmpty)
    { e with
      srcs := srcsPut n ⟨false, stamp⟩ e.srcs
      lost := if bit then e.lost else e.lost &&& ~~~(1#32 <<< (n / 32))
      lostCount := tset e.lostCount (srcGroup n) (min 65535 (first.countWas + rest.length))
      lostNow := e.lostNow.erase x }
  | _, _ => { e with srcs := srcsDrop n e.srcs }
/-- An event handled by the router alone: its source and the event log (R246, R249). -/
def State.routed (s : State) (n detail : Nat) : State :=
  { s with evt := { s.evt.post n s.stamp with log := (⟨s.stamp, n, detail, decide (0 < s.edge.leapLeft)⟩ :: s.evt.log).take 1024 } }

/-! ### Programs taken up at a bead boundary (R291, R299, R313, R317) -/

/-- Pair `l` changed by `f`. -/
def State.modPair (s : State) (l : LPairN) (f : LPair → LPair) : State :=
  { s with spn := { s.spn with lpair := tmod s.spn.lpair l f } }
/-- Program `n` changed by `f`. -/
def State.modProg (s : State) (n : ProgN) (f : ProgSt → ProgSt) : State :=
  { s with spn := { s.spn with prog := tmod s.spn.prog n f } }
/-- Whether program `n` is a task (R309). -/
def State.isTask (s : State) (n : ProgN) : Bool :=
  match s.cfg.prog[n] with | some p => p.task | none => false
/-- The coarse tick of now, 32 bits (R302). -/
def State.coarse (s : State) : Word := BitVec.ofNat 32 (s.now / 1000)
/-- START of a bead: the word index of its first instruction (R309). -/
def State.beadStart (s : State) (n : ProgN) (b : Nat) : Nat :=
  match s.cfg.prog[n] with
  | some p => (match p.beads[b]? with | some e => e.1 | none => 0)
  | none => 0
/-- Program `n` takes pair `l` at a bead boundary: registers from its checkpoint, the reference time T of R302, and ACC
0xFFFF_FFFF after DEADLOCK_BROKEN (R306, R317). -/
def State.takeUp (s : State) (l : LPairN) (n : ProgN) : State :=
  let p := s.spn.prog[n]
  let acc := if p.woken = some true then 0xFFFFFFFF else p.ck.regs.acc
  let t : Word := if s.isTask n then s.coarse else BitVec.ofNat 32 (s.cyc.freezeAt / 1000)
  let regs := { p.ck.regs with acc := acc, calls := [], loops := [], pc := s.beadStart n p.ck.bead }
  let s1 := s.modProg n (fun p => { p with
    st := .running, waitObj := none, woken := none, ck := { p.ck with regs := regs, t := t } })
  s1.modPair l (fun x => { x with
    cur := some n, regs := regs, bead := p.ck.bead, t := t, beadAt := s.now, journal := [], buf := [] })
/-- The first bead of a run: the init bead when INIT is set and it is due, else bead 1; without INIT bead 0 (R309). -/
def State.firstBead (s : State) (n : ProgN) : Nat :=
  match s.cfg.prog[n] with
  | some p => if p.init && !s.spn.prog[n].initDue then 1 else 0
  | none => 0
/-- A run of a cyclic program starts: registers 0, at its first bead (R299, R309). -/
def State.startRun (s : State) (n : ProgN) : State :=
  s.modProg n (fun p => { p with ck := { regs := {}, bead := s.firstBead n }, initDue := false, startAt := s.now })
/-- Whether a task bead may start on its pair: its worst case ends by the next closing tick (R291). -/
def State.taskFits (s : State) (n : ProgN) : Bool :=
  match s.cfg.prog[n] with
  | some p =>
    let w := match p.beads[s.spn.prog[n].ck.bead]? with | some e => e.2 | none => 0
    decide (s.now * 10 + w * max 4096 s.nv.cur.factor.toNat / 4096 ≤ s.cyc.closeAt * 10)
  | none => false
/-- Whether a cyclic program of pair `l` is still in its run (R291). -/
def State.cyclicOpen (s : State) (l : LPairN) : Bool :=
  (List.finRange 256).any (fun n : ProgN => match s.cfg.prog[n] with
    | some p => !p.task && p.pair == l &&
        (decide (s.spn.prog[n].st = .running) || decide (s.spn.prog[n].st = .waiting))
    | none => false)
/-- The pair's EXECUTE has ended: no cyclic program is due or in its run (R291). -/
def State.pairDone (s : State) (l : LPairN) : Bool := s.spn.lpair[l].due.isEmpty && !s.cyclicOpen l
/-- The other logical pair that the physical pair of `l` serves, when it is shared (R326). -/
def State.otherPair (s : State) (l : LPairN) : Option LPairN :=
  match s.spn.lpair[l].phys with
  | some q => if s.spn.phys[q].lpA = some l then s.spn.phys[q].lpB else s.spn.phys[q].lpA
  | none => none
/-- Whether the physical pair of `l` is free for a bead of it: on a shared one the lower-numbered pair's cyclic programs run
first, and tasks when both have ended EXECUTE (R291, R326). -/
def State.pairFree (s : State) (l : LPairN) (task : Bool) : Bool :=
  match s.otherPair l with
  | none => true
  | some m => s.spn.lpair[m].cur.isNone && s.spn.lpair[m].replay.isNone && ((decide (l < m) && !task) || s.pairDone m)
/-- An idle pair takes up its next program (R291, R306): a ready cyclic program, else the next due one, else, once its
EXECUTE has ended, a ready task whose bead fits. -/
def State.pick (s : State) (l : LPairN) : State :=
  let x := s.spn.lpair[l]
  if x.cur.isSome || x.phys.isNone || x.replay.isSome || !s.g.st.cycleRuns || s.cyc.phase = 0 || !s.pairFree l false then s
  else
    match x.ready.find? (fun n => !s.isTask n) with
    | some n => (s.modPair l (fun y => { y with ready := y.ready.filter (· != n) })).takeUp l n
    | none =>
      match x.due with
      | n :: rest => ((s.modPair l (fun y => { y with due := rest })).startRun n).takeUp l n
      | [] =>
        if s.pairDone l && s.pairFree l true then
          match x.ready.find? (fun n => s.taskFits n) with
          | some n => (s.modPair l (fun y => { y with ready := y.ready.filter (· != n) })).takeUp l n
          | none => s
        else s

/-! ### Sync objects (R371-R373) -/

/-- The record of object `o`, when it is used (R371). -/
def State.syncRec (s : State) (o : Fin 1024) : Option CSync :=
  match s.cfg.module with
  | some m => (match m.syncs[o.val]? with
    | some r => if r.used then some r else none
    | none => none)
  | none => none
/-- Sync object `o` changed by `f`. -/
def State.modSync (s : State) (o : Fin 1024) (f : SyncSt → SyncSt) : State :=
  { s with lck := { s.lck with sync := tmod s.lck.sync o f } }
/-- Lock registers of target `t` changed by `f`. -/
def State.modLckTgt (s : State) (t : TgtN) (f : LckTgt → LckTgt) : State :=
  { s with lck := { s.lck with tgt := tmod s.lck.tgt t f } }
/-- The wait of program `n` completes, by a signal or as DEADLOCK_BROKEN: it resumes at its pair's next bead boundary
(R306, R313). -/
def State.wake (s : State) (n : ProgN) (broken : Bool) : State :=
  match s.cfg.prog[n] with
  | none => s
  | some p =>
    ((s.modProg n (fun x => { x with woken := some broken })).modPair p.pair
      (fun x => { x with ready := x.ready ++ [n] })).pick p.pair
/-- A registered wait completes (R372-R374); `out` raises the notification of a host target. -/
def State.completeWait (s : State) (out : State → Nat → State) (w : Waiter) (broken : Bool) : State :=
  match w with
  | .prog n => s.wake n broken
  | .host t =>
    match s.lck.tgt[t].wait with
    | none => s
    | some (_, _, notify) =>
      out (s.modLckTgt t (fun x => { x with
        wait := none, answer := if broken then .deadlock else .signalled })) (736 + notify.val)
/-- A signal to object `o` (R372): the oldest registered wait completes, else the count rises, saturating. -/
def State.signalWith (s : State) (out : State → Nat → State) (o : Fin 1024) : State :=
  match s.lck.sync[o].waits with
  | (_, w) :: rest => (s.modSync o (fun x => { x with waits := rest })).completeWait out w false
  | [] => s.modSync o (fun x => { x with count := satInc 65535 x.count })
/-- The EXTERNAL objects that source `n` signals (R371, R372). -/
def State.externals (s : State) (n : Nat) : List (Fin 1024) :=
  match s.cfg.module with
  | none => []
  | some m => (List.finRange 1024).filter (fun o => match m.syncs[o.val]? with
    | some r => r.used && r.external && r.source == n
    | none => false)
/-- An event and the signals it gives, to a depth that no chain of notifications exceeds: each completes one of at most 64
host waits (R373). -/
def State.raiseTo : Nat → State → Nat → Nat → State
  | 0, s, n, detail => s.routed n detail
  | k + 1, s, n, detail =>
    (s.externals n).foldl (fun s o => s.signalWith (fun s n => State.raiseTo k s n 0) o) (s.routed n detail)
/-- An event of source `n` with a word of detail, reported to the router (R246); it signals the EXTERNAL objects of its
source whatever becomes of the interrupt (R372). -/
def State.raise (s : State) (n : Nat) (detail : Nat := 0) : State :=
  if s.routerRuns then State.raiseTo 65 s n detail else s
/-- A signal to object `o` (R372). -/
def State.signal (s : State) (o : Fin 1024) : State := s.signalWith (fun s n => s.raise n) o

/-! ### The non-volatile store's gathering (R270-R272) -/

/-- The supply is good in the sense of R271: PRESENT reads 1 and PFW reads 0. -/
def State.supplyGood (s : State) : Bool :=
  s.sup.present && !(s.sup.pfwPin && s.pfwUsed)
/-- A commit of the write buffer starts, or is deferred (R270, R271). A commit already running is followed by another. -/
def State.commitStart (s : State) : State :=
  if s.nv.st = .committing then { s with nv := { s.nv with again := true } }
  else if s.nv.st = .recovering then s
  else if s.g.st = .lastGasp || (s.supplyGood && 500 ≤ s.sup.usableMj) then
    { s with nv := { s.nv with
        st := .committing, committing := some s.nv.cur, gathered := 0, gatherSince := none,
        dirtyC := s.nv.dirty, dirty := [], gatherSeq := s.nv.gatherSeq + 1 } }
  else { s with nv := { s.nv with st := .deferred } }
/-- A write of `bytes` bytes gathered in the write buffer (R270); 48 KiB or more start a commit. -/
def State.gather (s : State) (bytes : Nat) : State :=
  let nv := s.nv
  let s' := { s with nv := { nv with
    gathered := min 65536 (nv.gathered + bytes)
    gatherSince := match nv.gatherSince with | some t => some t | none => some s.now
    st := if nv.st = .idle then .gathering else nv.st } }
  if 49152 ≤ s'.nv.gathered && s'.nv.st = .gathering then s'.commitStart else s'
/-- A system region's content changed by a gathered write (R266). -/
def State.nvWrite (s : State) (bytes : Nat) (f : NvData → NvData) : State :=
  ({ s with nv := { s.nv with cur := f s.nv.cur } }).gather bytes

/-- A later-fault entry made now (R283). -/
def State.lflEntry (s : State) (src cls : Option Nat) (name : String) (detail : List Nat) : Lfl :=
  { seq := s.nv.cur.lflSeq, src := src, cls := cls, st := s.g.st, poweron := s.nv.cur.poweron,
    time := s.edge.mtime, utc := s.stampUtc, cycle := s.cycleNow, name := name, detail := detail.take 3 }
/-- An entry enters the list: the next slot, or slot 254 over the entry there (R284). -/
def NvData.addLfl (d : NvData) (e : Lfl) : NvData :=
  let e' := { e with seq := d.lflSeq }
  if d.lfl.length < 255 then { d with lfl := d.lfl ++ [e'], lflSeq := (d.lflSeq + 1) % 65536 }
  else { d with
    lfl := d.lfl.take 254 ++ [e'], lflSeq := (d.lflSeq + 1) % 65536, lflOverflow := satInc 65535 d.lflOverflow }
/-- An entry enters the list, and is an alert until it is acknowledged (R179, R284). -/
def State.listLfl (s : State) (e : Lfl) : State :=
  let s' := s.nvWrite 64 (fun d => d.addLfl e)
  { s' with touch := { s'.touch with alerts := s'.touch.alerts ++ [s.nv.cur.lflSeq] } }
/-- A later fault is entered in the list (R283, R284); after step 2 of LAST_GASP it goes to the seal page instead, which
keeps 8 and counts the rest (R282). -/
def State.laterFault (s : State) (src cls : Option Nat) (name : String) (detail : List Nat := []) : State :=
  let e := s.lflEntry src cls name detail
  if s.g.st = .lastGasp && 3 ≤ s.g.lgStep then
    if s.nv.sealPending.length < 8 then { s with nv := { s.nv with sealPending := s.nv.sealPending ++ [e] } }
    else { s with nv := { s.nv with sealOverflow := s.nv.sealOverflow + 1 } }
  else s.listLfl e

/-! ### Margin ends and the common snapshot trigger -/

/-- A hold or probe ends for a reason that takes the code to 0 in one fine tick (R195); the rail stays in MARGIN until a
clean result follows. PROBE_ABORTED is raised, with the reason, for a probe that did not end PROBE_DONE (R193). A code that slews
back already goes to 0 at once where the module leaves its state (R87, R196); its reason stays. -/
def State.endMargin (s : State) (n : RailN) (why : EndReason) : State :=
  let m := (s.rail n).mg
  match m.mode with
  | .none => s
  | .ret =>
    if why = .moduleState && m.code != 0 then
      s.modRail n (fun r => { r with mg := { r.mg with code := 0, target := 0, skip := s.measuring n } })
    else s
  | .hold => s.modRail n (fun r => { r with mg := { r.mg with
      mode := .ret, code := 0, target := 0, endReason := why, skip := s.measuring n } })
  | .probe =>
    let free (c : Conv) : Conv := if c.probe = some n then { c with probe := none } else c
    let s0 : State := { s with scan := { s.scan with conv := tmap free s.scan.conv } }
    let s' := s0.modRail n (fun r => { r with mg := { r.mg with
      mode := .ret, code := 0, target := 0, snapping := false, endReason := why, skip := s.measuring n } })
    if why = .probeDone then s' else s'.raise 24 (n.val + 256 * why.code)

/-- Converter `c` changed by `f`. -/
def State.modConv (s : State) (c : ConvN) (f : Conv → Conv) : State :=
  { s with scan := { s.scan with conv := tmod s.scan.conv c f } }
/-- The power mode that the level last adopted asks of converter `c`, from its next slot boundary on (R207). -/
def State.convMode (s : State) (c : ConvN) : State :=
  match s.cfg.scan[c] with
  | some l => s.modConv c (fun x => { x with wantLow := s.seq.level != .normal && l.lowPower.getLsbD s.seq.level.code })
  | none => s
/-- Every converter's power mode (R207). -/
def State.convModes (s : State) : State := (List.finRange 16).foldl State.convMode s
/-- The states in which the converters are powered (R226). -/
def State.scanPowered (s : State) : Bool :=
  match s.g.st with
  | .off | .stabled => false
  | .lastGasp => decide (s.g.lgStep ≤ 3)
  | _ => true
/-- The converters that take a common burst (R221). -/
def Conv.bursts (c : Conv) : Bool :=
  match c.st with
  | .scanning | .rejoining | .calibrating => true
  | _ => false
/-- The snapshot channel of converter `c`: SNAP_INPUT of its list, else its first internal point (R216, R221). -/
def State.snapInput (s : State) (c : ConvN) : BitVec 10 :=
  match s.cfg.scan[c] with
  | some l => if s.scan.conv[c].st = .builtIn then 0x300#10 + BitVec.ofNat 10 (4 * c) else l.snapInput
  | none => 0x300#10 + BitVec.ofNat 10 (4 * c)
/-- The buffer a new burst writes: the one the previous burst did not use, unless it is held (R222). -/
def Scan.nextBuf (a : Scan) : Fin 2 :=
  if a.heldBuf = some (a.lastBuf + 1) then a.lastBuf else a.lastBuf + 1
/-- A probe snapshot on converter `c` is preempted by a common trigger (R193, R224). -/
def State.preemptProbe (s : State) (c : ConvN) : State :=
  match s.scan.conv[c].probe with
  | none => s
  | some n =>
    ({ s with scan := { s.scan with
        conv := tmod s.scan.conv c (fun x => { x with probe := none })
        probeBuf := tmod s.scan.probeBuf c (fun b => { b with aborted := true }) } }).endMargin n .snapshotPreempted
/-- The common snapshot trigger (R221-R223): while a burst runs it is counted and its sample index recorded; otherwise
every scanning converter starts its burst and the 1,024 histories are copied. Unpowered converters take none (R226). -/
def State.snapTrigger (s : State) : State :=
  let a := s.scan
  if !s.scanPowered then s
  else if a.burst then
    let idx := min 4095 ((s.now - a.burstAt) / 50)
    { s with scan := { a with
        lateTriggers := satInc 255 a.lateTriggers
        buf := tmod a.buf a.cur (fun b => { b with late := b.late ++ [idx] }) } }
  else
    let s1 := (List.finRange 16).foldl State.preemptProbe s
    let b := a.nextBuf
    let snaps : Vector Snap 16 := Vector.ofFn (fun c : Fin 16 =>
      { input := s1.snapInput c, lowRate := s1.scan.conv[c].lowPower, absent := !s1.scan.conv[c].bursts,
        time := s1.now })
    { s1 with scan := { s1.scan with
        burst := true, burstAt := s1.now, cur := b, bursts := (a.bursts + 1) % 65536
        conv := tmap (fun c => { c with burst := c.bursts }) s1.scan.conv
        buf := tset s1.scan.buf b { snaps := snaps, hists := s1.scan.res.toList.map (·.hist) } } }

/-! ### The freeze of the Inclusion record (R276, R277) -/

/-- Lockstep state of a physical pair as STATE of SPN_PHYS codes it (R328). -/
def PPSt.code : PPSt → Nat
  | .active => 0 | .spare => 1 | .retired => 2 | .selftest => 3 | .shadowing => 4 | .failed => 5
/-- The state of both spindles of physical pair `q` (R280): program counter, bead, logical pair and lockstep state. -/
def State.spindleState (s : State) (q : PPairN) : Nat × Nat × Option LPairN × Nat :=
  let p := s.spn.phys[q]
  match p.lpA with
  | some l => (s.spn.lpair[l].regs.pc, s.spn.lpair[l].bead, some l, p.st.code)
  | none => (0, 0, none, p.st.code)
/-- The context that the record captures at the freeze tick (R277, R280, R281). -/
def State.capture (s : State) (cls src : Nat) (name : String) (trigger : List Nat) (classes : BitVec 32) : IncRec :=
  { cls := cls, recordNo := s.inc.recordNo + 1, src := src, poweron := s.nv.cur.poweron,
    time := s.edge.mtime, utc := s.stampUtc, utcQual := s.time.utcQual, st := s.g.st, level := s.g.level,
    heldPlan := s.seq.held, sampleIndex := if s.scan.burst then (s.scan.buf[s.scan.cur].late.getLast?).getD 0 else 0,
    cycle := s.cycleNow, runSerial := s.key.runSerial, name := name, trigger := trigger,
    reacts := s.seq.acted, classes := classes,
    rails := (List.finRange 256).map (fun n => ((s.rail n).word, (s.rail n).marginWord,
      (s.rail n).lastClean.map (fun v => match s.railCfg n with | some c => v / (c.volts 1) | none => 0),
      (s.rail n).lastImon)),
    cmps := (List.finRange 320).map s.wCmp ++ (List.finRange 16).map s.wSmp,
    points := (List.finRange 128).map s.wPoint,
    spindles := (List.finRange 9).flatMap (fun q => [s.spindleState q, s.spindleState q]),
    applied := s.cmd.applied.toList,
    context := [s.wGlbState, s.wSupply, s.wHoldup, s.wMotion, s.wPlanSel, s.wSeqStat, s.wSeqFail] ++
      s.seq.groups.toList.map GroupSt.word ++ [s.hds.horizon] ++ (List.finRange 8).map s.wTherm ++
      s.g.temps.map (BitVec.ofInt 32),
    events := s.evt.log, buf := {} }
/-- Whether the record can freeze now: ARMED, and in LAST_GASP only until step 3 begins (R277). -/
def State.mayFreeze (s : State) : Bool := decide (s.inc.st = .armed) && !(decide (s.g.st = .lastGasp) && decide (3 ≤ s.g.lgStep))
/-- An event of a configured class in the fine tick in which the record froze (R277): the class with the lower source number
governs, and the other event enters the later-fault list. -/
def State.secondClass (s : State) (r : IncRec) (cls src : Nat) (name : String) (trigger : List Nat) (classes : BitVec 32) : State :=
  if src < r.src then
    let r' : IncRec := { r with cls := cls, src := src, name := name, trigger := trigger, classes := r.classes ||| classes }
    ({ s with inc := { s.inc with cap := some r' } }).laterFault (some r.src) (some r.cls) r.name r.trigger
  else
    ({ s with inc := { s.inc with cap := some { r with classes := r.classes ||| classes } } }).laterFault (some src) (some cls) name trigger
/-- An event of fault class `cls` (R276-R278, R283): while the record is ARMED and the class configured it freezes the
record and holds the burst's buffer; a configured class that does not freeze enters the later-fault list. Classes 0-6
have fired the snapshot trigger before; any other class fires it here. `classes` are those of the whole fine tick. Where the
converters are unpowered no burst runs (R226): the record then takes a buffer of absent snapshots and goes to COMMIT_A at once (DESIGN
CHOICE, log entry 138). -/
def State.faultEvent (s : State) (cls src : Nat) (name : String) (trigger : List Nat := [])
    (classes : BitVec 32 := 1#32 <<< cls) : State :=
  if !s.faultClasses.getLsbD cls then s
  else if s.mayFreeze then
    let s1 := if cls ≤ 6 then s else s.snapTrigger
    let r := s1.capture cls src name trigger classes
    let none_ : SnapBuf := { snaps := Vector.replicate 16 { absent := true, time := s.now } }
    let s2 : State :=
      if s1.scan.burst then { s1 with
        inc := { s1.inc with st := .capturing, cap := some r, recordNo := r.recordNo, exported := false, pages := [] }
        scan := { s1.scan with heldBuf := some s1.scan.cur } }
      else { s1 with
        inc := { s1.inc with
          st := .commitA, cap := some { r with buf := none_ }, recordNo := r.recordNo, exported := false, pages := [] } }
    s2.raise 3 cls
  else
    match s.inc.cap with
    | some r =>
      if (s.inc.st = .capturing || s.inc.st = .commitA) && r.time = s.edge.mtime && r.poweron = s.nv.cur.poweron then
        s.secondClass r cls src name trigger classes
      else s.laterFault (some src) (some cls) name trigger
    | none => s.laterFault (some src) (some cls) name trigger
/-- A later fault of a class that freezes the record when it is configured and ARMED; it enters the list once in either case
(R29, R276, R277, R283, R461, R462). -/
def State.faultLogged (s : State) (cls src : Nat) (name : String) (detail : List Nat) : State :=
  if s.faultClasses.getLsbD cls && s.mayFreeze then (s.faultEvent cls src name detail).laterFault (some src) (some cls) name detail
  else s.laterFault (some src) (some cls) name detail

/-! ### Records and juridical entries (R425-R435) -/

/-- The stream records in force; without RECORD only stream 0 runs (R426). -/
def State.streamCfg (s : State) (i : Fin 64) : Option CStream :=
  match s.cfg.record with
  | some l => (match l[i.val]? with
    | some c => if c.used then some c else none
    | none => none)
  | none => if i = 0 then some ⟨true, true, 2, 0xFF, 8760, 64⟩ else none
/-- Bytes of the buffer that a stream holds (R431). -/
def Stream.held (x : Stream) : Nat := x.buf.foldl (fun a r => a + r.rcd.len) 0
/-- Whether the share of stream `i` has room for `len` more bytes. -/
def State.hasRoom (s : State) (i : Fin 64) (len : Nat) : Bool :=
  match s.streamCfg i with
  | some c => decide (s.reng.stream[i].held + len ≤ c.bufMib * 1048576)
  | none => false
/-- Stream `i` changed by `f`. -/
def State.modStream (s : State) (i : Fin 64) (f : Stream → Stream) : State :=
  { s with reng := { s.reng with stream := tmod s.reng.stream i f } }
/-- Whether a STANDBY module's SHADOW marks the records of streams 0 and 1 (R435). -/
def State.standby (s : State) : Bool := decide (s.hsb.st = .standbySync) || decide (s.hsb.st = .standbyReady)
/-- A record is admitted to the buffer and takes its SEQ (R428); a block of sequence numbers used up takes the next. -/
def State.putEntry (s : State) (i : Fin 64) (typ : Byte) (payload : List Byte) (payloadLen : Nat)
    (mtime utc : DWord) (qual : Nat) (poweron : BitVec 16) (sync : Bool) : State :=
  let n := s.reng.stream[i].next
  let r : Rec := {
    seq := n, stream := i, mtime := mtime, utc := utc, utcQual := qual
    shadow := s.standby && decide (i.val ≤ 1), rewritten := false, leap := decide (0 < s.edge.leapLeft)
    poweron := poweron, typ := typ, payloadLen := payloadLen, payload := payload }
  let s1 := s.modStream i (fun x => { x with
    accepted := n, next := n + 1, buf := x.buf ++ [{ rcd := r, sync := sync, left := r.len }] })
  if (n + 1) % 1048576 = 0 then
    s1.nvWrite 8 (fun d => { d with seqBlock := tset d.seqBlock i ((n + 1) / 1048576 + 1) })
  else s1
/-- The payload of a juridical entry (R435). -/
def Jur.payload (j : Jur) : List Byte :=
  nameBytes j.name ++ leBytes 2 (j.src.getD 0xFFFF) ++ [BitVec.ofNat 8 j.st, BitVec.ofNat 8 j.level] ++
    List.replicate 4 0 ++ leBytes 8 j.cycle.toNat ++ ((j.detail.flatMap (leBytes 4)) ++ List.replicate 32 0).take 32
/-- Whether juridical entries go to the stream's buffer now; otherwise they are kept in PENDING_JURIDICAL (R169, R435). -/
def State.jurOpen (s : State) : Bool :=
  match s.g.st with
  | .start | .load | .check | .sequence | .run | .runDown => decide (s.shut.phase < 4)
  | .lastGasp => decide (s.g.lgStep ≤ 1)
  | _ => false
/-- An entry admitted to stream 0, or lost where its share is full (R431). -/
def State.jurAdmit (s : State) (j : Jur) : State :=
  if s.hasRoom 0 128 then s.putEntry 0 0x01 j.payload 64 j.time j.utc j.utcQual s.nv.cur.poweron false
  else
    ((({ s with reng := { s.reng with lostSeen := true } }).modStream 0 (fun x => { x with
      dropped := satInc 0xFFFFFFFF x.dropped })).raise 27).laterFault (some 27) none "JURIDICAL_LOST"
/-- A waveform record of stream 2, dropped whole and counted where it finds no room; none is recorded from LAST_GASP on
(R87, R425, R431). -/
def State.waveRecord (s : State) (typ : Byte) (payload : List Byte) : State :=
  if s.g.st = .lastGasp then s
  else if s.hasRoom 2 (64 + (payload.length + 15) / 16 * 16) then
    s.putEntry 2 typ payload payload.length s.edge.mtime s.stampUtc s.time.utcQual s.nv.cur.poweron false
  else s.modStream 2 (fun x => { x with dropped := satInc 0xFFFFFFFF x.dropped })
/-- A juridical entry made now (R435). -/
def State.juridical (s : State) (name : String) (detail : List Nat := []) (src : Option Nat := none) : State :=
  let j : Jur := {
    time := s.edge.mtime, utc := s.stampUtc, utcQual := s.time.utcQual, src := src, st := s.g.st.code
    level := s.g.level.code, cycle := s.cycleNow, name := name, detail := detail }
  let s1 := { s with jur := j :: s.jur }
  if s.jurOpen then s1.jurAdmit j
  else s1.nvWrite 128 (fun d => { d with pendingJur := d.pendingJur ++ [j] })

/-! ### Access errors and writes into host memory (R346, R354, R362, R441) -/

/-- An access error: GLB_ACCESS_ERR records the first since ERR was last cleared (R362). -/
def State.accessErr (s : State) (cause bar offset : Nat) : State :=
  if s.acc.err then s else { s with acc := { err := true, cause := cause, bar := bar, offset := offset % 16777216 } }
/-- Bytes written into host memory. -/
def State.toHost (s : State) (addr : DWord) (bytes : List Byte) : State :=
  { s with hostWr := { addr := addr, bytes := bytes } :: s.hostWr }

/-! ### Links that go down (R469, R481) -/

/-- The link of source `src` is noted as down (R481). -/
def State.noteLost (s : State) (src : Nat) : State :=
  if s.lnk.lost.contains src then s else { s with lnk := { s.lnk with lost := src :: s.lnk.lost } }
/-- The link of source `src` is up again. -/
def State.linkFound (s : State) (src : Nat) : State := { s with lnk := { s.lnk with lost := s.lnk.lost.filter (· != src) } }
/-- While TB_FAULT is set a link that went down is not retrained (R481). -/
def State.noRetrain (s : State) (src : Nat) : Bool := s.time.tbFault && s.lnk.lost.contains src
/-- A link is lost (R481): its source, and under TB_FAULT REF_LOST and a later-fault entry (DEDUCED, log entry 154: the loss sets REF_LOST,
and the end of TB_FAULT clears it). -/
def State.linkLost (s : State) (src : Nat) : State :=
  let s1 : State := (s.noteLost src).raise src 0
  if s.time.tbFault then ({ s1 with lnk := { s1.lnk with refLost := true } }).laterFault (some src) none "LINK_LOST" [src] else s1
/-- The host link goes down (R469). -/
def State.hostLinkDown (s : State) : State :=
  if s.lnk.up then
    (({ s with lnk := { s.lnk with up := false, width := 0, rate := 0, downSeen := true, lostAt := some s.time.mtime } }).raise 30 0).linkLost 719
  else s

/-! ### FAULT output (R19) -/

/-- Whether a rail counts for the FAULT output. -/
def Rail.faulted (r : Rail) : Bool := r.st = .fault || r.st = .lockout
/-- The FAULT output as R19 has it for the present state; `old` where the level is kept. -/
def State.faultWanted (s : State) : Bool :=
  match s.g.st with
  | .sequence | .run | .runDown =>
    s.rails.toList.any Rail.faulted || s.seq.barred || s.time.tbFault || s.g.overtemp
  | .start | .load | .check => s.g.overtemp
  | .safeHold | .unprovisioned => true
  | .stabled | .lastGasp => s.g.fault
  | .off => false
/-- The FAULT output follows its conditions (R19, R247). -/
def State.updFault (s : State) : State := { s with g := { s.g with fault := s.faultWanted } }
/-- The partner is present, eligible and in a tailstock state (R378). -/
def State.partnerIn (s : State) (x : HsbSt) : Bool :=
  match s.hsb.partner with
  | some b => s.hsb.eligible && decide (b.st = x)
  | none => false
/-- A PRIMARY that may hand over starts to relinquish (R378); `sync` says that a STANDBY_SYNC partner is enough. -/
def State.relinquish (s : State) (sync : Bool) : State :=
  if s.hsb.st = .primary && (s.partnerIn .standbyReady || (sync && s.partnerIn .standbySync)) then
    { s with hsb := { s.hsb with relinquish := true } }
  else s
/-- A free value's counter advanced: each use of an open value of Config is fresh. -/
def State.tickFree (s : State) : State := { s with free := s.free + 1 }
/-- STATE of HSB_STAT. -/
def HsbSt.code : HsbSt → Nat
  | .disabled => 0 | .seeking => 1 | .primary => 2 | .standbySync => 3 | .standbyReady => 4
/-- Tailstock link `k` is enabled: bit 2 + k of LINK_EN (R471). -/
def State.tailEn (s : State) (k : Fin 2) : Bool :=
  match s.cfg.links with | some l => l.linkEn.getLsbD (2 + k.val) | none => false
/-- The answer of a standby's preparation of a paired take (R389). -/
def State.prepNow (s : State) : TakePrep :=
  if !s.standby || s.hsb.pairedTake.isNone then .none
  else match s.take.st with
  | .ready | .done => .prepared
  | .refused => .refused
  | _ => .none
/-- The heartbeat that goes out on link `k` (R380). ECHO_MTIME is a time of the partner's that no content of a heartbeat
carries: a free value. -/
def State.beatOut (s : State) (k : Fin 2) : Heartbeat :=
  { serial := s.fac.serial, link := k
    pairId := match s.cfg.links with | some l => l.pairId | none => 0
    state := match s.hsb.st with
      | .disabled => 0 | .seeking => 1 | .primary => 2 | .standbySync => 3 | .standbyReady => 4
    mod := s.g.st.code, epoch := s.hsb.epoch
    prefer := match s.cfg.links with | some l => l.preferPrimary | none => false
    cycle := s.cyc.num, close := dw s.cyc.closeAt, echo := dw (freeNat s.free)
    mirrorOk := match s.hsb.got with | some m => m.cycle | none => s.hsb.lastApplied
    prep := s.prepNow, relinquish := s.hsb.relinquish, crcOk := true }
/-- One heartbeat goes out on each enabled link (R380). -/
def State.sendBeats (s : State) : State :=
  ({ s with hsb := { s.hsb with
    beats := s.hsb.beats + 1
    sentBeats := Vector.ofFn (fun k : Fin 2 => if s.tailEn k then some (s.beatOut k) else s.hsb.sentBeats[k]) } }).tickFree
/-- The tailstock links lose their power (R84): nothing of the partner stays. -/
def Hsb.dark (h : Hsb) : Hsb :=
  { h with
    up := 0, partner := none, eligible := false, pairMismatch := false, got := none, relinquish := false, handover := false
    linkSerial := Vector.replicate 2 0, linkNo := 0, miswired := false }
/-- The tailstock when the module leaves SEQUENCE, RUN and RUN_DOWN (R378): SEEKING; a PRIMARY relinquishes first, in a heartbeat that
goes out as the module leaves (DEDUCED, log entry 147). -/
def State.hsbLeave (s : State) (st : ModSt) : State :=
  if s.g.st.cycleRuns && !st.cycleRuns && s.hsb.st != .disabled then
    let s0 : State := if st = .lastGasp || st = .stabled then s.relinquish true else s
    let s1 : State := if s0.hsb.relinquish then s0.sendBeats else s0
    { s1 with hsb := { s1.hsb with st := .seeking, aligned := false, readyCount := 0, missed := 0, handover := false } }
  else s
/-- The module enters a state (R18): source 16, and READY only in RUN. -/
def State.setMod (s0 : State) (st : ModSt) : State :=
  let s : State := s0.hsbLeave st
  let s' := { s with g := { s.g with st := st, ready := decide (st = ModSt.run) } }
  (if s.g.st = st then s' else s'.raise 16 st.code).updFault
/-- DEGRADED changes (source 7). -/
def State.setDegraded (s : State) (b : Bool) : State :=
  if s.g.degraded = b then s else ({ s with g := { s.g with degraded := b } }).raise 7 b.toNat
/-- Whether a unit is parked or a program dropped (R216, R329). -/
def State.degradedWanted (s : State) : Bool :=
  s.scan.conv.toList.any (fun c => decide (c.st = .failed)) ||
  s.spn.phys.toList.any (fun q => match q.st with | .active | .spare => false | _ => true) ||
  s.spn.prog.toList.any (fun q => decide (q.st = .dropped))
/-- DEGRADED follows its conditions (R329). -/
def State.updDegraded (s : State) : State := s.setDegraded s.degradedWanted
/-- A test discharge that runs is abandoned: the values in force are kept (R449). -/
def State.abandonTest (s : State) : State :=
  if s.age.testing then { s with age := { s.age with testing := false, state := if s.age.state = 1 then 1 else 2 } } else s
/-- A first window of the host watchdog starts (R460). -/
def State.wdgFirst (s : State) : State := { s with wdg := { s.wdg with st := .first, started := true, since := s.tickUs } }
/-- The watchdogs run from the end of START on (R463): the first window of a host link that trained in START starts there (DEDUCED, log
entry 155). -/
def State.wdgFromStart (s : State) : State :=
  if s.lnk.trainedSinceStart && s.wdg.st = .first && !s.wdg.started then s.wdgFirst else s
/-- Disabled watchdogs are enabled again (R463). -/
def State.enableWdgs (s : State) : State :=
  let on (w : SpnWdg) : SpnWdg := { w with enabled := true }
  let s1 : State := { s with wdg := { s.wdg with spn := tmap on s.wdg.spn } }
  if s.wdg.st = .disabled then s1.wdgFirst else s1
/-- All watchdogs stop (R463). -/
def State.stopWdgs (s : State) : State := { s with wdg := { s.wdg with st := .stopped, armed := none } }
/-- An Edivo session holds maintenance test mode (R480). -/
def State.inTestMode (s : State) : Bool :=
  s.lnk.sessions.toList.any (fun x => match x with | some y => y.testMode | none => false)
/-- Maintenance test mode ends, with its juridical entry (R463, R480). -/
def State.endTestMode (s : State) : State :=
  if s.inTestMode then
    let off (x : Session) : Session := { x with testMode := false }
    (({ s with lnk := { s.lnk with sessions := tmap (fun x : Option Session => x.map off) s.lnk.sessions } }).enableWdgs).juridical
      "TEST_MODE_END"
  else s

end Sys2Proof.Machine
end

