-- ==== Sys2Proof/Machine/Periods.lean ====
section
/-!
DEFINITION. Meter periods and data sets as shared operations, which state changes and UTC steps reach (R412-R422), and the
landing of a section of a take (R107-R110).
-/
namespace Sys2Proof.Machine
open Sys2Proof

/-! ### Landings of a take (R108-R110) -/

/-- A juridical entry of a landing or abandonment: section, SECTION_SERIAL and cycle number (R110). -/
def State.takeEntry (s : State) (name : String) (typ inst : Nat) (x : Option Sec) : State :=
  let serial := match x with | some y => y.serial.toNat | none => 0
  s.juridical name [typ, inst, serial % 4294967296, serial / 4294967296, s.cyc.num.toNat % 4294967296,
    s.cyc.num.toNat / 4294967296] (some 19)
/-- A section put in the place of the running one. -/
def putRun (l : List Sec) (x : Sec) : List Sec := l.filter (fun y => !(y.typ == x.typ && y.inst == x.inst)) ++ [x]
/-- What every landing of a section records: the running sections, the sections taken since the last SWITCH, its count as
taken, and the juridical entry. -/
def State.landed (s : State) (x : Sec) : State :=
  let s1 : State := { s with
    run := putRun s.run x
    stg := { s.stg with diffs := s.stg.diffs.map (fun d => if d.typ = x.typ && d.inst = x.inst then { d with taken := true } else d) } }
  (s1.nvWrite 8 (fun d => { d with takenSecs := d.takenSecs ++ [(x.typ, x.inst)] })).takeEntry "TAKE_LANDED" x.typ x.inst (some x)

/-! ### The line state (R412) -/

/-- The line counts as present (R412): until the first classification, while the module supply is present. -/
def State.meterLine (s : State) : Bool :=
  match s.cfg.meter with
  | some _ => if s.mtr.classified then s.mtr.line else s.sup.present
  | none => false
/-- The meter integrates (R421); it has stopped once the flush on the way to STABLED begins. -/
def State.metering (s : State) : Bool :=
  s.cfg.meter.isSome && s.g.st.cycleRuns && !(decide (3 ≤ s.shut.phase) && decide (s.shut.kind = 1))
/-- The measurement set records in force. -/
def State.setCfg (s : State) (m : Fin 4) : Option CMSet :=
  match s.cfg.meter with
  | some c => (match c.sets[m.val]? with | some x => if x.used then some x else none | none => none)
  | none => none
/-- Set `m` changed by `f`. -/
def State.modSet (s : State) (m : Fin 4) (f : MSet → MSet) : State :=
  { s with mtr := { s.mtr with sets := tmod s.mtr.sets m f } }
/-- SETS of a data set. -/
def State.usedSets (s : State) : BitVec 4 :=
  BitVec.ofNat 4 ((List.finRange 4).map (fun m => if (s.setCfg m).isSome then 2 ^ m.val else 0)).sum

/-! ### Data sets (R413-R419) -/

/-- The label of the 5-minute slot that contains a UTC (R413). -/
def slotOf (utc : DWord) : DWord := dw (utc.toNat / 300000000000 * 300000000000)
/-- The location at a close, with its age and NO_LOCATION (R418). -/
def State.location (s : State) : Int × Int × Nat × BitVec 32 :=
  let maxAge := match s.cfg.meter with | some c => c.locMaxAge | none => 0
  match s.lnk.locAt with
  | none => (0, 0, 65535, 1#32 <<< 18)
  | some t =>
    let age := (s.now - t) / 1000000000
    if maxAge * 1000000000 < s.now - t then (0, 0, min 65535 age, 1#32 <<< 18) else (s.lnk.lat, s.lnk.lon, min 65535 age, 0)
/-- The system present for the longest time in the period; among equals the spec names none. -/
def State.longestSystem (s : State) : Nat :=
  let l := s.mtr.sysTime.toList
  let top := l.foldl max 0
  let best := (List.range 16).filter (fun k => (l[k]?).getD 0 == top)
  (best[freeNat s.free % best.length]?).getD 0
/-- A meter key that can be read: data sets are signed (R419). -/
def State.canSign (s : State) : Bool := s.sec.wrapKey && s.sec.meterKey
/-- Bytes 0x00-0x9F of a data set: what is signed (R418). -/
def DataSet.body (d : DataSet) (serial : DWord) : List Byte :=
  let e (m : Nat) : List Byte := match (d.energy[m]?).getD none with
    | some (a, b, c, x) => leBytes 4 a ++ leBytes 4 b ++ leBytes 4 c ++ leBytes 4 x
    | none => List.replicate 16 0xFF
  leBytes 4 0x4D455452 ++ leBytes 2 1 ++ [if d.absence then 2 else 1, if d.shadow then 1 else 0] ++
    leBytes 4 d.periodSeq.toNat ++ leBytes 4 d.dsSeq.toNat ++ leBytes 8 d.label.toNat ++ leBytes 8 d.startUtc.toNat ++
    leBytes 8 d.endUtc.toNat ++ leBytes 8 d.startM.toNat ++ leBytes 8 d.endM.toNat ++ leBytes 4 d.flags.toNat ++
    leBytes 1 d.system ++ leBytes 1 d.sets.toNat ++ leBytes 2 d.poweron.toNat ++ (List.range 4).flatMap e ++
    leBytes 4 (scode 32 d.lat) ++ leBytes 4 (scode 32 d.lon) ++ leBytes 2 d.locAge ++ List.replicate 6 0 ++
    leBytes 8 serial.toNat ++ leBytes 4 d.absentSlots ++ List.replicate 4 0
/-- The 256 bytes of a data set (R418). -/
def DataSet.bytes (d : DataSet) (serial : DWord) : List Byte := (d.body serial ++ d.signature ++ List.replicate 96 0).take 256
/-- An ABSENCE data set for the whole slots between two labels, with its cause bit (R416, R417); none when no slot lies
between. Its START_MTIME, END_MTIME and SYSTEM have no value in R418 and are left open. -/
def State.absence (s : State) (before after : DWord) (cause : Nat) : State :=
  let n := (after.toNat - before.toNat) / 300000000000
  if n ≤ 1 then s
  else
    let loc := s.location
    let d : DataSet := {
      absence := true, shadow := s.standby, periodSeq := s.nv.cur.periodSeq, dsSeq := 0
      label := before + dw 300000000000, startUtc := after - dw 300000000000, endUtc := 0
      startM := dw (freeNat s.free), endM := dw (freeNat (s.free + 1)), flags := (1#32 <<< cause) ||| loc.2.2.2
      system := freeNat (s.free + 2) % 16, sets := s.usedSets, poweron := s.nv.cur.poweron
      energy := [none, none, none, none], lat := loc.1, lon := loc.2.1, locAge := loc.2.2.1
      absentSlots := n - 1, signature := [], streamed := false, opNsEnd := s.nv.cur.opNs }
    { s with free := s.free + 3, mtr := { s.mtr with unsigned_ := s.mtr.unsigned_ ++ [d] } }
/-- A METER section that is due lands at a close (R422): line judgement restarts, with no system until the first new classification,
and the next period carries SETTINGS. -/
def State.landMeter (s : State) : State :=
  match s.take.meterDue with
  | none => s
  | some (x, c) =>
    let s1 : State := { s with
      cfg := { s.cfg with meter := some c }
      take := { s.take with
        meterDue := none
        parts := tmap (fun p : TakePart => if p.typ = 0x0B && p.ans = .pending then { p with ans := .taken } else p) s.take.parts }
      mtr := { s.mtr with
        settings := true, classified := false, system := 0, disagree := false
        sets := tmap (fun y : MSet => { y with system := 0 }) s.mtr.sets } }
    (s1.landed x).raise 19
/-- The open period closes with flags of its cause (R413, R418): its data set waits for its signature, the remainders below
1 Wh and 1 varh are carried on, and a due METER section lands. -/
def State.closePeriod (s : State) (cause : BitVec 32) : State :=
  if !s.mtr.open_ then s
  else
    let loc := s.location
    let role : BitVec 32 := if s.mtr.shadowRole = s.standby then 0 else 1#32 <<< 15
    let d : DataSet := {
      absence := false, shadow := s.standby, periodSeq := s.nv.cur.periodSeq, dsSeq := 0
      label := s.mtr.label, startUtc := s.mtr.startUtc, endUtc := s.utcNow, startM := s.mtr.startM, endM := s.time.mtime
      flags := s.mtr.flags ||| cause ||| role ||| loc.2.2.2, system := s.longestSystem, sets := s.usedSets
      poweron := s.nv.cur.poweron
      energy := (List.finRange 4).map (fun m =>
        let x := s.mtr.sets[m]
        if (s.setCfg m).isSome then some (x.consumed / 1000, x.regenerated / 1000, x.inductive_ / 1000, x.capacitive / 1000) else none)
      lat := loc.1, lon := loc.2.1, locAge := loc.2.2.1, absentSlots := 0, signature := [], streamed := false
      opNsEnd := s.nv.cur.opNs }
    let rest (x : MSet) : MSet := { x with
      consumed := x.consumed % 1000, regenerated := x.regenerated % 1000
      inductive_ := x.inductive_ % 1000, capacitive := x.capacitive % 1000 }
    let s1 : State := { s with
      free := s.free + 1
      mtr := { s.mtr with open_ := false, unsigned_ := s.mtr.unsigned_ ++ [d], sets := tmap rest s.mtr.sets } }
    let s2 : State := if s.mtr.untimed then s1 else s1.nvWrite 8 (fun d => { d with lastLabel := s.mtr.label })
    s2.landMeter
/-- Whether a period with this label closed within the last 30 days of operating time (R415). -/
def State.labelClosed (s : State) (l : DWord) : Bool :=
  (s.nv.cur.dataSets ++ s.mtr.unsigned_).any (fun d => !d.absence && d.label == l &&
    decide (s.nv.cur.opNs ≤ d.opNsEnd + 2592000000000000))
/-- A period opens now (R413-R417). -/
def State.openPeriod (s : State) (cause : BitVec 32) : State :=
  let untimed := s.time.utcQual = 0
  let label : DWord := if untimed then 0 else slotOf s.time.utc
  let s1 : State := if s.mtr.resume && !untimed then
      let t : State := { s with mtr := { s.mtr with resume := false } }
      if s.nv.cur.lastLabel = 0 then t else t.absence s.nv.cur.lastLabel label 20
    else s
  let over_ := !untimed && s1.labelClosed label
  let flags : BitVec 32 := cause ||| (if untimed then 1#32 <<< 5 else 0) ||| (if over_ then 1#32 <<< 3 else 0) |||
    (if s1.mtr.settings then 1#32 <<< 16 else 0)
  let s2 : State := s1.nvWrite 4 (fun d => { d with periodSeq := d.periodSeq + 1 })
  { s2 with mtr := { s2.mtr with
    open_ := true, untimed := untimed, label := label, startUtc := s2.utcNow, startM := s2.time.mtime
    slotEnd := label + dw 300000000000, flags := flags, sysTime := Vector.replicate 16 0, shadowRole := s2.standby
    settings := false } }
/-- UTC steps by a signed number of ns (R37, R415, R416): UTC_STEP with its size, a juridical entry, and the period's close. -/
def State.stepUtc (s : State) (delta : Int) : State :=
  let utc : DWord := s.time.utc + BitVec.ofInt 64 delta
  let set (s : State) : State := { s with time := { s.time with utc := utc, slewLeft := 0, stepped := true } }
  let close := s.mtr.open_ && !s.mtr.untimed && (decide (delta < 0) || decide (s.mtr.slotEnd.toNat ≤ utc.toNat))
  let f : BitVec 32 := if delta < 0 then 0b011 else 0b101
  let s1 : State := if close then
      let t : State := set (s.closePeriod f)
      let t1 : State := if 0 < delta then t.absence s.mtr.label (slotOf utc) 21 else t
      t1.openPeriod f
    else if s.mtr.open_ && !s.mtr.untimed then
      set { s with mtr := { s.mtr with flags := s.mtr.flags ||| 0b100 } }
    else set s
  (s1.raise 29 (scode 64 delta)).juridical "UTC_STEP" [scode 64 delta % 4294967296, scode 64 delta / 4294967296] (some 29)
/-- Chunks that hold no record with valid UTC take the UTC of the next LOCKED (R434). -/
def State.stampChunks (s : State) : State :=
  { s with reng := { s.reng with unit := tmap (fun u : StUnit => { u with
    chunks := u.chunks.map (fun c => if c.newestUtc = 0 then { c with newestUtc := s.time.utc } else c) }) s.reng.unit } }
/-- UTC is set to the PTP time (R36, R414): an untimed period closes and the first timed one opens with PARTIAL. -/
def State.setUtc (s : State) (utc : DWord) : State :=
  let set (s : State) : State := { s with time := { s.time with utc := utc, utcQual := 1, slewLeft := 0 } }
  let s1 : State := if s.mtr.open_ && s.mtr.untimed then (set (s.closePeriod 0)).openPeriod 1 else set s
  s1.stampChunks.raise 29

/-! ### Signature and storage (R419) -/

/-- Data sets that the record engine has not accepted are streamed while stream 1 has room (R419, R431). -/
def State.streamSets (s : State) : State :=
  (s.nv.cur.dataSets.filter (fun d => !d.streamed)).foldl (fun (s : State) d =>
    if s.hasRoom 1 320 then
      let s1 : State := s.putEntry 1 0x02 (d.bytes s.fac.serial) 256 s.edge.mtime s.stampUtc s.time.utcQual s.nv.cur.poweron false
      s1.nvWrite 4 (fun n => { n with dataSets := n.dataSets.map (fun x => if x.dsSeq = d.dsSeq then { x with streamed := true } else x) })
    else s) s
/-- The first waiting data set takes its DS_SEQ, is signed, or flagged UNSIGNED, stored in the METER region and handed to the
meter stream; source 28 (R413, R419). -/
def State.signOne (s : State) : State :=
  match s.mtr.unsigned_ with
  | [] => s
  | d :: rest =>
    let n := s.nv.cur.dsSeq + 1
    let d1 : DataSet := { d with dsSeq := n, flags := if s.canSign then d.flags else d.flags ||| (1#32 <<< 12) }
    let d2 : DataSet := { d1 with signature := if s.canSign then meterSign (d1.body s.fac.serial) else [] }
    let put (k : NvData) : NvData :=
      if k.dataSets.length < 9216 then { k with dsSeq := n, dataSets := k.dataSets ++ [d2] }
      else { k with dsSeq := n, dataSets := k.dataSets.drop 1 ++ [d2], overwritten := satInc 65535 k.overwritten }
    let s1 : State := ({ s with mtr := { s.mtr with unsigned_ := rest } }).nvWrite 256 put
    let s2 : State := if (s.streamCfg 1).isSome then s1 else s1.modStream 1 (fun x => { x with dropped := satInc 0xFFFFFFFF x.dropped })
    (s2.raise 28).streamSets
/-- Every waiting data set. -/
def State.signAll (s : State) : State := s.mtr.unsigned_.foldl (fun (s : State) _ => s.signOne) s

end Sys2Proof.Machine
end

