-- ==== Sys2Proof/Machine/Rails.lean ====
section
/-!
DEFINITION. Rail channels and trip comparators (R117-R134, R235-R237): rail states and their transitions, fault causes,
fault reaction sets, on events, comparator crossings and commands.
-/
namespace Sys2Proof.Machine
open Sys2Proof

/-! ### Rail state changes (R124, R125) -/

/-- The offset trim that waited for rail `n` to leave RAMP takes effect (R448). -/
def State.lateTrim (s : State) (n : RailN) : State :=
  match s.age.trimLate.find? (fun x => x.1.val == n.val) with
  | none => s
  | some x =>
    ({ (s.lagTrim x) with age := { s.age with trimLate := s.age.trimLate.filter (fun y => y.1 != x.1) } }).nvWrite 1
      (fun d => { d with cmpTrim := tset d.cmpTrim x.1 x.2 })
/-- What every change of state from `was` does to a rail: CAUSE stands in FAULT and LOCKOUT only, DROPPED in OFF and DRAIN, the
warnings in UP, and a stay in OFF begins without PG_STUCK_GOOD (R117, R122, R125). -/
def Rail.enters (r : Rail) (st was : RailSt) (now : Ns) : Rail :=
  { r with
    st := st, was := was, since := now
    cause := if st = .fault || st = .lockout then r.cause else none
    dropped := if st = .off || st = .drain then r.dropped else none
    warnLo := decide (st = .up) && r.warnLo
    warnHi := decide (st = .up) && r.warnHi
    pgStuck := decide (st != .off) && r.pgStuck }
/-- Rail `n` enters a state, with `f` applied and `d` as the detail of the event on source 32 + n (R248). -/
def State.enterRail (s : State) (n : RailN) (st : RailSt) (f : Rail → Rail) (d : Nat := st.code) : State :=
  let s1 : State := if (s.rail n).st = .ramp && st != .ramp then s.lateTrim n else s
  (s1.modRail n (fun r => (f r).enters st r.st s1.now)).raise (32 + n) d
/-- An answer to a command (R131): in ANSWER for host software, otherwise in the source's reply. -/
def State.answer (s : State) (src : Src) (n : RailN) (a : Ans) : State :=
  match src with
  | .host => s.modRail n (fun r => { r with answer := a })
  | .plan => s
  | .program _ => s.modRail n (fun r => { r with progOn := a })
  | _ => { s with answers := ⟨src, n, false, a⟩ :: s.answers }
/-- An answer to a CLEAR: a program's has its own place in the rail record of the next input image (R297). -/
def State.answerClear (s : State) (src : Src) (n : RailN) (a : Ans) : State :=
  match src with
  | .program _ => s.modRail n (fun r => { r with progClear := a })
  | _ => s.answer src n a
/-- An ON of `src` waits in DRAIN (R131). -/
def Rail.waits (r : Rail) (src : Src) : Rail :=
  { r with onPending := if r.onPending.contains src then r.onPending else r.onPending ++ [src] }
/-- Every pending ON gets its final answer and is cleared (R131). -/
def State.endPending (s : State) (n : RailN) (a : Ans) : State :=
  match (s.rail n).onPending with
  | [] => s
  | l => (l.foldl (fun (s : State) src => s.answer src n a) (s.modRail n (fun r => { r with onPending := [] }))).raise (32 + n)
/-- The margin part of a rail that leaves MARGIN by R125: TRIM to zero, reason RAIL_LEFT (R195). -/
def Rail.leaveMargin (r : Rail) : Rail :=
  if r.st = .margin then
    { r with mg := { r.mg with
        mode := .none, code := 0, target := 0, snapping := false
        endReason := if r.mg.mode = .ret then r.mg.endReason else .railLeft } }
  else r
/-- PROBE_ABORTED of a probe whose rail leaves MARGIN (R193). -/
def State.probeLeft (s : State) (n : RailN) : State :=
  if (s.rail n).st = .margin && (s.rail n).mg.mode = .probe then
    let drop (c : Conv) : Conv := if c.probe = some n then { c with probe := none } else c
    ({ s with scan := { s.scan with conv := tmap drop s.scan.conv } }).raise 24 (n.val + 256 * EndReason.railLeft.code)
  else s
/-- EN deasserted and DRAIN entered: TRIM to zero and a fresh discharge timeout (R125). -/
def State.toDrain (s : State) (n : RailN) (drop : Option (Fin 128) := none) : State :=
  (s.probeLeft n).enterRail n .drain (fun r => { (r.leaveMargin) with
    discharge := .running, dropped := drop, onPending := [] })
/-- RAMP is entered, cold from 0 V or warm from the last clean result (R120, R124); an ON that waited is ACCEPTED (R131). -/
def State.toRamp (s : State) (n : RailN) (warm : Bool) : State :=
  (s.endPending n .accepted).enterRail n .ramp (fun r => { r with
    warm := warm, v0 := if warm then r.lastClean.getD 0 else 0, upSeen := false, delayEndAt := none,
    ocCount := 0, discharge := .stopped })
/-- The warm condition of R124. -/
def warmOk (c : CRail) (v : Int) : Bool := c.warmRestart && 256 * c.prebiasMin ≤ v && v < 256 * c.upLo
/-- An on event reaches a rail in OFF, WAIT or DRAIN (R124, R125). The result says whether it waits in DRAIN. -/
def State.onEvent (s : State) (n : RailN) (src : Src) : State × Bool :=
  match s.railCfg n with
  | none => (s, false)
  | some c =>
    let wait : State × Bool :=
      if (s.rail n).st = .drain then (s.modRail n (fun r => r.waits src), true)
      else ((s.toDrain n).modRail n (fun r => r.waits src), true)
    match (s.rail n).lastClean with
    | none => wait
    | some v =>
      if v ≤ 256 * c.drainThresh then (s.toRamp n false, false)
      else if warmOk c v then (s.toRamp n true, false)
      else wait

/-! ### Fault causes and reaction sets (R128-R130, R151-R153) -/

/-- The reaction sets in force, numbered. -/
def State.reacts (s : State) : List (Nat × CReact) :=
  match s.cfg.react with
  | some l => ((List.range l.length).zip l).filter (fun p => p.2.used)
  | none => []
/-- The states in which reaction sets act (R153). -/
def State.reactOn (s : State) : Bool :=
  match s.g.st with
  | .sequence | .run | .runDown => true
  | .lastGasp => s.g.lgStep ≤ 3
  | _ => false
/-- A member rail is dropped by set `k`, by its state (R130). -/
def State.dropMember (s : State) (k : Fin 128) (n : RailN) : State :=
  match (s.rail n).st with
  | .wait => s.enterRail n .off (fun r => r)
  | .ramp | .up | .margin =>
    let s' := s.toDrain n (some k)
    { s' with seq := { s'.seq with fails := s'.seq.fails ++ [(FailReason.dropped, n)] } }
  | .drain =>
    let s1 : State := s.endPending n .refusedFault
    if (s.rail n).since = s.now then
      s1.modRail n (fun r => { r with dropped := r.dropped.map (fun j => if k.val < j.val then k else j) })
    else s1
  | _ => s
/-- The rails of a bit map, in order. -/
def railsOf (b : BitVec 256) : List RailN := (List.finRange 256).filter (fun n => b.getLsbD n.val)
/-- Set `k` acts (R130, R152), once in a fine tick: its members are dropped but for the tripping rail, its chains' CAS_OUT is
driven low, and REACTION_SET is raised on source 384 + k. -/
def State.reactSet (s : State) (k : Nat) (c : CReact) (trip : Option RailN) (src : Nat) (cause : Option Cause) :
    State :=
  let kf := Fin.ofNat 128 k
  if s.seq.react[kf].actedAt = some s.now then s else
  let s1 := ((railsOf c.members).filter (fun n => some n != trip)).foldl (fun s n => s.dropMember kf n) s
  let s2 := { s1 with seq := { s1.seq with
    casOut := s1.seq.casOut &&& ~~~ c.chains
    casDropped := s1.seq.casDropped ||| c.chains
    acted := s1.seq.acted ||| (1#128 <<< k)
    react := tmod s1.seq.react kf (fun r =>
      { count := satInc 65535 r.count, lastSrc := src, analog := trip.isNone, lastCause := cause, actedAt := some s.now }) } }
  s2.raise (384 + k) src
/-- Every set that a fault of rail `n` with causes `cs` triggers acts, the lower number first (R151, R152). -/
def State.reactRail (s : State) (n : RailN) (cs : List Cause) : State :=
  if s.reactOn then
    (s.reacts.filter (fun p => p.2.trigRails.getLsbD n.val && cs.any (fun c => p.2.causes.getLsbD c.bit))).foldl
      (fun s p => s.reactSet p.1 p.2 (some n) n.val cs.head?) s
  else s
/-- Every set that names analog `a` acts (R151). -/
def State.reactAnalog (s : State) (a : Nat) : State :=
  if s.reactOn then
    (s.reacts.filter (fun p => p.2.trigAnalog.getLsbD a)).foldl (fun s p => s.reactSet p.1 p.2 none a none) s
  else s
/-- Causes added to the history of a rail (R129). -/
def State.addHistory (s : State) (n : RailN) (cs : List Cause) (entry : Bool) : State :=
  s.nvWrite 16 (fun d => { d with rail := tmod d.rail n (fun k => { k with
    seen := cs.foldl (fun b c => b ||| (1#7 <<< c.bit)) k.seen
    count := if entry then satInc 65535 k.count else k.count }) })
/-- The first cause by R129. -/
def firstCause (cs : List Cause) : Option Cause :=
  cs.foldl (fun a c => match a with
    | none => some c
    | some b => if c.rank < b.rank then some c else some b) none
/-- The record's freeze, or the later-fault list, for causes of rail `n` (R128, R277). -/
def State.causeEvents (s : State) (n : RailN) (cs : List Cause) : State :=
  let classes : BitVec 32 := cs.foldl (fun b c => b ||| (1#32 <<< c.bit)) 0
  cs.foldl (fun s c => s.faultEvent c.bit (32 + n) c.name [n.val, c.code] classes) s
/-- A rail enters FAULT by causes of this fine tick (R128): EN deasserted, a pending ON answered REFUSED_FAULT, reaction sets act, the
snapshot trigger fires and the record may freeze. -/
def State.tripRail (s : State) (n : RailN) (cs : List Cause) : State :=
  let s1 : State := (s.endPending n .refusedFault).probeLeft n
  let s2 : State := s1.enterRail n .fault (fun r => { (r.leaveMargin) with
    cause := firstCause cs, discharge := .running, causeAt := none, onPending := [] })
  let s2a : State := { s2 with seq := { s2.seq with acted := 0 } }
  let s3 : State := (s2a.addHistory n cs true).reactRail n cs
  let s4 : State := { s3 with seq := { s3.seq with fails := s3.seq.fails ++ [(FailReason.railFault, n)] } }
  ((s4.snapTrigger).causeEvents n cs).updFault
/-- Causes established on a rail that entered FAULT in this same fine tick (R129, R151): CAUSE takes the first of all of them,
and the sets that only they trigger act too; the snapshot trigger has fired. -/
def State.secondCause (s : State) (n : RailN) (cs : List Cause) : State :=
  let s1 : State := s.modRail n (fun r => { r with cause := firstCause (r.cause.toList ++ cs) })
  ((s1.addHistory n cs false).reactRail n cs).causeEvents n cs
/-- A new cause in the fine tick of a CLEAR (R133): the rail stays in FAULT with its first cause, the new one goes into the history, and the
CLEAR is answered REFUSED_FAULT. -/
def State.unclear (s : State) (n : RailN) (cs : List Cause) (c : Option Cause) (src : Src) : State :=
  let s1 : State := (s.endPending n .refusedFault).enterRail n .fault (fun r => { r with
    cause := c, discharge := .running, causeAt := some s.now, cleared := none })
  let s2 : State := (s1.addHistory n cs false).answerClear src n .refusedFault
  { s2 with seq := { s2.seq with fails := s2.seq.fails ++ [(FailReason.railFault, n)] } }.updFault
/-- A fault cause is established on rail `n` (R128, R129, R151): the rail enters FAULT with its EN deasserted, a pending
ON is answered REFUSED_FAULT, reaction sets act, the snapshot trigger fires and the record may freeze. On a rail
already in FAULT only the history grows, but in the fine tick of its entry by R129. -/
def State.establish (s : State) (n : RailN) (cs : List Cause) : State :=
  let r := s.rail n
  match r.st with
  | .fault =>
    if r.since = s.now && r.causeAt != some s.now then s.secondCause n cs
    else (s.addHistory n cs false).modRail n (fun r => { r with causeAt := some s.now })
  | .off | .wait | .ramp | .up | .margin | .drain =>
    match r.cleared with
    | some (t, c, src) => if t = s.now then s.unclear n cs c src else s.tripRail n cs
    | none => s.tripRail n cs
  | _ => s
/-- The discharge timeout expires in DRAIN or FAULT (R125, R128): LOCKOUT; from DRAIN the cause is NO_DRAIN and a pending
ON is answered REFUSED_DRAIN, from FAULT the first cause stays. -/
def State.noDrain (s : State) (n : RailN) : State :=
  let r := s.rail n
  let s1 := s.endPending n .refusedDrain
  let s2 := s1.enterRail n .lockout (fun x => { x with
    cause := if r.st = .fault then r.cause else some .noDrain, discharge := .stopped })
  let s3 := (s2.addHistory n [.noDrain] true).laterFault (some (32 + n)) none "NO_DRAIN" [n.val]
  { s3 with
    seq := { s3.seq with fails := s3.seq.fails ++ [(FailReason.noDrain, n)] }
    shut := if s3.shut.jobs.any (fun j => j.scope.contains n) then { s3.shut with lockouts := satInc 255 s3.shut.lockouts }
            else s3.shut }.updFault

/-! ### Comparator crossings (R230, R231, R235-R237) -/

/-- The pass number that a rail's two-scan count must exceed: the pass its home list is in now (R127). -/
def State.homePass (s : State) (n : RailN) : Nat :=
  ((List.finRange 16).foldl (fun acc c =>
    match s.cfg.scan[c] with
    | some l => if l.entries.any (fun e => e.input == BitVec.ofNat 10 n.val) then s.scan.conv[c].pass else acc
    | none => acc) 0)
/-- What a departure of rail comparator `n` through a threshold gives, by the rail's state (R120, R127, R128, R231). -/
def State.railCross (s : State) (n : RailN) (out : CmpOut) (level : Int) : State :=
  match (s.rail n).judged s.now, out with
  | .ramp, .below => s.establish n [.slowRise]
  | .ramp, _ =>
    match s.railCfg n with
    | some c => s.establish n [if c.hiCode * c.fs < level * 1024 then .ov else .fastRise]
    | none => s
  | .up, .below | .margin, .below => s.establish n [.uv]
  | .lockout, _ => (s.addHistory n [.ov] false).raise (32 + n) 2
  | .observe, _ =>
    (s.modRail n (fun x => { x with obsCount := 0, obsPass := s.homePass n })).raise (32 + n) 2
  | .parked, _ => s
  | _, _ => s.establish n [.ov]
/-- What a departure of an armed analog comparator gives (R235). -/
def State.analogTrip (s : State) (a : Nat) (out : CmpOut) : State :=
  let d := if out = .below then 0 else 1
  let s0 := { s with seq := { s.seq with acted := 0 } }
  ((((s0.raise (288 + a) d).reactAnalog a).snapTrigger).faultEvent 6 (288 + a) "ANALOG_TRIP" [a, d]).updFault
/-- Comparator `i` takes a new output: edge flags, count and event, then its effect; for a return, ANALOG_TRIP_END of an
analog comparator (R235-R237). An edge that brings an event of its rail's state with it (a trip, RAIL_OBSERVE_FAULT,
RAIL_LOCKOUT_OV) is that one event (DEDUCED from the count of the example under R255, log entry 134). -/
def State.cmpTo (s : State) (i : Fin 320) (out : CmpOut) (level : Int) : State :=
  let old := s.trip.cmp[i].out
  let s1 := { s with trip := { s.trip with cmp := tmod s.trip.cmp i (fun c => { c with
      out := out, level := some level
      loEdge := c.loEdge || (decide (out = .below) && decide (old ≠ .below))
      hiEdge := c.hiEdge || (decide (out = .above) && decide (old ≠ .above))
      edges := if out = .inside || out = old then c.edges else satInc 65535 c.edges }) } }
  if out = old then s1
  else if h : i.val < 256 then
    if out = .inside then s1
    else if (s.rail ⟨i.val, h⟩).st = .fault then
      (s1.raise (32 + i.val) (if out = .below then 0 else 1)).railCross ⟨i.val, h⟩ out level
    else s1.railCross ⟨i.val, h⟩ out level
  else if out = .inside then s1.raise (288 + (i.val - 256)) 2
  else s1.analogTrip (i.val - 256) out
/-- The input of comparator `i` stands at a level (R230). -/
def State.setInput (s : State) (i : Fin 320) (level : Int) : State :=
  { s with trip := { s.trip with cmp := tmod s.trip.cmp i (fun c => { c with level := some level }) } }
/-- Comparator `i` is judged afresh after its thresholds may have changed (R230): an off threshold returns it to INSIDE, one
switched on beyond its input is a departure. -/
def State.cmpSync (s : State) (i : Fin 320) : State :=
  match s.trip.cmp[i].level with
  | none => s
  | some l =>
    let o := s.judgeCmp i l
    if o = s.trip.cmp[i].out then s else s.cmpTo i o l
/-- The comparator of rail `n` is judged afresh, and once more after a departure that changed the rail's state. -/
def State.railSync (s : State) (n : RailN) : State := (s.cmpSync (railCmp n)).cmpSync (railCmp n)

/-! ### Results that a rail is judged on (R117, R119, R122, R123, R127) -/

/-- The rail enters UP (R122): RAIL_UP, and its comparator takes the fault window. -/
def State.toUp (s : State) (n : RailN) : State :=
  (s.enterRail n .up (fun r => { r with mg := { r.mg with mode := .none, skip := false } })).railSync n
/-- The warning window judged on a clean result in UP (R117). -/
def State.judgeWarn (s : State) (n : RailN) (v : Int) : State :=
  let r := s.rail n
  let lo := decide (v < 256 * r.effLo)
  let hi := decide (256 * r.effHi < v)
  let s' := s.modRail n (fun r => { r with warnLo := lo, warnHi := hi })
  if (lo && !r.warnLo) || (hi && !r.warnHi) then s'.raise (32 + n) 16
  else if (r.warnLo || r.warnHi) && !lo && !hi then s'.raise (32 + n) 17
  else s'
/-- OBSERVE ends at its second counted clean result (R125, R127): to OFF with RAIL_RETURNED (detail 19), or to DRAIN. -/
def State.leaveObserve (s : State) (n : RailN) : State :=
  if (s.rail n).drained then s.enterRail n .off (fun r => r) 19
  else s.enterRail n .drain (fun r => { r with discharge := .running, onPending := [] })
/-- A clean SENSE result `v` (1/256 µV) of rail `n`, taken in pass `pass` of its list (R117-R125, R127, R184, R195). It is
also where the comparator's input stands until its next crossing, so a threshold that takes effect is judged on it, and a result inside
the UP window never is a crossing (R230, R234). -/
def State.senseClean (s : State) (n : RailN) (c : CRail) (v : Int) (pass : Nat) : State :=
  let s1 := (s.setInput (railCmp n) (v / 256)).modRail n (fun r => { r with
    lastClean := some v, drained := decide (v ≤ 256 * c.drainThresh) })
  let r := s1.rail n
  match r.st with
  | .ramp =>
    if 256 * c.upLo ≤ v && v ≤ 256 * c.upHi then
      let s2 := s1.modRail n (fun r => { r with upSeen := true })
      if !c.pgUsed || r.pg then (s2.toUp n).judgeWarn n v else s2
    else s1
  | .up => s1.judgeWarn n v
  | .margin =>
    if r.mg.mode = .ret && r.mg.code = 0 then
      if r.mg.skip then s1.modRail n (fun r => { r with mg := { r.mg with skip := false } })
      else (s1.toUp n).judgeWarn n v
    else
      match s1.modCfg with
      | some m =>
        if r.mg.mode ≠ .ret && !inMarginWindow m c v then (s1.endMargin n .marginOut).raise 24 n
        else if r.mg.mode = .probe && r.mg.stepped && m.probeHoldMs * 1000000 ≤ 2 * (s.now - r.mg.stepAt) then
          s1.modRail n (fun r => { r with mg := { r.mg with
            holdSum := r.mg.holdSum + v, holdCount := r.mg.holdCount + 1 } })
        else s1
      | none => s1
  | .drain =>
    if v ≤ 256 * c.drainThresh then
      if r.onPending.isEmpty then s1.enterRail n .off (fun r => { r with discharge := .stopped })
      else (s1.toRamp n false).railSync n
    else if !r.onPending.isEmpty && warmOk c v then (s1.toRamp n true).railSync n
    else s1
  | .observe =>
    if r.obsPass < pass then
      if r.obsCount = 0 then s1.modRail n (fun r => { r with obsCount := 1 })
      else (s1.modRail n (fun r => { r with obsCount := 0 })).leaveObserve n
    else s1
  | .parked => s
  | _ => s1
/-- The overcurrent limit in force, in mA, where IMON is judged (R123). -/
def ocLimit (c : CRail) (st : RailSt) : Option Nat :=
  match st with
  | .ramp => some c.ocRampLimit
  | .up | .margin | .observe => some c.ocLimit
  | _ => none
/-- Whether an IMON code exceeds a limit: I = V_IMON ÷ 2 V × IMON_FS (R123, R210). -/
def overLimit (c : CRail) (code : Int) (lim : Nat) : Bool := (lim : Int) * 32768 < code * c.imonFs
/-- A clean IMON result of rail `n` (R123, R127, R128). -/
def State.imonClean (s : State) (n : RailN) (c : CRail) (code : Int) : State :=
  let s0 := s.modRail n (fun r => { r with lastImon := code })
  if !c.ocUsed then s0
  else match ocLimit c ((s.rail n).judged s.now) with
  | none => s0
  | some lim =>
    if overLimit c code lim then
      let k := (s.rail n).ocCount + 1
      let s1 := s0.modRail n (fun r => { r with ocCount := k })
      if k < c.ocCount then s1
      else if (s.rail n).st = .observe then
        (s1.modRail n (fun r => { r with ocCount := 0, obsCount := 0, obsPass := s.homePass n })).raise (32 + n) 3
      else s1.establish n [.oc]
    else s0.modRail n (fun r => { r with ocCount := 0 })

/-! ### Commands (R131, R132) -/

/-- The held plan. -/
def State.heldPlan (s : State) : Option CPlan := s.cfg.plan[s.seq.held]
/-- The rails of the held plan. -/
def State.heldRails (s : State) : List RailN :=
  match s.heldPlan with
  | some p => p.rails
  | none => []
/-- Whether a running shut-down covers rail `n` (R164). -/
def State.inShutdown (s : State) (n : RailN) : Bool := s.shut.jobs.any (fun j => j.scope.contains n)
/-- Whether a rail entry has a bit of SETS (R114): 0 essential, 1 run-down, 2 lean-shed, 3 coast-shed, 4 reserve-shed. -/
def State.inSet (s : State) (n : RailN) (b : Nat) : Bool :=
  match s.railCfg n with
  | some c => c.sets.getLsbD b
  | none => false
/-- The states in which commands are judged at COMMIT. -/
def State.onRefused (s : State) (n : RailN) : Bool :=
  s.inShutdown n || (s.g.st = .runDown && !s.inSet n 1)
/-- An ON reaches the rail (R131, R156): a rail that a running shut-down covers, or that RUN_DOWN holds off, answers
REFUSED_STATE whatever command state it is in (R164, R171). -/
def State.cmdOn (s : State) (src : Src) (n : RailN) : State :=
  if !s.railUsed n then s.answer src n .refusedParked
  else if s.seq.barred && s.heldRails.contains n then s.answer src n .refusedLockout
  else match (s.rail n).st with
  | .observe => s.answer src n .refusedObserve
  | .parked => s.answer src n .refusedParked
  | st =>
    if s.onRefused n then s.answer src n .refusedState
    else match st with
    | .ramp | .up | .margin => s.answer src n .noChange
    | .fault => s.answer src n .refusedFault
    | .lockout => s.answer src n .refusedLockout
    | _ =>
      let p := s.onEvent n src
      if p.2 then p.1.answer src n .pending else (p.1.answer src n .accepted).railSync n
/-- An OFF reaches the rail (R125, R131); a plan rail turned off is a failure COMMANDED_OFF (R154). -/
def State.cmdOff (s : State) (src : Src) (n : RailN) : State :=
  let failed (t : State) : State := { t with seq := { t.seq with fails := t.seq.fails ++ [(FailReason.commandedOff, n)] } }
  match (s.rail n).st with
  | .wait => failed ((s.enterRail n .off (fun r => r)).answer src n .accepted)
  | .ramp | .up | .margin => failed (((s.toDrain n).answer src n .accepted).railSync n)
  | .drain => (s.endPending n .contradicted).answer src n .accepted
  | .off | .fault | .lockout => s.answer src n .noChange
  | .observe => s.answer src n .refusedObserve
  | .parked => s.answer src n .refusedParked
/-- A rail in FAULT is cleared by `src` (R125): OFF, with what the CLEAR took away kept for its fine tick (R133). -/
def State.clearRail (s : State) (src : Src) (n : RailN) : State :=
  s.enterRail n .off (fun r => { r with discharge := .stopped, cleared := some (s.now, r.cause, src) })
/-- A CLEAR reaches the rail (R131); with a cause in the same fine tick it is REFUSED_FAULT (R133). -/
def State.cmdClear (s : State) (src : Src) (n : RailN) : State :=
  match (s.rail n).st with
  | .fault =>
    if (s.rail n).since = s.now || (s.rail n).causeAt = some s.now then s.answerClear src n .refusedFault
    else if (s.rail n).drained then ((s.clearRail src n).answerClear src n .accepted).updFault
    else s.answerClear src n .refusedDrain
  | .observe => s.answerClear src n .refusedObserve
  | _ => s.answerClear src n .noChange
/-- Whether a source may issue RELEASE, PARK and UNPARK (R132). -/
def Src.mayPark : Src → Bool
  | .host | .edivo => true
  | _ => false
/-- A RELEASE reaches the rail (R131, R132). -/
def State.cmdRelease (s : State) (src : Src) (n : RailN) : State :=
  if !src.mayPark then s.answer src n .refusedState
  else match (s.rail n).st with
  | .lockout =>
    if (s.rail n).drained then
      ((s.enterRail n .off (fun r => { r with discharge := .stopped })).answer src n .accepted).updFault
    else s.answer src n .refusedDrain
  | .observe => s.answer src n .refusedObserve
  | _ => s.answer src n .noChange
/-- A PARK reaches the rail (R131, R132): EN to high impedance. -/
def State.cmdPark (s : State) (src : Src) (n : RailN) : State :=
  if !src.mayPark then s.answer src n .refusedState
  else match (s.rail n).st with
  | .off | .lockout =>
    (((s.enterRail n .parked (fun r => { r with discharge := .stopped })).answer src n .accepted).railSync n).updFault
  | .observe => s.answer src n .refusedObserve
  | _ => s.answer src n .refusedState

/-- OBSERVE is entered from PARKED: supervision resumes and the two-scan count starts (R125, R127). -/
def State.toObserve (s : State) (n : RailN) : State :=
  let p := s.homePass n
  (s.enterRail n .observe (fun r => { r with obsCount := 0, obsPass := p, ocCount := 0, onPending := [] })).railSync n
/-- An UNPARK reaches the rail (R131, R132, R56). -/
def State.cmdUnpark (s : State) (src : Src) (n : RailN) : State :=
  if !src.mayPark then s.answer src n .refusedState
  else match (s.rail n).st with
  | .parked => if s.railUsed n then (s.toObserve n).answer src n .accepted else s.answer src n .refusedParked
  | .observe => s.answer src n .refusedObserve
  | _ => s.answer src n .noChange
/-- A rail command judged against the rail's state (R131). -/
def State.railCommand (s : State) (q : RailReq) : State :=
  match q.code with
  | .on => s.cmdOn q.src q.rail
  | .off => s.cmdOff q.src q.rail
  | .clear => s.cmdClear q.src q.rail
  | .release => s.cmdRelease q.src q.rail
  | .park => s.cmdPark q.src q.rail
  | .unpark => s.cmdUnpark q.src q.rail

end Sys2Proof.Machine
end

