-- ==== Sys2Proof/Machine/Queues.lean ====
section
/-!
DEFINITION. The Headstock's queues and host domains as shared operations: items, completions, settlement, grants, and the
domain states that follow the groups (R344-R346, R349-R355).
-/
namespace Sys2Proof.Machine
open Sys2Proof

/-- Queue `q` changed by `f`. -/
def State.modQueue (s : State) (q : QueueN) (f : Queue → Queue) : State :=
  { s with hds := { s.hds with queue := tmod s.hds.queue q f } }
/-- Host domain `d` changed by `f`. -/
def State.modDom (s : State) (d : Fin 16) (f : Dom → Dom) : State :=
  { s with hds := { s.hds with dom := tmod s.hds.dom d f } }
/-- The record of queue `q`, when it is used (R343). -/
def State.queueCfg (s : State) (q : QueueN) : Option CQueue :=
  match s.cfg.hds with
  | some h => (h.queues.find? (fun x => x.1 == q)).map (·.2)
  | none => none
/-- The record of host domain `d`, when it is used (R352). -/
def State.domCfg (s : State) (d : Fin 16) : Option CDom :=
  match s.cfg.hds with
  | some h => (match h.doms[d.val]? with | some c => if c.used then some c else none | none => none)
  | none => none
/-- TOKEN_DEPTH. -/
def State.depth (s : State) : Nat := match s.cfg.hds with | some h => h.depth | none => 0
/-- The token store changed by `x` µJ within its floor and its capacity (R350). -/
def State.addTokens (s : State) (x : Int) : State :=
  { s with hds := { s.hds with tokens := max (-(s.depth : Int)) (min (s.depth : Int) (s.hds.tokens + x)) } }
/-- The head item of a queue: its first QUEUED one. -/
def Queue.headItem (q : Queue) : Option Item := q.items.find? (fun x => decide (x.st = ItemSt.queued))
/-- Items QUEUED and items DISPATCHED or ABORTING. -/
def Queue.queued (q : Queue) : Nat := (q.items.filter (fun x => decide (x.st = ItemSt.queued))).length
def Queue.inflight (q : Queue) : Nat := (q.items.filter (fun x => decide (x.st ≠ ItemSt.queued))).length
/-- Item `i` of a queue changed by `f`. -/
def Queue.modItem (q : Queue) (i : Nat) (f : Item → Item) : Queue :=
  { q with items := q.items.map (fun x => if x.index = i then f x else x) }
/-- The head item gets its ready time, as the later of the push and its reaching the head (R345). -/
def Queue.setReady (q : Queue) (now : Ns) : Queue :=
  match q.headItem with
  | some h => if h.ready.isSome then q else q.modItem h.index (fun x => { x with ready := some (max now x.pushed) })
  | none => q
/-- An item leaves its queue, and the next one may come to the head. -/
def Queue.drop (q : Queue) (i : Nat) (now : Ns) : Queue :=
  ({ q with items := q.items.filter (fun x => x.index != i) }).setReady now
/-- HEAD of HDS_Q_IDX: the index of the next item to dispatch. -/
def Queue.headIndex (q : Queue) : Nat := match q.headItem with | some h => h.index | none => q.tail

/-! ### Completions, estimates and refunds (R346, R350-R352) -/

/-- Bounds of a queue's estimate (R351, R452): E_K is EST_UJ × EST_CORR. -/
def State.estBounds (s : State) (c : CQueue) : Nat × Nat :=
  let ek := c.est * s.nv.cur.estCorr
  let half := (ek + 2047) / 2048
  let lo := match c.dom with
    | some d => if s.age.eKlow.getLsbD d.val then (ek + 1023) / 1024 else half
    | none => half
  (lo, min (4 * ek / 1024) s.depth)
/-- A value held between two bounds. -/
def clampN (lo hi x : Nat) : Nat := min hi (max lo x)
/-- A completion record in the queue's completion ring, when the ring is enabled, with the notification of the queue
(R346). -/
def State.completion (s : State) (q : QueueN) (x : Item) (code charge meas : Nat) (measured : Bool) : State :=
  let u := s.hds.queue[q]
  let k := u.cplLog2.toNat
  if k < 4 || 16 < k then s
  else
    let flags := measured.toNat + 128 * u.cplPhase.toNat
    let bytes := leBytes 2 x.index ++ leBytes 1 code ++ leBytes 1 flags ++ leBytes 4 charge ++ leBytes 4 meas ++
      leBytes 4 (s.now / 1000)
    let next := (u.cplNext + 1) % 2 ^ k
    let s1 : State := (s.toHost (u.cpl + dw (16 * u.cplNext)) bytes).modQueue q (fun y => { y with
      cplNext := next, cplPhase := if next = 0 then !y.cplPhase else y.cplPhase })
    match s.queueCfg q with
    | some c => (match c.notify with | some n => s1.raise (736 + n.val) | none => s1)
    | none => s1
/-- Settlement of a measured item (R351): the store is credited with charge − m, and an item charged by its queue's estimate
moves it by an eighth of the difference. -/
def State.settleItem (s : State) (q : QueueN) (x : Item) (m : Nat) : State :=
  let s1 : State := s.addTokens ((x.charge : Int) - m)
  match s.queueCfg q with
  | none => s1
  | some c =>
    if x.byEst then
      let b := s.estBounds c
      s1.modQueue q (fun u => { u with
        est := clampN b.1 b.2 ((u.est : Int) + ((m : Int) - u.est).tdiv 8).toNat })
    else s1
/-- An item completes with a code; `m` is its measured energy in µJ, when it is known (R345, R346, R351). -/
def State.complete (s : State) (q : QueueN) (x : Item) (code : Nat) (m : Option Nat) : State :=
  let charge := if x.st = .queued then 0 else x.charge
  let s1 : State := s.modQueue q (fun u => u.drop x.index s.tickUs)
  let s2 : State := match m with | some e => s1.settleItem q x e | none => s1
  let s3 : State := match s.queueCfg q with
    | some c => (match c.dom with
      | some d => if x.st = .queued then s2 else s2.modDom d (fun y => { y with inflight := y.inflight - 1 })
      | none => s2)
    | none => s2
  s3.completion q x code charge (m.getD 0) m.isSome
/-- The measured energy of a host item, when its domain measured any (R351). -/
def Item.measHost (x : Item) : Option Nat := if x.measured then some x.meas.floor.toNat else none
/-- The measured energy of a task's run (R351). -/
def State.measTask (s : State) (n : ProgN) : Option Nat :=
  match s.cfg.hds with
  | some h => some (s.spn.prog[n].beadTime * h.pairMw / 1000000)
  | none => none
/-- The run of task `n` ends and its item completes with a code (R345). -/
def State.taskDone (s : State) (n : ProgN) (code : Nat) : State :=
  match s.spn.prog[n].ck.item with
  | none => s
  | some (q, i) =>
    let s1 : State := s.modProg n (fun p => { p with ck := { p.ck with item := none }, abortDue := false })
    match s1.hds.queue[q].items.find? (fun x => x.index == i) with
    | some x => s1.complete q x code (s.measTask n)
    | none => s1
/-- Every spindle task item in flight when the cycle stops: a dispatched one returns to its queue with its charge refunded,
one that is aborting completes ABORTED (R345). -/
def State.requeueTasks (s : State) : State :=
  (List.finRange 256).foldl (fun (s : State) n =>
    match s.spn.prog[n].ck.item with
    | none => s
    | some (q, i) =>
      match s.hds.queue[q].items.find? (fun x => x.index == i) with
      | none => s
      | some x =>
        if x.st = .aborting then s.complete q x 3 none
        else (s.addTokens x.charge).modQueue q (fun u => u.modItem i (fun y => { y with st := .queued, charge := 0 }))) s

/-! ### Host domains (R353, R354) -/

/-- A grant record for domain `d`, with source 576 + d (R354). -/
def State.grant (s : State) (d : Fin 16) (q : QueueN) (x : Item) (abort : Bool) : State :=
  let u := s.hds.dom[d]
  let k := u.sizeLog2.toNat
  let flags := abort.toNat + 128 * u.phase.toNat
  let bytes := leBytes 2 q.val ++ leBytes 1 flags ++ leBytes 1 0 ++ leBytes 4 x.index ++ leBytes 4 x.charge ++ leBytes 4 u.seq.toNat
  let next := (u.next + 1) % 2 ^ k
  let s1 : State := if u.enable && 4 ≤ k && k ≤ 16 then
      (s.toHost (u.base + dw (16 * u.next)) bytes).modDom d (fun y => { y with
        next := next, phase := if next = 0 then !y.phase else y.phase, seq := y.seq + 1 })
    else s
  s1.raise (576 + d.val)
/-- The group that feeds domain `d` in the held plan, with its number (R136). -/
def State.domGroup (s : State) (d : Fin 16) : Option (Nat × CGroup) :=
  match s.heldPlan with
  | some p => (match p.groups.findIdx? (fun c => c.domain == some d) with
    | some g => (p.groups[g]?).map (fun c => (g, c))
    | none => none)
  | none => none
/-- The queues that target domain `d`. -/
def State.domQueues (s : State) (d : Fin 16) : List (QueueN × CQueue) :=
  match s.cfg.hds with
  | some h => h.queues.filter (fun x => x.2.dom == some d)
  | none => []
/-- Every item in flight of domain `d` completes DOMAIN_LOST (R345, R353). -/
def State.loseDomain (s : State) (d : Fin 16) : State :=
  (s.domQueues d).foldl (fun (s : State) x =>
    (s.hds.queue[x.1].items.filter (fun y => decide (y.st ≠ ItemSt.queued))).foldl
      (fun (s : State) y => s.complete x.1 y 4 y.measHost) s) s
/-- Whether a group is UP with every rail that its steps started in UP or MARGIN (R353). -/
def State.groupAlive (s : State) (g : Nat) (c : CGroup) : Bool :=
  let x := s.seq.groups[Fin.ofNat 64 g]
  let skipped := x.steps.flatMap (fun y => y.skipped)
  decide (x.st = GroupState.up) && c.rails.all (fun n => skipped.contains n ||
    (match (s.rail n).st with | .up | .margin => true | _ => false))
/-- A domain's state follows its group (R353). -/
def State.evalDom (s : State) (d : Fin 16) : State :=
  match s.domCfg d, s.domGroup d with
  | some _, some (g, c) =>
    let st := (s.seq.groups[Fin.ofNat 64 g]).st
    let alive := s.groupAlive g c
    match s.hds.dom[d].st with
    | .off => if alive then s.modDom d (fun y => { y with st := .on }) else s
    | .reqUp =>
      if alive then s.modDom d (fun y => { y with st := .on, wakes := satInc 65535 y.wakes })
      else if st = .failed || (st = .down && (s.seq.groups[Fin.ofNat 64 g]).reason = .shed) || s.g.st != .run then
        s.modDom d (fun y => { y with st := .off })
      else s
    | .on | .reqDown =>
      if alive then s
      else ((s.modDom d (fun y => { y with st := .off })).loseDomain d).raise (576 + d.val)
    | .unused => s
  | _, _ => s
/-- Every domain's state. -/
def State.evalDoms (s : State) : State := (List.finRange 16).foldl State.evalDom s

end Sys2Proof.Machine
end

