-- ==== Sys2Proof/Machine/Modes.lean ====
section
/-!
DEFINITION. What entering a module state does (R18-R24, R82-R90, R169, R273, R295, R365): the supervision cycle stops,
START, STABLED, OFF, SAFE_HOLD and LAST_GASP are entered.
-/
namespace Sys2Proof.Machine
open Sys2Proof

/-! ### The supervision cycle stops (R20, R295, R365) -/

/-- The host's and the services' commands that wait for a COMMIT are answered REFUSED_STATE; partner commands fall
unanswered; APPLIED of source 2 passes them (R365). -/
def State.refuseWaiting (s : State) : State :=
  let s1 : State := (s.railReqs.filter (fun q => q.src != Src.partner)).foldl
    (fun (s : State) q => s.answer q.src q.rail .refusedState) s
  let s2 : State := (s1.marginReqs.filter (fun q => q.src == Src.host)).foldl
    (fun (s : State) q => s.modRail q.rail (fun r => { r with mg := { r.mg with answer := .refusedState } })) s1
  let s3 : State := { s2 with answers :=
    ((s2.marginReqs.filter (fun q => q.src != Src.host && q.src != Src.partner)).map
      (fun q => (⟨q.src, q.rail, true, .refusedState⟩ : RailAnswer))) ++ s2.answers }
  let hostMod := s3.cmd.modReqs.any (fun q => q.src == Src.host)
  { s3 with
    railReqs := [], marginReqs := []
    seq := { s3.seq with
      rerun := none, rerunEdivo := false, cmdAns := if s3.seq.rerun = some Src.host then .refusedState else s3.seq.cmdAns }
    cmd := { s3.cmd with
      modReqs := [], offAns := if hostMod then .refusedState else s3.cmd.offAns
      modAnswers := ((s3.cmd.modReqs.filter (fun q => q.src != Src.host && q.src != Src.partner)).map
        (fun q => (q.src, Ans.refusedState))) ++ ((if s3.seq.rerunEdivo then [(Src.edivo, Ans.refusedState)] else []) ++ s3.cmd.modAnswers)
      applied := tset s3.cmd.applied 2 s3.cmd.issuedHost }
    hsb := { s3.hsb with queue := [] } }
/-- A pair that loses its power: the bead and the replay that run end where they stand (R84). -/
def LPair.dark (x : LPair) : LPair :=
  { x with due := [], ready := [], cur := none, replay := none, journal := [], buf := [] }
/-- A program whose pair loses its power (R84, R295). -/
def ProgSt.dark (p : ProgSt) : ProgSt := match p.st with | .running | .waiting | .done => { p with st := .inactive } | _ => p
/-- The spindles are unpowered in STABLED and OFF (R84): no bead runs on. -/
def State.darkSpindles (s : State) : State :=
  { s with spn := { s.spn with lpair := tmap LPair.dark s.spn.lpair, prog := tmap ProgSt.dark s.spn.prog } }
/-- A pair when the cycle stops: only the bead that runs goes on, to its end (R295); a replay is abandoned (R331). -/
def LPair.stop (x : LPair) : LPair :=
  if x.replay.isSome then { x with due := [], ready := [], cur := none, replay := none, journal := [], buf := [] }
  else { x with due := [], ready := [] }
/-- A program when the cycle stops: from any state but ABSENT it enters INACTIVE, unless its bead still runs (R295, R313). -/
def ProgSt.stop (p : ProgSt) (inBead : Bool) : ProgSt :=
  match p.st with
  | .absent => p
  | _ =>
    let q : ProgSt := { p with waitObj := none, woken := none, abortDue := false, ck := { p.ck with item := none } }
    if inBead then q else { q with st := .inactive }
/-- The supervision cycle stops (R20, R295): no output image is applied, program waits end, waiting commands are refused.
DEDUCED: R20 lets the cycle stop at the end of the cycle in progress, R18 and R87 at once; the model stops it at once, drops the
programs that are due and lets only the bead that runs come to its end (log entry 114). -/
def State.stopCycle (s : State) : State :=
  if s.cyc.phase = 0 then s.refuseWaiting
  else
    let busy (n : ProgN) : Bool := s.spn.lpair.toList.any (fun x => x.cur = some n && x.replay.isNone)
    let dropProg (w : Nat × Waiter) : Bool := match w.2 with | .prog _ => false | .host _ => true
    ({ s with
      cyc := { s.cyc with phase := 0, late := false }
      spn := { s.spn with
        lpair := tmap LPair.stop s.spn.lpair
        prog := Vector.ofFn (fun n : ProgN => s.spn.prog[n].stop (busy n)) }
      hds := s.requeueTasks.hds, hostWr := s.requeueTasks.hostWr, evt := s.requeueTasks.evt
      lck := { s.lck with sync := tmap (fun o : SyncSt => { o with waits := o.waits.filter dropProg }) s.lck.sync } }).refuseWaiting

/-! ### START (R21, R34, R82, R125, R273, R282, R428) -/

/-- What a clear does when its commit is durable (R198, R286). -/
def NvData.clear (d : NvData) (c : ClearReq) : NvData :=
  match c.scope with
  | 1 => { d with clearIncDue := true }
  | 2 => { d with lfl := [], lflSeq := 0, lflOverflow := 0 }
  | 3 => { d with rail := tmap (fun r : RailKept => { r with seen := 0, count := 0 }) d.rail }
  | 4 => { d with rail := tmod d.rail c.rail (fun r => { seen := r.seen, count := r.count }) }
  | _ => d
/-- A durable group's data with the clears that it carried in effect. -/
def NvData.landed (d : NvData) : NvData := { (d.clears.foldl NvData.clear d) with clears := [] }
/-- What the store reads after recovery (R273): an interrupted group is completed when its marker was programmed, which the
spec leaves to the moment of the interruption, a free value; gathered writes that no commit took are lost. -/
def State.recoverNv (s : State) : Nv :=
  let marker := freeNat s.free % 2 = 1
  let d : NvData := match s.nv.committing with
    | some x => if marker then x.landed else s.nv.durable
    | none => s.nv.durable
  { cur := d, durable := d, st := .recovering, retired := s.nv.retired, wearPct := s.nv.wearPct, ampl := s.nv.ampl
    gatherSeq := s.nv.gatherSeq
    durableSeq := match s.nv.committing with
      | some _ => if marker then s.nv.gatherSeq - 1 else s.nv.durableSeq
      | none => s.nv.durableSeq
    rollback := match s.nv.committing with
      | some _ => if marker then none else some (s.nv.gatherSeq - 1)
      | none => none
    stalePages := s.nv.stalePages }
/-- The Inclusion record at START, by the rows of R278; a copy is cut short only by a reset by R74 (R279). The Bool says
INCLUSION_LOST. -/
def Inclusion.atStart (a : Inclusion) (due reset : Bool) : Inclusion × Bool :=
  if due then ({ a with st := .clearing }, false)
  else match a.st with
  | .capturing => ({ recordNo := a.recordNo }, false)
  | .commitA => if reset then ({ recordNo := a.recordNo }, true) else (a, false)
  | _ => (a, false)
/-- The seal page's entries come into the later-fault list, and its cause histories to their rails, with the first commit group
after recovery (R134, R282). -/
def State.sealToList (s : State) : State :=
  if s.sealPg.valid && s.sealPg.no != s.nv.cur.sealNo then
    let s1 : State := s.sealPg.kept.foldl State.listLfl s
    let s2 : State := if s.sealPg.further = 0 then s1 else s1.laterFault none none "SEAL_OVERFLOW" [s.sealPg.further]
    let s3 : State := s.sealPg.history.foldl (fun (s : State) x => s.nvWrite 16 (fun d =>
      { d with rail := tmod d.rail x.1 (fun k => { k with seen := x.2.1, count := x.2.2 }) })) s2
    s3.nvWrite 8 (fun d => { d with sealNo := s.sealPg.no })
  else s
/-- A storage unit at START: the level of its pin and what its medium holds outlive it, its registers read 0 (R12). One that LAST_GASP met
in RELEASING is REMOVABLE now (R442; DEDUCED, log entry 151). -/
def StUnit.atStart (u : StUnit) (gasped : Bool) : StUnit :=
  { present := u.present, chunks := u.chunks
    st := if gasped && decide (u.st = .releasing) then .removable else .absent }
/-- The wrapped area of the secret store is erased (R484, R492). -/
def Sec_.eraseArea (x : Sec_) : Sec_ :=
  { x with areaErased := true, custKey := [], meterKey := false, verifiers := Vector.replicate 35 none, meterPub := [] }
/-- The wrapping key is lost to the cell in OFF when its last measured voltage is below 2.20 V, 0 standing for none measured
(R495); no breach (DEDUCED, log entry 113). No item of the wrapped area can be read from then on (R483). -/
def Sec_.cellAtStart (x : Sec_) (off : Bool) (mv : Nat) : Sec_ :=
  if off && x.wrapKey && !x.custKey.isEmpty && decide (0 < mv) && decide (mv < 2200) then
    { x.eraseArea with areaErased := x.areaErased, wrapKey := false, cause := 5 }
  else x
/-- The touch key at START (R12, R175): its state goes on, and its seen bits and last action read 0; only from OFF is it set afresh, on the
aged baseline. The alerts are the entries of the list that no acknowledgement has met (R179). -/
def Touch.atStart (t : Touch) (off : Bool) (d : NvData) : Touch :=
  let u : Touch := if off then { st := .idle, base := d.agedBase } else { t with stuckSeen := false, heldSeen := false, lastAction := 0 }
  { u with alerts := t.alerts.filter (fun a => d.lfl.any (fun e => e.seq == a)) }
/-- START is entered (R21): every register takes its Reset value except those marked kept; module time restarts only from
OFF; the store is recovered; every stream continues at a fresh block of sequence numbers. `cause` and `wake` are coded as
in GLB_RESET_CAUSE. -/
def State.startEntry (s : State) (cause wake : Nat) : State :=
  let off := decide (s.g.st = .off)
  let nv0 := s.recoverNv
  let d0 := nv0.cur
  let d1 := { d0 with
    poweron := if off then d0.poweron + 1 else d0.poweron
    seqBlock := tmap (· + 1) d0.seqBlock }
  let streams : Vector Stream 64 := Vector.ofFn (fun i : Fin 64 => { next := d0.seqBlock[i] * 1048576 })
  let base : State := {
    g := { st := .start, resetCause := cause, wakeSrc := wake, loaded := !off && s.g.loaded
           railResets := if off then [] else s.g.railResets
           lgFlushDone := s.sealPg.flushDone, lgCommitDone := s.sealPg.commitDone
           lgSealDone := s.sealPg.valid
           lgMib := if s.sealPg.valid then s.sealPg.unflushedMib else d0.unflushedMib }
    time := if off then {} else
      { mtime := s.time.mtime, mtimeHi := s.time.mtimeHi, utc := s.time.utc, utcQual := s.time.utcQual
        slewLeft := s.time.slewLeft, stepDue := s.time.stepDue, leapDue := s.time.leapDue
        holdSince := s.time.holdSince, leapLeft := s.time.leapLeft }
    sup := { vinMv := s.sup.vinMv, present := s.sup.present, lossDeclared := s.sup.lossDeclared
             pfwPin := s.sup.pfwPin, bankMv := s.sup.bankMv, usableMj := s.sup.usableMj, railsGood := s.sup.railsGood }
    key := { key := s.key.key }
    prev := if off then {} else s.prev
    jur := s.jur
    answers := s.answers
    touch := s.touch.atStart off d0
    mrst := { level := s.mrst.level, st := if s.mrst.level then 2 else 0 }
    rails := tmap (fun r : Rail => { pg := r.pg }) s.rails
    scan := { conv := Vector.replicate 16 { passAt := if off then 0 else s.now } }
    trip := { cmp := tmap (fun c : Cmp => { level := c.level }) s.trip.cmp }
    evt := { alert := s.evt.alert }
    nv := { nv0 with cur := d1, durable := d1 }
    sealPg := s.sealPg
    inc := (s.inc.atStart d1.clearIncDue (decide (cause = 6))).1
    reng := { stream := streams, unit := if off then s.reng.unit else tmap (fun u : StUnit => u.atStart (decide (0 < s.g.lgStep))) s.reng.unit }
    spn := {}
    age := { load := if off then [] else s.age.load, refFail := !off && s.age.refFail, coreTarget := d0.coreOffset }
    hds := if off then {} else { therm := tmap (fun t : Therm => { tAmb := t.tAmb, theta := t.theta }) s.hds.therm }
    lnk := { telegrams := s.lnk.telegrams, replies := s.lnk.replies
             lostAt := if off || s.g.st = .stabled then none else s.lnk.lostAt
             leap := if off then none else s.lnk.leap }
    sec := { (if s.sec.breached && !s.sec.wrapKey then s.sec.eraseArea else s.sec.cellAtStart off d0.cellMv) with
      ans := .none, pwd := Vector.replicate 8 0, waiting := none, breachSinceStart := false }
    fac := s.fac
    hostWr := s.hostWr
    free := s.free + 1
    pending := s.pending }
  let s0 : State := if (s.inc.atStart d1.clearIncDue (decide (cause = 6))).2 then
    base.sealToList.laterFault none none "INCLUSION_LOST" else base.sealToList
  let s1 : State := s0.raise 16 ModSt.start.code
  let s2 : State := if s.mrst.level then s1.raise 21 0 else s1
  if s.inTestMode then s2.juridical "TEST_MODE_END" else s2

/-! ### STABLED, OFF, SAFE_HOLD, UNPROVISIONED -/

/-- STABLED is entered (R84, R85, R125, R159, R169): every rail in FAULT, LOCKOUT or OBSERVE goes to OFF; a wake source
latched on the way causes START at once. -/
def State.enterStabled (s : State) : State :=
  let s1 : State := ((s.endTestMode.stopWdgs).stopCycle).darkSpindles
  let s2 : State := (List.finRange 256).foldl (fun (s : State) n =>
    match (s.rail n).st with
    | .off | .parked => s
    | _ => s.enterRail n .off (fun r => { r with
        discharge := .stopped, onPending := [], dropped := none })) s1
  let s3 : State := ({ s2 with
    seq := { s2.seq with st := .idle, attempt := 0, barred := false, casOut := 0 }
    shut := {}
    sup := { s2.sup with pfwAssertedInStabled := false }
    fio := { s2.fio with outputsOff := true }
    lnk := { s2.lnk with up := false, edivoLink := false, sessions := Vector.replicate 4 none } }).setMod .stabled
  let s4 : State := { s3 with hsb := s3.hsb.dark }
  match s4.g.wakeLatch with
  | some w => s4.startEntry 1 w
  | none => s4
/-- OFF is entered: the module is dark (R21). What no power holds is lost at the next START. -/
def State.enterOff (s : State) : State :=
  let s1 : State := s.stopCycle.darkSpindles
  { s1 with
    g := { s1.g with st := .off, ready := false, fault := false, lgStep := 0 }
    shut := {}
    seq := { s1.seq with st := .idle, casOut := 0 }
    evt := { alert := tmap (fun a : AlertSt => { a with latchRise := none, latchFall := none }) s1.evt.alert }
    fio := { s1.fio with outputsOff := true }
    hsb := s1.hsb.dark
    reng := { s1.reng with unit := tmap (fun u : StUnit => u.atStart (decide (s.g.st = .lastGasp))) s1.reng.unit }
    lnk := { s1.lnk with up := false, edivoLink := false, sessions := Vector.replicate 4 none } }
/-- An off request accepted in SAFE_HOLD (R21, R163): the rails in DRAIN are waited for, then STABLED is entered. -/
def State.safeOff (s : State) : State :=
  let drains := (List.finRange 256).filter (fun n => decide ((s.rail n).st = .drain))
  if drains.isEmpty then s.enterStabled
  else { s with shut := { s.shut with
    jobs := [{ kind := .toSafeStabled, scope := drains, plan := 0, groups := [], heldBack := [], unplanned := true }]
    kind := 1, phase := 2 } }
/-- SAFE_HOLD is entered with its cause in the later-fault list (R21); an off request held by R82 is acted on at once. -/
def State.enterSafeHold (s : State) (cause : String) (detail : List Nat := []) : State :=
  let s1 : State := ((s.laterFault none none cause detail).setMod .safeHold).wdgFromStart
  match s1.g.heldOff with
  | none => s1
  | some src =>
    ({ s1 with
      g := { s1.g with heldOff := none }
      cmd := if src = Src.host then { s1.cmd with offAns := .accepted }
             else { s1.cmd with modAnswers := (src, Ans.accepted) :: s1.cmd.modAnswers } }).safeOff

/-! ### LAST_GASP (R87-R90) -/

/-- A restart whose shut-down another transition takes over is answered REFUSED_STATE (R23, R83). -/
def State.restartLoses (s : State) : State :=
  match s.g.restart with
  | none => s
  | some src =>
    let s1 : State := { s with g := { s.g with restart := none } }
    match src with
    | .host => { s1 with g := { s1.g with restartAns := .refusedState } }
    | .mrst => { s1 with mrst := { s1.mrst with ans := .refusedState } }
    | _ => { s1 with cmd := { s1.cmd with modAnswers := (src, Ans.refusedState) :: s1.cmd.modAnswers } }
/-- The sequencer enters SHUTDOWN (R159): attempt and count abandoned, the bar lifted, its retry's shut-down given up. -/
def State.seqShutdown (s : State) : State :=
  { s with
    seq := { s.seq with
      st := if s.seq.st = .idle then .idle else .shutdown, attempt := 0, barred := false, fails := []
      pauseOver := false, domReqs := [] }
    shut := { s.shut with jobs := [] } }
/-- Every storage unit that stream 0 names and that is IN_SERVICE (R88, R436). -/
def State.jurUnits (s : State) : List (Fin 8) :=
  match s.streamCfg 0 with
  | some c => (List.finRange 8).filter (fun k => c.units.getLsbD k.val && decide (s.reng.unit[k].st = .inService))
  | none => []
/-- Bytes of stream 0 that no unit holds durably yet. -/
def State.jurWaiting (s : State) : Nat :=
  s.reng.stream[0].buf.foldl (fun a r => if r.durable = 0 then a + r.rcd.len else a) 0
/-- The stream's records that a flush leaves are lost (R88, R169). -/
def State.dropJur (s : State) : State := s.modStream 0 (fun x => { x with buf := [] })
/-- Bytes in MiB, rounded up (R88). -/
def mibUp (n : Nat) : Nat := (n + 1048575) / 1048576
/-- Step 2 of R87: the flush has ended with `leftMib` MiB left, and the commit group runs with that amount in it (R88).
DEDUCED: where the supply is lost in START while the store still recovers, no group can run; step 2 ends at once with its commit
not done, and step 3 follows (log entry 121). -/
def State.lastGaspCommit (s : State) (leftMib : Nat) : State :=
  let s1 : State := s.signAll.dropJur
  let left (g : Glb) (step : Nat) : Glb := { g with lgStep := step, lgFlushOk := decide (leftMib = 0), lgUnflushed := leftMib }
  if s1.nv.st = .recovering then { s1 with g := left s1.g 3 }
  else
    ({ s1 with
      g := left s1.g 2
      nv := { s1.nv with cur := { s1.nv.cur with unflushedMib := leftMib } } }).commitStart
/-- A set that is preparing or waits for its COMMIT is ABANDONED (R110): each of its sections enters the juridical stream. -/
def State.abandonSet (s : State) : State :=
  if s.take.st = TakeState.preparing || s.take.st = TakeState.ready then
    let parts : Vector TakePart 32 := Vector.ofFn (fun i : Fin 32 =>
      if i.val < s.take.count then { s.take.parts[i] with ans := .abandoned } else s.take.parts[i])
    let unload (x : LPair) : LPair := { x with bankLoaded := false }
    let s1 : State := { s with
      take := { s.take with st := .abandoned, prepared := [], parts := parts }
      spn := { s.spn with lpair := tmap unload s.spn.lpair } }
    (s.take.prepared.foldl (fun (s : State) x => s.takeEntry "TAKE_ABANDONED" x.1 x.2.1 x.2.2) s1).raise 19
  else s
/-- A PENDING METER section is ABANDONED (R110). -/
def State.abandonPending (s : State) : State :=
  match s.take.meterDue with
  | none => s
  | some m =>
    let s1 : State := { s with take := { s.take with
      meterDue := none
      parts := tmap (fun p : TakePart => if p.ans = .pending then { p with ans := .abandoned } else p) s.take.parts } }
    (s1.takeEntry "TAKE_ABANDONED" m.1.typ m.1.inst (some m.1)).raise 19
/-- Every set that is preparing, waiting or PENDING is ABANDONED (R110). -/
def State.abandonTake (s : State) : State := s.abandonSet.abandonPending
/-- LAST_GASP is entered (R20, R87, R90, R144, R195): the cycle stops, TRIM and every CAS_OUT go low, host streams and waveforms stop, and
the flush of step 1 begins; with no unit that accepts writes it ends at once (R88). -/
def State.enterLastGasp (s : State) : State :=
  let s1 : State := (((((s.endTestMode.stopWdgs).restartLoses).stopCycle).seqShutdown).abandonTake).closePeriod 0x2000
  let s2 : State := (List.finRange 256).foldl (fun (s : State) n => s.endMargin n .moduleState) s1
  let lv (x : Glb) : Glb := { x with level := .lastGasp, lgStep := 1, heldOff := none, wakeLatch := none }
  let s3 : State := ({ s2 with
    g := lv s2.g
    shut := {}
    seq := { s2.seq with casOut := 0 }
    hds := { s2.hds with tokens := 0 }
    age := { s2.age with state := 0, testing := false, tested := none, due := none }
    reng := { s2.reng with hostStopped := true }
    scan := { s2.scan with conv := tmap (fun c : Conv => { c with wantLow := false }) s2.scan.conv } }).setMod .lastGasp
  let s4 : State := (s3.raise 0).faultEvent 14 0 "LAST_GASP"
  if s4.jurUnits.isEmpty then s4.lastGaspCommit (mibUp s4.jurWaiting) else s4

end Sys2Proof.Machine
end

