-- ==== Sys2Proof/Machine/Sequencer.lean ====
section
/-!
DEFINITION. The sequencer and the shut-down procedure (R135-R172): steps, groups and chains, failures, retries, adoption,
shut-downs, off and on requests, and `settle`, the pass that lets all of them act after a command.
-/
namespace Sys2Proof.Machine
open Sys2Proof

/-! ### Readings -/

/-- The shed sets active at a level, as bits of SETS (R147). -/
def shedMask : Level → BitVec 5
  | .normal => 0 | .lean => 0b00100 | .coast => 0b01100 | .reserve => 0b11100 | .lastGasp => 0b11100
/-- Whether rail `n` is in an active shed set of the level last adopted; an essential rail never is (R147, R148). -/
def State.isShed (s : State) (n : RailN) : Bool :=
  match s.railCfg n with
  | some c => !c.sets.getLsbD 0 && (c.sets &&& shedMask s.seq.level) != 0
  | none => false
/-- UP or MARGIN: a rail that counts as up for the sequencer (R139). -/
def RailSt.isUp : RailSt → Bool
  | .up | .margin => true
  | _ => false
/-- Whether a rail is down for a shut-down (R163); OBSERVE needs no wait (R161). -/
def Rail.isDown (r : Rail) : Bool :=
  match r.st with
  | .off | .lockout | .parked | .observe => true
  | .fault => r.drained
  | _ => false
/-- Group `g` of the held plan changed by `f`. -/
def State.modGroup (s : State) (g : Nat) (f : GroupSt → GroupSt) : State :=
  { s with seq := { s.seq with groups := tmod s.seq.groups (Fin.ofNat 64 g) f } }
/-- The state of group `g`. -/
def State.group (s : State) (g : Nat) : GroupSt := s.seq.groups[Fin.ofNat 64 g]
/-- Step `k` of group `g` changed by `f`. -/
def State.modStep (s : State) (g k : Nat) (f : StepSt → StepSt) : State :=
  s.modGroup g (fun x => { x with steps := x.steps.modify k f })
/-- Whether a running shut-down holds a rail of the list. -/
def State.anyInShutdown (s : State) (rails : List RailN) : Bool := rails.any s.inShutdown

/-! ### Steps and groups (R138-R145) -/

/-- The conditions of a step but for the rails of its earlier steps (R138, R139). -/
def State.stepHolds (s : State) (c : CGroup) (k : Nat) (x : CStep) (st : StepSt) : Bool :=
  let waitOk := match x.waitRail with
    | some w => (s.rail w).st.isUp || s.isShed w
    | none => true
  let inOk := match c.inChain with
    | some ch => k != 0 || s.seq.casIn.getLsbD ch.val
    | none => true
  inOk && (!x.priorUp || waitOk) && (!x.hasDelay || st.delayDone || x.delay = 0) &&
    (!x.cascade || (x.chains &&& ~~~ s.seq.casIn) = 0) &&
    (!x.field || s.fio.point[x.point].debounced == x.fieldPol) &&
    (!x.flagCond || s.seq.flags.getLsbD x.flag.val == x.flagPol)
/-- PRIOR_UP over the earlier steps: every rail is UP or MARGIN, or was skipped as shed and still is (R139). -/
def State.priorUp (s : State) (c : CGroup) (g k : Nat) : Bool :=
  ((c.steps.zip (s.group g).steps).take k).all (fun x =>
    x.1.rails.all (fun n => (s.rail n).st.isUp || (x.2.skipped.contains n && s.isShed n)))
/-- A step starts (R139, R140): its rails are judged by their states, shed rails are skipped, an unavailable rail fails the
step, and the others get an on event in one fine tick. -/
def State.startStep (s : State) (g k : Nat) (x : CStep) : State :=
  let shed := x.rails.filter (fun n => !(s.rail n).st.isUp && s.isShed n)
  let todo := x.rails.filter (fun n => !(s.rail n).st.isUp && !s.isShed n)
  let bad := todo.filter (fun n => match (s.rail n).st with
    | .fault | .lockout | .observe | .parked => true
    | _ => false)
  let s1 : State := (s.modStep g k (fun t => { t with started := true, skipped := shed })).modStep g (k + 1)
    (fun t => { t with eligible := true })
  match bad with
  | n :: _ => { s1 with seq := { s1.seq with fails := s1.seq.fails ++ [(FailReason.railUnavailable, n)] } }
  | [] => (todo.filter (fun n => match (s.rail n).st with
      | .off | .wait | .drain => true
      | _ => false)).foldl (fun (s : State) n => ((s.onEvent n .plan).1).railSync n) s1
/-- One step's turn: it starts when eligible with its conditions holding, and is done when its rails are up (R139). -/
def State.evalStep (s : State) (c : CGroup) (g k : Nat) : State :=
  match c.steps[k]?, (s.group g).steps[k]? with
  | some x, some st =>
    let s1 : State :=
      if st.eligible && !st.started && s.stepHolds c k x st && (!x.priorUp || s.priorUp c g k) then s.startStep g k x else s
    match (s1.group g).steps[k]? with
    | some st1 =>
      if st1.started && !st1.done && x.rails.all (fun n => (s1.rail n).st.isUp || st1.skipped.contains n) then
        s1.modStep g k (fun t => { t with done := true })
      else s1
    | none => s1
  | _, _ => s
/-- Whether a FAILED group stands among those that group `g` waits on through AFTER, directly or in turn (R157). -/
def State.behindFailed (s : State) (g : Nat) : Bool :=
  match s.heldPlan with
  | some p => (List.range p.groups.length).any (fun f =>
      f != g && decide ((s.group f).st = GroupState.failed) && (p.dependents f).contains g)
  | none => false
/-- Whether a group may become eligible (R138, R145, R149, R157). -/
def State.mayRun (s : State) (c : CGroup) (g : Nat) : Bool :=
  let free := match (s.group g).st with
    | .idle => true
    | .down => decide ((s.group g).reason = DownReason.casInLost) &&
        (match c.inChain with | some ch => s.seq.casIn.getLsbD ch.val | none => true)
    | _ => false
  free && !s.behindFailed g && !(s.shut.jobs.any (fun j => j.kind != .shed && c.rails.any j.scope.contains)) &&
    (match c.after with | some a => decide ((s.group a).st = GroupState.up) | none => true)
/-- A group becomes eligible: step 0 is eligible and every rail in OFF that its steps name waits, but one that an adoption's
shut-down takes down (R125, R138). -/
def State.startGroup (s : State) (c : CGroup) (g : Nat) : State :=
  let s1 : State := s.modGroup g (fun x => { x with
    st := .running, reason := .none
    steps := (List.range c.steps.length).map (fun k => { eligible := k == 0 }) })
  c.rails.foldl (fun (s : State) n =>
    if (s.rail n).st = .off && !s.inShutdown n then s.enterRail n .wait (fun r => r) else s) s1
/-- A group whose steps are all done is UP and drives its CAS_OUT high (R139, R144), unless a shut-down holds a rail of it. -/
def State.groupUp (s : State) (c : CGroup) (g : Nat) : State :=
  let s1 : State := s.modGroup g (fun x => { x with st := .up })
  match c.outChain with
  | some ch =>
    if s.anyInShutdown c.rails then s1
    else { s1 with seq := { s1.seq with
      casOut := s1.seq.casOut ||| (1#16 <<< ch.val), casDropped := s1.seq.casDropped &&& ~~~ (1#16 <<< ch.val) } }
  | none => s1
/-- One group's turn. -/
def State.evalGroup (s : State) (c : CGroup) (g : Nat) : State :=
  let s1 : State := if s.mayRun c g then s.startGroup c g else s
  if (s1.group g).st = GroupState.running then
    let s2 : State := (List.range c.steps.length).foldl (fun (s : State) k => s.evalStep c g k) s1
    if (s2.group g).steps.all (·.done) then s2.groupUp c g else s2
  else s1
/-- Every group's turn, lowest first, while an attempt runs or groups may rise again (R138-R145, R157). -/
def State.evalGroups (s : State) : State :=
  match s.heldPlan with
  | none => s
  | some p =>
    match s.seq.st with
    | .running | .complete | .stopped =>
      ((List.range p.groups.length).zip p.groups).foldl (fun (s : State) x => s.evalGroup x.2 x.1) s
    | _ => s
/-- An attempt starts (R138): bookkeeping afresh, with no group UP and every CAS_OUT low (R144) until its group is UP again, but a
group DOWN by a domain request stays so (R149). -/
def State.startAttempt (s : State) : State :=
  { s with seq := { s.seq with
    st := .running, fails := [], pauseOver := false, casOut := 0
    groups := tmap (fun g : GroupSt => if g.st = .down && g.reason = .domainRequest then g else {}) s.seq.groups } }
/-- The attempt is complete (R142): in SEQUENCE the module enters RUN. -/
def State.evalComplete (s : State) : State :=
  match s.seq.st, s.heldPlan with
  | .running, some p =>
    if s.g.st = .sequence then
      if (List.range p.groups.length).all (fun g => decide ((s.group g).st = GroupState.up)) then
        ({ s with seq := { s.seq with st := .complete } }.raise 15 0).setMod .run
      else s
    else if (List.range p.groups.length).all (fun g => decide ((s.group g).st ≠ GroupState.running)) then
      { s with seq := { s.seq with st := .complete } }.raise 15 0
    else s
  | _, _ => s

/-! ### Failures (R154-R157) -/

/-- The first failure of an attempt in RSQ_SEQ_FAIL. -/
def State.noteFail (s : State) (why : FailReason) (n : RailN) (g k : Nat) : State :=
  let started := ((s.group g).steps[k]?.map (·.started)).getD false
  { s with seq := { s.seq with fail := {
      reason := some why, group := g, step := k, plan := s.seq.held.val
      rail := if why = FailReason.stepTimeout && !started then 0 else n.val } } }
/-- The name of a failure reason (R154). -/
def FailReason.name : FailReason → String
  | .railFault => "RAIL_FAULT" | .stepTimeout => "STEP_TIMEOUT" | .dropped => "DROPPED"
  | .commandedOff => "COMMANDED_OFF" | .noDrain => "NO_DRAIN" | .railUnavailable => "RAIL_UNAVAILABLE"
/-- A module-level shut-down's job over the rails of a scope, ordered by plan `p` (R161): the groups that hold a rail of the scope,
for a retry every group of the plan (R155). -/
def State.newJob (s : State) (kind : ShutKind) (scope : List RailN) (p : Fin 8) (reason : DownReason := .none) : Shut :=
  let gs : List (Nat × GroupProg) := match s.cfg.plan[p] with
    | some pl => (((List.range pl.groups.length).zip pl.groups).filter (fun x =>
        kind == .retry || x.2.rails.any scope.contains)).map (fun x => (x.1, GroupProg.waiting))
    | none => []
  { kind := kind, scope := scope, plan := p, groups := gs.reverse, heldBack := [], unplanned := false, reason := reason }
/-- A job begins; its groups of the held plan are SHUTTING_DOWN. -/
def State.addJob (s : State) (j : Shut) : State :=
  let s1 : State := { s with shut := { s.shut with jobs := s.shut.jobs ++ [j] } }
  if j.plan = s.seq.held then
    j.groups.foldl (fun (s : State) x => s.modGroup x.1 (fun g => { g with st := .shuttingDown })) s1
  else s1
/-- The rails that the shut-down of a retry takes down or waits for (R155): every rail of the held plan but those in OFF, LOCKOUT or
PARKED. DEDUCED: a rail in FAULT gets no OFF and is waited for until DRAINED, by R161 and the example of the retry at module B (log
entry 132). -/
def State.retryScope (s : State) : List RailN :=
  s.heldRails.filter (fun n => match (s.rail n).st with
    | .off | .lockout | .parked => false
    | _ => true)
/-- The retry of the whole plan begins (R155). -/
def State.beginRetry (s : State) : State :=
  let s1 : State := { s with
    seq := { s.seq with st := .retryShutdown }
    shut := { s.shut with kind := 4, phase := 1, lockouts := 0 } }
  s1.addJob (s1.newJob .retry s1.retryScope s1.seq.held)
/-- The plan is exhausted (R156): its FAULT rails enter LOCKOUT, the plan is barred, FAULT is asserted. -/
def State.exhaust (s : State) : State :=
  let s1 : State := s.heldRails.foldl (fun (s : State) n =>
    if (s.rail n).st = .fault then
      (s.enterRail n .lockout (fun r => { r with discharge := .stopped })).addHistory n [] true
    else s) s
  ((({ s1 with seq := { s1.seq with st := .exhausted, barred := true } }).raise 15 3).faultEvent 15 15
    "PLAN_EXHAUSTED").updFault
/-- A failure in RUN (R157): the group enters FAILED, its CAS_OUT falls, the sequencer stops. -/
def State.failInRun (s : State) (g : Nat) (c : CGroup) : State :=
  let s1 : State := s.modGroup g (fun x => { x with st := .failed })
  { s1 with seq := { s1.seq with
    st := .stopped
    casOut := match c.outChain with | some ch => s1.seq.casOut &&& ~~~ (1#16 <<< ch.val) | none => s1.seq.casOut } }.raise 15 4
/-- Whether a rail was skipped as shed at its step, and so is outside the attempt (R154). -/
def State.skippedRail (s : State) (g k : Nat) (n : RailN) : Bool :=
  (((s.group g).steps[k]?).map (fun x => x.skipped.contains n)).getD false
/-- Whether what happened to rail `n` of group `g` is outside the attempt (R154, R160, R163): it was skipped as shed, its group is
DOWN, an adoption sheds it or its group's shut-down by R145 or R149 runs, or it is a NO_DRAIN within a shut-down. A step's timeout is always the step's. -/
def State.outsideAttempt (s : State) (f : FailReason × RailN) (g k : Nat) : Bool :=
  f.1 != .stepTimeout && (s.skippedRail g k f.2 || decide ((s.group g).st = GroupState.down) ||
    s.shut.jobs.any (fun j => j.scope.contains f.2 && (j.kind == .shed || j.kind == .group || f.1 == .noDrain)))
/-- One failure is judged (R154, R155, R157, R159). -/
def State.judgeFail (s : State) (f : FailReason × RailN) : State :=
  match s.heldPlan with
  | none => s
  | some p =>
    match p.locate f.2 with
    | none => s
    | some (g, k) =>
      match p.groups[g]? with
      | none => s
      | some c =>
        if s.outsideAttempt f g k then s
        else match s.seq.st, s.g.st with
        | .running, .sequence => (s.noteFail f.1 f.2 g k).beginRetry
        | .running, .run | .complete, .run =>
          if f.1 = FailReason.noDrain && s.seq.st = SeqState.complete then s else (s.noteFail f.1 f.2 g k).failInRun g c
        | .stopped, .run =>
          if decide ((s.group g).st = GroupState.failed) then s.laterFault (some 15) none f.1.name [f.2.val]
          else (s.failInRun g c).laterFault (some 15) none f.1.name [f.2.val]
        | .retryPause, _ =>
          if f.1 = FailReason.noDrain then s.exhaust else s.laterFault (some 15) none f.1.name [f.2.val]
        | .retryShutdown, _ => s.laterFault (some 15) none f.1.name [f.2.val]
        | _, _ => s
/-- Every failure not yet judged, in order. -/
def State.evalFails (s : State) : State :=
  s.seq.fails.foldl State.judgeFail { s with seq := { s.seq with fails := [] } }

/-! ### The shut-down procedure (R161-R164, R169-R172) -/

/-- The motion rule of R165 on the present inputs. -/
def State.judgeMoving (s : State) : Bool :=
  !(s.motion.standstillIn && !s.netMoving &&
    (!(match s.modCfg with | some m => m.netSpeedRequired | none => false) || s.netStill))
/-- The OFF that a shut-down issues to a rail (R125): no failure and no answer. -/
def State.shutOff (s : State) (n : RailN) : State :=
  match (s.rail n).st with
  | .wait => s.enterRail n .off (fun r => r)
  | .ramp | .up | .margin => (s.toDrain n).railSync n
  | .drain => s.endPending n .refusedState
  | _ => s
/-- The OFFs of one step of a scope, in one fine tick. -/
def State.issueOff (s : State) (scope rails : List RailN) : State :=
  (rails.filter scope.contains).foldl State.shutOff s
/-- Whether every rail of a step in scope is down. -/
def State.allDown (s : State) (scope rails : List RailN) : Bool :=
  (rails.filter scope.contains).all (fun n => (s.rail n).isDown)
/-- Steps taken down from the step before `k`, as far as the rails are down already; the flag says that a step fell due. -/
def State.downFrom (s : State) (scope : List RailN) (steps : List CStep) : Nat → State × GroupProg × Bool
  | 0 => (s, .finished, false)
  | k + 1 =>
    let rails := match steps[k]? with | some x => x.rails | none => []
    let s1 : State := s.issueOff scope rails
    if s1.allDown scope rails then
      let r := s1.downFrom scope steps k
      (r.1, r.2.1, true)
    else (s1, .atStep k, true)
/-- Whether another shut-down already counts the allowance of this chain, after its CAS_OUT has fallen (R146). -/
def State.inAllowance (s : State) (ch : ChainN) : Bool :=
  s.shut.jobs.any (fun j => match s.cfg.plan[j.plan] with
    | some p => j.groups.any (fun x => x.2 == .allowance && (match p.groups[x.1]? with
      | some c => c.outChain == some ch
      | none => false))
    | none => false)
/-- One group's progress in a job (R146, R161). -/
def State.advanceGroup (s : State) (j : Shut) (p : CPlan) (g : Nat) (x : GroupProg) : State × GroupProg × Bool :=
  match p.groups[g]? with
  | none => (s, .finished, false)
  | some c =>
    match x with
    | .finished => (s, .finished, false)
    | .allowance => (s, .allowance, false)
    | .atStep k =>
      let rails := match c.steps[k]? with | some x => x.rails | none => []
      if s.allDown j.scope rails then s.downFrom j.scope c.steps k else (s, .atStep k, false)
    | .waiting =>
      let free := j.groups.all (fun y => match p.groups[y.1]? with
        | some d => d.after != some g || y.2 == .finished
        | none => true)
      if !free then (s, .waiting, false)
      else match c.outChain with
        | some ch =>
          if s.seq.casOut.getLsbD ch.val then
            ({ s with seq := { s.seq with casOut := s.seq.casOut &&& ~~~ (1#16 <<< ch.val) } }, .allowance, false)
          else if j.heldBack.contains g || s.inAllowance ch then (s, .allowance, false)
          else s.downFrom j.scope c.steps c.steps.length
        | none => if j.heldBack.contains g then (s, .allowance, false) else s.downFrom j.scope c.steps c.steps.length
/-- What a group of the held plan becomes when its shut-down ends: DOWN with the reason, or IDLE after a shut-down of the
whole plan. -/
def State.groupEnded (s : State) (j : Shut) (g : Nat) : State :=
  if j.plan = s.seq.held && decide ((s.group g).st = GroupState.shuttingDown) then
    s.modGroup g (fun x => { x with st := if j.reason = .none then .idle else .down, reason := j.reason, steps := [] })
  else s
/-- One pass over a job's groups, highest first, then its unplanned rails; the flags say that a step fell due and that the
job has ended (R161). -/
def State.advanceJob (s : State) (j : Shut) : State × Shut × Bool × Bool :=
  let p : CPlan := (s.cfg.plan[j.plan]).getD { retries := 0, retryPause := 0, groups := [] }
  let step (a : State × Shut × Bool) (x : Nat × GroupProg) : State × Shut × Bool :=
    let cur : Nat × GroupProg := (a.2.1.groups.find? (fun y => y.1 == x.1)).getD x
    let r := a.1.advanceGroup a.2.1 p x.1 cur.2
    let j1 : Shut := { a.2.1 with groups := a.2.1.groups.map (fun y => if y.1 = x.1 then (y.1, r.2.1) else y) }
    (if r.2.1 = .finished && cur.2 != .finished then r.1.groupEnded j x.1 else r.1, j1, a.2.2 || r.2.2)
  let a := j.groups.foldl step (s, j, false)
  if a.2.1.groups.all (fun y => y.2 == .finished) then
    let rest := j.scope.filter (fun n => decide (j.kind = .toSafeStabled) || !p.rails.contains n)
    let s1 : State := if a.2.1.unplanned then a.1 else a.1.issueOff j.scope rest
    (s1, { a.2.1 with unplanned := true }, a.2.2, s1.allDown j.scope rest)
  else (a.1, a.2.1, a.2.2, false)
/-- Every used rail outside the run-down set that is not down yet, or all outside it (R169, R171). -/
def State.outsideRunDown (s : State) : List RailN :=
  (List.finRange 256).filter (fun n => s.railUsed n && !s.inSet n 1)
/-- Every used rail of the run-down set. -/
def State.runDownSet (s : State) : List RailN := (List.finRange 256).filter (fun n => s.railUsed n && s.inSet n 1)
/-- Step 3 of R169: the run-down set is shut down. -/
def State.beginSet (s : State) : State :=
  let s1 : State := { s with shut := { s.shut with kind := 1, phase := 4, flushed := false } }
  s1.addJob (s1.newJob .runDownSet s1.runDownSet s1.seq.held)
/-- The flush of step 2 of R169 ends with `leftMib` MiB lost, and the commit group runs (R169). -/
def State.flushEnd (s : State) (leftMib : Nat) : State :=
  let s1 : State := { s.signAll.dropJur with shut := { s.shut with flushed := true } }
  ({ s1 with nv := { s1.nv with cur := { s1.nv.cur with stabledMib := leftMib } } }).commitStart
/-- Step 2 of R169 begins; with no storage unit of stream 0 IN_SERVICE the flush ends at once. -/
def State.beginFlush (s : State) : State :=
  let s1 : State := { s.closePeriod 0x4000 with
    shut := { s.shut with kind := 1, phase := 3 } }
  if s1.jurUnits.isEmpty then s1.flushEnd (mibUp s1.jurWaiting) else s1
/-- A rail that waits when its group is abandoned goes to OFF (R125). -/
def State.abandonWaits (s : State) : State :=
  (List.finRange 256).foldl (fun (s : State) n =>
    if (s.rail n).st = .wait then s.enterRail n .off (fun r => r) else s) s
/-- RUN_DOWN is entered (R171, R196): holds and probes end, the take is abandoned, everything outside the run-down set is
shut down, and the confirmation count restarts. -/
def State.enterRunDown (s0 : State) : State :=
  let s : State := s0.endTestMode
  let s1 : State := (List.finRange 256).foldl (fun (s : State) n => s.endMargin n .moduleState) s
  let s2 : State := ((((s1.restartLoses).seqShutdown).abandonWaits).abandonTake).setMod .runDown
  let s3 : State := { s2 with
    motion := { s2.motion with stillSince := none, confirmed := false }
    g := { s2.g with wakeLatch := none }
    shut := { s2.shut with kind := 2, phase := 1, lockouts := 0, rundownForced := false } }
  s3.addJob (s3.newJob .runDownShed s3.outsideRunDown s3.seq.held)
/-- The STABLED shut-down of R169 begins: READY falls at once and the sequencer enters SHUTDOWN (R168). -/
def State.beginStabled (s : State) : State :=
  let s1 : State := ((s.restartLoses).seqShutdown).abandonWaits
  let s2 : State := { s1 with
    g := { s1.g with ready := false }
    shut := { s1.shut with kind := 1, phase := 1, lockouts := 0 } }
  s2.addJob (s2.newJob .toStabled s2.outsideRunDown s2.seq.held)
/-- An off request accepted in SEQUENCE or RUN (R168-R171). -/
def State.offNow (s : State) : State := if s.motion.moving then s.enterRunDown else s.beginStabled
/-- A STABLED shut-down whose train is found moving becomes a run-down (R170). -/
def State.stepToRunDown (s : State) : State :=
  (s.juridical "STEPPED_TO_RUN_DOWN").enterRunDown
/-- The retry is judged when its shut-down is complete (R155). -/
def State.judgeRetry (s : State) : State :=
  let lim := match s.heldPlan with | some p => p.retries | none => 0
  let s1 : State := { s with shut := { s.shut with kind := 0, phase := 0 } }
  if s.seq.attempt ≤ lim && !(s.heldRails.any (fun n => decide ((s.rail n).st = .lockout))) then
    { s1 with seq := { s1.seq with st := .retryPause, pauseAt := s1.tickUs, pauseOver := false } }
  else s1.exhaust
/-- The reset cause of a restart's source (R74, R83). -/
def restartCause : Src → Nat
  | .mrst => 3 | .edivo => 5 | _ => 4
/-- RUN_DOWN has shed all: the run-down set is held, or steps 2-4 of R169 follow (R172). -/
def State.shedDone (s : State) : State :=
  let s1 : State := { s with shut := { s.shut with kind := 3, phase := 5 } }
  if s.shut.rundownForced || s.motion.confirmed then s1.beginFlush else s1
/-- What the end of a job brings. -/
def State.jobEnded (s : State) (j : Shut) : State :=
  match j.kind with
  | .retry => s.judgeRetry
  | .toStabled => s.beginFlush
  | .runDownShed => s.shedDone
  | .runDownSet => s.enterStabled
  | .restart => (((s.closePeriod 0x4000).signAll).commitStart).startEntry (match s.g.restart with | some q => restartCause q | none => 4) 0
  | .toSafeStabled => s.enterStabled
  | .group | .shed => s
/-- One pass over the running jobs: each advances, an ended one is taken off and acts, and RSQ_SHUT_STAT follows. Motion is judged again
where a step of a STABLED shut-down fell due, also in the pass that ends it (R170, R182). -/
def State.evalJobs (s : State) : State :=
  let step (s : State) (j : Shut) : State :=
    if !s.shut.jobs.contains j then s
    else
      let r := s.advanceJob j
      let others (l : List Shut) : List Shut := l.filter (· != j)
      if r.2.2.2 then
        let s1 : State := { r.1 with shut := { r.1.shut with jobs := others r.1.shut.jobs } }
        if j.kind = .toStabled && r.2.2.1 && s1.judgeMoving then s1.stepToRunDown else s1.jobEnded j
      else
        let j1 := r.2.1
        let s1 : State := { r.1 with shut := { r.1.shut with jobs := r.1.shut.jobs.map (fun y => if y = j then j1 else y) } }
        let planned := !j1.groups.all (fun y => y.2 == .finished)
        match j.kind with
        | .toStabled =>
          let s2 : State := { s1 with shut := { s1.shut with phase := if planned then 1 else 2 } }
          if r.2.2.1 && s2.judgeMoving then s2.stepToRunDown else s2
        | .retry | .runDownShed | .restart =>
          { s1 with shut := { s1.shut with phase := if planned then 1 else 2 } }
        | _ => s1
  s.shut.jobs.foldl step s

/-! ### Retry pause, watch of probes, and the pass -/

/-- The end of the retry pause (R155): the FAULT rails of the plan, once all drained, are cleared and the next attempt
starts with the plan held now. -/
def State.evalPause (s : State) : State :=
  if s.seq.st = .retryPause && s.seq.pauseOver then
    let faulted := s.heldRails.filter (fun n => decide ((s.rail n).st = .fault))
    if faulted.all (fun n => (s.rail n).drained) then
      let s1 : State := faulted.foldl (fun (s : State) n =>
        s.clearRail .plan n) s
      (({ s1 with seq := { s1.seq with attempt := s1.seq.attempt + 1 } }).startAttempt).raise 15 (s1.seq.attempt + 1)
        |>.updFault
    else s
  else s
/-- The rails of the held plan's group that holds rail `n`. -/
def State.groupMates (s : State) (n : RailN) : List RailN :=
  match s.heldPlan with
  | some p => (match p.locate n with
    | some (g, _) => (match p.groups[g]? with | some c => c.rails | none => [])
    | none => [])
  | none => []
/-- The converter whose list holds SENSE of rail `n`: its home converter (R200). -/
def State.homeConv (s : State) (n : RailN) : Option ConvN :=
  (List.finRange 16).find? (fun c => match s.cfg.scan[c] with
    | some l => l.entries.any (fun e => e.input == BitVec.ofNat 10 n.val)
    | none => false)
/-- The conditions of R191 that end a running probe: module state, level, a rail of its group in RAMP, another rail of its
group in MARGIN. Its converter ends it where it leaves its list. -/
def State.probeEnd (s : State) (n : RailN) : Option EndReason :=
  let mates := (s.groupMates n).filter (· != n)
  if s.g.st ≠ .run then some .moduleState
  else if s.g.level ≠ .normal || s.seq.level ≠ .normal then some .level
  else if mates.any (fun m => decide ((s.rail m).st = .ramp)) then some .groupRamp
  else if mates.any (fun m => decide ((s.rail m).st = .margin) && decide ((s.rail m).mg.mode = .hold)) then
    some .preemptedByHold
  else none
/-- Every running probe whose conditions have stopped holding ends (R191). -/
def State.watchProbes (s : State) : State :=
  ((List.finRange 256).filter (fun n => decide ((s.rail n).mg.mode = .probe))).foldl (fun (s : State) n =>
    match s.probeEnd n with
    | some why => s.endMargin n why
    | none => s) s
/-- A domain that the host watchdog cycles (R461): its group, once down, is eligible again whatever the Headstock asks. -/
def State.evalCycling (s : State) : State :=
  (List.finRange 16).foldl (fun (s : State) d =>
    if s.hds.dom[d].cycling then
      match s.domGroup d with
      | none => s.modDom d (fun x => { x with cycling := false })
      | some (g, _) =>
        if (s.group g).st = .down then
          let s1 : State := (s.modDom d (fun x => { x with cycling := false })).modGroup g (fun _ => {})
          { s1 with seq := { s1.seq with st := if s1.seq.st = .complete || s1.seq.st = .stopped then .running else s1.seq.st } }
        else s
    else s) s
/-- One pass of the sequencer and the shut-downs. -/
def State.seqPass (s : State) : State :=
  (((((s.evalFails).evalJobs).evalCycling).evalPause).evalGroups).evalComplete
/-- Everything that the sequencer and the shut-downs do at once after a command: passes until nothing more is due; three
passes reach every consequence of one happening that this model gives. -/
def State.settle (s : State) : State :=
  match s.g.st with
  | .sequence | .run | .runDown => (((s.seqPass).seqPass).seqPass).evalDoms.watchProbes.updFault
  | .safeHold | .unprovisioned => s.evalJobs.updFault
  | _ => s

/-! ### Entry to SEQUENCE, adoption, domains (R148, R149, R159) -/

/-- The plan a level maps to (R335). -/
def State.planOf (s : State) (l : Level) : Fin 8 :=
  match s.cfg.hds with
  | some h => (match h.levels[min 3 l.code]? with | some x => x.plan | none => 0)
  | none => 0
/-- Entries kept in PENDING_JURIDICAL are admitted first, with their own stamps, and data sets not yet accepted are streamed
(R419, R435). -/
def State.admitKept (s : State) : State :=
  match s.nv.cur.pendingJur with
  | [] => s.streamSets
  | l => ((l.foldl State.jurAdmit s).nvWrite 8 (fun d => { d with pendingJur := [] })).streamSets
/-- SEQUENCE is entered (R21, R159): the plan of the current level is held and attempt 1 starts. -/
def State.enterSequence (s0 : State) : State :=
  let s : State := s0.admitKept.enableWdgs
  let p := s.planOf s.g.level
  let s1 : State := { s with seq := { s.seq with
    held := p, level := s.g.level, levelPlan := p, attempt := 1, groups := Vector.replicate 64 {} } }
  (((s1.startAttempt).convModes).setMod .sequence).settle
/-- What a sequencer state is when an adoption starts an attempt (R148, R159). -/
def SeqState.adopts : SeqState → Bool
  | .retryShutdown | .retryPause | .exhausted | .shutdown | .idle => false
  | _ => true
/-- The attempt that an adoption starts (R148): a group whose rails are all UP, with none that is shed, is UP at once; with no group
left to run, COMPLETE and STOPPED stay (R159). -/
def State.adoptGroups (s : State) (live : List RailN) : State :=
  match s.heldPlan with
  | none => s
  | some p =>
    let gs := (List.range p.groups.length).zip p.groups
    let whole (c : CGroup) : Bool := c.rails.all (fun n => (s.rail n).st.isUp && !live.contains n)
    let up (s : State) (x : Nat × CGroup) : State :=
      if whole x.2 && decide ((s.group x.1).st = GroupState.idle) then
        (s.modGroup x.1 (fun y => { y with
          steps := x.2.steps.map (fun _ => { eligible := true, started := true, done := true }) })).groupUp x.2 x.1
      else s
    let s1 : State := gs.foldl up s
    let run := gs.any (fun x => decide ((s1.group x.1).st = GroupState.idle))
    { s1 with seq := { s1.seq with
      st := if run || s1.seq.st = .running then .running else s1.seq.st, fails := [], pauseOver := false } }
/-- Adoption of plan `q` at the current level (R148). -/
def State.adopt (s : State) (q : Fin 8) : State :=
  let old := s.seq.held
  let oldRails := s.heldRails
  let newPlan := s.cfg.plan[q]
  let newRails := match newPlan with | some p => p.rails | none => []
  let s0 : State := { s with seq := { s.seq with level := s.g.level, adoptions := (s.seq.adoptions + 1) % 65536, levelPlan := q } }
  let live := (List.finRange 256).filter (fun n =>
    (match (s0.rail n).st with
    | .wait | .ramp | .up | .margin => true
    | .drain => !(s0.rail n).onPending.isEmpty
    | _ => false) &&
    !s0.inSet n 0 && ((oldRails.contains n && !newRails.contains n) || s0.isShed n))
  let chains := (List.finRange 16).filter (fun c => s0.seq.casOut.getLsbD c.val)
  let find (p : Option CPlan) (c : ChainN) : Option CGroup :=
    match p with | some x => x.groups.find? (fun g => g.outChain == some c) | none => none
  let dropped := chains.filter (fun c => match find newPlan c with
    | none => true
    | some g => g.rails.any (fun n => live.contains n || !(s0.rail n).st.isUp))
  let heldRails := dropped.flatMap (fun c =>
    (match find newPlan c with | some g => g.rails | none => []) ++
    (match find s0.cfg.plan[old] c with | some g => g.rails | none => []))
  let s1 : State := { s0 with seq := { s0.seq with
    casOut := dropped.foldl (fun b c => b &&& ~~~ (1#16 <<< c.val)) s0.seq.casOut } }
  let late := live.filter (fun n => !oldRails.contains n && heldRails.contains n)
  let job (l : List RailN) (p : Fin 8) : List Shut :=
    if l.isEmpty then []
    else
      let j := s1.newJob .shed l p
      let holds (x : Nat × GroupProg) : Bool := match s1.cfg.plan[p] with
        | some p => (match p.groups[x.1]? with | some g => g.rails.any heldRails.contains | none => false)
        | none => false
      [{ j with heldBack := (j.groups.filter holds).map (·.1) }]
  let jobs := job (live.filter (fun n => !late.contains n)) old ++ job late q
  let downDoms : List (Fin 16) := match s1.cfg.plan[old] with
    | some p => (((List.range p.groups.length).zip p.groups).filterMap (fun x =>
        if (s1.group x.1).st = GroupState.down && (s1.group x.1).reason = DownReason.domainRequest then x.2.domain else none))
    | none => []
  let groups : Vector GroupSt 64 := Vector.ofFn (fun g : Fin 64 =>
    match newPlan with
    | some p => (match p.groups[g.val]? with
      | some c =>
        if (match c.domain with | some d => downDoms.contains d | none => false) then { st := .down, reason := .domainRequest } else {}
      | none => {})
    | none => {})
  let s2 : State := { s1 with seq := { s1.seq with held := q, groups := groups } }
  let s3 : State := { s2 with shut := { s2.shut with jobs := s2.shut.jobs ++ jobs } }
  let s4 : State := if s3.seq.st.adopts then s3.adoptGroups live else s3
  (s4.raise 15 (q.val + 16 * s4.g.level.code + 256 * live.length)).settle
/-- A group and those that wait on it are shut down (R145, R149, R164). -/
def State.shutGroup (s : State) (g : Nat) (reason : DownReason) : State :=
  match s.heldPlan with
  | none => s
  | some p =>
    let gs := (p.dependents g).filter (fun x => match (s.group x).st with
      | .running | .up | .idle | .failed => true
      | _ => x == g)
    let rails := gs.flatMap (fun x => match p.groups[x]? with | some c => c.rails | none => [])
    let scope := rails.filter (fun n => !(s.rail n).isDown)
    let j0 := s.newJob .group scope s.seq.held reason
    let named : List (Nat × GroupProg) := (gs.filter (fun x => !j0.groups.any (fun y => y.1 == x))).map (fun x => (x, GroupProg.waiting))
    s.addJob { j0 with groups := j0.groups ++ named }
/-- A domain request in force at COMMIT in RUN (R149). DESIGN CHOICE: an up request whose AFTER group is not UP is kept for the COMMIT
at which it is, or until a down request (log entry 133); the groups that were shut down with the group, and feed no domain themselves, are eligible with it. -/
def State.domRequest (s : State) (r : DomReq) : State :=
  match s.heldPlan with
  | none => s
  | some p =>
    match p.groups.findIdx? (fun c => c.domain == some r.dom) with
    | none => s
    | some g =>
      if r.up then
        match (s.group g).st with
        | .down | .idle | .failed =>
          if (match p.groups[g]? with
            | some c => (match c.after with | some a => decide ((s.group a).st = GroupState.up) | none => true)
            | none => false) then
            let back := (p.dependents g).filter (fun x => x = g || (decide ((s.group x).st = GroupState.down) &&
              decide ((s.group x).reason = DownReason.domainRequest) &&
              (match p.groups[x]? with | some c => c.domain.isNone | none => false)))
            let s1 : State := back.foldl (fun (s : State) x => s.modGroup x (fun _ => {})) s
            { s1 with seq := { s1.seq with st := if s1.seq.st.adopts then .running else s1.seq.st } }
          else { s with seq := { s.seq with domReqs := s.seq.domReqs ++ [r] } }
        | _ => s
      else
        let s0 : State := { s with seq := { s.seq with domReqs := s.seq.domReqs.filter (fun x => x.dom != r.dom) } }
        match (s0.group g).st with
        | .down | .shuttingDown => s0
        | _ => s0.shutGroup g .domainRequest
/-- RERUN is judged (R158). -/
def State.judgeRerun (s : State) (src : Src) : State :=
  let ans (s : State) (a : Ans) : State :=
    if src = Src.host then { s with seq := { s.seq with cmdAns := a } }
    else { s with cmd := { s.cmd with modAnswers := (src, a) :: s.cmd.modAnswers } }
  match s.seq.st with
  | .exhausted =>
    if s.heldRails.any (fun n => (s.rail n).faulted) then ans s .refusedState
    else ((ans { s with seq := { s.seq with barred := false, attempt := 1 } } .accepted).startAttempt).updFault
  | .stopped =>
    let clear (g : GroupSt) : GroupSt := if g.st = GroupState.failed then {} else g
    ans { s with seq := { s.seq with st := .running, groups := tmap clear s.seq.groups } } .accepted
  | _ => ans s .refusedState

/-! ### Off, on and restart requests (R22, R23, R82, R83, R168) -/

/-- The answer to a module off or on request, by source. -/
def State.modAnswer (s : State) (src : Src) (a : Ans) : State :=
  if src = Src.host then { s with cmd := { s.cmd with offAns := a } }
  else { s with cmd := { s.cmd with modAnswers := (src, a) :: s.cmd.modAnswers } }
/-- Whether the STABLED shut-down of R169 runs. -/
def State.stabling (s : State) : Bool := decide (s.shut.kind = 1)
/-- An off request judged by module state (R82, R168). -/
def State.offRequest (s : State) (src : Src) : State :=
  match s.g.st with
  | .start | .load | .check => ({ s with g := { s.g with heldOff := some src } }).modAnswer src .held
  | .sequence | .run =>
    if s.stabling then s.modAnswer src .noChange else ((s.modAnswer src .accepted).offNow).settle
  | .runDown => s.modAnswer src .noChange
  | .safeHold => if s.stabling then s.modAnswer src .noChange else (s.modAnswer src .accepted).safeOff
  | .unprovisioned | .lastGasp | .off | .stabled => s.modAnswer src .refusedState
/-- An on request judged by module state (R164, R168, R172). -/
def State.onRequest (s : State) (src : Src) : State :=
  match s.g.st with
  | .sequence | .run => s.modAnswer src .noChange
  | .runDown =>
    if s.stabling || s.g.restart.isSome then s.modAnswer src .refusedState
    else
      let s1 : State := (s.modAnswer src .accepted)
      ({ s1 with shut := {} }).enterSequence
  | _ => s.modAnswer src .refusedState
/-- The answer to a restart request, by its source (R83). -/
def State.restartAnswer (s : State) (src : Src) (a : Ans) : State :=
  match src with
  | .host => { s with g := { s.g with restartAns := a } }
  | .mrst => { s with mrst := { s.mrst with ans := a } }
  | _ => { s with cmd := { s.cmd with modAnswers := (src, a) :: s.cmd.modAnswers } }
/-- A module restart request (R22, R83, R110): refused while moving with a rail UP unless the key permits it. -/
def State.restartRequest (s : State) (src : Src) : State :=
  let up := s.rails.toList.any (fun r => r.st.isUp)
  let allowed := match s.modCfg with | some m => m.restartWhileMoving | none => false
  match s.g.st with
  | .sequence | .run | .runDown =>
    if s.stabling then s.restartAnswer src .refusedState
    else if s.motion.moving && up && !allowed then (s.restartAnswer src .refusedMoving).raise 16
    else
      let s1 : State := ((((s.restartAnswer src .accepted).relinquish false).seqShutdown).abandonWaits).abandonTake
      let scope := (List.finRange 256).filter (fun n => !(s1.rail n).isDown)
      let s2 : State := { s1 with
        g := { s1.g with restart := some src, ready := false }
        shut := { s1.shut with kind := 5, phase := 1, lockouts := 0 } }
      (s2.addJob (s2.newJob .restart scope s2.seq.held)).settle
  | .safeHold | .unprovisioned => (s.restartAnswer src .accepted).startEntry (restartCause src) 0
  | _ => s.restartAnswer src .refusedState

end Sys2Proof.Machine
end

