-- ==== Sys2Proof/Machine/Power.lean ====
section
/-!
DEFINITION. Meanings: module supply, hold-up store, start-up, time base, module time and UTC, wake, off, on and restart
requests, motion (R21-R39, R59, R71-R86, R165-R169).
-/
namespace Sys2Proof.Machine
open Sys2Proof

/-- A command that completes. -/
abbrev Out := Host.Outcome State Fault Refusal

/-! ### Wake sources (R85, R86) -/

/-- Whether wake source `code` is enabled: WAKE_EN of the last successful LOAD since OFF, and before any only the touch key
and the standstill input (R86). -/
def State.wakeEnabled (s : State) (code : Nat) : Bool :=
  match s.modCfg with
  | some m => m.wakeEn.getLsbD (code - 1)
  | none => code = 2 || code = 4
/-- A wake source fires (R82, R85): in STABLED it causes START, on the way to STABLED, while the shut-down of R169 runs, it is
latched (DEDUCED, log entry 120), elsewhere it is ignored. -/
def State.wakeUp (s : State) (code : Nat) : State :=
  if !s.wakeEnabled code then s
  else if s.g.st = .stabled then
    let s1 : State := s.startEntry 1 code
    { s1 with g := { s1.g with wokeAt := some (s.now / 1000) } }
  else if s.stabling && s.g.st != .lastGasp then
    { s with g := { s.g with wakeLatch := match s.g.wakeLatch with | some c => some c | none => some code } }
  else s

/-! ### Supply -/

/-- A deferred commit starts when the supply and the store allow it again (R271). -/
def State.deferredRetry (s : State) : State := if s.nv.st = .deferred then s.commitStart else s
/-- SUPPLY_START_THRESHOLD (R73, R21): the module leaves OFF for START. -/
def execSupplyStartThreshold (s : State) : Out :=
  if s.g.st = .off then
    .next ({ s with sup := { s.sup with present := true, lossDeclared := false } }.startEntry 0 0)
  else .next s
/-- An absence of VIN begins (R59); one that runs already goes on. -/
def State.absent (s : State) : State :=
  if s.sup.present then { s with sup := { s.sup with present := false, lossDeclared := false } } else s
/-- VIN_ABSENCE_BEGIN (R59). -/
def execVinAbsenceBegin (s : State) : Out := .next s.absent
/-- FLUCTUATION_EXPIRY (R59): VIN in the fluctuation band for 100 ms counts as absent. -/
def execFluctuationExpiry (s : State) : Out := .next s.absent
/-- SUPPLY_LOSS_DECLARED (R59, R21, R82, R85): the absence has passed 10 ms. A loss in the coarse tick of a wake from STABLED wins
over the wake. -/
def execSupplyLossDeclared (s : State) : Out :=
  if s.sup.present then .next s
  else
    let s1 : State := { s with sup := { s.sup with lossDeclared := true, lossSeen := true } }.abandonTest
    match s.g.st with
    | .off => .next s1
    | .stabled => .next s1.enterOff
    | .start | .load | .check =>
      if s1.g.st = .start && s1.g.wokeAt = some (s1.now / 1000) then .next s1.enterOff else .next (s1.raise 10).enterLastGasp
    | _ => .next (s1.raise 10)
/-- VIN_RETURN (R59, R271): an absence of at most 10 ms was an interruption. -/
def execVinReturn (s : State) : Out :=
  if s.sup.present then .next s
  else
    let short := !s.sup.lossDeclared
    let s1 : State := { s with sup := { s.sup with
      present := true, lossDeclared := false, interruptionSeen := s.sup.interruptionSeen || short } }
    .next (if short then s1.raise 10 else s1).deferredRetry
/-- PFW_ASSERT (R75, R85): PFW_N after its filter. In STABLED the assertion is logged and the release after it wakes. -/
def execPfwAssert (asserted : Bool) (s : State) : Out :=
  let used := s.pfwUsed
  let s0 : State := if asserted && used then s.abandonTest else s
  let s1 : State := { s0 with sup := { s.sup with pfwPin := asserted } }
  let s2 : State := if used && asserted != s.sup.pfwPin then s1.raise 10 else s1
  if s.g.st = .stabled then
    if asserted && used then
      .next ({ s2 with sup := { s2.sup with pfwAssertedInStabled := true } }.juridical "PFW_ASSERT")
    else if s.sup.pfwAssertedInStabled && used then .next (s2.wakeUp 5)
    else .next s2
  else .next s2.deferredRetry
/-- INTERNAL_RAIL_FAULT (R74): EN and CAS_OUT fall in hardware and the module passes through START. -/
def execInternalRailFault (s : State) : Out :=
  if s.g.st = .off then .next s
  else
    let s1 : State := s.startEntry 6 0
    let recent := s1.g.railResets.filter (fun t => decide (s1.now ≤ t + 3600000000000))
    .next { s1 with g := { s1.g with railResets := s1.now :: recent } }
/-- INTERNAL_TEMP_MEASURE (R71): six measurements in °C, of which the highest counts. -/
def execInternalTempMeasure (temps : List Int) (s : State) : Out :=
  match temps with
  | [a, b, c, d, e, f] =>
    if s.g.st = .off || s.g.st = .stabled then .next s
    else
      let t := max a (max b (max c (max d (max e f))))
      let hot := if 85 < t then true else if t ≤ 80 then false else s.g.hot
      let isOver := if 100 < t then true else if t ≤ 95 then false else s.g.overtemp
      let s1 : State := { s with g := { s.g with dieTemp := t, temps := temps, hot := hot, overtemp := isOver } }
      let s2 : State := if hot && !s.g.hot then s1.raise 12 0 else s1
      let s3 : State := if isOver && !s.g.overtemp then (s2.raise 12 1).faultEvent 8 12 "INTERNAL_OVERTEMP" else s2
      .next s3.updFault
  | _ => .refused .illFormed
/-- The usable energy in mJ of a bank at `mv` mV with capacitance `uf` µF above the 12.0 V floor (R76). -/
def usableMj (uf mv : Nat) : Nat := uf * (mv * mv - 144000000) / 2000000000
/-- Recovery of the store ends: it begins with the internal rails good and 0.5 J in the store (R273). -/
def State.recovered (s : State) : State :=
  if s.nv.st = .recovering && s.sup.railsGood && 500 ≤ s.sup.usableMj then
    { s with nv := { s.nv with st := if s.nv.gathered = 0 then .idle else .gathering } }
  else s
/-- START ends (R21): internal rails good and 5 J in the store; LOAD with a customer key, else UNPROVISIONED. A release that a
supply loss interrupted ends first (R496). -/
def State.startComplete (s : State) : State :=
  if s.g.st = .start && s.sup.railsGood && 5000 ≤ s.sup.usableMj && s.nv.cur.releasing = 0 then
    (if s.hasKey then s.setMod .load else s.setMod .unprovisioned).wdgFromStart
  else s
/-- HOLDUP_ENERGY_UPDATE (R76, R78, R80, R81): VIN, the bank voltage and the state of the internal rails as measured. -/
def execHoldupEnergyUpdate (vinMv bankMv : Nat) (railsGood : Bool) (s : State) : Out :=
  let mj := usableMj s.nv.cur.capUf bankMv
  let s1 : State := { s with sup := { s.sup with
    vinMv := vinMv, bankMv := bankMv, usableMj := mj, railsGood := railsGood, stalled := s.sup.stalled && decide (mj < 5000) } }
  if s.g.st = .off then .next s1 else .next (s1.recovered.deferredRetry).startComplete
/-- HOLDUP_CHARGE_STALLED (R81): 10 s of charging with VIN present have not brought the store to 5 J. -/
def execHoldupChargeStalled (s : State) : Out :=
  if s.g.st = .start && s.sup.present && s.sup.usableMj < 5000 && !s.sup.stalled then
    .next ({ s with sup := { s.sup with stalled := true } }.raise 11)
  else .next s

/-! ### Time base, module time and UTC (R32-R39, R361) -/

/-- The held finding of a TB_FAULT (R32), which survives every reset and every passage through OFF: it stands in every copy of the
store's content, however its commit group fares (DEDUCED, log entry 117). -/
def State.setFinding (s : State) (b : Bool) : State :=
  let f (d : NvData) : NvData := { d with tbFinding := b }
  { s with nv := { s.nv with cur := f s.nv.cur, durable := f s.nv.durable, committing := s.nv.committing.map f } }
/-- TIME_BASE_CHECK (R32): the deviation in ppm. DESIGN CHOICE: R32 gives no response for STABLED, SAFE_HOLD, UNPROVISIONED and
LAST_GASP; there the command sets the bits and raises source 2 and does no more (log entry 118). -/
def execTimeBaseCheck (ppm : Int) (s : State) : Out :=
  if s.g.st = .off then .next s
  else if ppm.natAbs ≤ 1000 then
    .next ({ s with time := { s.time with tbFault := false }, lnk := { s.lnk with refLost := false } }.updFault)
  else if s.time.tbFault then .next s
  else
    let s1 : State := ({ s with time := { s.time with tbFault := true, tbSeen := true } }).raise 2
    match s.g.st with
    | .start | .load | .check => .next (s1.enterSafeHold "TIME_BASE_FAULT").updFault
    | .sequence | .run | .runDown =>
      .next (((s1.faultEvent 7 2 "TIME_BASE_FAULT").setFinding true).nvWrite 16 id).commitStart.updFault
    | _ => .next s1.updFault
/-- MTIME_LO_READ (R34, R361): the high word is captured. -/
def execMtimeLoRead (s : State) : Out :=
  .next { s with time := { s.time with mtimeHi := s.time.mtime.extractLsb' 32 32 } }
/-- UTC_LO_READ (R361). -/
def execUtcLoRead (s : State) : Out :=
  .next { s with time := { s.time with utcHi := s.time.utc.extractLsb' 32 32 } }
/-- CYCLE_LO_READ (R361). -/
def execCycleLoRead (s : State) : Out :=
  .next { s with cyc := { s.cyc with numHi := s.cyc.num.extractLsb' 32 32 } }
/-- ISSUED of a command source: its own for host software, else APPLIED (R366). -/
def State.issued (s : State) (i : Fin 5) : DWord := if i = 2 then s.cmd.issuedHost else s.cmd.applied[i]
/-- CMD_SEQ_LO_READ (R361, R366): a GLB_CMD pair of source `src`; sources 5-63 read 0 and capture nothing. -/
def execCmdSeqLoRead (src : Fin 64) (isIssued : Bool) (s : State) : Out :=
  if h : src.val < 5 then
    let i : Fin 5 := ⟨src.val, h⟩
    if isIssued then
      .next { s with cmd := { s.cmd with issuedHi := tset s.cmd.issuedHi i ((s.issued i).extractLsb' 32 32) } }
    else .next { s with cmd := { s.cmd with appliedHi := tset s.cmd.appliedHi i (s.cmd.applied[i].extractLsb' 32 32) } }
  else .next s
/-- UTC_HOLDOVER (R36): no valid sync message for 3 s. -/
def execUtcHoldover (s : State) : Out :=
  if s.time.utcQual = 1 then
    .next ({ s with time := { s.time with utcQual := 2, holdSince := s.tickUs }, lnk := { s.lnk with goodSyncs := 0 } }.raise 29)
  else .next s
/-- LEAP_SECOND (R39): the leap second announced on the selected port (R475) takes effect at the end of the UTC day: the command
makes it due, and the fine tick that finds the count at its place in the day applies it (DESIGN CHOICE, log entry 116). -/
def execLeapSecond (positive : Bool) (s : State) : Out :=
  if s.time.utcQual = 0 || s.lnk.leap ≠ some positive then .next s
  else .next { s with time := { s.time with leapDue := some positive }, lnk := { s.lnk with leap := none } }
/-- WAKE_TIMER_EXPIRY (R85): TIMER_MIN minutes after entry to STABLED. -/
def execWakeTimerExpiry (s : State) : Out :=
  if s.g.st = .stabled && s.g.timerMin != 0 && s.modCfg.isSome then .next (s.wakeUp 6) else .next s

/-! ### Off, on and restart requests of host software (R83, R168, R365) -/

/-- A module off or on request of host software: numbered, then kept for the COMMIT in place of an earlier one, or judged
at once where no cycle runs (R365, R366). -/
def State.hostModRequest (s : State) (off : Bool) : State :=
  let n := s.cmd.issuedHost + 1
  let s1 : State := { s with cmd := { s.cmd with issuedHost := n } }
  if s.g.st.cycleRuns then
    { s1 with cmd := { s1.cmd with
      modReqs := (s1.cmd.modReqs.filter (fun q => q.src != Src.host)) ++ [{ src := .host, off := off }] } }
  else
    let s2 : State := { s1 with cmd := { s1.cmd with applied := tset s1.cmd.applied 2 n } }
    if off then s2.offRequest .host else s2.onRequest .host
/-- HOST_OFF_REQUEST (R168). -/
def execHostOffRequest (s : State) : Out := .next (s.hostModRequest true)
/-- HOST_ON_REQUEST (R168). -/
def execHostOnRequest (s : State) : Out := .next (s.hostModRequest false)
/-- HOST_RESTART (R83): 0xA5C3 written to GLB_RESTART. -/
def execHostRestart (s : State) : Out := .next (s.restartRequest .host)

/-! ### Motion (R165, R166, R169, R172) -/

/-- STANDSTILL_INPUT_CHANGE (R165, R85): the input after its 10 ms filter; leaving the asserted level on the way to STABLED is
latched as a wake source. -/
def execStandstillInputChange (asserted : Bool) (s : State) : Out :=
  match s.g.st with
  | .off | .stabled => .next s
  | _ =>
    let s1 : State := { s with motion := { s.motion with standstillIn := asserted } }
    .next (if s.motion.standstillIn && !asserted then s1.wakeUp 4 else s1)
/-- One judgement of motion (R165, R166). -/
def State.judgeMotion (s : State) : State :=
  let m := s.judgeMoving
  let s1 : State := { s with motion := { s.motion with
    moving := m, confirmed := s.motion.confirmed && !m
    stillSince := if m then none else match s.motion.stillSince with | some t => some t | none => some s.tickUs } }
  let s2 : State := if m = s.motion.moving then s1 else s1.raise 17
  if m then s2.endTestMode else s2
/-- MOTION_JUDGEMENT (R165): every 1 ms outside OFF, STABLED and LAST_GASP. An Edivo test mode ends when the train moves
(R480). -/
def execMotionJudgement (s : State) : Out :=
  match s.g.st with
  | .off | .stabled | .lastGasp => .next s
  | _ => .next s.judgeMotion
/-- STANDSTILL_CONFIRMED (R166, R172): the confirmation time has passed at standstill. -/
def execStandstillConfirmed (s : State) : Out :=
  if s.motion.stillSince.isSome && !s.motion.confirmed then
    let s1 : State := ({ s with motion := { s.motion with confirmed := true } }).raise 17
    if s1.g.st = .runDown && s1.shut.kind = 3 then .next s1.beginFlush.settle else .next s1
  else .next s

/-- STABLED_FLUSH_END (R169): the flush of step 2 ends; what is left is lost and its amount is committed. -/
def execStabledFlushEnd (s : State) : Out :=
  if s.shut.kind = 1 && s.shut.phase = 3 && !s.shut.flushed then
    .next (s.flushEnd (mibUp s.jurWaiting))
  else .next s

end Sys2Proof.Machine
end

