-- ==== Sys2Proof/Machine/RailCommands.lean ====
section
/-!
DEFINITION. Meanings: rail commands of host software, the timers and inputs of a rail, comparator crossings, steps, chains,
allowances, the retry pause and RERUN (R117-R160).
-/
namespace Sys2Proof.Machine
open Sys2Proof

/-- A rail command of host software (R131, R365, R366): numbered, then kept for the COMMIT in place of an earlier one to the
same register; where no cycle runs it is judged at once, REFUSED_STATE except PARK, UNPARK and RELEASE in SAFE_HOLD after a
successful LOAD (R126). -/
def State.hostRailCmd (s : State) (n : RailN) (code : RailCode) : State :=
  let k := s.cmd.issuedHost + 1
  let s1 : State := { s with cmd := { s.cmd with issuedHost := k } }
  if s.g.st.cycleRuns then
    { s1 with railReqs :=
      s1.railReqs.filter (fun q => !(q.src == Src.host && q.rail == n)) ++ [{ src := .host, rail := n, code := code }] }
  else
    let s2 : State := { s1 with cmd := { s1.cmd with applied := tset s1.cmd.applied 2 k } }
    let atOnce := s.g.st = .safeHold && s.g.loadOk && (code = .park || code = .unpark || code = .release)
    if atOnce then (s2.railCommand { src := .host, rail := n, code := code }).settle else s2.answer .host n .refusedState
/-- RAIL_CMD_ON (R131). -/
def execRailCmdOn (n : RailN) (s : State) : Out := .next (s.hostRailCmd n .on)
/-- RAIL_CMD_OFF (R131). -/
def execRailCmdOff (n : RailN) (s : State) : Out := .next (s.hostRailCmd n .off)
/-- RAIL_CMD_CLEAR (R131). -/
def execRailCmdClear (n : RailN) (s : State) : Out := .next (s.hostRailCmd n .clear)
/-- RAIL_CMD_RELEASE (R131, R132). -/
def execRailCmdRelease (n : RailN) (s : State) : Out := .next (s.hostRailCmd n .release)
/-- RAIL_CMD_PARK (R131, R132). -/
def execRailCmdPark (n : RailN) (s : State) : Out := .next (s.hostRailCmd n .park)
/-- RAIL_CMD_UNPARK (R131, R132). -/
def execRailCmdUnpark (n : RailN) (s : State) : Out := .next (s.hostRailCmd n .unpark)
/-- COMPARATOR_CROSSING (R230, R235-R237): the input of fixed-speed comparator `i` reaches `level` (µV; nA in current
mode); its output follows the thresholds in force. Without power the input has its level, and the output stays. -/
def execComparatorCrossing (i : Fin 320) (level : Int) (s : State) : Out :=
  if s.cmpPowered then .next ((s.cmpTo i (s.judgeCmp i level) level).cmpSync i).settle else .next (s.setInput i level)
/-- RAMP_DELAY_END (R120, R232): the reference of a rail in RAMP starts to rise. -/
def execRampDelayEnd (n : RailN) (s : State) : Out :=
  if (s.rail n).st = .ramp && (s.rail n).delayEndAt.isNone then
    .next ((s.modRail n (fun r => { r with delayEndAt := some s.now })).railSync n).settle
  else .next s
/-- RAMP_DEADLINE (R121): a rail not yet UP enters FAULT with SLOW_RISE. -/
def execRampDeadline (n : RailN) (s : State) : Out :=
  if (s.rail n).judged s.now = .ramp then .next (s.establish n [.slowRise]).settle else .next s
/-- PG_USED of rail `n`. -/
def State.pgUsed (s : State) (n : RailN) : Bool := match s.railCfg n with | some c => c.pgUsed | none => false
/-- PG_CHANGE (R122): the level of the PG input, in every state; a RAMP whose UP window has been seen enters UP at its next clean
result in the window. In PARKED the register does not show it. -/
def execPgChange (n : RailN) (good : Bool) (s : State) : Out := .next (s.modRail n (fun r => { r with pg := good }))
/-- PG_DELAY_EXPIRY (R122): PG was not good within PG_DELAY of the first clean result in the UP window. -/
def execPgDelayExpiry (n : RailN) (s : State) : Out :=
  if (s.rail n).judged s.now = .ramp && (s.rail n).upSeen && !(s.rail n).pg && s.pgUsed n then
    .next (s.establish n [.pgMismatch]).settle
  else .next s
/-- PG_FILTER_EXPIRY (R122): PG not good for PG_FILTER in UP or MARGIN, or good for it in OFF with DRAINED set. -/
def execPgFilterExpiry (n : RailN) (s : State) : Out :=
  let r := s.rail n
  if !s.pgUsed n then .next s
  else match r.judged s.now with
  | .up | .margin => if r.pg then .next s else .next (s.establish n [.pgMismatch]).settle
  | .off =>
    if r.pg && r.drained && !r.pgStuck then .next ((s.modRail n (fun r => { r with pgStuck := true })).raise (32 + n) 18)
    else .next s
  | _ => .next s
/-- DISCHARGE_TIMEOUT (R125, R128, R163): a running timeout of a rail in DRAIN or FAULT expires. -/
def execDischargeTimeout (n : RailN) (s : State) : Out :=
  let r := s.rail n
  if r.discharge = .running && (r.st = .drain || (r.st = .fault && !r.drained)) then .next (s.noDrain n).settle
  else .next s
/-- STEP_DELAY_EXPIRY (R139): DELAY of an eligible step has passed. -/
def execStepDelayExpiry (g : GroupN) (k : Fin 32) (s : State) : Out :=
  match (s.group g).steps[k.val]? with
  | some st => if st.eligible && !st.started then .next (s.modStep g k (fun x => { x with delayDone := true })).settle else .next s
  | none => .next s
/-- STEP_TIMEOUT (R139, R154, R157): the TIMEOUT of an eligible step that is not done, even where its rails are all UP and only a
condition lacks. In RUN its rails in WAIT go to OFF and those in RAMP are turned off. -/
def execStepTimeout (g : GroupN) (k : Fin 32) (s : State) : Out :=
  match s.heldPlan, (s.group g).steps[k.val]? with
  | some p, some st =>
    match p.groups[g.val]? with
    | none => .next s
    | some c =>
      match c.steps[k.val]? with
      | none => .next s
      | some x =>
        if (s.group g).st = GroupState.running && st.eligible && !st.done then
          let waiting := x.rails.filter (fun n => !(s.rail n).st.isUp && !st.skipped.contains n)
          let n : RailN := (waiting ++ x.rails).headD 0
          let s1 : State := { s with seq := { s.seq with fails := s.seq.fails ++ [(FailReason.stepTimeout, n)] } }
          let s2 : State := if s.g.st = .run then s1.evalFails else s1
          let off (s : State) (n : RailN) : State := match (s.rail n).st with
            | .wait => s.enterRail n .off (fun r => r)
            | .ramp => if s.g.st = .run then (s.toDrain n).railSync n else s
            | _ => s
          .next (x.rails.foldl off s2).settle
        else .next s
  | _, _ => .next s
/-- CAS_IN_ACCEPTED (R143, R145, R160): CAS_IN of a chain is accepted; a fall shuts down the groups that run or are UP behind it, in
RETRY_PAUSE marks them DOWN with those that wait on them, and raises CHAIN_IN_LOST once. -/
def execCasInAccepted (c : ChainN) (high : Bool) (s : State) : Out :=
  if !s.g.st.cycleRuns then .next s
  else
    let s1 : State := { s with seq := { s.seq with
      casIn := if high then s.seq.casIn ||| (1#16 <<< c.val) else s.seq.casIn &&& ~~~ (1#16 <<< c.val) } }
    if high || !s.seq.casIn.getLsbD c.val then .next s1.settle
    else
      match s1.heldPlan with
      | none => .next s1.settle
      | some p =>
        let pause := s1.seq.st = .retryPause
        let hit := ((List.range p.groups.length).zip p.groups).filter (fun x => x.2.inChain == some c &&
          (match (s1.group x.1).st with
          | .running | .up => true
          | .idle => pause
          | _ => false))
        let lost (y : GroupSt) : GroupSt :=
          if y.st = .idle then { y with st := .down, reason := .casInLost, steps := [] } else y
        let act (s : State) (x : Nat × CGroup) : State :=
          if pause then (p.dependents x.1).foldl (fun (s : State) k => s.modGroup k lost) s else s.shutGroup x.1 .casInLost
        let s2 : State := hit.foldl act s1
        .next (if hit.isEmpty then s2 else s2.raise 15 5).settle
/-- ALLOWANCE_EXPIRY (R146): the allowance of group `g` ends; its steps are taken down. -/
def execAllowanceExpiry (g : GroupN) (s : State) : Out :=
  let act (s : State) (j : Shut) : State :=
    if j.groups.any (fun x => x.1 == g.val && x.2 == .allowance) then
      match s.cfg.plan[j.plan] with
      | none => s
      | some p =>
        match p.groups[g.val]? with
        | none => s
        | some c =>
          let r := s.downFrom j.scope c.steps c.steps.length
          let j1 : Shut := { j with groups := j.groups.map (fun y => if y.1 = g.val then (y.1, r.2.1) else y) }
          let s1 : State := { r.1 with shut := { r.1.shut with
            jobs := r.1.shut.jobs.map (fun y => if y = j then j1 else y) } }
          let s2 : State := if r.2.1 = .finished then s1.groupEnded j g.val else s1
          if j.kind = .toStabled && r.2.2 && s2.judgeMoving then s2.stepToRunDown else s2
    else s
  .next (s.shut.jobs.foldl act s).settle
/-- RETRY_PAUSE_END (R155). -/
def execRetryPauseEnd (s : State) : Out :=
  if s.seq.st = .retryPause then .next ({ s with seq := { s.seq with pauseOver := true } }).settle else .next s
/-- RERUN (R158, R365): host software writes RSQ_SEQ_CMD; judged at the COMMIT, or refused where no cycle runs. -/
def execRerun (s : State) : Out :=
  let k := s.cmd.issuedHost + 1
  let s1 : State := { s with cmd := { s.cmd with issuedHost := k } }
  if s.g.st.cycleRuns then .next { s1 with seq := { s1.seq with rerun := some .host } }
  else .next { s1 with
    cmd := { s1.cmd with applied := tset s1.cmd.applied 2 k }
    seq := { s1.seq with cmdAns := .refusedState } }

end Sys2Proof.Machine
end

