-- ==== Sys2Proof/Machine/Margin.lean ====
section
/-!
DEFINITION. Margin hold and margin probing (R183-R199): judgement of requests, slew, probes, their results and loop health.
-/
namespace Sys2Proof.Machine
open Sys2Proof

/-! ### Codes and windows (R183, R184, R192) -/

/-- The TRIM code of an offset in 0.1 % of NOMINAL: rounded to nearest, halves away from zero, signed by TRIM_POL (R183). -/
def trimCode (c : CRail) (off : Int) : Int :=
  let nv := c.nominal * off
  let mag : Int := (2 * nv.natAbs + c.trimGain) / (2 * c.trimGain)
  if (0 < nv) == c.trimPol then mag else -mag
/-- Whether a code may be applied (R183). -/
def codeOk (c : CRail) (code : Int) : Bool := c.trimMin ≤ code && code ≤ c.trimMax
/-- Whether NOMINAL, shifted by an offset in 0.1 %, lies in the margin window (R184, R186). -/
def offsetInWindow (m : CModule) (c : CRail) (off : Int) : Bool := inMargin m c (256 * c.nominal * (1000 + off))
/-- The next code of a slew (R187). -/
def slewStep (m : CModule) (code target : Int) : Int :=
  if code < target then min target (code + m.holdSlew) else max target (code - m.holdSlew)
/-- The code of rail `n` takes one slew step (R187, R195). -/
def State.slew (s : State) (n : RailN) : State :=
  match s.modCfg with
  | none => s
  | some m => s.modRail n (fun r =>
    let code := slewStep m r.mg.code r.mg.target
    { r with mg := { r.mg with
      code := code, skip := if code = 0 && r.mg.mode = .ret then s.measuring n else r.mg.skip } })

/-! ### Requests (R186, R188, R189) -/

/-- An answer to a margin request, by its source. -/
def State.marginAnswer (s : State) (src : Src) (n : RailN) (a : Ans) : State :=
  match src with
  | .host => s.modRail n (fun r => { r with mg := { r.mg with answer := a } })
  | .program _ => s.modRail n (fun r => { r with progMargin := a })
  | _ => { s with answers := ⟨src, n, true, a⟩ :: s.answers }
/-- The first check of R186 that a HOLD fails; none when it is acceptable. -/
def State.holdRefusal (s : State) (n : RailN) (off : Int) : Option Ans :=
  match s.railCfg n, s.modCfg with
  | some c, some m =>
    if s.g.st ≠ .run then some .refusedState
    else if s.motion.moving && !m.holdWhileMoving then some .refusedMoving
    else if !(s.rail n).st.isUp then some .refusedRail
    else if !c.trimAllowed then some .refusedTrim
    else if off < -100 || 100 < off || !offsetInWindow m c 0 || !offsetInWindow m c off || !codeOk c (trimCode c off) then
      some .refusedRange
    else if (s.rail n).mg.mode = .hold && (s.rail n).mg.offset = off then some .noChange
    else none
  | _, _ => some (if s.g.st = .run then .refusedRail else .refusedState)
/-- A HOLD is judged and applied: a running probe ends PREEMPTED_BY_HOLD, and the first slew step is taken at once (R186, R187). -/
def State.judgeHold (s : State) (src : Src) (n : RailN) (off : Int) : State :=
  match s.holdRefusal n off with
  | some a => s.marginAnswer src n a
  | none =>
    let code := match s.railCfg n with | some c => trimCode c off | none => 0
    let s1 : State := if (s.rail n).mg.mode = .probe then s.endMargin n .preemptedByHold else s
    let s2 : State := if (s1.rail n).st = .margin then s1 else s1.enterRail n .margin (fun r => r)
    let s3 : State := s2.modRail n (fun r => { r with mg := { r.mg with
      mode := .hold, target := code, offset := off, skip := false, holder := some src } })
    (s3.marginAnswer src n .accepted).slew n
/-- An END is judged (R186): the code slews back to 0 (R195). -/
def State.judgeEnd (s : State) (src : Src) (n : RailN) : State :=
  if (s.rail n).mg.mode = .hold then
    (s.modRail n (fun r => { r with mg := { r.mg with
      mode := .ret, target := 0, endReason := .endCmd
      skip := if r.mg.code = 0 then s.measuring n else false } })).marginAnswer src n .accepted
  else s.marginAnswer src n .noChange
/-- The authority level of a source, 1 the highest (R363). -/
def Src.authority : Src → Nat
  | .touch | .mrst | .plan => 1
  | .program _ => 2
  | .partner => 3
  | .host => 4
  | .edivo | .network => 5
/-- The margin requests to one rail at one COMMIT (R189): the highest level decides; requests of that level that differ
cancel each other; all below are CONTRADICTED. -/
def State.judgeMargin (s : State) (n : RailN) (reqs : List MarginReq) : State :=
  let top := reqs.foldl (fun a q => min a q.src.authority) 9
  let tops := reqs.filter (fun q => q.src.authority == top)
  let low := reqs.filter (fun q => q.src.authority != top)
  let same := match tops with | q :: rest => rest.all (fun x => x.target == q.target) | [] => true
  let s1 : State := low.foldl (fun (s : State) q => s.marginAnswer q.src n .contradicted) s
  if !same then tops.foldl (fun (s : State) q => s.marginAnswer q.src n .contradicted) s1
  else match tops with
  | [] => s1
  | q :: rest =>
    let s2 : State := match q.target with
      | some off => s1.judgeHold q.src n off
      | none => s1.judgeEnd q.src n
    let a : Ans := match q.src with
      | .host => (s2.rail n).mg.answer
      | .program _ => (s2.rail n).progMargin
      | _ => (match s2.answers with | x :: _ => x.ans | [] => .none)
    rest.foldl (fun (s : State) x => s.marginAnswer x.src n a) s2
/-- Every margin request of a COMMIT, lowest rail first. -/
def State.judgeMargins (s : State) : State :=
  let reqs := s.marginReqs
  let s0 : State := { s with marginReqs := [] }
  (List.finRange 256).foldl (fun (s : State) n =>
    match reqs.filter (fun q => q.rail == n) with
    | [] => s
    | l => s.judgeMargin n l) s0
/-- A margin request of host software (R186, R365, R366). -/
def State.hostMargin (s : State) (n : RailN) (target : Option Int) : State :=
  let k := s.cmd.issuedHost + 1
  let s1 : State := { s with cmd := { s.cmd with issuedHost := k } }
  if s.g.st.cycleRuns then
    { s1 with marginReqs := s1.marginReqs.filter (fun q => !(q.src == Src.host && q.rail == n)) ++
      [{ src := .host, rail := n, target := target }] }
  else
    ({ s1 with cmd := { s1.cmd with applied := tset s1.cmd.applied 2 k } }).marginAnswer .host n .refusedState
/-- MARGIN_HOLD (R186): TARGET is a signed offset in 0.1 %. -/
def execMarginHold (n : RailN) (target : BitVec 8) (s : State) : Out := .next (s.hostMargin n (some target.toInt))
/-- MARGIN_END (R186). -/
def execMarginEnd (n : RailN) (s : State) : Out := .next (s.hostMargin n none)
/-- MARGIN_SLEW_STEP (R187, R195): 10 µs after the step before. -/
def execMarginSlewStep (n : RailN) (s : State) : Out :=
  let m := (s.rail n).mg
  if (m.mode = .hold || m.mode = .ret) && m.code != m.target then .next (s.slew n) else .next s
/-- HOLD_EXPIRED (R187, R195): HOLD_MAX has passed; the code slews back to 0. -/
def execHoldExpired (n : RailN) (s : State) : Out :=
  if (s.rail n).mg.mode = .hold then
    .next ((s.modRail n (fun r => { r with mg := { r.mg with
      mode := .ret, target := 0, endReason := .holdExpired
      skip := if r.mg.code = 0 then s.measuring n else false } })).raise 24 n)
  else .next s
/-- TRIM_CLIPPED (R63, R188, R191): the output saturates or leaves saturation; CLIPPED shows which. In a hold the answer of its requester
becomes CLIPPED, a probe ends. -/
def execTrimClipped (n : RailN) (clipped : Bool) (s : State) : Out :=
  let s1 : State := s.modRail n (fun r => { r with mg := { r.mg with clipped := clipped } })
  if !clipped then .next s1
  else
    let s2 : State := s1.raise 24 n
    match (s.rail n).mg.mode with
    | .hold => .next (match (s.rail n).mg.holder with | some src => s2.marginAnswer src n .clipped | none => s2)
    | .probe => .next (s2.endMargin n .clipped)
    | _ => .next s2

/-! ### The planner (R190-R192) -/

/-- Operating hours (R264). -/
def State.opHours (s : State) : Nat := s.nv.cur.opNs / 3600000000000
/-- The offset of a probe's step in 0.1 %, toward the farther fault edge, when the margin condition holds (R192): s is the voltage of
the step's code, as in the chapter's example. -/
def probeOffset (m : CModule) (c : CRail) (v : Int) : Option Int :=
  let lo := c.loCode * c.fs * 250
  let hi := c.hiCode * c.fs * 250
  let x := 1000 * v
  let st : Int := 256 * (trimCode c m.probeStep).natAbs * c.trimGain
  let down := hi - x ≤ x - lo
  let d := if down then x - st - lo else hi - (x + st)
  if 2 * st ≤ d then some (if down then -(m.probeStep : Int) else m.probeStep) else none
/-- The step code of a probe of rail `n`, when the rail is eligible (R191, R192). -/
def State.probeCodeOf (s : State) (n : RailN) : Option Int :=
  match s.railCfg n, s.modCfg, (s.rail n).lastClean, s.homeConv n with
  | some c, some m, some v, some cv =>
    let mates := (s.groupMates n).filter (· != n)
    let probing := (List.finRange 256).filter (fun k => decide ((s.rail k).mg.mode = .probe))
    let x := s.scan.conv[cv]
    if m.probingEnabled && !s.planner.pause && s.g.st = .run && s.g.level = .normal && s.seq.level = .normal &&
        c.probeAllowed && (s.rail n).st = .up && !(s.rail n).warnLo && !(s.rail n).warnHi && s.heldRails.contains n &&
        mates.all (fun k => (s.rail k).st != .ramp && (s.rail k).st != .margin) && offsetInWindow m c 0 &&
        x.st = .scanning && probing.all (fun k => s.homeConv k != some cv) && !x.burst && probing.length < m.probesMax &&
        !(s.rail n).mg.clipped && !(s.rail n).mg.resultDue && !(s.nv.cur.rail[n]).gainMismatch then
      match probeOffset m c v with
      | some off => if trimCode c off != 0 && codeOk c (trimCode c off) then some (trimCode c off) else none
      | none => none
    else none
  | _, _, _, _ => none
/-- Whether rail `n` is due for a probe (R190). -/
def State.probeDue (s : State) (n : RailN) : Bool :=
  match (s.nv.cur.rail[n]).lastValidNs, s.modCfg with
  | some t, some m => decide (m.probeIntervalH * 3600000000000 < s.nv.cur.opNs - t)
  | none, some _ => true
  | _, none => false
/-- The operating time of the last valid probe, -1 for none (R190). -/
def State.probeAge (s : State) (n : RailN) : Int :=
  match (s.nv.cur.rail[n]).lastValidNs with
  | some h => (h : Int)
  | none => -1
/-- A probe of rail `n` starts (R193): MARGIN, and its home converter aborts its slot for the probe snapshot. -/
def State.startProbe (s : State) (n : RailN) (code : Int) : State :=
  let s1 : State := s.enterRail n .margin (fun r => { r with mg := { r.mg with
    mode := .probe, probeCode := code, stepped := false, snapping := true, code := 0, target := 0
    samples := [], holdSum := 0, holdCount := 0, resultDue := false } })
  match s1.homeConv n with
    | some cv => { s1 with scan := { s1.scan with
        conv := tmod s1.scan.conv cv (fun x => { x with probe := some n })
        probeBuf := tset s1.scan.probeBuf cv { input := BitVec.ofNat 10 n.val, time := s1.now } } }
    | none => s1
/-- The scheduling pass of a COMMIT (R190): the requested rail if eligible, else the eligible due rail whose last valid probe
is oldest, lowest number first among equals. -/
def State.probePass (s : State) : State :=
  let pickDue : Option (RailN × Int) :=
    (List.finRange 256).foldl (fun (acc : Option (RailN × Int)) n =>
      if s.probeDue n then
        match s.probeCodeOf n with
        | none => acc
        | some code =>
          match acc with
          | none => some (n, code)
          | some (b, bc) =>
            if s.probeAge n < s.probeAge b then some (n, code) else some (b, bc)
      else acc) none
  let req : Option (RailN × Int) := match s.planner.requested with
    | some n => (s.probeCodeOf n).map (fun c => (n, c))
    | none => none
  match req, pickDue with
  | some (n, c), _ => s.startProbe n c
  | none, some (n, c) => s.startProbe n c
  | none, none => s
/-- PROBE_ABORT_ALL (R191, R193). -/
def execProbeAbortAll (s : State) : Out :=
  .next (((List.finRange 256).filter (fun n => decide ((s.rail n).mg.mode = .probe))).foldl
    (fun (s : State) n => s.endMargin n .abortedHost) s)
/-- PROBE_REQUEST (R190). -/
def execProbeRequest (n : RailN) (s : State) : Out :=
  .next { s with planner := { s.planner with rail := BitVec.ofNat 8 n.val, requested := some n } }
/-- PROBE_STEP_APPLY (R193): at sample 512 the code takes the step in one fine tick. -/
def execProbeStepApply (n : RailN) (s : State) : Out :=
  let m := (s.rail n).mg
  if m.mode = .probe && m.snapping && !m.stepped then
    .next (s.modRail n (fun r => { r with mg := { r.mg with
      code := r.mg.probeCode, target := r.mg.probeCode, stepped := true, stepAt := s.tickUs } }))
  else .next s
/-- The samples of a snapshot as a record carries them: two bytes each (R280). -/
def sampleBytes (l : List Int) : List Byte := l.flatMap (fun x => leBytes 2 (scode 16 x))
/-- PROBE_HOLD_END (R193, R195): PROBE_HOLD after the step the code returns to 0. A request of host software for the rail is met (R190). -/
def execProbeHoldEnd (n : RailN) (s : State) : Out :=
  let m := (s.rail n).mg
  if m.mode = .probe && m.stepped && !m.snapping then
    let s1 : State := (s.endMargin n .probeDone).modRail n (fun r => { r with mg := { r.mg with resultDue := true } })
    .next { s1 with planner := { s1.planner with
      requested := if s1.planner.requested = some n then none else s1.planner.requested } }
  else .next s

/-! ### Results and loop health (R197, R198) -/

/-- A probe's figures, values in units of 1/512 code. -/
structure ProbeFig where
  settle : Nat
  overshoot : Nat
  damping : Nat
  notSettled : Bool
deriving DecidableEq, Repr

/-- The peaks of the samples that lie beyond the final value: the extremes of the runs of consecutive samples on the far
side, in order. `l` holds the distances beyond. -/
def peaks : List Int → Int → List Int
  | [], cur => if 0 < cur then [cur] else []
  | x :: rest, cur =>
    if 0 < x then peaks rest (max cur x) else if 0 < cur then cur :: peaks rest 0 else peaks rest 0
/-- Thresholds 1-32 of `dampingOf`. -/
def dampThr0 : List Nat :=
  [18674514841653942145, 19138539038791273661, 19614126364277202855, 20101588377225552257, 20601246138028744580,
   21113430537821711913, 21638482640810274622, 22176754040024070578, 22728607227081054055, 23294415976578942290,
   23874565745758847842, 24469454090117782976, 25079491095679850276, 25705099828670839210, 26346716803377735286,
   27004792469013427024, 27679791716447783751, 28372194405709398927, 29082495915207782260, 29811207713673780675,
   30558857955866663817, 31325992103149784476, 32113173570093188981, 32920984398321189158, 33750025958885909862,
   34600919684514401228, 35474307833147273098, 36370854284261206009, 37291245369546369571, 38236190739593003259,
   39206424268329472569, 40202704997047310950]
/-- Thresholds 33-64 of `dampingOf`. -/
def dampThr1 : List Nat :=
  [41225818119947421493, 42276576013246091021, 43355819309990136273, 44464418022847756266, 45603272717265933733,
   46773315737516968569, 47975512488296426640, 49210862774682971827, 50480402203427778966, 51785203648708101422,
   53126378785656734129, 54505079695167261880, 55922500543674854965, 57379879341824765248, 58878499786166439480,
   60419693188251219924, 62004840495766930280, 63635374410614305905, 65312781609119359412, 67038605069883599524,
   68814446515101859215, 70641968971526755440, 72522899457631022721, 74459031803915779583, 76452229613735970650,
   78504429372465686525, 80617643713307856290, 82793964848567153542, 85035568175754252344, 87344716068476401209,
   89723761862696445368, 92175154049612939626]
/-- Thresholds 65-96 of `dampingOf`. -/
def dampThr2 : List Nat :=
  [94701440687131120154, 97305274042661773971, 99989415480806279422, 102756740610365424545, 105610244706051520826,
   108553048421292669117, 111588403809600061547, 114719700673129621217, 117950473258314278196,
   121284407319779472542, 124725347575189357189, 128277305575212571085, 131944468014452981649,
   135731205510971825603, 139642081883943405024, 143681863961048021571, 147855531949425248010,
   152168290406401119955, 156625579848778751182, 161233089042258909222, 165996768015552345846,
   170922841846977848387, 176017825274829485036, 181288538186565689892, 186742122045946100058,
   192386057321646157442, 198228181985643709395, 204276711154828280838, 210540257954867541201,
   217027855691415368765, 223748981420304219660, 230713581015477814109]
/-- Thresholds 97-128 of `dampingOf`. -/
def dampThr3 : List Nat :=
  [237932095841139656913, 245415491142974928164, 253175286282409797996, 261223586947771503816,
   269573119486979818169, 278237267518118806055, 287230110986998593303, 296566467854721368906,
   306261938613425780363, 316332953844922843324, 326796825054991251890, 337671799035822023600,
   348977116030659629161, 360733071998265350160, 372961085300635265150, 385683768165669579989,
   398925003307467230570, 412710026120893767381, 427065512904357675157, 442019675605682845096,
   457602363630975884788, 473845173305894981321, 490781565633222187968, 508446993050671244940,
   526879035959041607670, 546117549863843144545, 566204824054135092590, 587185752831411520158,
   609108020399894418978, 632022300638655949316, 655982473096811418953, 681045856686987732629]
/-- Thresholds 129-160 of `dampingOf`. -/
def dampThr4 : List Nat :=
  [707273462700938255872, 734730268936305055426, 763485516907112767020, 793613034314865112411,
   825191585184653187399, 858305250324362034612, 893043841048155780480, 929503349421654538716,
   967786438639822274849, 1008002977544384675649, 1050270623731085246243, 1094715460194538453676,
   1141472691017017930045, 1190687402235425723755, 1242515394727319272882, 1297124096753001478290,
   1354693564688682000554, 1415417581499828212567, 1479504863650434185049, 1547180388441949828255,
   1618686855246861898714, 1694286295771653713124, 1774261850381336378090, 1858919729676865014077,
   1948591382976939861874, 2043635898162801413358, 2144442660552103134878, 2251434302138168242213,
   2365069976736849036253, 2485849001410237503447, 2614314910084852397769, 2751059971669449300007]
/-- Thresholds 161-192 of `dampingOf`. -/
def dampThr5 : List Nat :=
  [2896730232342964451208, 3052031150189917188318, 3217733900202211030654, 3394682439071633301424,
   3583801432438077784492, 3786105162657504514242, 4002707553095556593439, 4234833465896751845368,
   4483831454674577494174, 4751188182273250068978, 5038544747458789724983, 5347715204058630500539,
   5680707602836081809347, 6039747941651349604358, 6427307474914299004489, 6846133911031047182377,
   7299287118993379757634, 7790180075521929996877, 8322625916009345706223, 8900892110539699865800,
   9529762976184441613100, 10214611965642756428093, 10961485448851780470339, 11777200039325884957617,
   12669455924287604797026, 13646969154156309333774, 14719626454074716048858, 15898666864889608354149,
   17196895437564788421137, 18628935336863447326525, 20211526112760993202061, 21963877642493399532946]
/-- Thresholds 193-224 of `dampingOf`. -/
def dampThr6 : List Nat :=
  [23908091423810868035793, 26069663628964526452970, 28478087762404766151176, 31167579102796624499840,
   34177948613256059806654, 37555661016792818984093, 41355120711924732980620, 45640240751373079599952,
   50486365033447882661000, 55982633248359308080614, 62234903450146151563522, 69369380388588022216058,
   77537141671102020933798, 86919812202736378580851, 97736715403147873064712, 110253934729281658053612,
   124795861323631889197392, 141759997742301703519491, 161636054540522648379600, 185030746057662087464710,
   212700207753860806611719, 245592684053158489150711, 284905167903901727022610, 332159153478267154345073,
   389302806890024479647561, 458849995883904113975648, 544071257992040259143650, 649258726719963621403086,
   780097545702396645803261, 944192424135867026815853, 1151823060226607397721963, 1417041719853722915150310]
/-- Thresholds 225-254 of `dampingOf`. -/
def dampThr7 : List Nat :=
  [1759289644948521938710243, 2205812213632496363869422, 2795323926020237761742400, 3583663388717471866569440,
   4652676749478746197567588, 6124445683463231295580833, 8184558502398954229887944, 11121049433449837892483227,
   15391193803042684510990893, 21739241503785050446139394, 31410217293889473522771588, 46551156957356699032390851,
   70992042561606387797702933, 111828687532075016436394107, 182780232502984925453648915,
   311684984766010097033101205, 558236990530392035424447013, 1058840970905755159128674573,
   2149109197309099322784608953, 4729802935773022180897604413, 11482422885311450782236413954,
   31455898376938801954368511623, 100291228477112220616499029503, 388594166431403266436331532902,
   1948362337447316960088499145358, 13906337139261004075014014777093, 164757908744786338802469748736430,
   4233456350401106891559326999732874, 396434378860896034610783824787610966,
   444615586737215902642198380090553334360]
/-- The ratios a1 ÷ a2 at which ζ of R197, in 1/256, rounds up to 1, 2, ... 254: e^(2πt ÷ √(1 − t²)) with t = (2k − 1) ÷ 512,
in 2⁻⁶⁴, rounded down. -/
def dampThresholds : List Nat := dampThr0 ++ dampThr1 ++ dampThr2 ++ dampThr3 ++ dampThr4 ++ dampThr5 ++ dampThr6 ++ dampThr7
/-- ζ of R197 in 1/256, rounded to nearest, of two peaks: the thresholds that a1 ÷ a2 reaches. -/
def dampingOf (a1 a2 : Int) : Nat := (dampThresholds.filter (fun t => (t : Int) * a2 ≤ a1 * 18446744073709551616)).length
/-- The figures of R197 of 4,096 samples. -/
def probeFigures (samples : List Int) : ProbeFig :=
  let init := (samples.take 512).foldl (· + ·) 0
  let fin := (samples.drop 3584).foldl (· + ·) 0
  let d : Int := (fin - init).natAbs
  let up := init ≤ fin
  let dev := samples.map (fun x => if up then 512 * x - fin else fin - 512 * x)
  let out (x : Int) : Bool := d < 10 * x.natAbs
  let last := (List.range 4096).foldl (fun a i => if 512 ≤ i && out (dev.getD i 0) then i else a) 512
  let beyond := (dev.drop 512).foldl max 0
  let counting := (peaks (dev.drop 512) 0).filter (fun x => d ≤ 20 * x)
  { settle := last - 512
    overshoot := if d = 0 then 255 else min 255 (100 * beyond / d).toNat
    damping := match counting with
      | a1 :: a2 :: _ => dampingOf a1 a2
      | _ => 0xFF
    notSettled := decide (3584 ≤ last) }
/-- Whether the measured gain differs from TRIM_GAIN by more than 20 % (R197): the mean of the clean results, in 1/256 µV,
less the initial value, over the code; none when no clean result fell in the second half. -/
def gainOff (c : CRail) (mg : Margin) : Option Bool :=
  if mg.holdCount = 0 || mg.probeCode = 0 then none
  else
    let init := (mg.samples.take 512).foldl (· + ·) 0
    let k : Int := mg.holdCount
    let num := mg.holdSum * 512 - c.volts init * k
    let den := mg.probeCode * k * 512 * 256
    let g : Rat := |(num * 1000 : Rat) / (den : Rat)|
    some (decide ((c.trimGain : Rat) / 5 < |g - c.trimGain|))
/-- HEALTH of R198: 100 × ζ ÷ ζ0, a damping of 0xFF counting as ζ = 1.0. -/
def healthOf (damping zetaSum : Nat) : Nat :=
  let z := if damping = 0xFF then 256 else damping
  if zetaSum = 0 then 255 else min 255 (100 * z * 8 / zetaSum)
/-- The kept results of a rail after a completed probe (R197, R198). -/
def RailKept.result (k : RailKept) (f : ProbeFig) (mismatch : Bool) (opNs : Nat) : RailKept :=
  if f.notSettled then { k with notSettled := true }
  else
    let z := if f.damping = 0xFF then 256 else f.damping
    let base := k.baseCount < 8
    let n := if base then k.baseCount + 1 else k.baseCount
    let sum := if base then k.zetaSum + z else k.zetaSum
    { k with
      settle := f.settle, overshoot := f.overshoot, damping := f.damping, valid := true, notSettled := false
      gainMismatch := mismatch, baseCount := n, zetaSum := sum, lastValidNs := some opNs
      health := if base then 0 else healthOf f.damping sum, healthSet := !base }
/-- The result of a completed probe of rail `n` (R193, R197, R198); without a clean result in the second half of PROBE_HOLD
the spec gives no gain, and GAIN_MISMATCH is a free value. -/
def State.probeResult (s : State) (n : RailN) : State :=
  match s.railCfg n, s.modCfg with
  | some c, some m =>
    let mg := (s.rail n).mg
    let f := probeFigures mg.samples
    let g := gainOff c mg
    let mismatch := match g with | some b => b | none => freeNat s.free % 2 = 1
    let s0 : State := if g.isNone then s.tickFree else s
    let old := s0.nv.cur.rail[n]
    let new := old.result f mismatch s0.nv.cur.opNs
    let s1 : State := (s0.modRail n (fun r => { r with mg := { r.mg with resultDue := false, samples := [] } })).nvWrite 32
      (fun d => { d with rail := tset d.rail n new })
    let s2 : State := if f.notSettled then s1
      else { s1 with planner := { s1.planner with validCount := (s1.planner.validCount + 1) % 32768 } }
    let wasLow := old.healthSet && old.health < m.healthWarn
    if !f.notSettled && new.healthSet && new.health < m.healthWarn && !wasLow then
      (s2.raise 24 n).laterFault (some 24) none "LOOP_HEALTH_LOW" [n.val, new.health]
    else s2
  | _, _ => s
/-- The results due at the first HOUSEKEEP after a return (R193, R197). -/
def State.probeResults (s : State) : State :=
  ((List.finRange 256).filter (fun n => (s.rail n).mg.resultDue && (s.rail n).mg.mode = .none)).foldl State.probeResult s

end Sys2Proof.Machine
end

