-- ==== Sys2Proof/Machine/Scan.lean ====
section
/-!
DEFINITION. Scan converters, digital windows, calibration, snapshots and the sampled comparators (R200-R227, R239, R240).
-/
namespace Sys2Proof.Machine
open Sys2Proof

/-! ### Lists and windows (R208-R216) -/

/-- The partner of converter `c` (R200). -/
def partner (c : ConvN) : ConvN := if c.val % 2 = 0 then c + 1 else c - 1
/-- The built-in entry `k` of converter `c` (R216). -/
def builtInEntry (c : ConvN) (k : Nat) : CScanEntry :=
  { input := 0x300#10 + BitVec.ofNat 10 (4 * c.val + k), winEn := false, currentMode := false, winLo := 0, winHi := 0 }
/-- The list in force of converter `c` (R216, R226). -/
def State.listOf (s : State) (c : ConvN) : List CScanEntry :=
  if s.scan.conv[c].st = .builtIn then (List.range 4).map (builtInEntry c)
  else match s.cfg.scan[c] with
  | some l => l.entries
  | none => []
/-- Result register of entry `pos` of converter `c` (R208). -/
def resIndex (c : ConvN) (pos : Nat) : Fin 1024 := Fin.ofNat 1024 (64 * c.val + pos % 64)
/-- Whether a clean result lies outside the digital window of its entry (R214): the effective warning window or the margin
window for SENSE, the OC limit in force for IMON, the key's limits for the rest. -/
def State.outside (s : State) (e : CScanEntry) (code : Int) : Bool :=
  let n : RailN := Fin.ofNat 256 (e.input.toNat % 256)
  if e.input.toNat < 256 then
    match s.railCfg n with
    | some c =>
      let r := s.rail n
      if r.st = .up then decide (c.volts code < 256 * r.effLo) || decide (256 * r.effHi < c.volts code)
      else if r.st = .margin then
        (match s.modCfg with | some m => !inMarginWindow m c (c.volts code) | none => false)
      else false
    | none => false
  else if e.input.toNat < 512 then
    match s.railCfg n with
    | some c => c.ocUsed && (match ocLimit c (s.rail n).st with | some lim => overLimit c code lim | none => false)
    | none => false
  else e.winEn && (decide (code < e.winLo) || decide (e.winHi < code))
/-- The source of a digital window's event, where the window has an owner and the rail logic does not raise it itself
(R214, R248). -/
def State.winSource (s : State) (e : CScanEntry) : Option Nat :=
  let k := e.input.toNat % 256
  if e.input.toNat < 256 then
    if s.railUsed (Fin.ofNat 256 k) && (s.rail (Fin.ofNat 256 k)).st = .margin then some (32 + k) else none
  else if e.input.toNat < 512 then if s.railUsed (Fin.ofNat 256 k) then some (32 + k) else none
  else if e.input.toNat < 768 then some (288 + k % 64) else some (512 + k % 64)
/-- A result written into its register with its history (R204, R211-R215). `x` is the code before saturation. -/
def ResReg.write (g : ResReg) (e : CScanEntry) (x : Int) (overPrev covered : Bool) (out : Bool) (stamp : BitVec 16) :
    ResReg :=
  let ovr := decide (x < -32768) || decide (32767 < x)
  let settling := decide (0 < g.settle)
  let recovering := !ovr && overPrev
  let clean := !ovr && !settling && !recovering
  let r : Res := {
    value := max (-32768) (min 32767 x), ovr := ovr, settling := settling, recovering := recovering
    windowOut := if clean then out else g.res.windowOut, input := e.input, covered := covered, stamp := stamp }
  { g with res := r, hist := (r :: g.hist).take 4, settle := g.settle - 1 }
/-- A result is clean (R119, R211). -/
def Res.clean (r : Res) : Bool := !r.ovr && !r.settling && !r.recovering

/-! ### Converter changes at a slot boundary -/

/-- Every entry of converter `c`'s own list is due at least `k` SETTLING results (R213). -/
def State.settleAll (s : State) (c : ConvN) (k : Nat) : State :=
  (List.range (s.listOf c).length).foldl (fun (s : State) p =>
    { s with scan := { s.scan with res := tmod s.scan.res (resIndex c p) (fun g => { g with settle := max k g.settle }) } }) s
/-- The states of R217 in which calibrations and converter commands act. -/
def ModSt.calibrates : ModSt → Bool
  | .sequence | .run | .runDown | .safeHold | .unprovisioned => true
  | _ => false
/-- Converter `c` leaves its list, and its partner covers it from its next slot on if it scans itself (R216, R218); a probe of a
rail that is at home on it ends CONVERTER (R191). -/
def State.leaveList (s : State) (c : ConvN) (st : ConvState) : State :=
  let s1 : State := ((List.finRange 256).filter (fun n => decide ((s.rail n).mg.mode = .probe) && s.homeConv n == some c)).foldl
    (fun (s : State) n => s.endMargin n .converter) s
  (s1.modConv c (fun x => { x with st := st, covering := false, cur := none, joinDue := false, leaveDue := none })).modConv
    (partner c) (fun x => { x with covering := match x.st with
      | .scanning | .rejoining => true
      | _ => false })
/-- What is due at a slot boundary of converter `c` (R217): an accepted OUT or CALIBRATE, or a calibration whose conditions hold. -/
def State.leaveNow (s : State) (c : ConvN) : State :=
  let x := s.scan.conv[c]
  let p := s.scan.conv[partner c]
  if x.st = .scanning && p.st = .scanning then
    match x.leaveDue with
    | some st => s.leaveList c st
    | none =>
      if x.calDue && !p.covering && !x.covering && !x.burst && x.probe.isNone && s.g.st.calibrates then
        (s.modConv c (fun y => { y with calDue := false })).leaveList c .calibrating
      else s
  else s.modConv c (fun y => { y with leaveDue := none })
/-- A list that has landed on converter `o` begins at entry 1, with the SETTLING results of its entries (R209, R213). -/
def State.restartList (s : State) (o : ConvN) : State :=
  let x := s.scan.conv[o]
  if x.listDue then
    x.settleDue.foldl (fun (s : State) e =>
      { s with scan := { s.scan with res := tmod s.scan.res (resIndex o e.1) (fun g => { g with settle := max e.2 g.settle }) } })
      (s.modConv o (fun y => { y with listDue := false, settleDue := [], pos := 0, pass := y.pass + 1, passAt := s.now }))
  else s
/-- Converter `c` takes the power mode that is asked of it (R207, R213): 14 and 15 run at full rate while the meter runs. -/
def State.powerMode (s : State) (c : ConvN) : State :=
  let x := s.scan.conv[c]
  let low := x.wantLow && !(s.metering && 14 ≤ c.val)
  if low = x.lowPower then s
  else
    let s1 : State := (s.modConv c (fun y => { y with lowPower := low })).settleAll c 1
    if x.covering then s1.settleAll (partner c) 1 else s1
/-- The slot of entry `pos` of a list begins on converter `c`. -/
def State.beginSlot (s : State) (c : ConvN) (own : Bool) : State :=
  let o := if own then c else partner c
  let pos := s.scan.conv[o].pos
  s.modConv c (fun y => { y with cur := ((s.listOf o)[pos]?).map (fun e => { own := own, pos := pos, entry := e }) })
/-- A rejoining converter takes up its own list at its partner's slot boundary, and the partner stops covering (R220). -/
def State.join (s : State) (c : ConvN) : State :=
  if s.scan.conv[c].joinDue then
    let s1 : State := ((s.modConv (partner c) (fun y => { y with covering := false })).restartList c).settleAll c 1
    (s1.modConv c (fun y => { y with joinDue := false, rejoinLeft := (s1.listOf c).length, overPrev := false })).beginSlot c true
  else s
/-- A slot boundary of converter `c` (R207, R209, R217-R220): what waits for it takes place, then the next slot begins; a covering
converter's slots are its own and its partner's in turn. -/
def State.boundary (s : State) (c : ConvN) : State :=
  let ownWas := match s.scan.conv[c].cur with | some k => k.own | none => false
  let s1 : State := s.leaveNow c
  match s1.scan.conv[c].st with
  | .calibrating | .out | .failed => s1
  | _ =>
    let s2 : State := ((s1.join (partner c)).restartList c).powerMode c
    if s2.scan.conv[c].covering && ownWas then (s2.restartList (partner c)).beginSlot c false else s2.beginSlot c true
/-- The slot that a burst or a probe snapshot aborted is run again (R221, R227): under the list and the power mode that have come due. -/
def State.reRun (s : State) (c : ConvN) : State :=
  match s.scan.conv[c].cur with
  | none => s
  | some k =>
    let o := if k.own then c else partner c
    let s1 : State := s.powerMode c
    if s1.scan.conv[o].listDue then (s1.restartList o).beginSlot c k.own else s1
/-- The list of `o` advances after a slot run by `c`; a whole pass ends REJOINING of `o` (R205, R216, R220). A landed list that waits for
its first slot does not advance. -/
def State.advance (s : State) (c o : ConvN) (ovr : Bool) : State :=
  let n := (s.listOf o).length
  let x := s.scan.conv[o]
  let wrap := n ≤ x.pos + 1
  let s1 : State := if x.listDue then s else s.modConv o (fun y => { y with
    pos := if wrap then 0 else y.pos + 1
    pass := if wrap then y.pass + 1 else y.pass
    passAt := if wrap then s.now else y.passAt
    scanTime := if wrap && c = o then min 65535 ((s.now - y.passAt) / 10) else y.scanTime })
  let s2 : State := s1.modConv c (fun y => { y with
    overPrev := ovr, rejoinLeft := if c = o then y.rejoinLeft - 1 else y.rejoinLeft })
  if c = o && x.st = .rejoining && x.rejoinLeft ≤ 1 then
    (s2.modConv c (fun y => { y with st := .scanning, rejoinLeft := 0 })).raise 23 c.val
  else s2
/-- The rail logic's judgement of a clean SENSE or IMON result (R117-R128). -/
def State.railResult (s : State) (e : CScanEntry) (r : Res) (pass : Nat) : State :=
  let n : RailN := Fin.ofNat 256 (e.input.toNat % 256)
  match s.railCfg n with
  | none => s
  | some c =>
    if !c.used || !r.clean then s
    else if e.input.toNat < 256 then s.senseClean n c (c.volts r.value) pass
    else if e.input.toNat < 512 then s.imonClean n c r.value
    else s
/-- Whether converter `c` runs no slot: out, failed, calibrating, waiting to rejoin, unpowered, or taken by a burst or probe snapshot. -/
def State.noSlot (s : State) (c : ConvN) : Bool :=
  let v := s.scan.conv[c]
  v.burst || v.probe.isSome || v.joinDue || !s.scanPowered || (match v.st with
    | .calibrating | .out | .failed => true
    | _ => false)
/-- The slot that converter `c` runs; before its first boundary after START, the first of its built-in list (R216). -/
def State.slotNow (s : State) (c : ConvN) : Option Slot :=
  match s.scan.conv[c].cur with
  | some k => some k
  | none => ((s.listOf c)[s.scan.conv[c].pos]?).map (fun e => { own := true, pos := s.scan.conv[c].pos, entry := e })
/-- The age stamp of a slot that ends now: the module time at its last conversion, in whole µs (R204, R207). -/
def State.ageStamp (s : State) (lowPower : Bool) : BitVec 16 := BitVec.ofNat 16 ((s.now - if lowPower then 200 else 50) / 1000)
/-- SCAN_SLOT_END (R203-R220): the slot of converter `c` ends with the code `x` of its entry, before saturation. A
converter that is out, failed, calibrating or taken by a burst or probe snapshot has no slot. -/
def execScanSlotEnd (c : ConvN) (x : Int) (s : State) : Out :=
  let v := s.scan.conv[c]
  if s.noSlot c then .next s
  else
    match s.slotNow c with
    | none => .next (s.boundary c)
    | some k =>
      let o := if k.own then c else partner c
      let i := resIndex o k.pos
      let old := s.scan.res[i]
      let g := old.write k.entry x v.overPrev (!k.own) (s.outside k.entry x) (s.ageStamp v.lowPower)
      let s1 : State := { s with scan := { s.scan with res := tset s.scan.res i g } }
      let s2 : State := match s1.winSource k.entry with
        | some src => if g.res.clean && g.res.windowOut && !old.res.windowOut then s1.raise src 32 else s1
        | none => s1
      let s3 : State := (s2.railResult k.entry g.res s.scan.conv[o].pass).advance c o g.res.ovr
      .next (s3.boundary c).settle

/-! ### Calibration and converter commands (R216, R217, R227) -/

/-- CALIBRATION_DUE (R217): the calibration starts at the first slot boundary at which its conditions hold. -/
def execCalibrationDue (c : ConvN) (s : State) : Out := .next (s.modConv c (fun x => { x with calDue := true }))
/-- CAL_OVERDUE (R217): the calibration has waited CAL_INTERVAL beyond its due time. -/
def execCalOverdue (c : ConvN) (s : State) : Out :=
  if s.scan.conv[c].calDue && !s.scan.conv[c].overdue then
    .next ((s.modConv c (fun x => { x with overdue := true })).raise 23 c.val)
  else .next s
/-- Converter `c` fails (R216). -/
def State.convFail (s : State) (c : ConvN) : State :=
  ((s.modConv c (fun x => { x with st := .failed, failSeen := true })).raise 23 c.val).setDegraded true
/-- CALIBRATION_DONE (R216, R220): corrections in ppm and 1/16 code, and whether each agrees with two references. A pass meets a
calibration that was due, and the converter rejoins at its partner's next slot boundary. -/
def execCalibrationDone (c : ConvN) (gain offset : Int) (agree : Bool) (s : State) : Out :=
  if s.scan.conv[c].st ≠ .calibrating then .next s
  else if gain.natAbs ≤ 2000 && offset.natAbs ≤ 256 && agree && !s.age.refDisagree then
    let s1 : State := s.modConv c (fun x => { x with
      st := .rejoining, joinDue := true, calCount := satInc 65535 x.calCount, overdue := false, calDue := false })
    let s2 : State := if s1.scan.conv[partner c].covering then s1 else s1.join c
    .next (s2.nvWrite 8 (fun d => { d with
      cal := tset d.cal c { offset := offset, gain := gain, at_ := d.opNs / 60000000000 } }))
  else .next (s.convFail c)
/-- The answer in SCN_CONV_CMD. -/
def State.convAnswer (s : State) (c : ConvN) (a : Ans) : State := s.modConv c (fun x => { x with cmdAns := a })
/-- Whether OUT or CALIBRATE finds the partner of `c` not SCANNING, or bound to leave at its own next slot boundary (R227). -/
def State.partnerAway (s : State) (c : ConvN) : Bool :=
  s.scan.conv[partner c].st != .scanning || s.scan.conv[partner c].leaveDue.isSome
/-- CONVERTER_OUT (R216, R227): accepted, it acts at the next slot boundary. -/
def execConverterOut (c : ConvN) (s : State) : Out :=
  let x := s.scan.conv[c]
  if !s.g.st.calibrates then .next (s.convAnswer c .refusedState)
  else match x.st with
  | .scanning =>
    if s.partnerAway c then .next (s.convAnswer c .refusedPartner)
    else .next ((s.convAnswer c .accepted).modConv c (fun y => { y with leaveDue := some .out }))
  | .out => .next (s.convAnswer c .noChange)
  | _ => .next (s.convAnswer c .refusedState)
/-- CONVERTER_IN (R216): calibration precedes every return. -/
def execConverterIn (c : ConvN) (s : State) : Out :=
  if !s.g.st.calibrates then .next (s.convAnswer c .refusedState)
  else match s.scan.conv[c].st with
  | .out => .next ((s.convAnswer c .accepted).modConv c (fun x => { x with st := .calibrating }))
  | .scanning => .next (s.convAnswer c .noChange)
  | _ => .next (s.convAnswer c .refusedState)
/-- CONVERTER_CALIBRATE (R216, R227): accepted, it acts at the next slot boundary. -/
def execConverterCalibrate (c : ConvN) (s : State) : Out :=
  let x := s.scan.conv[c]
  if !s.g.st.calibrates then .next (s.convAnswer c .refusedState)
  else match x.st with
  | .scanning =>
    if s.partnerAway c then .next (s.convAnswer c .refusedPartner)
    else if x.burst then .next (s.convAnswer c .refusedBusy)
    else .next ((s.convAnswer c .accepted).modConv c (fun y => { y with leaveDue := some .calibrating }))
  | .calibrating => .next (s.convAnswer c .noChange)
  | _ => .next (s.convAnswer c .refusedState)

/-! ### Snapshots (R221-R224, R278) -/

/-- SNAPSHOT_TRIGGER_CMD (R221): a common trigger that never freezes the Inclusion record. -/
def execSnapshotTriggerCmd (s : State) : Out :=
  if s.scan.burst then .next { s with scan := { s.scan with snapAns := .refusedBusy } }
  else if s.scanPowered then .next ({ s with scan := { s.scan with snapAns := .accepted } }.snapTrigger)
  else .next s
/-- The samples of one snapshot of a burst: a sample skipped for a meter slot reads 0x8000 and counts in GAPS, a saturated
one counts in OVR_COUNT. -/
def Snap.fill (b : Snap) (l : List (Option Int)) : Snap :=
  if b.absent then b
  else { b with
    samples := l.map (fun x => match x with | some v => max (-32768) (min 32767 v) | none => -32768)
    ovrCount := min 255 ((l.filter (fun x => match x with | some v => decide (v < -32768) || decide (32767 < v) | none => false)).length)
    gaps := min 255 ((l.filter Option.isNone).length) }
/-- SNAPSHOT_BURST_END (R221-R224, R278, R425): the samples of the 16 snapshots are complete; a capturing record takes the
buffer and its commit begins. -/
def execSnapshotBurstEnd (samples : List (List (Option Int))) (s : State) : Out :=
  if samples.length ≠ 16 then .refused .illFormed
  else if !s.scan.burst then .next s
  else
    let cur := s.scan.cur
    let fill (b : SnapBuf) : SnapBuf := { b with
      snaps := Vector.ofFn (fun c : Fin 16 => b.snaps[c].fill (samples.getD c.val [])) }
    let buf := tmod s.scan.buf cur fill
    let taken := (List.finRange 16).filter (fun c : ConvN => s.scan.conv[c].burst)
    let s0 : State := { s with scan := { s.scan with
      burst := false, lastBuf := cur, buf := buf, conv := tmap (fun c : Conv => { c with burst := false }) s.scan.conv } }
    let s1 : State := (taken.foldl State.reRun s0).raise 22
    let s2 : State := match s1.inc.st, s1.inc.cap with
      | .capturing, some r => { s1 with inc := { s1.inc with st := .commitA, cap := some { r with buf := buf[cur] } } }
      | _, _ => s1
    .next (s2.waveRecord 0x03 ((buf[cur]).snaps.toList.flatMap (fun b => sampleBytes b.samples)))
/-- PROBE_SNAPSHOT_END (R193, R221, R224, R425): the 4,096 samples are complete in the probe buffer of the converter, which runs its
aborted slot again. -/
def execProbeSnapshotEnd (n : RailN) (samples : List (Option Int)) (s : State) : Out :=
  if samples.length ≠ 4096 then .refused .illFormed
  else if (s.rail n).mg.mode = .probe && (s.rail n).mg.snapping then
    match s.homeConv n with
    | none => .next s
    | some cv =>
      let b : Snap := (s.scan.probeBuf[cv]).fill samples
      let s1 : State := s.modRail n (fun r => { r with mg := { r.mg with snapping := false, samples := b.samples } })
      let s2 : State := ({ s1 with scan := { s1.scan with probeBuf := tset s1.scan.probeBuf cv b } }).modConv cv (fun c =>
        { c with probe := if c.probe = some n then none else c.probe })
      .next ((s2.reRun cv).waveRecord 0x04 (sampleBytes b.samples))
  else .next s
/-- SCN_RES_READ (R204, R361): the read captures the age stamp. -/
def execScnResRead (r : Fin 1024) (s : State) : Out :=
  .next { s with scan := { s.scan with res := tmod s.scan.res r (fun g => { g with age := g.res.stamp }) } }

/-! ### Sampled comparators (R239, R240) -/

/-- The threshold of Sj and its return point, with the direction: S0-S5 in mV, S6-S15 in threshold steps times the span,
of a level (level − base) × 1,024 (R229, R239, R240). -/
structure SmpThr where
  rising : Bool
  thr : Int
  back : Int
  count : Nat
  wake : Bool
deriving DecidableEq, Repr

/-- The thresholds of Sj in force; none is off. A fall of the bank to the reserve threshold itself is a crossing of S1 (R77). -/
def State.smpThr (s : State) (j : Fin 16) : Option SmpThr :=
  match j.val with
  | 0 => some ⟨false, 144000, 152000, 1, false⟩
  | 1 => some ⟨false, s.nv.cur.reserveMv * 1000 + 1, s.nv.cur.reserveMv * 1010, 1, false⟩
  | 2 => some ⟨false, s.fac.girdleMv * 1000, s.fac.girdleMv * 1010, 1, false⟩
  | 3 => some ⟨false, 2600000, 2626000, 1, false⟩
  | 4 => some ⟨true, 1500000, 1485000, 1, false⟩
  | 5 => some ⟨false, 10000000, 10100000, 1, false⟩
  | _ => match s.smpRec j with
    | some r =>
      if !r.used then none
      else
        let sp := (s.cmpSpan (Fin.ofNat 320 (256 + r.point.val))).2
        let h := hystSteps r.hyst
        some ⟨r.rising, r.thresh * sp, (if r.rising then (r.thresh : Int) - h else r.thresh + h) * sp, r.count, r.wake⟩
    | none => none
/-- The level of Sj in the unit of its threshold: mV × 1,000 for S1-S5, mV × 10 for S0, and (level − base) × 1,024 of a
level in µV or nA for S6-S15. -/
def State.smpLevel (s : State) (j : Fin 16) (x : Int) : Int :=
  if j.val = 0 then x * 10
  else if j.val < 6 then x * 1000
  else match s.smpRec j with
    | some r => (x - (s.cmpSpan (Fin.ofNat 320 (256 + r.point.val))).1) * 1024
    | none => x
/-- One sampling of one comparator: the new state, and whether a crossing is declared or ends. -/
def Smp.sample (a : Smp) (t : SmpThr) (x : Int) : Smp × Bool × Bool :=
  let isBeyond := if t.rising then decide (t.thr < x) else decide (x < t.thr)
  let isBack := if t.rising then decide (x ≤ t.back) else decide (t.back ≤ x)
  if a.beyond then
    let k := if isBack then a.backRun + 1 else 0
    if isBack && t.count ≤ k then ({ a with beyond := false, backRun := 0, beyondRun := 0 }, false, true)
    else ({ a with backRun := k, beyondRun := a.beyondRun + 1 }, false, false)
  else
    let k := if isBeyond then a.beyondRun + 1 else 0
    if isBeyond && t.count ≤ k then
      ({ a with beyond := true, edge := true, crossings := satInc 65535 a.crossings, beyondRun := k, backRun := 0 }, true, false)
    else ({ a with beyondRun := k }, false, false)
/-- Sampling period in µs (R241). -/
def State.smpPeriod (s : State) : Nat := match s.cfg.trip with | some t => t.smpPeriod | none => 50
/-- The classification of VIN by S0 in STABLED and LAST_GASP, and its cross-check elsewhere (R59, R239). `backRun` of S0
counts the samplings of disagreement. -/
def State.s0Effect (s : State) : State :=
  let a := s.trip.smp[(0 : Fin 16)]
  match s.g.st with
  | .stabled | .lastGasp =>
    let lost := a.beyond && decide (10000 ≤ a.beyondRun * s.smpPeriod)
    let bridged := !s.sup.present && !a.beyond && !s.sup.lossDeclared
    let s1 : State := { s with sup := { s.sup with
      present := !a.beyond, lossDeclared := lost, lossSeen := s.sup.lossSeen || lost
      interruptionSeen := s.sup.interruptionSeen || bridged } }
    if lost && s.g.st = .stabled then s1.enterOff else s1
  | _ =>
    if a.beyond = s.sup.present then
      let k := a.backRun + 1
      let s1 : State := { s with trip := { s.trip with smp := tset s.trip.smp 0 { a with backRun := k } } }
      if 1000 < k * s.smpPeriod && !s.sup.monitorDisagree then
        ({ s1 with sup := { s1.sup with monitorDisagree := true } }).raise 10
      else s1
    else { s with
      trip := { s.trip with smp := tset s.trip.smp 0 { a with backRun := 0 } }
      sup := { s.sup with monitorDisagree := false } }
/-- What a declared crossing of Sj does (R77, R85, R239, R495). -/
def State.smpDeclared (s : State) (j : Fin 16) (t : SmpThr) : State :=
  let s1 : State := s.raise (360 + j.val)
  match j.val with
  | 0 => s1
  | 1 =>
    if s1.sup.present then s1
    else match s1.g.st with
    | .off | .stabled | .lastGasp => s1
    | _ => s1.enterLastGasp
  | 2 => { s1 with sec := { s1.sec with supplyLow := true } }.raise 25
  | 3 => { s1 with sec := { s1.sec with cellLow := true } }.raise 25
  | 4 => if s1.g.st = .stabled && s1.sup.pfwAssertedInStabled && s1.pfwUsed then s1.wakeUp 5 else s1
  | 5 => if s1.g.st = .stabled then s1.wakeUp 4 else s1
  | _ => if t.wake then s1.wakeUp 1 else s1
/-- What the end of a crossing of Sj does: in STABLED an enabled PFW_N is asserted when S4 falls back, which is logged (R85, R86). -/
def State.smpEnded (s : State) (j : Fin 16) : State :=
  match j.val with
  | 2 => { s with sec := { s.sec with supplyLow := false } }
  | 3 => { s with sec := { s.sec with cellLow := false } }
  | 4 =>
    if s.g.st = .stabled && s.pfwUsed then
      { s with sup := { s.sup with pfwAssertedInStabled := true } }.juridical "PFW_ASSERT"
    else s
  | _ => s
/-- One sampling of Sj. -/
def State.sampleOne (s : State) (j : Fin 16) (x : Int) : State :=
  match s.smpThr j with
  | none => s
  | some t =>
    let r := (s.trip.smp[j]).sample t (s.smpLevel j x)
    let keep : Smp := if j.val = 0 then { r.1 with backRun := (s.trip.smp[j]).backRun } else r.1
    let s1 : State := { s with trip := { s.trip with smp := tset s.trip.smp j keep } }
    if r.2.1 then s1.smpDeclared j t else if r.2.2 then s1.smpEnded j else s1
/-- SAMPLED_SAMPLING (R239, R240): the 16 levels of one sampling, S0-S5 in mV, S6-S15 in µV or nA. S0 is judged first: in STABLED a
loss of the module supply wins over a wake of the same sampling (R85). -/
def execSampledSampling (levels : List Int) (s : State) : Out :=
  if levels.length ≠ 16 then .refused .illFormed
  else if s.g.st = .off then .next s
  else
    let one (s : State) (p : Fin 16 × Int) : State := if s.g.st = .off then s else s.sampleOne p.1 p.2
    let all := (List.finRange 16).zip levels
    let s1 : State := ((all.take 1).foldl one s).s0Effect
    .next ((all.drop 1).foldl one s1)

end Sys2Proof.Machine
end

