-- ==== Sys2Proof/Machine/Events.lean ====
section
/-!
DEFINITION. Meanings: the interrupt controller's registers, hold-offs and alert inputs (R246-R261, R467).
-/
namespace Sys2Proof.Machine
open Sys2Proof

/-- The event router changed by `f`. -/
def State.modEvt (s : State) (f : Evt → Evt) : State := { s with evt := f s.evt }
/-- A source with no owner in the source map (R248). -/
def reservedSource (n : Nat) : Bool :=
  (decide (600 ≤ n) && decide (n ≤ 607)) || (decide (626 ≤ n) && decide (n ≤ 639)) ||
    (decide (724 ≤ n) && decide (n ≤ 735))

/-! ### Claim, complete, and the controller's registers (R249-R255) -/

/-- EVT_CLAIM (R253): the read of EVT_TGT_CLAIM moves the stamp to the time pair and marks the assignment claimed; NONE
changes nothing. -/
def execEvtClaim (t : TgtN) (s : State) : Out :=
  match s.evt.tgt[t].source with
  | none => .next s
  | some _ => .next (s.modEvt (fun e => { e with
      tgt := tmod e.tgt t (fun x => { x with claimed := true, time := dw x.stamp }) }))
/-- EVT_COMPLETE (R249, R253): the assigned source returns to IDLE and the target is free; another number is ignored. -/
def execEvtComplete (t : TgtN) (src : BitVec 10) (s : State) : Out :=
  if s.evt.tgt[t].source = some src.toNat then
    .next (s.modEvt (fun e =>
      let e1 : Evt := { e.completed src.toNat s.stamp with tgt := tmod e.tgt t (fun x => { x with source := none, claimed := false }) }
      e1.passIf (e1.gained e || (e1.find src.toNat).isSome)))
  else .next (s.modEvt (fun e => { e with tgt := tmod e.tgt t (fun x => { x with completeErr := true }) }))
/-- EVT_PEND_WRITE (R255): bits written 0 discard PENDING sources, then bits written 1 make IDLE ones PENDING as events
stamped at the write; a reserved source's event has no effect (R246). -/
def execEvtPendWrite (g : Fin 32) (w : Word) (s : State) : Out :=
  let discard (e : Evt) (i : Fin 32) : Evt :=
    match e.find (32 * g.val + i.val) with
    | some ⟨false, _⟩ => if w.getLsbD i.val then e else { e with srcs := srcsDrop (32 * g.val + i.val) e.srcs }
    | _ => e
  let up (s : State) (i : Fin 32) : State :=
    let n := 32 * g.val + i.val
    if w.getLsbD i.val && (s.evt.find n).isNone && !reservedSource n then s.raise n else s
  let s1 : State := s.modEvt (fun e => (List.finRange 32).foldl discard e)
  .next ((List.finRange 32).foldl up s1)
/-- EVT_MASK_WRITE (R250, R252, R255): a pass runs where the write unmasks a source. -/
def execEvtMaskWrite (g : Fin 32) (w : Word) (s : State) : Out :=
  .next (s.modEvt (fun e => ({ e with mask := tset e.mask g w }).passIf (e.mask[g] &&& ~~~w != 0)))
/-- EVT_PRIO_WRITE (R251, R252): a pass runs where the target becomes eligible. -/
def execEvtPrioWrite (t : TgtN) (prio : BitVec 8) (s : State) : Out :=
  .next (s.modEvt (fun e =>
    let e1 : Evt := { e with tgt := tmod e.tgt t (fun x => { x with prio := prio }) }
    e1.passIf (e1.gained e)))
/-- HOLDOFF_END (R254): the group is free and a pass runs. -/
def execHoldoffEnd (g : Fin 32) (s : State) : Out :=
  .next (s.modEvt (fun e => ({ e with barred := e.barred &&& ~~~(1#32 <<< g.val) }).passIf (e.barred.getLsbD g.val)))
/-- MSIX_MASK_CHANGE (R251, R252, R467): MSI-X enable, function mask and the masks of the 64 vectors; a pass runs where a target becomes
eligible. -/
def execMsixMaskChange (en fnMask : Bool) (vecMask : BitVec 64) (s : State) : Out :=
  .next (s.modEvt (fun e =>
    let e1 : Evt := { e with msixEn := en, fnMask := fnMask, vecMask := vecMask }
    e1.passIf (e1.gained e)))
/-- Retraining of the host link (R260): every source assigned and not yet claimed returns to PENDING. -/
def Evt.retrain (e : Evt) : Evt :=
  let back (e : Evt) (t : TgtN) : Evt :=
    match e.tgt[t].source with
    | some n => if e.tgt[t].claimed then e else { e with
        srcs := srcsPut n ⟨false, e.tgt[t].stamp⟩ e.srcs
        tgt := tmod e.tgt t (fun x => { x with source := none }) }
    | none => e
  ((List.finRange 64).foldl back e).arbitrate
/-- A routing set written (R252, R261): the next pass uses it; the write itself runs none. -/
def Evt.setRoute (e : Evt) (n : Fin 1024) (r : BitVec 64) : Evt := { e with route := tset e.route n r }

/-! ### Alert inputs (R256, R257) -/

/-- The EVENT section whose FILTER and polarity the latches use: that in force, else that of the last LOAD (R257). -/
def State.alertCfg (s : State) : Option CEvent := match s.cfg.event with | some e => some e | none => s.prev.event
/-- The record of alert input `i`, when it is used (R56, R256). -/
def State.alertRec (s : State) (i : Fin 8) : Option CAlert :=
  match s.alertCfg with
  | some e => (match e.alert[i.val]? with | some a => if a.used then some a else none | none => none)
  | none => none
/-- Whether the router judges alert inputs now (R257): it runs, and EVENT settings of a LOAD are in force. -/
def State.judgesAlerts (s : State) : Bool := s.routerRuns && s.g.loadOk
/-- Alert input `i` changed by `f`. -/
def State.modAlert (s : State) (i : Fin 8) (f : AlertSt → AlertSt) : State :=
  s.modEvt (fun e => { e with alert := tmod e.alert i f })
/-- The latch of an alert input holds its first accepted change of each direction of the contact (R257). -/
def AlertSt.latch (a : AlertSt) (high : Bool) (now : Ns) : AlertSt :=
  if a.raw = high then a
  else if high then { a with raw := true, latchRise := some (a.latchRise.getD now) }
  else { a with raw := false, latchFall := some (a.latchFall.getD now) }
/-- Whether a contact level is asserted by the polarity of its record (R49, R256). -/
def alertAsserts (a : CAlert) (high : Bool) : Bool := high == a.pol
/-- ALERT_ACCEPTED (R49, R256, R257): the contact of alert input `i` has stood at a level for FILTER fine ticks. What it means is
taken with the polarity in force, so that after a landing that turns POL the same contact level is a new level. -/
def execAlertAccepted (i : Fin 8) (high : Bool) (s : State) : Out :=
  if s.g.st = .off then .next s
  else match s.alertRec i with
  | none =>
    if s.alertCfg.isNone then .next (s.modAlert i (fun x => x.latch high s.stamp))
    else .next (s.modAlert i (fun x => { x with raw := high }))
  | some a =>
    let set (x : AlertSt) : AlertSt := { x with level := alertAsserts a high }
    if s.judgesAlerts then
      let s1 : State := s.modAlert i (fun x => { set x with raw := high })
      let s2 : State := if s.evt.alert[i].level != (alertAsserts a high) && (if alertAsserts a high then a.rise else a.fall)
        then s1.raise (352 + i.val) else s1
      .next (if a.wake && s.evt.alert[i].level != (alertAsserts a high) then s2.wakeUp 3 else s2)
    else
      let s1 : State := s.modAlert i (fun x => set (x.latch high s.stamp))
      .next (if a.wake && s.evt.alert[i].raw != high then s1.wakeUp 3 else s1)
/-- An event with the stamp of a latch (R257). -/
def State.raiseAt (s : State) (n : Nat) (stamp : Ns) : State :=
  let s1 : State := s.raise n
  if (s.evt.find n).isSome then s1
  else s1.modEvt (fun e => { e with
    srcs := e.srcs.map (fun p => if p.1 = n then (p.1, { p.2 with stamp := stamp }) else p)
    tgt := tmap (fun x : Tgt => if x.source = some n then { x with stamp := stamp } else x) e.tgt
    log := match e.log with | x :: l => { x with time := stamp } :: l | [] => [] })
/-- At the end of LOAD each latched change that the key selects raises its source with the latch's stamp; the latches then
clear (R257), and the accepted level is that of the contact by the polarity now in force. -/
def State.alertsAtLoad (s : State) : State :=
  let one (s : State) (i : Fin 8) : State :=
    let l := s.evt.alert[i]
    let clear (a : AlertSt) : AlertSt := { a with level := false, latchRise := none, latchFall := none }
    match s.alertRec i with
    | none => s.modAlert i clear
    | some a =>
      let ups := if a.pol then l.latchRise else l.latchFall
      let downs := if a.pol then l.latchFall else l.latchRise
      let fire (s : State) (on : Bool) (t : Option Ns) : State :=
        match t with
        | some t => if on then
            (s.raiseAt (352 + i.val) t).modEvt (fun e => { e with latched := e.latched ||| (1#8 <<< i.val) })
          else s
        | none => s
      let s1 : State := match ups, downs with
        | some t, some u =>
          if t ≤ u then fire (fire s a.rise (some t)) a.fall (some u) else fire (fire s a.fall (some u)) a.rise (some t)
        | t, u => fire (fire s a.rise t) a.fall u
      s1.modAlert i (fun x => { clear x with level := alertAsserts a x.raw })
  (List.finRange 8).foldl one s

end Sys2Proof.Machine
end

