-- ==== Sys2Proof/Machine/NvStore.lean ====
section
/-!
DEFINITION. The non-volatile store's commands, passwords and clears (R262-R275, R285, R286), and the bytes of the
Inclusion record and of a later-fault entry (R280-R283).
-/
namespace Sys2Proof.Machine
open Sys2Proof

/-! ### Bytes of the Inclusion record and of the later-fault list (R280, R281, R283) -/

/-- A list of bytes padded with 0x00, or cut, to `n`. -/
def padTo (n : Nat) (l : List Byte) : List Byte := (l ++ List.replicate n 0).take n
/-- A later-fault entry as 64 bytes (R283). -/
def Lfl.bytes (e : Lfl) : List Byte :=
  withCrc (leBytes 2 e.seq ++ leBytes 2 (e.src.getD 0xFFFF) ++ leBytes 1 (e.cls.getD 0xFF) ++ leBytes 1 e.st.code ++
    leBytes 2 e.poweron.toNat ++ leBytes 8 e.time.toNat ++ leBytes 8 e.utc.toNat ++ leBytes 8 e.cycle.toNat ++
    nameBytes e.name ++ padTo 12 (e.detail.flatMap (leBytes 4)))
/-- The freezing event in the form of a later-fault entry (R280); it has no SEQ of the list. -/
def IncRec.trig (r : IncRec) : Lfl :=
  { seq := 0, src := some r.src, cls := some r.cls, st := r.st, poweron := r.poweron, time := r.time, utc := r.utc
    cycle := r.cycle, name := r.name, detail := r.trigger }
/-- The bytes of a record from 0x0_0100 on (R280). -/
def IncRec.body (r : IncRec) : List Byte :=
  padTo 256 (r.trig.bytes ++ leBytes 16 r.reacts.toNat ++ leBytes 4 r.classes.toNat) ++
  padTo 512 (r.buf.snaps.toList.flatMap (fun b => padTo 32 (leBytes 4 b.word.toNat ++ leBytes 8 b.time))) ++
  padTo 512 (r.spindles.flatMap (fun x => leBytes 4 x.1 ++ leBytes 4 x.2.1 ++
    leBytes 4 (match x.2.2.1 with | some l => l.val | none => 0xFF) ++ leBytes 4 x.2.2.2)) ++
  padTo 512 (r.applied.flatMap (fun a => leBytes 8 a.toNat)) ++
  padTo 2048 (wordsToBytes r.context) ++
  padTo 4096 (r.rails.flatMap (fun x => leBytes 4 x.1.toNat ++ leBytes 4 x.2.1.toNat ++
    leBytes 4 (scode 32 (x.2.2.1.getD 0)) ++ leBytes 4 (scode 32 x.2.2.2))) ++
  padTo 4096 ((r.cmps ++ r.points).flatMap (fun w => leBytes 4 w.toNat ++ leBytes 4 0)) ++
  padTo 16384 (r.events.reverse.flatMap (fun e => leBytes 8 e.time ++ leBytes 4 e.src ++ leBytes 4 e.detail)) ++
  padTo 4096 [] ++
  padTo 32768 (r.buf.hists.flatMap (fun h => padTo 32 (h.flatMap (fun x =>
    leBytes 4 x.word.toNat ++ leBytes 4 x.stamp.toNat)))) ++
  padTo 131072 (r.buf.snaps.toList.flatMap (fun b => padTo 8192 (b.samples.flatMap (fun x => leBytes 2 (scode 16 x)))))
/-- The header of a record's copy (R281). -/
def IncRec.header (r : IncRec) (copyB : Bool) : List Byte :=
  withCrc (padTo 252 (leBytes 4 0x494E434C ++ leBytes 2 1 ++ leBytes 1 r.cls ++ leBytes 1 copyB.toNat ++
    leBytes 4 r.recordNo ++ leBytes 2 r.src ++ leBytes 2 r.poweron.toNat ++ leBytes 8 r.time.toNat ++
    leBytes 8 r.utc.toNat ++ leBytes 1 r.utcQual ++ leBytes 1 r.st.code ++ leBytes 1 r.level.code ++
    leBytes 1 r.heldPlan ++ leBytes 4 r.sampleIndex ++ leBytes 8 r.cycle.toNat ++ leBytes 8 r.runSerial.toNat ++
    nameBytes r.name ++ sha384 r.body))
/-- Page `p` of a record's copy. -/
def IncRec.page (r : IncRec) (copyB : Bool) (p : Nat) : List Byte :=
  if p = 0 then r.header copyB else padTo 256 (r.body.drop (256 * (p - 1)))

/-! ### Who commands the store (R274) -/

/-- Session `n` changed by `f`, while it is open. -/
def State.modSession (s : State) (n : Fin 4) (f : Session → Session) : State :=
  { s with lnk := { s.lnk with sessions := tmod s.lnk.sessions n (fun x => x.map f) } }
/-- A reply to Edivo session `n`: STATUS, answer and payload words (R479). -/
def State.reply (s : State) (n : Fin 4) (status : Nat) (a : Ans) (ws : List Word := []) : State :=
  { s with lnk := { s.lnk with replies := (n, status, a, ws) :: s.lnk.replies } }
/-- The answer to a store command: in NVS_STAT, or in the Edivo reply with STATUS ANSWERED (R479). -/
def State.nvAnswer (s : State) (o : Owner) (a : Ans) : State :=
  match o with
  | .host => { s with nv := { s.nv with ans := a } }
  | .session n => s.reply n 4 a
/-- The page, offset and region of an owner's NVS_ADDR. -/
def State.nvAddr (s : State) (o : Owner) : Nat × Nat × Fin 16 :=
  match o with
  | .host => (s.nv.addrPage.toNat, s.nv.addrOff.toNat, s.nv.addrRegion)
  | .session n => match s.lnk.sessions[n] with
    | some x => (x.addrPage.toNat, x.addrOff.toNat, x.addrRegion)
    | none => (0, 0, 0)
/-- An owner's NVS_DATA as bytes. -/
def State.nvData (s : State) (o : Owner) : List Byte :=
  match o with
  | .host => wordsToBytes s.nv.data.toList
  | .session n => match s.lnk.sessions[n] with
    | some x => wordsToBytes x.data.toList
    | none => []
/-- The first words of an owner's NVS_DATA filled. -/
def State.setNvData (s : State) (o : Owner) (ws : List Word) : State :=
  let fill (v : Vector Word 64) : Vector Word 64 := Vector.ofFn (fun k : Fin 64 => ws.getD k.val v[k])
  match o with
  | .host => { s with nv := { s.nv with data := fill s.nv.data } }
  | .session n => s.modSession n (fun x => { x with data := fill x.data })
/-- An owner's NVS_PWD as 32 bytes. -/
def State.nvPwd (s : State) (o : Owner) : List Byte :=
  match o with
  | .host => wordsToBytes s.nv.pwd.toList
  | .session n => match s.lnk.sessions[n] with
    | some x => wordsToBytes x.pwd.toList
    | none => []
/-- NVS_PWD is cleared after every UNLOCK (R274). -/
def State.clearNvPwd (s : State) (o : Owner) : State :=
  match o with
  | .host => { s with nv := { s.nv with pwd := Vector.replicate 8 0 } }
  | .session n => s.modSession n (fun x => { x with pwd := Vector.replicate 8 0 })
/-- The declaration of a user region; a region of 0 pages is unused (R267). -/
def State.region (s : State) (m : Fin 16) : Option CRegion :=
  match s.cfg.security with
  | some c => (match c.regions[m.val]? with
    | some r => if r.pages = 0 then none else some r
    | none => none)
  | none => none
/-- Whether an owner holds an unlock (R274). -/
def State.unlocked (s : State) (o : Owner) (m : Fin 17) (write : Bool) : Bool :=
  s.nv.unlocks.contains { owner := o, region := m, write := write }

/-! ### Pages (R268, R269) -/

/-- The newest version of a user page; a page never written reads 0x00 (R269). -/
def NvData.page (d : NvData) (m : Fin 16) (p : Nat) : List Byte :=
  match d.user.find? (fun x => x.region == m && x.page == p) with
  | some x => x.bytes
  | none => List.replicate 256 0
/-- A new version of a user page. -/
def NvData.putPage (d : NvData) (m : Fin 16) (p : Nat) (bytes : List Byte) : NvData :=
  { d with user := { region := m, page := p, bytes := bytes } ::
      d.user.filter (fun x => !(x.region == m && x.page == p)) }
/-- Bytes laid over a page from an offset. -/
def overlay (page : List Byte) (off : Nat) (bytes : List Byte) : List Byte :=
  page.take off ++ bytes ++ page.drop (off + bytes.length)
/-- The pages that a WRITE touches, with their new bytes; the bytes beyond offset 255 are placed by class (R268). -/
def writePages (d : NvData) (r : CRegion) (m : Fin 16) (p off : Nat) (bytes : List Byte) : List (Nat × List Byte) :=
  let head := bytes.take (256 - off)
  let rest := bytes.drop (256 - off)
  let first := overlay (d.page m p) off head
  if rest.isEmpty then [(p, first)]
  else if r.trace then [(p, overlay first 0 rest)]
  else [(p, first), (p + 1, overlay (d.page m (p + 1)) 0 rest)]
/-- A WRITE that fits is gathered (R268-R270). -/
def State.gatherPages (s : State) (m : Fin 16) (ps : List (Nat × List Byte)) : State :=
  let fresh := (ps.filter (fun x => !s.nv.dirty.contains (m, x.1))).length
  let put (nv : Nv) (x : Nat × List Byte) : Nv := { nv with
    cur := nv.cur.putPage m x.1 x.2
    dirty := if nv.dirty.contains (m, x.1) then nv.dirty else (m, x.1) :: nv.dirty
    stalePages := nv.stalePages.filter (fun y => y != (m, x.1)) }
  ({ s with nv := ps.foldl put s.nv }).gather (256 * fresh)
/-- Whether new versions of these pages fit in the 56 KiB that host software and sessions share (R270). -/
def State.fits (s : State) (m : Fin 16) (ps : List (Nat × List Byte)) : Bool :=
  decide (s.nv.gathered + 256 * (ps.filter (fun x => !s.nv.dirty.contains (m, x.1))).length ≤ 57344)
/-- The states in which a WRITE is answered REFUSED_STATE (R287). -/
def ModSt.noNvWrite : ModSt → Bool
  | .lastGasp | .start | .load | .stabled | .off => true
  | _ => false
/-- A judged WRITE: gathered, kept waiting for a commit, or BUFFER_FULL (R270, R271). -/
def State.nvWriteGo (s : State) (w : NvWait) (r : CRegion) : State :=
  let ps := writePages s.nv.cur r w.region w.page w.off w.bytes
  if s.nv.st = .committing then { s with nv := { s.nv with waitWr := s.nv.waitWr ++ [w] } }
  else if s.fits w.region ps then (s.gatherPages w.region ps).nvAnswer w.owner .accepted
  else
    let s1 : State := s.commitStart
    if s1.nv.st = .committing then { s1 with nv := { s1.nv with waitWr := s1.nv.waitWr ++ [w] } }
    else s1.nvAnswer w.owner .bufferFull
/-- The WRITEs that waited for a commit are gathered, in their order. -/
def State.nvResume (s : State) : State :=
  let l := s.nv.waitWr
  let s0 : State := { s with nv := { s.nv with waitWr := [] } }
  l.foldl (fun (s : State) w => match s.region w.region with
    | some r => s.nvWriteGo w r
    | none => s.nvAnswer w.owner .refusedRange) s0

/-! ### Commands (R267-R270, R285) -/

/-- Nothing is read from the store before its recovery has ended (R273); a command that would read it is answered REFUSED_STATE until
then (DESIGN CHOICE, log entry 139). -/
def State.nvBarred (s : State) : Bool := decide (s.nv.st = .recovering)

/-- GATHER_TIMEOUT (R270): 1 s after the oldest gathered write. -/
def execGatherTimeout (s : State) : Out := if s.nv.gathered = 0 then .next s else .next s.commitStart
/-- NVS_READ (R267, R269, R274, R264). -/
def execNvsRead (o : Owner) (s : State) : Out :=
  let a := s.nvAddr o
  if s.nvBarred then .next (s.nvAnswer o .refusedState)
  else match s.region a.2.2 with
  | none => .next (s.nvAnswer o .refusedRange)
  | some r =>
    if r.pages ≤ a.1 then .next (s.nvAnswer o .refusedRange)
    else if r.readProt && !s.unlocked o a.2.2.castSucc false then .next (s.nvAnswer o .refusedPassword)
    else
      let key := (a.2.2, a.1)
      let ans : Ans := if s.nv.stalePages.contains key then .stale
        else if s.nv.dirty.contains key || s.nv.dirtyC.contains key then .uncommitted else .accepted
      .next ((s.setNvData o (bytesToWords 64 (s.nv.cur.page a.2.2 a.1))).nvAnswer o ans)
/-- NVS_WRITE (R267, R268, R270, R271, R274, R287) of `len` bytes of NVS_DATA. -/
def execNvsWrite (o : Owner) (len : BitVec 9) (s : State) : Out :=
  let a := s.nvAddr o
  let n := len.toNat
  if s.g.st.noNvWrite then .next (s.nvAnswer o .refusedState)
  else match s.region a.2.2 with
  | none => .next (s.nvAnswer o .refusedRange)
  | some r =>
    if n = 0 || 256 < n || r.pages ≤ a.1 || (!r.trace && 256 < a.2.1 + n && r.pages ≤ a.1 + 1) then
      .next (s.nvAnswer o .refusedRange)
    else if r.writeProt && !s.unlocked o a.2.2.castSucc true then .next (s.nvAnswer o .refusedPassword)
    else .next (s.nvWriteGo ⟨o, a.2.2, a.1, a.2.1, (s.nvData o).take n⟩ r)
/-- NVS_COMMIT_NOW (R270). -/
def execNvsCommitNow (o : Owner) (s : State) : Out :=
  .next ((if s.nv.gathered = 0 then s else s.commitStart).nvAnswer o .accepted)
/-- NVS_LOCK (R274): the owner's unlocks end. -/
def execNvsLock (o : Owner) (s : State) : Out :=
  .next ({ s with nv := { s.nv with unlocks := s.nv.unlocks.filter (fun u => u.owner != o) } }.nvAnswer o .accepted)
/-- Words that the spec leaves open, fresh for each use. -/
def State.freeWords (s : State) (n : Nat) : List Word := (List.range n).map (fun k => BitVec.ofNat 32 (freeNat (s.free + k)))
/-- A page of the record with the groups that are damaged in this copy but not in the other taken from the other; a group
damaged in both reads 0x00 (R264, R285). -/
def patchPage (bytes : List Byte) (p : Nat) (bad other : List Nat) : List Byte :=
  (List.range 16).flatMap (fun i =>
    if bad.contains (16 * p + i) && other.contains (16 * p + i) then List.replicate 16 (0#8)
    else (bytes.drop (16 * i)).take 16)
/-- Page `p` of a copy of the inclusion record is read (R285): its words, and whether a group of it is damaged in both copies.
EXPORTED once every page of either copy has been read. A copy that is not there holds open values. -/
def State.incRead (s : State) (copyB : Bool) (p : Nat) : State × List Word × Bool :=
  match if copyB then s.inc.copyB else s.inc.copyA with
  | none => ({ s with free := s.free + 64 }, s.freeWords 64, false)
  | some r =>
    let both := (List.range 16).any (fun i => s.inc.badA.contains (16 * p + i) && s.inc.badB.contains (16 * p + i))
    let bytes := patchPage (r.page copyB p) p (if copyB then s.inc.badB else s.inc.badA)
      (if copyB then s.inc.badA else s.inc.badB)
    let key := if copyB then p + 1024 else p
    let pages := if s.inc.pages.contains key then s.inc.pages else key :: s.inc.pages
    let whole := decide ((pages.filter (fun x => decide (1024 ≤ x) == copyB)).length = 768)
    ({ s with inc := { s.inc with pages := pages, exported := s.inc.exported || whole } }, bytesToWords 64 bytes, both)
/-- NVS_READ_INC (R285): no password. A session's READ_INC and READ_LFL take the selection of the host's NVS_INC_SEL and NVS_LFL_SEL,
which no COMMAND of a session writes (R479; DESIGN CHOICE, log entry 140). -/
def execNvsReadInc (o : Owner) (s : State) : Out :=
  let p := s.nv.incPage.toNat
  if 768 ≤ p then .next (s.nvAnswer o .refusedRange)
  else
    let r := s.incRead s.nv.incCopy p
    .next ((r.1.setNvData o r.2.1).nvAnswer o (if r.2.2 then .damaged else .accepted))
/-- NVS_READ_LFL (R285): a slot that holds no entry holds open values. -/
def execNvsReadLfl (o : Owner) (s : State) : Out :=
  if s.nvBarred then .next (s.nvAnswer o .refusedState)
  else if s.nv.lflSel = 255 then .next (s.nvAnswer o .refusedRange)
  else match s.nv.cur.lfl[s.nv.lflSel.toNat]? with
  | some e => .next ((s.setNvData o (bytesToWords 16 e.bytes)).nvAnswer o .accepted)
  | none => .next { ((s.setNvData o (s.freeWords 16)).nvAnswer o .accepted) with free := s.free + 16 }
/-- Whether a CLEAR of this owner is authenticated (R286). -/
def State.clearAuth (s : State) (o : Owner) : Bool :=
  match o with
  | .host => s.unlocked .host 16 true
  | .session n => match s.lnk.sessions[n] with
    | some x => decide (x.level ≠ .view)
    | none => false
/-- NVS_CLEAR (R286): judged, then carried by a commit that starts at once. -/
def execNvsClear (o : Owner) (scope : BitVec 3) (force : Bool) (n : RailN) (s : State) : Out :=
  let k := scope.toNat
  if s.nvBarred then .next (s.nvAnswer o .refusedState)
  else if !s.clearAuth o then .next (s.nvAnswer o .refusedPassword)
  else if k = 0 || 4 < k then .next (s.nvAnswer o .refusedRange)
  else if k = 1 && (s.inc.st != .frozen || s.nv.cur.clears.any (fun c => c.scope == 1)) then
    .next (s.nvAnswer o .refusedState)
  else if k = 1 && !s.inc.exported && !force then .next (s.nvAnswer o .notExported)
  else if k = 4 && !s.railUsed n then .next (s.nvAnswer o .refusedRange)
  else
    let s1 : State := (s.nvAnswer o .accepted).juridical "CLEAR" [k, force.toNat, if k = 4 then n.val else 0]
    .next (s1.nvWrite 16 (fun d => { d with clears := d.clears ++ [⟨k, n⟩] })).commitStart

/-! ### Passwords (R274, R275, R486) -/

/-- The outcome of a check of password `i` before any comparison: an answer that ends it, or none (R275, R485, R486). A lockout
that runs is checked after the secret itself. -/
def State.pwdBarred (s : State) (i : Fin 35) : Option Ans :=
  if s.nv.st = .deferred || s.nvBarred then some .refusedState
  else if !s.sec.wrapKey || s.sec.breachSinceStart || s.sec.verifiers[i].isNone then some .noSecret
  else if s.nv.cur.pwd[i].lockedSince.isSome then some .lockedOut
  else none
/-- A failed check is counted; from the fourth in a row on it starts a lockout, whose first raises source 25 (R275). -/
def State.pwdFail (s : State) (o : Owner) (use : PwdUse) (i : Fin 35) : State :=
  let n := min 255 (s.nv.cur.pwd[i].fails + 1)
  let first := decide (4 ≤ n) && !s.nv.cur.pwd[i].everLocked
  let seq := s.nv.gatherSeq
  let s1 : State := s.nvWrite 8 (fun d => { d with pwd := tmod d.pwd i (fun p => { p with
    fails := n, everLocked := p.everLocked || decide (4 ≤ n)
    lockedSince := if 4 ≤ n then some d.opNs else none }) })
  let s2 : State := { s1 with nv := { s1.nv with wrongDue := s1.nv.wrongDue ++ [⟨o, use, seq⟩] } }
  if first then s2.raise 25 i.val else s2
/-- A successful check sets the counter to 0 (R275). -/
def State.pwdPass (s : State) (i : Fin 35) : State :=
  if s.nv.cur.pwd[i].fails = 0 then s
  else s.nvWrite 8 (fun d => { d with pwd := tmod d.pwd i (fun p => { p with fails := 0 }) })
/-- Whether a password's bytes give verifier `i` (R486). HMAC pads its key with 0x00, so the bytes of NVS_PWD beyond the
password's end change nothing. -/
def State.pwdMatches (s : State) (i : Fin 35) (pwd : List Byte) : Bool :=
  match s.sec.verifiers[i] with
  | some v => decide (pbkdf2 pwd v.salt = v.verifier)
  | none => false
/-- An UNLOCK of password `i`, which opens region `m` (R274, R275). -/
def State.unlock (s : State) (o : Owner) (i : Fin 35) (m : Fin 17) (write : Bool) : State :=
  let pwd := s.nvPwd o
  let s1 : State := s.clearNvPwd o
  match s1.pwdBarred i with
  | some a => s1.nvAnswer o a
  | none =>
    if s1.pwdMatches i pwd then
      let u : Unlock := { owner := o, region := m, write := write }
      let s2 : State := { s1 with nv := { s1.nv with
        unlocks := if s1.nv.unlocks.contains u then s1.nv.unlocks else u :: s1.nv.unlocks } }
      (s2.pwdPass i).nvAnswer o .accepted
    else s1.pwdFail o .unlock i
/-- NVS_UNLOCK_READ (R274). -/
def execNvsUnlockRead (o : Owner) (s : State) : Out :=
  let m := (s.nvAddr o).2.2
  if (s.region m).isNone then .next ((s.clearNvPwd o).nvAnswer o .refusedRange)
  else .next (s.unlock o ⟨m.val, by omega⟩ m.castSucc false)
/-- NVS_UNLOCK_WRITE (R274). -/
def execNvsUnlockWrite (o : Owner) (s : State) : Out :=
  let m := (s.nvAddr o).2.2
  if (s.region m).isNone then .next ((s.clearNvPwd o).nvAnswer o .refusedRange)
  else .next (s.unlock o ⟨16 + m.val, by omega⟩ m.castSucc true)
/-- NVS_UNLOCK_CLEAR (R274, R286). -/
def execNvsUnlockClear (o : Owner) (s : State) : Out := .next (s.unlock o 32 16 true)
/-- PASSWORD_LOCKOUT_EXPIRY (R275): checks of password `i` are made again. -/
def execPasswordLockoutExpiry (i : Fin 35) (s : State) : Out :=
  .next { s with nv := { s.nv with cur := { s.nv.cur with
    pwd := tmod s.nv.cur.pwd i (fun p => { p with lockedSince := none }) } } }

/-! ### Scrub (R263-R265) -/

/-- A page hit by an uncorrectable error reads its newest older valid version from then on, or 0x00 bytes (R264). A version
that is still in the write buffer is not in the array and stays. -/
def State.uncorrectable (s : State) (x : Fin 16 × Nat × Option (List Byte)) : State :=
  let old := padTo 256 (x.2.2.getD [])
  let key := (x.1, x.2.1)
  let kept := s.nv.dirty.contains key || s.nv.dirtyC.contains key
  { s with nv := { s.nv with
    durable := s.nv.durable.putPage x.1 x.2.1 old
    cur := if kept then s.nv.cur else s.nv.cur.putPage x.1 x.2.1 old
    stalePages := if kept || s.nv.stalePages.contains key then s.nv.stalePages else key :: s.nv.stalePages } }
/-- One uncorrectable group is reported (R264). -/
def State.eccEvent (s : State) (detail : List Nat) : State :=
  (({ s with nv := { s.nv with uncorr := satInc 255 s.nv.uncorr, uncorrSeen := true } }).raise 26).laterFault
    (some 26) none "ECC_UNCORRECTABLE" detail
/-- The corrections of a converter are hit: the store reads the newest older version from then on, or none, and the converter is then
due at once (R217, R264). -/
def State.calHit (s : State) (x : ConvN × Option (Int × Int × Nat)) : State :=
  let k : CalKept := match x.2 with
    | some (offset, gain, at_) => { offset := offset, gain := gain, at_ := at_ }
    | none => { lost := true }
  let f (d : NvData) : NvData := { d with cal := tset d.cal x.1 k }
  let s1 : State := { s with nv := { s.nv with cur := f s.nv.cur, durable := f s.nv.durable } }
  if x.2.isNone then s1.modConv x.1 (fun c => { c with calDue := true }) else s1
/-- NV_SCRUB (R263-R265): what the scrub finds. Of the system regions the model follows the CALIBRATION region, which R217 asks for; an
older version elsewhere in them is only counted and reported (DESIGN CHOICE, log entry 141). -/
def execNvScrub (r : ScrubResult) (s : State) : Out :=
  let s1 : State := { s with
    nv := { s.nv with corrBits := min 65535 r.corrected, retired := s.nv.retired + r.retired, wearPct := r.wearPct }
    inc := { s.inc with badA := r.badA ++ s.inc.badA, badB := r.badB ++ s.inc.badB } }
  let s2 : State := if r.retired = 0 then s1 else s1.raise 26
  let s3 : State := r.bad.foldl (fun (s : State) x => (s.uncorrectable x).eccEvent [x.1.val, x.2.1]) s2
  let s4 : State := r.badCal.foldl (fun (s : State) x => (s.calHit x).eccEvent []) s3
  .next ((List.range (r.badSys + r.badA.length + r.badB.length)).foldl (fun (s : State) _ => s.eccEvent []) s4)

end Sys2Proof.Machine
end

