-- ==== Sys2Proof/Machine/LastGasp.lean ====
section
/-!
DEFINITION. Meanings: commit groups end, the copies of the Inclusion record, and the last-gasp steps (R87-R89, R134, R272,
R278-R282, R286).
-/
namespace Sys2Proof.Machine
open Sys2Proof

/-! ### The last-gasp steps 3 and 4 (R87, R89, R134, R282) -/

/-- LAST_GASP ends (R21): START when the module supply is present, else OFF. -/
def State.lastGaspEnd (s : State) : State := if s.sup.present then s.startEntry 2 0 else s.enterOff
/-- Whether a record's copies are still to be written (R282). -/
def IncState.copying : IncState → Bool
  | .capturing | .commitA | .commitB => true
  | _ => false
/-- Every rail is dropped; step 4 does not end before the record's copies are complete (R282). -/
def State.dropsDone (s : State) : State :=
  if s.inc.st.copying then { s with g := { s.g with lgStep := 5 } } else s.lastGaspEnd
/-- The rails of one step, or the unplanned ones, in the drop: WAIT to OFF, and EN deasserted into DRAIN with the discharge
timeout suspended (R134). -/
def State.lastGaspDrop (s : State) (n : RailN) : State :=
  match (s.rail n).st with
  | .wait => s.enterRail n .off (fun r => r)
  | .ramp | .up | .margin => (s.toDrain n).modRail n (fun r => { r with discharge := .suspended })
  | _ => s
/-- The drop takes steps in their order until one holds a rail with EN asserted, and drops that one (R89). The Bool says
whether a step was dropped. -/
def State.dropSteps : State → List (List RailN) → State × Bool
  | s, [] => (s, false)
  | s, rails :: rest =>
    let s1 : State := rails.foldl State.lastGaspDrop s
    if rails.any (fun n => (s.rail n).st.en) then (s1, true) else s1.dropSteps rest
/-- The steps of the running plan in reverse order, last group first and the last step of each group first, then every rail
with EN asserted that no step names (R89). -/
def State.dropOrder (s : State) : List (List RailN) :=
  let plan : List CGroup := match s.heldPlan with | some p => p.groups | none => []
  let named := plan.flatMap CGroup.rails
  (plan.reverse.flatMap (fun g => (g.steps.map (fun x : CStep => x.rails)).reverse)) ++
    [(List.finRange 256).filter (fun n => (s.rail n).st.en && !named.contains n)]
/-- The next step of the drop; with none left step 4 is at its end. -/
def State.dropNext (s : State) : State :=
  let r := s.dropSteps s.dropOrder
  if r.2 then r.1 else r.1.dropsDone
/-- SEAL_DONE (R282, R89): the seal page is programmed and step 4 begins with every CAS_OUT low and every field output off. -/
def execSealDone (s : State) : Out :=
  if s.g.st = .lastGasp && s.g.lgStep = 3 then
    let page : Seal := {
      valid := true, time := s.time.mtime, utc := s.utcNow, poweron := s.nv.cur.poweron
      flushDone := s.g.lgFlushOk, commitDone := s.g.lgCommitOk, unflushedMib := s.g.lgUnflushed
      incState := s.inc.st, pendingInc := s.inc.st.copying, recordNo := s.inc.recordNo
      kept := s.nv.sealPending, further := s.nv.sealOverflow, no := s.sealPg.no + 1
      history := (List.finRange 256).filterMap (fun n =>
        let k : RailKept := s.nv.cur.rail[n]
        let d : RailKept := s.nv.durable.rail[n]
        if k.seen = d.seen && k.count = d.count then none else some (n, k.seen, k.count)) }
    .next ({ s with
      sealPg := page
      g := { s.g with lgStep := 4 }
      seq := { s.seq with casOut := 0 }
      fio := { s.fio with outputsOff := true } }.dropNext)
  else .next s
/-- LAST_GASP_DROP_STEP (R89): the spacing of 10 µs has passed. -/
def execLastGaspDropStep (s : State) : Out :=
  if s.g.st = .lastGasp && s.g.lgStep = 4 then .next s.dropNext else .next s
/-- LAST_GASP_FLUSH_END (R88): what is left is lost and its amount goes into the commit group of step 2. -/
def execLastGaspFlushEnd (s : State) : Out :=
  if s.g.st = .lastGasp && s.g.lgStep = 1 then .next (s.lastGaspCommit (mibUp s.jurWaiting)) else .next s

/-! ### A commit group is durable (R272, R275, R286) -/

/-- The WRONG_PASSWORD answers that the durable group releases (R275). -/
def State.answerWrong (s : State) (w : WrongDue) : State :=
  match w.owner, w.use with
  | .host, .release => { s with sec := { s.sec with ans := .wrongPassword } }
  | o, _ => s.nvAnswer o .wrongPassword
/-- The committed data with its clears in effect; the store, the record and the display follow (R278, R286). -/
def State.groupDurable (s : State) (d : NvData) : State :=
  let dur := d.landed
  let cur := { (d.clears.foldl NvData.clear s.nv.cur) with clears := s.nv.cur.clears.drop d.clears.length }
  let incClear := d.clears.any (fun c => c.scope == 1)
  let lflClear := d.clears.any (fun c => c.scope == 2)
  let seq := s.nv.gatherSeq - 1
  let st : NvState := if s.nv.gathered = 0 then .idle else .gathering
  let s1 : State := { s with
    nv := { s.nv with
      cur := cur, durable := dur, committing := none, durableSeq := seq, dirtyC := [], st := st
      again := false, wrongDue := s.nv.wrongDue.filter (fun w => w.seq != seq) }
    inc := if incClear then { s.inc with st := .clearing } else s.inc
    touch := if lflClear then { s.touch with alerts := [] } else s.touch }
  let s2 : State := (s.nv.wrongDue.filter (fun w => w.seq == seq)).foldl State.answerWrong s1
  if s.nv.again || 49152 ≤ s2.nv.gathered then s2.commitStart.nvResume else s2.nvResume
/-- COMMIT_GROUP_DONE (R272): the marker is programmed. It ends step 2 of LAST_GASP (R87) and step 2 of the way to STABLED
(R169) once no commit follows it. -/
def execCommitGroupDone (s : State) : Out :=
  match s.nv.committing with
  | none => .next s
  | some d =>
    let s1 : State := s.groupDurable d
    if s1.nv.committing.isSome then .next s1
    else if s1.g.st = .lastGasp && s1.g.lgStep = 2 then
      .next { s1 with g := { s1.g with lgStep := 3, lgCommitOk := true } }
    else if s1.shut.kind = 1 && s1.shut.phase = 3 && s1.shut.flushed then .next s1.beginSet.settle
    else .next s1

/-! ### The copies of the Inclusion record (R278, R279, R282) -/

/-- INCLUSION_COPY_A_DONE (R278). -/
def execInclusionCopyADone (s : State) : Out :=
  if s.inc.st = .commitA then
    .next ({ s with inc := { s.inc with st := .commitB, copyA := s.inc.cap } }.raise 26)
  else .next s
/-- INCLUSION_COPY_B_DONE (R278, R222): the record is FROZEN and the snapshot buffer is released. -/
def execInclusionCopyBDone (s : State) : Out :=
  if s.inc.st = .commitB then
    let s1 : State := { s with
      inc := { s.inc with st := .frozen, copyB := s.inc.copyA, cap := none }
      scan := { s.scan with heldBuf := none } }
    if s1.g.st = .lastGasp && s1.g.lgStep = 5 then .next s1.lastGaspEnd else .next s1
  else .next s
/-- INCLUSION_CLEAR_DONE (R278): both copies are erased; the end of the erase goes into COUNTERS with the next group. -/
def execInclusionClearDone (s : State) : Out :=
  if s.inc.st = .clearing then
    .next ({ s with inc := { recordNo := s.inc.recordNo } }.nvWrite 8 (fun d => { d with clearIncDue := false }))
  else .next s

end Sys2Proof.Machine
end

