-- ==== Sys2Proof/Machine/ImageFormat.lean ====
section
/-!
DEFINITION. The byte formats of the Cabochon key and of every section (R92-R99, and each section's own chapter), read into
Cfg, with the limits that hold within one section.
-/
namespace Sys2Proof.Machine
open Sys2Proof

/-! ### Reading bytes -/

/-- `n` bytes at an offset as an unsigned number, least significant first. -/
def rd (n : Nat) (l : List Byte) (o : Nat) : Nat := leNat ((l.drop o).take n)
/-- `n` bytes at an offset as a signed number. -/
def rdS (n : Nat) (l : List Byte) (o : Nat) : Int :=
  let x := rd n l o
  if 2 ^ (8 * n - 1) ≤ x then (x : Int) - 2 ^ (8 * n) else x
/-- Bit `b` of the byte at an offset. -/
def rdBit (l : List Byte) (o b : Nat) : Bool := (rd 1 l o).testBit b
/-- A value within limits. -/
def inR (lo hi x : Nat) : Bool := lo ≤ x && x ≤ hi
/-- A byte of flags whose bits from `n` on are 0. -/
def flagsOk (l : List Byte) (o n : Nat) : Bool := rd 1 l o < 2 ^ n
/-- An optional number: `no` for none. -/
def optN (no x : Nat) : Option Nat := if x = no then none else some x
/-- Whether the bytes of every span (offset, length) are 0x00. -/
def zeros (l : List Byte) (spans : List (Nat × Nat)) : Bool := spans.all (fun x => ((l.drop x.1).take x.2).all (· == 0))
/-- Record `i` of a body with records of `size` bytes. -/
def recAt (body : List Byte) (size i : Nat) : List Byte := (body.drop (size * i)).take size

/-! ### Key, image, section table (R92-R99) -/

/-- Bytes of a bank; flash that nothing programmed reads 0xFF. -/
def bankBytes (b : List Byte) (o n : Nat) : List Byte :=
  let x := (b.drop o).take n
  x ++ List.replicate (n - x.length) 0xFF
/-- Whether the last 4 of 256 bytes hold the CRC-32 of the rest. -/
def pageCrcOk (l : List Byte) : Bool := rd 4 l 252 == (crc32 (padTo 252 l)).toNat

end Sys2Proof.Machine

namespace Sys2Proof
open Sys2Proof.Machine

/-- The identity sector is readable (R93). -/
def Key.identityOk (k : Key) : Bool := pageCrcOk k.identity
/-- The key's serial number (R93). -/
def Key.serial (k : Key) : DWord := dw (rd 8 k.identity 0)
/-- The vehicle position (R93). -/
def Key.position (k : Key) : List Byte := (k.identity.drop 16).take 16
/-- A selector page, when it is valid (R94). -/
def selectorOf (l : List Byte) : Option Selector :=
  if rd 4 l 0 == 0x4C455343 && pageCrcOk l && rd 1 l 8 ≤ 1 then
    some { gen := BitVec.ofNat 32 (rd 4 l 4), bank := rdBit l 8 0, digest := (l.drop 16).take 48 }
  else none
/-- The selector in force, the copy that holds it (true for B) and whether neither of two was newer (R94). -/
def Key.selector (k : Key) : Option (Selector × Bool × Bool) :=
  match selectorOf k.selA, selectorOf k.selB with
  | some a, some b =>
    let d := (a.gen - b.gen).toNat
    if d = 0 || d = 2 ^ 31 then some (a, false, true)
    else if d < 2 ^ 31 then some (a, false, false) else some (b, true, false)
  | some a, none => some (a, false, false)
  | none, some b => some (b, true, false)
  | none, none => none
/-- A bank's bytes. -/
def Key.bank (k : Key) (b : Bool) : List Byte := if b then k.bank1 else k.bank0
/-- CUSTOMER_KEY_ID (R96): the first 8 bytes of the SHA-384 digest of a public key. KEY_ID is formed in the same way (R97). -/
def customerKeyId (key : List Byte) : BitVec 64 := BitVec.ofNat 64 (rd 8 (sha384 key) 0)

end Sys2Proof

namespace Sys2Proof.Machine
open Sys2Proof

/-- The image header of a bank, when it passes the checks of R96 and R102. -/
def headerOf (b : List Byte) : Option ImgHdr :=
  let h := bankBytes b 0 256
  let len := rd 4 h 0x18
  let n := rd 2 h 0x1C
  if rd 4 h 0 == 0x4E434243 && rd 2 h 4 == 1 && rd 2 h 6 == 256 && pageCrcOk h && decide (len ≤ 31457280) && inR 1 1024 n then
    some { serial := dw (rd 8 h 8), buildUtc := dw (rd 8 h 0x10), imageLen := len, sectionCount := n
           position := (h.drop 0x20).take 16, hwMin := rd 4 h 0x30, hwMax := rd 4 h 0x34
           customerKeyId := dw (rd 8 h 0x38) }
  else none
/-- An entry of the section table (R98): type, instance, body format, place, length and digest. -/
structure SecEntry where
  typ : Nat
  inst : Nat
  fmt : Nat
  off : Nat
  len : Nat
  pad : Nat
  digest : List Byte
deriving DecidableEq, Repr
/-- Entry `i` of a bank's section table. -/
def entryAt (b : List Byte) (i : Nat) : SecEntry :=
  let e := bankBytes b (0x400 + 64 * i) 64
  { typ := rd 1 e 0, inst := rd 1 e 1, fmt := rd 2 e 2, off := rd 4 e 4, len := rd 4 e 8, pad := rd 4 e 12
    digest := e.drop 16 }
/-- The section that an entry names, with its header's fields and its body (R99). -/
def secOf (b : List Byte) (e : SecEntry) : Sec :=
  let h := bankBytes b e.off 32
  { typ := e.typ, inst := e.inst, fmt := e.fmt, serial := dw (rd 8 h 8), digest := e.digest
    recCount := rd 4 h 0x10, recSize := rd 2 h 0x14, body := bankBytes b (e.off + 32) (e.len - 32) }
/-- Whether an entry and its section's header are well formed (R95, R98, R99). -/
def entryOk (b : List Byte) (h : ImgHdr) (es : List SecEntry) (i : Nat) (e : SecEntry) : Bool :=
  let x := bankBytes b e.off 32
  e.off % 4096 == 0 && decide (0x11000 ≤ e.off) && decide (32 ≤ e.len) && decide (e.off + e.len ≤ h.imageLen) && e.pad == 0 &&
    ((List.range es.length).zip es).all (fun y => y.1 == i || decide (e.off + e.len ≤ y.2.off) || decide (y.2.off + y.2.len ≤ e.off)) &&
    rd 1 x 0 == e.typ && rd 1 x 1 == e.inst && rd 2 x 2 == e.fmt && rd 4 x 4 == e.len - 32
/-- A bank's manifest (R95): header, signature blocks and section table. -/
def manifestOf (b : List Byte) (h : ImgHdr) : List Byte := bankBytes b 0 (0x400 + 64 * h.sectionCount)
/-- The section table of a bank, as bytes. -/
def tableBytes (b : List Byte) (h : ImgHdr) : List Byte := bankBytes b 0x400 (64 * h.sectionCount)
/-- A signature block at an offset verifies a message under a key (R97): MAGIC, ALG, KEY_ID, the bytes that are 0x00, r and s.
DEDUCED: a block whose MAGIC, ALG or fill bytes are wrong holds no signature, so its check fails as a signature (log entry 122). -/
def sigOk (b : List Byte) (off magic : Nat) (key message : List Byte) : Bool :=
  let x := bankBytes b off 256
  rd 4 x 0 == magic && rd 4 x 4 == 1 && dw (rd 8 x 8) == customerKeyId key && zeros x [(0x70, 0x90)] &&
    ecdsaP384 key message ((x.drop 0x10).take 96)
/-- The maker signature's message (R97): the hardware range and the table entries of type 0x80, in table order. -/
def makerMessage (b : List Byte) (h : ImgHdr) (es : List SecEntry) : List Byte :=
  bankBytes b 0x30 8 ++ (((List.range h.sectionCount).zip es).filter (fun e => e.2.typ == 0x80)).flatMap
    (fun e => bankBytes b (0x400 + 64 * e.1) 64)
/-- The customer signature's message (R97): the header, the maker's block and the section table. -/
def customerMessage (b : List Byte) (h : ImgHdr) : List Byte := bankBytes b 0 0x200 ++ tableBytes b h
/-- A section's bytes have its DIGEST (R98). -/
def sectionDigestOk (b : List Byte) (e : SecEntry) : Bool := sha384 (bankBytes b e.off e.len) == e.digest
/-- IMAGE_SERIAL as a bank's header has it; 0 where the bank begins with no image. -/
def serialOf (b : List Byte) : DWord :=
  let h := bankBytes b 0 256
  if rd 4 h 0 == 0x4E434243 then dw (rd 8 h 8) else 0
/-- A section's BODY_CRC agrees with its body (R99). -/
def bodyCrcOk (b : List Byte) (e : SecEntry) : Bool :=
  rd 4 (bankBytes b e.off 32) 0x1C == (crc32 (bankBytes b (e.off + 32) (e.len - 32))).toNat

/-! ### Section bodies -/

/-- A sync object record (R371). -/
def syncOf (r : List Byte) : CSync :=
  { used := rdBit r 0x28 0, timer := rdBit r 0x28 1, external := rdBit r 0x28 2
    programs := BitVec.ofNat 256 (rd 32 r 0), hosts := BitVec.ofNat 64 (rd 8 r 0x20)
    source := rd 2 r 0x2A, timerUs := rd 4 r 0x2C }
/-- The limits of a sync object record (R371). -/
def syncRecordOk (o : CSync) : Bool :=
  !o.used || ((o.timer || o.external || o.programs != 0 || o.hosts != 0) &&
    (!o.timer || inR 100 100000000 o.timerUs) && (!o.external || decide (o.source < 1024)))
/-- MODULE (R86, R167, R185, R276, R290, R371). -/
def moduleOf (b : List Byte) : Option CModule :=
  let recs := (List.range 1024).map (fun o => recAt (b.drop 0x1000) 64 o)
  let syncs := recs.map syncOf
  if decide (0x11000 ≤ b.length) && zeros b [(0x05, 11), (0x14, 12), (0x44, 12), (0x5C, 4)] &&
      recs.all (fun r => flagsOk r 0x28 3 && zeros r [(0x29, 1), (0x30, 16)]) && inR 100 100000 (rd 4 b 0) && inR 1 255 (rd 1 b 4) && flagsOk b 0x10 7 &&
      flagsOk b 0x11 1 && inR 4 15 (rd 1 b 0x40) && flagsOk b 0x41 4 && inR 10 600 (rd 2 b 0x42) &&
      inR 1 50 (rd 1 b 0x50) && inR 1 100 (rd 1 b 0x51) && inR 1 1000 (rd 2 b 0x52) && inR 1 65535 (rd 2 b 0x54) &&
      inR 1 65535 (rd 2 b 0x56) && inR 1 255 (rd 1 b 0x58) && flagsOk b 0x59 2 && inR 10 100 (rd 1 b 0x5A) &&
      inR 1 4 (rd 1 b 0x5B) && decide (rd 4 b 0x60 < 2 ^ 18) && syncs.all syncRecordOk then
    some {
      cycleUs := rd 4 b 0, faultLimit := rd 1 b 4, wakeEn := BitVec.ofNat 7 (rd 1 b 0x10), pfwUsed := rdBit b 0x11 0
      wakeTimerMin := rd 2 b 0x12, longPressS := rd 1 b 0x40, netSpeedRequired := rdBit b 0x41 0
      restartWhileMoving := rdBit b 0x41 1, touchUsed := rdBit b 0x41 2, networkOffAllowed := rdBit b 0x41 3
      standstillConfirm := rd 2 b 0x42, probeStep := rd 1 b 0x50, marginGuard := rd 1 b 0x51
      probeHoldMs := rd 2 b 0x52, probeIntervalH := rd 2 b 0x54, holdMaxS := rd 2 b 0x56, holdSlew := rd 1 b 0x58
      probingEnabled := rdBit b 0x59 0, holdWhileMoving := rdBit b 0x59 1, healthWarn := rd 1 b 0x5A
      probesMax := rd 1 b 0x5B, faultClasses := BitVec.ofNat 32 (rd 4 b 0x60), syncs := syncs }
  else none
/-- The limits of a used rail entry (R114, R115, and the essential bit of R137). -/
def railEntryOk (c : CRail) : Bool :=
  decide (c.range ≤ 2) && decide (0 < c.drainThresh) && decide (c.drainThresh < c.faultLo) && decide (c.faultLo < c.warnLo) &&
    decide (c.warnLo ≤ c.upLo) && decide (c.upLo < c.nominal) && decide (c.nominal < c.upHi) && decide (c.upHi ≤ c.warnHi) &&
    decide (c.warnHi < c.faultHi) && decide (c.faultHi * 1024 ≤ 1022 * c.fs) &&
    (!c.warmRestart || (decide (c.drainThresh ≤ c.prebiasMin) && decide (c.prebiasMin < c.upLo))) &&
    decide (0 < c.rampTol) && decide (c.rampTol ≤ c.nominal - c.drainThresh) &&
    (!c.ocUsed || (decide (c.ocLimit ≤ c.imonFs) && decide (c.ocRampLimit ≤ c.imonFs))) && inR 1 16 c.ocCount &&
    inR 1 65535 c.pgFilter && decide (c.rampDelay ≤ 1000000) && inR 1 10000000 c.rampSlope && decide (c.pgDelay ≤ 1000000) &&
    inR 1000 10000000 c.drainTimeout && decide (-2048 ≤ c.trimMin) && decide (c.trimMin ≤ 0) && decide (0 ≤ c.trimMax) &&
    decide (c.trimMax ≤ 2047) && (!c.probeAllowed || c.trimAllowed) &&
    (if c.trimAllowed then inR 1000 10000000 c.trimGain
     else decide (c.trimMin = 0) && decide (c.trimMax = 0) && c.trimGain == 0) &&
    (!c.sets.getLsbD 0 || !(c.sets.getLsbD 2 || c.sets.getLsbD 3 || c.sets.getLsbD 4))
/-- RAIL (R114). An unused entry keeps its FLAGS alone. -/
def railOf (b : List Byte) (serial : DWord) : Option CRail :=
  let used := rdBit b 0 0
  let c : CRail := {
    used := used, pushPull := rdBit b 0 1, pgUsed := rdBit b 0 2, trimAllowed := rdBit b 0 3, trimPol := rdBit b 0 4
    probeAllowed := rdBit b 0 5, warmRestart := rdBit b 0 6, ocUsed := rdBit b 0 7
    range := if used then rd 1 b 2 else 0, sets := if used then BitVec.ofNat 5 (rd 1 b 3) else 0
    nominal := rdS 4 b 4, upLo := rdS 4 b 8, upHi := rdS 4 b 0xC, warnLo := rdS 4 b 0x10, warnHi := rdS 4 b 0x14
    faultLo := rdS 4 b 0x18, faultHi := rdS 4 b 0x1C, imonFs := rd 4 b 0x20, ocLimit := rd 4 b 0x24
    ocRampLimit := rd 4 b 0x28, ocCount := rd 1 b 0x2C, pgFilter := rd 2 b 0x2E, rampDelay := rd 4 b 0x30
    rampSlope := rd 4 b 0x34, rampTol := rdS 4 b 0x38, pgDelay := rd 4 b 0x3C, drainThresh := rdS 4 b 0x40
    drainTimeout := rd 4 b 0x44, prebiasMin := rdS 4 b 0x48, trimMin := rdS 2 b 0x4C, trimMax := rdS 2 b 0x4E
    trimGain := rd 4 b 0x50, serial := serial }
  if rd 1 b 1 == 0 && (!used || (railEntryOk c && flagsOk b 3 5 && zeros b [(0x2D, 1)])) then some c else none
/-- A step record (R136). -/
def stepOf (r : List Byte) : Option CStep :=
  let n := rd 1 r 0
  let rails := (List.range 8).map (fun i => rd 2 r (0x10 + 2 * i))
  let waitR := rd 2 r 0xC
  let x : CStep := {
    rails := (rails.take n).map (Fin.ofNat 256), priorUp := rdBit r 1 0, hasDelay := rdBit r 1 1, cascade := rdBit r 1 2
    field := rdBit r 1 3, flagCond := rdBit r 1 4, fieldPol := rdBit r 1 5, flagPol := rdBit r 1 6
    chains := BitVec.ofNat 16 (rd 2 r 2), delay := rd 4 r 4, timeout := rd 4 r 8
    waitRail := (optN 0xFFFF waitR).map (Fin.ofNat 256), point := Fin.ofNat 128 (rd 1 r 0xE)
    flag := Fin.ofNat 64 (rd 1 r 0xF) }
  if inR 1 8 n && flagsOk r 1 7 && (rails.take n).all (fun y => decide (y < 256)) && (rails.drop n).all (· == 0xFFFF) &&
      (!x.hasDelay || (decide (x.delay ≤ 10000000) && decide (x.delay < x.timeout))) && inR 10 10000000 x.timeout &&
      (waitR == 0xFFFF || decide (waitR < 256)) && (!x.field || decide (rd 1 r 0xE < 128)) &&
      (!x.flagCond || decide (rd 1 r 0xF < 64)) then some x else none
/-- An optional chain or domain, 0-15 or 0xFF. -/
def opt16 (x : Nat) : Option (Option (Fin 16)) :=
  if x = 0xFF then some none else if x < 16 then some (some (Fin.ofNat 16 x)) else none
/-- A group record with its steps taken from those of the plan (R136). -/
def groupOf (r : List Byte) (g : Nat) (steps : List CStep) : Option CGroup :=
  match opt16 (rd 1 r 4), opt16 (rd 1 r 5), opt16 (rd 1 r 6) with
  | some i, some o, some d =>
    let first := rd 2 r 0
    let n := rd 1 r 2
    let after := rd 1 r 3
    let x : CGroup := {
      after := optN 0xFF after, inChain := i, outChain := o, domain := d
      allowance := rd 2 r 8, inFilter := rd 2 r 0xA, steps := (steps.drop first).take n }
    if inR 1 32 n && decide (first + n ≤ steps.length) && (after == 0xFF || decide (after < g)) &&
        zeros r [(0x07, 1), (0x0C, 4)] && (if o.isSome then inR 1 10000 x.allowance else x.allowance == 0) &&
        (if i.isSome then inR 1 1000 x.inFilter else x.inFilter == 0) then some x else none
  | _, _, _ => none
/-- Every element read, or nothing. -/
def allSome {α : Type} : List (Option α) → Option (List α)
  | [] => some []
  | none :: _ => none
  | some x :: rest => (allSome rest).map (x :: ·)
/-- Intervals of (start, length) that do not overlap. -/
def disjoint (l : List (Nat × Nat)) : Bool :=
  ((List.range l.length).zip l).all (fun a => ((List.range l.length).zip l).all (fun b =>
    a.1 == b.1 || a.2.2 == 0 || b.2.2 == 0 || decide (a.2.1 + a.2.2 ≤ b.2.1) || decide (b.2.1 + b.2.2 ≤ a.2.1)))
/-- A list without repeats. -/
def noDup {α : Type} [DecidableEq α] : List α → Bool
  | [] => true
  | x :: l => !l.contains x && noDup l
/-- PLAN (R135-R137), as far as the section alone decides. -/
def planOfBody (b : List Byte) (count : Nat) : Option CPlan :=
  let ng := rd 1 b 0
  let ns := rd 2 b 2
  match allSome ((List.range ns).map (fun i => stepOf (recAt b 32 (1 + ng + i)))) with
  | none => none
  | some steps =>
    let recs := (List.range ng).map (fun g => recAt b 32 (1 + g))
    match allSome (((List.range ng).zip recs).map (fun x => groupOf x.2 x.1 steps)) with
    | none => none
    | some groups =>
      let tiles := recs.map (fun r => (rd 2 r 0, rd 1 r 2))
      let p : CPlan := { retries := rd 1 b 1, retryPause := rd 4 b 4, groups := groups }
      if inR 1 64 ng && inR 1 2048 ns && count == 1 + ng + ns && zeros b [(0x08, 8)] && decide (p.retries ≤ 7) && inR 10 60000 p.retryPause &&
          disjoint tiles && (tiles.map (·.2)).sum == ns && noDup p.rails && noDup (groups.filterMap (·.outChain)) &&
          noDup (groups.filterMap (·.domain)) then some p else none
/-- A fault reaction set record (R150). -/
def reactOf (r : List Byte) : Option CReact :=
  let c : CReact := {
    used := rdBit r 0x49 0, trigRails := BitVec.ofNat 256 (rd 32 r 0), trigAnalog := BitVec.ofNat 64 (rd 8 r 0x20)
    members := BitVec.ofNat 256 (rd 32 r 0x28), causes := BitVec.ofNat 6 (rd 1 r 0x48), chains := BitVec.ofNat 16 (rd 2 r 0x4A) }
  if flagsOk r 0x48 6 && flagsOk r 0x49 1 && rd 4 r 0x4C == 0 && (!c.used || c.trigRails != 0 || c.trigAnalog != 0) &&
      (!c.used || c.trigRails == 0 || c.causes != 0) then some c else none
/-- A scan entry (R208, R209). -/
def scanEntryOf (r : List Byte) : Option CScanEntry :=
  let e : CScanEntry := {
    input := BitVec.ofNat 10 (rd 2 r 0), winEn := rdBit r 2 0, currentMode := rdBit r 2 1, winLo := rdS 2 r 4, winHi := rdS 2 r 6 }
  let i := rd 2 r 0
  let analog := inR 0x200 0x23F i
  if decide (i < 512) || analog || inR 0x300 0x33F i then
    if flagsOk r 2 2 && zeros r [(0x03, 1), (0x08, 8)] && (!e.currentMode || analog) && (!e.winEn || decide (e.winLo < e.winHi)) then
      some e else none
  else none
/-- SCAN (R208, R209), as far as the section alone decides. -/
def scanOf (b : List Byte) (count : Nat) : Option CScan :=
  let n := rd 1 b 0
  match allSome ((List.range n).map (fun i => scanEntryOf (recAt b 16 (1 + i)))) with
  | none => none
  | some es =>
    if inR 1 64 n && count == 1 + n && decide (rd 1 b 1 ≤ 3) && decide (rd 2 b 2 < 1024) && rd 1 b 4 % 2 == 0 && flagsOk b 4 4 &&
        zeros b [(0x05, 1), (0x08, 8)] && inR 10 1440 (rd 2 b 6) then
      some { avg := 2 ^ rd 1 b 1, snapInput := BitVec.ofNat 10 (rd 2 b 2), lowPower := BitVec.ofNat 4 (rd 1 b 4)
             calIntervalMin := rd 2 b 6, entries := es }
    else none
/-- A TRIP record of an analog comparator (R241, R242); a rail's has HYST alone. -/
def cmpOf (r : List Byte) (rail : Bool) : Option CCmp :=
  if rail then
    if decide (rd 1 r 0 ≤ 3) && zeros r [(1, 15)] then
      some { used := false, loEn := false, hiEn := false, hyst := BitVec.ofNat 2 (rd 1 r 0), lo := 0, hi := 0 }
    else none
  else
    let c : CCmp := { used := rdBit r 0 0, loEn := rdBit r 0 1, hiEn := rdBit r 0 2, hyst := BitVec.ofNat 2 (rd 1 r 1)
                      lo := rd 2 r 2, hi := rd 2 r 4 }
    if flagsOk r 0 3 && zeros r [(6, 10)] && decide (rd 1 r 1 ≤ 3) && decide (c.lo ≤ 1023) && decide (c.hi ≤ 1023) &&
        (!(c.loEn && c.hiEn) || decide (c.lo < c.hi)) && (!c.used || c.loEn || c.hiEn) then some c else none
/-- A TRIP record of S6-S15 (R241). -/
def smpOf (r : List Byte) : Option CSmp :=
  let c : CSmp := { used := rdBit r 0 0, wake := rdBit r 0 1, rising := rdBit r 0 2, hyst := BitVec.ofNat 2 (rd 1 r 1)
                    point := Fin.ofNat 64 (rd 1 r 2), count := rd 1 r 3, thresh := rd 2 r 4 }
  if flagsOk r 0 3 && zeros r [(6, 10)] && (!c.used || (decide (rd 1 r 1 ≤ 3) && inR 32 63 (rd 1 r 2) && inR 1 16 c.count && decide (c.thresh ≤ 1023)))
  then some c else none
/-- TRIP (R241, R242). -/
def tripOf (b : List Byte) : Option CTrip :=
  match allSome ((List.range 320).map (fun i => cmpOf (recAt b 16 (1 + i)) (i < 256))),
      allSome ((List.range 10).map (fun j => smpOf (recAt b 16 (327 + j)))) with
  | some cs, some ss =>
    if inR 50 1000 (rd 2 b 0) && zeros b [(2, 14), (16 * 321, 96)] &&
        noDup ((ss.filter (·.used)).map (·.point)) then some { smpPeriod := rd 2 b 0, cmps := cs, smps := ss } else none
  | _, _ => none
/-- EVENT (R258, R259). -/
def eventOf (b : List Byte) : Option CEvent :=
  let al (r : List Byte) : CAlert := { filter := rd 2 r 0, used := rdBit r 2 0, pol := rdBit r 2 1, rise := rdBit r 2 2
                                       fall := rdBit r 2 3, wake := rdBit r 2 4 }
  let alOk (r : List Byte) : Bool :=
    if rdBit r 2 0 then inR 1 4095 (rd 2 r 0) && flagsOk r 2 5 && (rdBit r 2 2 || rdBit r 2 3) else rd 2 r 0 == 0 && rd 1 r 2 == 0
  let rs := (List.range 8).map (fun i => recAt b 8 (32 + i))
  let route := (List.range 1024).map (fun n => BitVec.ofNat 64 (rd 8 b (8 * (40 + n))))
  if rs.all (fun r => alOk r && zeros r [(3, 5)]) && (List.range 32).all (fun g => zeros b [(8 * g + 2, 6)]) &&
      ((List.range 1024).zip route).all (fun x => !reservedSource x.1 || x.2 == 0) then
    some { holdoff := (List.range 32).map (fun g => rd 2 b (8 * g)), alert := rs.map al, route := route }
  else none
/-- SECURITY (R488). -/
def securityOf (b : List Byte) : Option CSecurity :=
  let rs := (List.range 16).map (fun m => recAt b 16 (1 + m))
  let regions := rs.map (fun r => ({ trace := rdBit r 0 0, readProt := rdBit r 0 1, writeProt := rdBit r 0 2, pages := rd 2 r 2 } : CRegion))
  if inR 8 32 (rd 1 b 0) && flagsOk b 1 1 && zeros b [(2, 14)] && rs.all (fun r => flagsOk r 0 3 && zeros r [(1, 1), (4, 12)]) && decide ((regions.map (·.pages)).sum ≤ 65536) then
    some { minLen := rd 1 b 0, hostRelease := rdBit b 1 0, regions := regions }
  else none
/-- WATCHDOG (R459). -/
def watchdogOf (b : List Byte) : Option CWatchdog :=
  if decide (rd 2 b 0 ≤ 65534) && decide (rd 2 b 0 < rd 2 b 2) && inR 1 600 (rd 2 b 4) && decide (rd 1 b 6 ≤ 2) &&
      (rd 1 b 6 != 2 || decide (rd 1 b 7 < 16)) && flagsOk b 8 1 && zeros b [(9, 1), (0xC, 4)] && inR 20 1000 (rd 2 b 0xA) then
    some { openMs := rd 2 b 0, closeMs := rd 2 b 2, firstS := rd 2 b 4, action := rd 1 b 6, domain := Fin.ofNat 16 (rd 1 b 7)
           lock := rdBit b 8 0, spnTimeoutUs := rd 2 b 0xA }
  else none
/-- Words of a code body. -/
def wordsAt (b : List Byte) (o n : Nat) : List Word := bytesToWords n (b.drop o)
/-- Entries (START, WCET) of a bead or subroutine table. -/
def tableAt (b : List Byte) (o n : Nat) : List (Nat × Nat) := (List.range n).map (fun i => (rd 4 b (o + 8 * i), rd 4 b (o + 8 * i + 4)))
/-- PROGRAM (R309, R310), as far as the section alone decides. -/
def progOf (b : List Byte) (digest : List Byte) : Option CProg :=
  let nb := rd 2 b 8
  let nsub := rd 2 b 0xA
  let nw := rd 4 b 0xC
  let task := rd 1 b 0 == 2
  let q := rd 2 b 0x20
  let p : CProg := {
    task := task, pair := Fin.ofNat 8 (rd 1 b 1), order := rd 1 b 2, crit := rd 1 b 3, div := rd 1 b 4, phase := rd 1 b 5
    init := rdBit b 6 0, stopOnFault := rdBit b 6 1, wcetCycle := rd 4 b 0x10, dataBase := rd 4 b 0x14, dataLen := rd 4 b 0x18
    locBase := rd 2 b 0x1C, locLen := rd 2 b 0x1E, queue := if task then some (Fin.ofNat 4096 q) else none
    flagOwn := BitVec.ofNat 64 (rd 8 b 0x28), eventOwn := BitVec.ofNat 224 (rd 28 b 0x30)
    fieldOwn := BitVec.ofNat 128 (rd 16 b 0x4C), hostBase := rd 2 b 0x5C, hostLen := rd 2 b 0x5E
    beads := tableAt b 128 nb, subs := tableAt b (128 + 8 * nb) nsub
    code := wordsAt b (128 + 8 * nb + 8 * nsub) nw, digest := digest }
  if inR 1 2 (rd 1 b 0) && decide (rd 1 b 1 < 8) && flagsOk b 6 2 && zeros b [(0x07, 1), (0x22, 6), (0x70, 16)] && inR 1 4096 nb && decide (nsub ≤ 4096) &&
      b.length == 128 + 8 * nb + 8 * nsub + 4 * nw && p.beads.all (fun x => decide (x.2 ≤ 160000)) &&
      (if task then decide (q < 4096) else q == 0xFFFF && inR 1 255 p.div && decide (p.phase < p.div)) &&
      decide (p.dataBase + p.dataLen ≤ 3932160) && decide (p.locBase + p.locLen ≤ 65536) && decide (p.hostBase + p.hostLen ≤ 4096)
  then some p else none
/-- A temperature source code (R340). -/
def tsrcOf (x : Nat) : Option TSrc :=
  if x < 0x40 then some (.analog (Fin.ofNat 64 x)) else if x < 0x80 then some (.internal (Fin.ofNat 64 x)) else none
/-- A thermal domain record (R340). -/
def thermOf (r : List Byte) : Option CTherm :=
  let used := rdBit r 0x1C 0
  let c (amb : TSrc) (meas : Option TSrc) : CTherm := {
    used := used, c := rd 4 r 0, rOn := rd 4 r 4, rOff := rd 4 r 8, tLim := rdS 2 r 0xC, amb := amb, meas := meas
    pBase := rd 4 r 0x10, ambGain := rdS 2 r 0x14, ambOffset := rdS 2 r 0x16, measGain := rdS 2 r 0x18, measOffset := rdS 2 r 0x1A }
  if !(flagsOk r 0x1C 1 && zeros r [(0x1D, 3)]) then none
  else if used then
    match tsrcOf (rd 1 r 0xE), (if rd 1 r 0xF = 0xFF then some none else (tsrcOf (rd 1 r 0xF)).map some) with
    | some a, some m => if decide (rd 4 r 4 ≤ rd 4 r 8) then some (c a m) else none
    | _, _ => none
  else some (c (.analog 0) none)
/-- A host domain record (R352). -/
def domOf (r : List Byte) : Option CDom :=
  let c : CDom := { used := rdBit r 1 0, therm := Fin.ofNat 8 (rd 1 r 0), alwaysOn := rdBit r 1 1, maxInflight := rd 1 r 2
                    wakeUj := rd 4 r 4, idleMs := rd 4 r 8 }
  if flagsOk r 1 2 && zeros r [(3, 1), (0xC, 20)] &&
      (!c.used || (decide (rd 1 r 0 < 8) && inR 1 255 c.maxInflight && inR 1 3600000 c.idleMs)) then some c else none
/-- A queue record (R343); `depth` is TOKEN_DEPTH. -/
def queueOf (r : List Byte) (depth : Nat) : Option CQueue :=
  let t := rd 1 r 1
  let notify := rdBit r 3 1
  let c : CQueue := {
    used := rdBit r 3 0, prio := rd 1 r 0, dom := if t = 0 then none else some (Fin.ofNat 16 t), therm := Fin.ofNat 8 (rd 1 r 2)
    notify := if notify then some (Fin.ofNat 32 (rd 1 r 0xC)) else none, est := rd 4 r 4, latency := rd 4 r 8, depth := rd 2 r 0xE }
  if flagsOk r 3 2 && zeros r [(0xD, 1)] && (!c.used || (decide (c.prio ≤ 15) && (t == 0 || inR 0x10 0x1F t) && decide (rd 1 r 2 < 8) && inR 1 depth c.est &&
      decide (c.latency ≤ 100000000) && (!notify || decide (rd 1 r 0xC < 32)) &&
      (if t = 0 then inR 1 65535 c.depth else c.depth == 0))) then some c else none
/-- HEADSTOCK (R332-R343, R352), as far as the section alone decides. -/
def hdsOf (b : List Byte) : Option CHds :=
  let depth := rd 4 b 8
  let lv (i : Nat) : List Byte := recAt b 32 (1 + i)
  let levels := (List.range 4).map (fun i => ({ plan := Fin.ofNat 8 (rd 1 (lv i) 0), minH := rd 4 (lv i) 4, pKey := rd 4 (lv i) 8
                                                pAllow := rd 4 (lv i) 0xC } : CLevel))
  let falls (f : CLevel → Nat) : Bool := (levels.zip levels.tail).all (fun x => decide (f x.2 ≤ f x.1))
  match allSome ((List.range 8).map (fun h => thermOf (recAt b 32 (6 + h)))),
      allSome ((List.range 16).map (fun d => domOf (recAt b 32 (14 + d)))),
      allSome ((List.range 4096).map (fun q => (queueOf (recAt b 32 (30 + q)) depth).map (fun c => (Fin.ofNat 4096 q, c)))) with
  | some ts, some ds, some qs =>
    let used := qs.filter (fun x => x.2.used)
    let usedT (h : Fin 8) : Bool := match ts[h.val]? with | some t => t.used | none => false
    let usedD (d : Fin 16) : Bool := match ds[d.val]? with | some x => x.used | none => false
    let urgent := rd 1 b 0xE
    let fan := rd 1 b 3
    let line := rd 1 b 5
    if zeros b [(0xF, 1), (0x14, 12)] && (List.range 5).all (fun i => zeros (lv i) [(1, 3), (0x10, 16)]) &&
        inR 100 60000 (rd 2 b 0) && decide (rd 1 b 2 ≤ 50) && (fan == 0 || fan == 1 || fan == 0xFF) && (line == 0 || line == 0xFF) &&
        !(fan == 0 && line == 0xFF) && (fan != 1 || decide (rd 1 b 4 < 128)) && inR 100 10000 (rd 2 b 6) &&
        inR 1000 2000000000 depth && (urgent == 0xFF || decide (urgent ≤ 15)) && inR 1000 600000 (rd 4 b 0x10) &&
        (List.range 4).all (fun i => decide (rd 1 (lv i) 0 < 8)) && rd 1 (lv 4) 0 == 0xFF && ((lv 4).drop 4).take 12 == List.replicate 12 0 &&
        falls (·.pKey) && falls (·.pAllow) && ds.all (fun d => !d.used || usedT d.therm) &&
        used.all (fun x => usedT x.2.therm && (match x.2.dom with | some d => usedD d | none => true)) &&
        decide (((used.filter (fun x => x.2.dom.isNone)).map (fun x => x.2.depth)).sum ≤ 65536) then
      some { upHold := rd 2 b 0, hyst := rd 1 b 2, fanSrc := fan, fanPoint := Fin.ofNat 128 (rd 1 b 4), lineMeter := line == 0
             battTimeout := rd 2 b 6, depth := depth, pairMw := rd 2 b 0xC, urgent := optN 0xFF urgent, lookahead := rd 4 b 0x10
             levels := levels, therms := ts, doms := ds, queues := used }
    else none
  | _, _, _ => none
/-- A point record (R392, R393). -/
def pointOf (r : List Byte) : Option CPoint :=
  let mode : Option PMode := match rd 1 r 0 with
    | 0 => some .unused | 1 => some .inputT1 | 2 => some .inputT3 | 3 => some .input110 | 4 => some .output | _ => none
  let safe : Option SafeVal := match rd 1 r 1 with | 0 => some .off | 1 => some .on | 2 => some .hold | _ => none
  if !zeros r [(4, 12)] then none
  else match mode, safe with
  | some .output, some v => if rd 2 r 2 = 0 then some { mode := .output, safe := v, debounceUs := 0 } else none
  | some .unused, some .off => some { mode := .unused, safe := .off, debounceUs := 0 }
  | some m, some .off => if 1 ≤ rd 2 r 2 then some { mode := m, safe := .off, debounceUs := rd 2 r 2 } else none
  | _, _ => none
/-- FIELD (R392, R393), as far as the section alone decides. -/
def fieldOf (b : List Byte) : Option CField :=
  match allSome ((List.range 16).map (fun i => pointOf (recAt b 16 (1 + i)))) with
  | none => none
  | some ps =>
    let used := rdBit b 0 0
    if flagsOk b 0 1 && zeros b [(1, 1), (6, 10)] && (if used then inR 50 1000 (rd 2 b 2) && inR 1 1000 (rd 2 b 4)
        else rd 2 b 2 == 0 && rd 2 b 4 == 0 && ps.all (fun p => decide (p.mode = .unused))) then
      some { used := used, sampleUs := rd 2 b 2, timeoutMs := rd 2 b 4, points := ps }
    else none
/-- METER (R407). -/
def meterOf (b : List Byte) : Option CMeter :=
  let rs := (List.range 4).map (fun m => recAt b 32 (1 + m))
  let sets := rs.map (fun r => ({
    used := rdBit r 0 0, lineSense := rdBit r 0 1, reverse := rdBit r 0 2, vScale := rd 4 r 4, iScale := rd 4 r 8
    vGain := rdS 2 r 0xC, vOffset := rdS 2 r 0xE, iGain := rdS 2 r 0x10, iOffset := rdS 2 r 0x12, iDelay := rdS 2 r 0x14 } : CMSet))
  if inR 10 50 (rd 1 b 0) && inR 1 3600 (rd 2 b 2) && zeros b [(1, 1), (4, 28)] &&
      rs.all (fun r => flagsOk r 0 3 && zeros r [(1, 3), (0x16, 10)]) && sets.any (fun x => x.used && x.lineSense) then
    some { lossPct := rd 1 b 0, locMaxAge := rd 2 b 2, sets := sets }
  else none
/-- RECORD (R426). -/
def recordOf (b : List Byte) : Option (List CStream) :=
  let one (s : Nat) : Option CStream :=
    let r := recAt b 32 s
    let c : CStream := { used := rdBit r 0 0, prot := rdBit r 0 1, copies := rd 1 r 1, units := BitVec.ofNat 8 (rd 1 r 2)
                         retainH := rd 4 r 4, bufMib := rd 2 r 8 }
    let nu := ((List.range 8).filter (fun k => c.units.getLsbD k)).length
    if flagsOk r 0 2 && zeros r [(3, 1), (0xA, 6)] && (!c.used || (inR 1 2 c.copies && inR 1 262800 c.retainH && decide (c.copies ≤ nu) &&
        (if s = 0 then c.bufMib == 64 else if s = 1 then c.bufMib == 1 else inR 1 4000 c.bufMib))) then some c else none
  match allSome ((List.range 64).map one) with
  | none => none
  | some l =>
    let z := l.head?
    if (match z with | some c => c.used && c.prot && c.copies == 2 | none => false) &&
        decide ((((l.drop 2).filter (·.used)).map (·.bufMib)).sum ≤ 4000) then some l else none
/-- AGEING (R446). -/
def ageingOf (b : List Byte) : Option CAgeing :=
  if flagsOk b 0 3 && zeros b [(0xC, 20)] && decide (rd 1 b 1 ≤ 100) && inR 10 90 (rd 1 b 2) && decide (rd 1 b 3 ≤ 50) && inR 512 1024 (rd 2 b 4) &&
      inR 1024 2048 (rd 2 b 6) && inR 1000 87600 (rd 4 b 8) then
    some { narrowEn := rdBit b 0 0, estEn := rdBit b 0 1, thermEn := rdBit b 0 2, narrowMax := rd 1 b 1, healthEol := rd 1 b 2
           thermMax := rd 1 b 3, estMin := rd 2 b 4, estMax := rd 2 b 6, warnH := rd 4 b 8 }
  else none
/-- Role of port `n` in ROLES (R471). -/
def portRole (roles n : Nat) : Nat := roles / 4 ^ n % 4
/-- LINKS (R377, R471), as far as the section alone decides. -/
def linksOf (b : List Byte) : Option CLinks :=
  let net := rd 1 b 2
  let roles := rd 1 b 5
  let en := (List.range 4).filter (fun n => net.testBit n)
  let rs := en.map (portRole roles)
  if decide (0x98 ≤ b.length) && zeros b [(0x07, 1), (0x31, 1), (0x36, 0x4A), (0x81, 1), (0x96, 2)] && flagsOk b 0 4 && flagsOk b 3 4 && decide (rd 1 b 4 ≤ 127) && rs.all (fun r => decide (r ≤ 2)) && noDup rs &&
      (!rs.contains 1 || rs.contains 0) && inR 8 30 (rd 1 b 6) && inR 8 30 (rd 1 b 0x30) && inR 1 65535 (rd 2 b 0x32) &&
      inR 10 3600 (rd 2 b 0x34) && flagsOk b 0x80 2 && inR 100 10000 (rd 2 b 0x82) && rd 4 b 0x84 % 4096 == 0 &&
      rd 4 b 0x88 % 4096 == 0 && decide (rd 4 b 0x84 + rd 4 b 0x88 ≤ 3932160) && decide (2 ≤ rd 2 b 0x94) then
    some { linkEn := BitVec.ofNat 8 (rd 1 b 0), storageEn := BitVec.ofNat 8 (rd 1 b 1), netEn := BitVec.ofNat 4 net
           wakeEn := BitVec.ofNat 4 (net / 16), ptpEn := BitVec.ofNat 4 (rd 1 b 3), ptpDomain := rd 1 b 4
           roles := BitVec.ofNat 8 roles, prefix_ := rd 1 b 6, addrs := (List.range 4).map (fun n => BitVec.ofNat 32 (rd 4 b (8 + 4 * n)))
           speedComId := BitVec.ofNat 32 (rd 4 b 0x18), speedOffset := rd 2 b 0x1C, locOffset := rd 2 b 0x1E
           locComId := BitVec.ofNat 32 (rd 4 b 0x20), cmdComId := BitVec.ofNat 32 (rd 4 b 0x24)
           statusComId := BitVec.ofNat 32 (rd 4 b 0x28), edivoAddr := BitVec.ofNat 32 (rd 4 b 0x2C), edivoPrefix := rd 1 b 0x30
           edivoTcp := rd 2 b 0x32, sessionTimeout := rd 2 b 0x34, hsbEnabled := rdBit b 0x80 0, preferPrimary := rdBit b 0x80 1
           seekMs := rd 2 b 0x82, mirrorBase := rd 4 b 0x84, mirrorLen := rd 4 b 0x88, pairId := dw (rd 8 b 0x8C)
           syncLead := rd 2 b 0x94 }
  else none

end Sys2Proof.Machine
end

