-- ==== Sys2Proof/Machine/Image.lean ====
section
/-!
DEFINITION. Sections put into a configuration, the fit of the programs (R292), the consistency of an image (R101) with the
limits that several sections share, and the checks of R102 in their order.
-/
namespace Sys2Proof
open Sys2Proof.Machine

/-! ### A section in a configuration (R100) -/

/-- The shape of a section's body: RECORD_COUNT and RECORD_SIZE as its chapter fixes them; none where the body decides. -/
def secShape : Nat → Option (Nat × Nat)
  | 0x02 => some (1, 96) | 0x04 => some (128, 80) | 0x06 => some (337, 16) | 0x07 => some (17, 16)
  | 0x08 => some (1064, 8) | 0x0A => some (4126, 32) | 0x0B => some (5, 32) | 0x0C => some (64, 32) | 0x0D => some (1, 32)
  | 0x0E => some (1, 16) | 0x10 => some (17, 16)
  | _ => none
/-- Whether a section's shape and body format are those of its chapter. -/
def Sec.shapeOk (x : Sec) : Bool :=
  x.typ == 0x80 || (x.fmt == 1 && (match secShape x.typ with
    | some p => x.recCount == p.1 && x.recSize == p.2 && decide (p.1 * p.2 ≤ x.body.length)
    | none => if x.typ = 0x03 then x.recSize == 32 && decide (x.recCount * 32 ≤ x.body.length)
              else if x.typ = 0x05 then x.recSize == 16 && decide (x.recCount * 16 ≤ x.body.length)
              else true))
/-- The instances of a section type (R100); none for a type that the table does not list. -/
def instances : Nat → Option Nat
  | 0x01 | 0x04 | 0x06 | 0x08 | 0x0A | 0x0B | 0x0C | 0x0D | 0x0E | 0x0F | 0x10 => some 1
  | 0x02 | 0x09 => some 256
  | 0x03 | 0x07 => some 8
  | 0x05 | 0x80 => some 16
  | _ => none
/-- A section read into a configuration; none when its own limits are broken. -/
def Cfg.put (c : Cfg) (x : Sec) : Option Cfg :=
  if !x.shapeOk then none
  else match x.typ with
  | 0x01 => (moduleOf x.body).map (fun v => { c with module := some v })
  | 0x02 => (railOf x.body x.serial).map (fun v => { c with rail := tset c.rail (Fin.ofNat 256 x.inst) (some v) })
  | 0x03 => (planOfBody x.body x.recCount).map (fun v => { c with plan := tset c.plan (Fin.ofNat 8 x.inst) (some v) })
  | 0x04 => (allSome ((List.range 128).map (fun s => reactOf (recAt x.body 80 s)))).map (fun v => { c with react := some v })
  | 0x05 => (scanOf x.body x.recCount).map (fun v => { c with scan := tset c.scan (Fin.ofNat 16 x.inst) (some v) })
  | 0x06 => (tripOf x.body).map (fun v => { c with trip := some v })
  | 0x07 => (fieldOf x.body).map (fun v => { c with field := tset c.field (Fin.ofNat 8 x.inst) (some v) })
  | 0x08 => (eventOf x.body).map (fun v => { c with event := some v })
  | 0x09 => (progOf x.body x.digest).map (fun v => { c with prog := tset c.prog (Fin.ofNat 256 x.inst) (some v) })
  | 0x0A => (hdsOf x.body).map (fun v => { c with hds := some v })
  | 0x0B => (meterOf x.body).map (fun v => { c with meter := some v })
  | 0x0C => (recordOf x.body).map (fun v => { c with record := some v })
  | 0x0D => (ageingOf x.body).map (fun v => { c with ageing := some v })
  | 0x0E => (watchdogOf x.body).map (fun v => { c with watchdog := some v })
  | 0x0F => (linksOf x.body).map (fun v => { c with links := some v })
  | 0x10 => (securityOf x.body).map (fun v => { c with security := some v })
  | 0x80 => some c
  | _ => none
/-- The configuration of a list of sections; a section that breaks its own limits stays out. -/
def cfgOf (l : List Sec) : Cfg := l.foldl (fun c x => (c.put x).getD c) {}

/-! ### The fit of the programs (R292, R310) -/

/-- Two cyclic programs are due in one cycle for some cycle number (R309): their phases agree modulo the greatest common
divisor of their CYCLE_DIVs. -/
def dueTogether (a b : Nat × Nat) : Bool := a.2 % Nat.gcd a.1 b.1 == b.2 % Nat.gcd a.1 b.1
/-- The largest sum of worst cases of programs (CYCLE_DIV, CYCLE_PHASE, worst case) that are due in one cycle. -/
def maxDue : List (Nat × Nat × Nat) → List (Nat × Nat) → Nat
  | [], _ => 0
  | p :: rest, chosen =>
    let without := maxDue rest chosen
    if chosen.all (dueTogether (p.1, p.2.1)) then max without (p.2.2 + maxDue rest ((p.1, p.2.1) :: chosen)) else without
/-- The worst case of a cyclic program under a slowdown factor in 1/4,096, in 0.1 ns, rounded up (R29, R292). -/
def CProg.worst (p : CProg) (factor : Nat) : Nat := (p.wcetCycle * max 4096 factor + 4095) / 4096
/-- The cyclic programs of pair `l` among those that `keep` keeps. -/
def Cfg.cyclicOf (c : Cfg) (l : LPairN) (keep : ProgN → Bool) : List (ProgN × CProg) :=
  (List.finRange 256).filterMap (fun n => match c.prog[n] with
    | some p => if !p.task && p.pair == l && keep n then some (n, p) else none
    | none => none)
/-- Whether the programs kept fit their windows on pair `l` under a factor (R292). -/
def Cfg.fitsPair (c : Cfg) (factor : Nat) (keep : ProgN → Bool) (l : LPairN) : Bool :=
  match c.module with
  | some m => decide (maxDue ((c.cyclicOf l keep).map (fun x => (x.2.div, x.2.phase, x.2.worst factor))) [] ≤ (m.cycleUs - 7) * 10000)
  | none => false
/-- Whether the programs kept fit on every pair. -/
def Cfg.fits (c : Cfg) (factor : Nat) (keep : ProgN → Bool) : Bool := (List.finRange 8).all (c.fitsPair factor keep)

/-! ### References and limits that sections share (R101) -/

/-- Rail `n` is used. -/
def Cfg.usedRail (c : Cfg) (n : Nat) : Bool :=
  match c.rail[Fin.ofNat 256 n] with | some r => r.used && decide (n < 256) | none => false
/-- Field point `p` has an input MODE. -/
def Cfg.inputPoint (c : Cfg) (p : PointN) : Bool :=
  match c.field[Fin.ofNat 8 (p.val / 16)] with
  | some f => f.used && (match f.points[p.val % 16]? with
    | some x => (match x.mode with | .inputT1 | .inputT3 | .input110 => true | _ => false)
    | none => false)
  | none => false
/-- Field point `p` is an output. -/
def Cfg.outputPoint (c : Cfg) (p : PointN) : Bool :=
  match c.field[Fin.ofNat 8 (p.val / 16)] with
  | some f => f.used && (match f.points[p.val % 16]? with | some x => decide (x.mode = .output) | none => false)
  | none => false
/-- A plan's references (R137). -/
def Cfg.planOk (c : Cfg) (p : CPlan) : Bool :=
  p.groups.all (fun g => g.steps.all (fun x => x.rails.all (fun n => c.usedRail n.val) &&
    (match x.waitRail with | some n => c.usedRail n.val | none => true) && (!x.field || c.inputPoint x.point)))
/-- The references of the fault reaction sets (R150, R242). -/
def Cfg.reactOk (c : Cfg) (l : List CReact) : Bool :=
  l.all (fun r => !r.used || ((List.range 256).all (fun n => !(r.trigRails.getLsbD n || r.members.getLsbD n) || c.usedRail n) &&
    (List.range 64).all (fun a => !r.trigAnalog.getLsbD a ||
      (match c.trip with
      | some t => (match t.cmps[256 + a]? with | some k => k.used | none => false)
      | none => false))))
/-- The converter an input code is wired to (R200). -/
def inputConv (i : Nat) : Nat := if i < 512 then i % 256 / 16 else i % 64 / 4
/-- The limits of converter `k`'s list (R209): reach, averaging as its partner's, no input of an unused rail. -/
def Cfg.scanOk (c : Cfg) (k : ConvN) (l : CScan) : Bool :=
  let o := partner k
  let reach (i : Nat) : Bool := inputConv i == k.val || inputConv i == o.val
  let other : List CScanEntry := match c.scan[o] with | some x => x.entries | none => []
  (match c.scan[o] with | some x => x.avg == l.avg | none => true) && reach l.snapInput.toNat &&
    l.entries.all (fun e => reach e.input.toNat && (decide (512 ≤ e.input.toNat) || c.usedRail (e.input.toNat % 256))) &&
    noDup ((l.entries ++ other).map (fun e => e.input))
/-- Every input that must stand in a list does (R209), among those wired to converter `k`. -/
def Cfg.scanFull (c : Cfg) (k : ConvN) : Bool :=
  let ins := c.scan.toList.flatMap (fun o => match o with | some l => l.entries.map (fun e => e.input.toNat) | none => [])
  (List.range 16).all (fun i =>
    let n := 16 * k.val + i
    match c.rail[Fin.ofNat 256 n] with
    | some r => !r.used || (ins.contains n && (!r.ocUsed || ins.contains (256 + n)))
    | none => true) && (List.range 4).all (fun i => ins.contains (0x300 + 4 * k.val + i))
/-- A used measurement set's points stand in voltage mode (R405). -/
def Cfg.meterOk (c : Cfg) (m : CMeter) : Bool :=
  let entries := c.scan.toList.flatMap (fun o => match o with | some l => l.entries | none => [])
  let current (a : Nat) : Bool := entries.any (fun e => e.input == BitVec.ofNat 10 (0x200 + a) && e.currentMode)
  ((List.range 4).zip m.sets).all (fun x => !x.2.used || !(current (56 + x.1) || current (60 + x.1)))
/-- The programs of a configuration, numbered. -/
def Cfg.progs (c : Cfg) : List (ProgN × CProg) :=
  (List.finRange 256).filterMap (fun n => (c.prog[n]).map (fun p => (n, p)))
/-- The limits of program `n` against the rest (R101, R310, R393). -/
def Cfg.progOk (c : Cfg) (n : ProgN) (p : CProg) : Bool :=
  let rest := c.progs.filter (fun x => x.1 != n)
  let mates := rest.filter (fun x => x.2.pair == p.pair)
  let hits (a b : Nat × Nat) : Bool := decide (0 < a.2) && decide (0 < b.2) && decide (a.1 < b.1 + b.2) && decide (b.1 < a.1 + a.2)
  let bank := ((p :: mates.map (·.2)).map (fun q => 8 * (q.beads.length + q.subs.length) + 4 * q.code.length)).sum
  let cyc := match c.module with | some m => m.cycleUs | none => 0
  decide (bank ≤ 524288) && mates.all (fun x => !hits (p.locBase, p.locLen) (x.2.locBase, x.2.locLen) &&
      (p.task || x.2.task || p.order != x.2.order)) &&
    rest.all (fun x => !hits (p.dataBase, p.dataLen) (x.2.dataBase, x.2.dataLen) && p.flagOwn &&& x.2.flagOwn == 0 &&
      p.eventOwn &&& x.2.eventOwn == 0 && p.fieldOwn &&& x.2.fieldOwn == 0 && !hits (p.hostBase, p.hostLen) (x.2.hostBase, x.2.hostLen)) &&
    (List.finRange 128).all (fun f => !p.fieldOwn.getLsbD f.val || (c.outputPoint f &&
      (p.task || (match c.field[Fin.ofNat 8 (f.val / 16)] with
        | some g => decide (2 * p.div * cyc ≤ g.timeoutMs * 1000)
        | none => false)))) &&
    (match p.queue with
    | none => true
    | some q => (match c.hds with
      | some h => h.queues.any (fun x => x.1 == q && x.2.dom.isNone)
      | none => false)) &&
    p.code.all (fun w => !(w.extractLsb' 24 8 == 0x40#8 || w.extractLsb' 24 8 == 0x41#8) || c.usedRail (w.toNat % 256)) &&
    c.fitsPair 4096 (fun _ => true) p.pair
/-- The references of HEADSTOCK (R333, R335, R343, R352). -/
def Cfg.hdsOk (c : Cfg) (h : CHds) : Bool :=
  let plans := h.levels.map (fun l => c.plan[l.plan])
  (!h.lineMeter || c.meter.isSome) && (h.fanSrc != 1 || c.inputPoint h.fanPoint) && plans.all Option.isSome &&
    ((List.finRange 16).zip h.doms).all (fun d => !d.2.used || plans.all (fun p => match p with
      | some p => p.groups.any (fun g => g.domain == some d.1)
      | none => false)) &&
    h.queues.all (fun q => q.2.dom.isSome || (c.progs.filter (fun p => p.2.queue == some q.1)).length == 1)
/-- The references of one section, and the limits it shares with others (R101). -/
def Cfg.secOk (c : Cfg) (x : Sec) : Bool :=
  match x.typ with
  | 0x03 => (match c.plan[Fin.ofNat 8 x.inst] with | some p => c.planOk p | none => false)
  | 0x04 => (match c.react with | some l => c.reactOk l | none => false)
  | 0x05 => (match c.scan[Fin.ofNat 16 x.inst] with
    | some l => c.scanOk (Fin.ofNat 16 x.inst) l && c.scanFull (Fin.ofNat 16 x.inst)
    | none => false)
  | 0x0B => (match c.meter with | some m => c.meterOk m | none => false)
  | 0x09 => (match c.prog[Fin.ofNat 256 x.inst] with | some p => c.progOk (Fin.ofNat 256 x.inst) p | none => false)
  | 0x0A => (match c.hds with | some h => c.hdsOk h | none => false)
  | 0x0D => (match c.ageing, c.module with | some a, some m => decide (a.healthEol < m.healthWarn) | _, _ => false)
  | 0x0E => (match c.watchdog, c.hds with
    | some w, some h => w.action != 2 || (match h.doms[w.domain.val]? with | some d => d.used | none => false)
    | _, _ => false)
  | 0x0F => (match c.links, c.module with
    | some l, some m => !l.hsbEnabled || (decide (250 ≤ m.cycleUs) &&
        decide (l.mirrorLen ≤ if m.cycleUs < 500 then 262144 else 524288))
    | _, _ => false)
  | _ => true
/-- The sections that every image holds on a module of a hardware revision (R101). -/
def required (hwRev : Nat) : List (Nat × Nat) :=
  [(1, 0), (0x0A, 0), (8, 0), (0x0E, 0), (0x0F, 0), (0x10, 0), (0x0D, 0), (3, 0)] ++ (List.range 256).map (fun n => (2, n)) ++
    (List.range 16).map (fun n => (5, n)) ++ ((List.range 16).filter (codeNeeded hwRev).getLsbD).map (fun n => (0x80, n))
/-- The first section, in table order, that breaks R101; missing sections come last. -/
def firstBad (hwRev : Nat) (l : List Sec) : Option (Nat × Nat) :=
  let c := cfgOf l
  let bad (x : Nat × Sec) : Bool :=
    (match instances x.2.typ with | some n => decide (n ≤ x.2.inst) | none => true) ||
      (l.take x.1).any (fun y => y.typ == x.2.typ && y.inst == x.2.inst) ||
      ((Cfg.put {} x.2).isNone) || !c.secOk x.2
  match ((List.range l.length).zip l).find? bad with
  | some x => some (x.2.typ, x.2.inst)
  | none => (required hwRev).find? (fun r => !l.any (fun x => x.typ == r.1 && x.inst == r.2))

/-! ### The checks of an image (R102, R105) -/

/-- A result of LOAD or of a verification: its code, and the section for codes 0x04, 0x06 and 0x0B. -/
structure LoadRes where
  code : Nat
  typ : Nat := 0
  inst : Nat := 0
deriving DecidableEq, Repr
/-- An image that passed its checks: header and sections. -/
structure Image where
  hdr : ImgHdr
  secs : List Sec
deriving DecidableEq, Repr
/-- The checks of R102 from 0x04 on, over one bank, in their order. `digest` is the selector's MANIFEST_DIGEST, none where
verification leaves 0x05 out (R105); `key` the customer public key; `position` what the image must name. -/
def checkImage (b : List Byte) (digest : Option (List Byte)) (key position : List Byte) (hwRev : Nat) : LoadRes ⊕ Image :=
  match headerOf b with
  | none => .inl ⟨4, 0, 0⟩
  | some h =>
    let es := (List.range h.sectionCount).map (entryAt b)
    let ix := (List.range es.length).zip es
    match ix.find? (fun e => !entryOk b h es e.1 e.2) with
    | some e => .inl ⟨4, e.2.typ, e.2.inst⟩
    | none =>
      if digest.any (fun d => sha384 (manifestOf b h) != d) then .inl ⟨5, 0, 0⟩
      else match es.find? (fun e => !sectionDigestOk b e || !bodyCrcOk b e) with
      | some e => .inl ⟨6, e.typ, e.inst⟩
      | none =>
        if !sigOk b 0x100 0x4D474953 makerKey (makerMessage b h es) then .inl ⟨7, 0, 0⟩
        else if h.customerKeyId != customerKeyId key || !sigOk b 0x200 0x43474953 key (customerMessage b h) then .inl ⟨8, 0, 0⟩
        else if h.position != position then .inl ⟨9, 0, 0⟩
        else if hwRev < h.hwMin || h.hwMax < hwRev then .inl ⟨0xA, 0, 0⟩
        else
          let secs := es.map (secOf b)
          match firstBad hwRev secs with
          | some y => .inl ⟨0xB, y.1, y.2⟩
          | none => .inr ⟨h, secs⟩

end Sys2Proof
end

