-- ==== Sys2Proof/Machine/Budget.lean ====
section
/-!
DEFINITION. The fit of the programs in service (R292, R311, R327): which programs are dropped under a slowdown factor on the
physical pairs that serve now.
-/
namespace Sys2Proof.Machine
open Sys2Proof

/-- The logical pairs that a physical pair serves (R326). -/
def PPair.serves (x : PPair) : List LPairN := x.lpA.toList ++ x.lpB.toList
/-- A program's place in the order of dropping: ascending CRITICALITY, the highest program number first among equals. -/
def dropsBefore (a b : ProgN × CProg) : Bool :=
  decide (a.2.crit < b.2.crit) || (a.2.crit == b.2.crit && decide (b.1.val < a.1.val))
/-- A program put in its place in the order of dropping. -/
def dropInsert (x : ProgN × CProg) : List (ProgN × CProg) → List (ProgN × CProg)
  | [] => [x]
  | y :: l => if dropsBefore x y then x :: y :: l else y :: dropInsert x l
/-- Programs dropped one by one, in order, until the rest fit. -/
def dropUntil (fits : List ProgN → Bool) : List ProgN → List ProgN → List ProgN
  | [], out => out
  | n :: rest, out => if fits out then out else dropUntil fits rest (out ++ [n])
/-- The programs that a physical pair serving `ls` drops under a factor (R292, R311, R327). -/
def State.dropsOn (s : State) (factor : Nat) (ls : List LPairN) : List ProgN :=
  match s.cfg.module with
  | none => []
  | some m =>
    let progs := ls.flatMap (fun l => s.cfg.cyclicOf l (fun _ => true))
    let fits (out : List ProgN) : Bool :=
      decide (maxDue ((progs.filter (fun x => !out.contains x.1)).map (fun x => (x.2.div, x.2.phase, x.2.worst factor))) [] ≤
        (m.cycleUs - 7) * 10000)
    dropUntil fits ((progs.foldr dropInsert []).map (·.1)) []
/-- The programs that do not fit under a factor (R311, R327). -/
def State.dropsFit (s : State) (factor : Nat) : List ProgN :=
  (List.finRange 9).flatMap (fun q => s.dropsOn factor s.spn.phys[q].serves)
/-- Every program dropped under a factor: what does not fit, and every program of a logical pair that no physical pair
serves (R327). -/
def State.dropsNow (s : State) (factor : Nat) : List ProgN :=
  let unplaced := (List.finRange 8).filter (fun l => (s.spn.lpair[l]).phys.isNone)
  s.dropsFit factor ++
    (List.finRange 256).filter (fun n => match s.cfg.prog[n] with | some p => unplaced.contains p.pair | none => false)
/-- BUDGET_EXCEEDED for a physical pair on which a check newly drops programs (R311, R327). -/
def State.noteBudget (s : State) (l : List ProgN) : State :=
  match l with
  | [] => s
  | n :: rest => (s.raise 13 1).laterFault (some 13) none "BUDGET_EXCEEDED" [rest.length + 1, n.val]
/-- A program enters DROPPED (R313): it is no longer due or ready; a bead that runs goes on to its end. -/
def State.dropProg (s : State) (n : ProgN) : State :=
  let gone (w : Nat × Waiter) : Bool := match w.2 with | .prog m => m != n | .host _ => true
  let s1 : State := s.modProg n (fun p => { p with st := .dropped, waitObj := none, woken := none })
  { s1 with
    spn := { s1.spn with lpair := tmap (fun x : LPair => { x with
      due := x.due.filter (· != n), ready := x.ready.filter (· != n) }) s1.spn.lpair }
    lck := { s1.lck with sync := tmap (fun o : SyncSt => { o with waits := o.waits.filter gone }) s1.lck.sync } }
/-- WCET_US of a logical pair at a check: its largest per-cycle sum of R292 over the programs that are kept. -/
def State.pairWcet (s : State) (factor : Nat) (drops : List ProgN) (l : LPairN) : Nat :=
  let progs := s.cfg.cyclicOf l (fun n => !drops.contains n)
  min 65535 (maxDue (progs.map (fun x => (x.2.div, x.2.phase, x.2.worst factor))) [] / 10000)
/-- The check of R311 at a factor: programs newly found not to fit are DROPPED, with BUDGET_EXCEEDED and a later-fault entry for
each pair that drops any, and DEGRADED; those that fit again return. -/
def State.checkBudget (s : State) (factor : BitVec 16) : State :=
  let drops := s.dropsNow factor.toNat
  let new := drops.filter (fun n => match s.spn.prog[n].st with | .dropped | .absent => false | _ => true)
  let back := (List.finRange 256).filter (fun n => decide (s.spn.prog[n].st = .dropped) && !drops.contains n)
  let s1 : State := { s with spn := { s.spn with
    checkFactor := factor, budgetDropped := s.dropsFit factor.toNat
    lpair := Vector.ofFn (fun l : Fin 8 => { s.spn.lpair[l] with wcetUs := s.pairWcet factor.toNat drops l }) } }
  let s2 : State := back.foldl (fun (s : State) n => s.modProg n (fun p => { p with st := .inactive })) s1
  let s3 : State := new.foldl State.dropProg s2
  let hit (q : PPairN) : List ProgN := (s.dropsOn factor.toNat s.spn.phys[q].serves).filter (fun n => new.contains n)
  ((List.finRange 9).foldl (fun (s : State) q => s.noteBudget (hit q)) s3).updDegraded

end Sys2Proof.Machine
end

