-- ==== Sys2Proof/Machine/Locks.lean ====
section
/-!
DEFINITION. Meanings: hardware locks, sync objects and deadlock detection (R368-R376).
-/
namespace Sys2Proof.Machine
open Sys2Proof

/-! ### Locks (R368-R370) -/

/-- Lock `k` changed by `f`. -/
def State.modLock (s : State) (k : Fin 256) (f : LockSt → LockSt) : State :=
  { s with lck := { s.lck with lock := tmod s.lck.lock k f } }
/-- The present reset epoch of an owner (R368). -/
def State.epochOf (s : State) (w : LockOwner) : Nat :=
  match w with
  | .pair l => s.lck.pairEpoch[l]
  | .host t => s.lck.tgt[t].epoch
/-- What an acquire answers (R369). -/
structure Acq where
  acquired : Bool
  poisoned : Bool
  own : Bool
deriving DecidableEq, Repr
/-- An acquire of lock `k` by `w` (R369). -/
def State.acquire (s : State) (k : Fin 256) (w : LockOwner) : State × Acq :=
  let x := s.lck.lock[k]
  match x.st with
  | .free => (s.modLock k (fun y => { y with st := .held, owner := w, epoch := s.epochOf w }), ⟨true, x.poisoned, false⟩)
  | .held => if x.owner = w then (s, ⟨true, x.poisoned, true⟩) else (s, ⟨false, false, false⟩)
  | .orphaned =>
    (s.modLock k (fun y => { y with st := .held, poisoned := true, owner := w, epoch := s.epochOf w }), ⟨true, true, false⟩)
/-- A release of lock `k` by `w`; the Bool says that `w` owned it (R369). -/
def State.release (s : State) (k : Fin 256) (w : LockOwner) (clear : Bool) : State × Bool :=
  let x := s.lck.lock[k]
  if x.st = .held && x.owner = w then
    (s.modLock k (fun y => { y with st := .free, poisoned := y.poisoned && !clear }), true)
  else (s, false)
/-- Every lock that an owner holds becomes ORPHANED at the rise of its epoch (R368). -/
def State.orphan (s : State) (w : LockOwner) : State :=
  let hit (x : LockSt) : Bool := decide (x.st = .held) && decide (x.owner = w)
  let n := (s.lck.lock.toList.filter hit).length
  if n = 0 then s
  else
    let s1 : State := { s with lck := { s.lck with
      lock := tmap (fun x => if hit x then { x with st := .orphaned } else x) s.lck.lock
      orphans := min 65535 (s.lck.orphans + n) } }
    s1.laterFault none none "LOCK_ORPHANED" [match w with | .pair l => l.val | .host t => 256 + t.val, n]
/-- A registered wait is taken off its object. -/
def State.unregister (s : State) (w : Waiter) : State :=
  { s with lck := { s.lck with sync := tmap (fun o : SyncSt => { o with waits := o.waits.filter (fun x => x.2 != w) }) s.lck.sync } }
/-- The wait of host target `t` ends with CANCELLED (R368, R373). -/
def State.cancelWait (s : State) (t : TgtN) : State :=
  if s.lck.tgt[t].wait.isSome then
    (s.unregister (.host t)).modLckTgt t (fun x => { x with wait := none, answer := .cancelled })
  else s
/-- The epoch of host target `t` rises (R368). -/
def State.riseHost (s : State) (t : TgtN) : State :=
  ((s.modLckTgt t (fun x => { x with epoch := x.epoch + 1 })).cancelWait t).orphan (.host t)
/-- The epochs of all host targets rise: PERST_N, a function-level reset, a host reset (R368). -/
def State.riseHosts (s : State) : State := (List.finRange 64).foldl State.riseHost s
/-- The epoch of logical pair `l` rises (R368). -/
def State.risePair (s : State) (l : LPairN) : State :=
  ({ s with lck := { s.lck with pairEpoch := tmod s.lck.pairEpoch l (· + 1) } }).orphan (.pair l)

/-- A target's operation has completed with an answer (LCK_TGT_RES). -/
def State.lckDone (s : State) (t : TgtN) (a : Ans) (q : Acq := ⟨false, false, false⟩) : State :=
  s.modLckTgt t (fun x => { x with
    done := true, acquired := q.acquired, poisoned := q.poisoned, heldOwn := q.own, answer := a, opSeq := x.opSeq + 1 })
/-- The lock that OBJECT names (R370); numbers above 255 name none. -/
def lockOf (o : Fin 1024) : Option (Fin 256) := if h : o.val < 256 then some ⟨o.val, h⟩ else none

/-- LCK_ACQUIRE (R369): ACQUIRE of host target `t`. -/
def execLckAcquire (t : TgtN) (o : Fin 1024) (s : State) : Out :=
  match lockOf o with
  | none => .next (s.lckDone t .refusedRange)
  | some k =>
    let r := s.acquire k (.host t)
    .next (r.1.lckDone t (if r.2.acquired then .accepted else .busy) r.2)
/-- A release by host target `t`. -/
def State.hostRelease (s : State) (t : TgtN) (o : Fin 1024) (clear : Bool) : State :=
  match lockOf o with
  | none => s.lckDone t .refusedRange
  | some k =>
    let r := s.release k (.host t) clear
    r.1.lckDone t (if r.2 then .accepted else .notOwner)
/-- LCK_RELEASE (R369). -/
def execLckRelease (t : TgtN) (o : Fin 1024) (s : State) : Out := .next (s.hostRelease t o false)
/-- LCK_RELEASE_CLEAR_POISON (R369). -/
def execLckReleaseClearPoison (t : TgtN) (o : Fin 1024) (s : State) : Out := .next (s.hostRelease t o true)

/-! ### Sync objects (R371-R373) -/

/-- SYNC_SIGNAL (R372): SIGNAL of host target `t`; outside the object's set it is answered NOT_SIGNALLER. -/
def execSyncSignal (t : TgtN) (o : Fin 1024) (s : State) : Out :=
  match s.syncRec o with
  | some r => if r.hosts.getLsbD t.val then .next ((s.lckDone t .accepted).signal o) else .next (s.lckDone t .notSignaller)
  | none => .next (s.lckDone t .notSignaller)
/-- The place of a waiter among those of one round: logical pairs first, then host targets, each in ascending number (R372). -/
def State.waitRank (s : State) (w : Waiter) : Nat :=
  match w with
  | .prog n => (match s.cfg.prog[n] with | some p => p.pair.val | none => 0)
  | .host t => 8 + t.val
/-- A wait registered on object `o` in the present dispatch round; among those of one round it takes the place of R372. -/
def State.register (s : State) (o : Fin 1024) (w : Waiter) : State :=
  let before (y : Nat × Waiter) : Bool := y.1 < s.lck.regNo || s.waitRank y.2 ≤ s.waitRank w
  s.modSync o (fun x => { x with waits := x.waits.filter before ++ [(s.lck.regNo, w)] ++ x.waits.filter (fun y => !before y) })
/-- A dispatch round ends: the waits that follow are registered in the next one (R372). -/
def State.endRound (s : State) : State := { s with lck := { s.lck with regNo := s.lck.regNo + 1 } }
/-- SYNC_WAIT (R372, R373): WAIT of host target `t` with a priority and a notification source. -/
def execSyncWait (t : TgtN) (o : Fin 1024) (notify : Fin 32) (prio : BitVec 8) (s : State) : Out :=
  if s.lck.tgt[t].wait.isSome then .next (s.lckDone t .refusedBusy)
  else if 0 < s.lck.sync[o].count then
    .next (((s.modSync o (fun x => { x with count := x.count - 1 })).lckDone t .signalled).raise (736 + notify.val))
  else
    .next (((s.lckDone t .pending).register o (.host t)).modLckTgt t (fun x => { x with wait := some (o, prio.toNat, notify) }))
/-- SYNC_CANCEL_WAIT (R373). -/
def execSyncCancelWait (t : TgtN) (s : State) : Out :=
  if s.lck.tgt[t].wait.isSome then .next ((s.lckDone t .cancelled).cancelWait t) else .next (s.lckDone t .none)
/-- RESET_EPOCH (R368): the epoch of host target `t` rises. -/
def execResetEpoch (t : TgtN) (s : State) : Out := .next ((s.lckDone t .accepted).riseHost t)
/-- SYNC_TIMER_SIGNAL (R372): TIMER_US of object `o` has passed; counted from the end of LOAD. -/
def execSyncTimerSignal (o : Fin 1024) (s : State) : Out :=
  match s.syncRec o with
  | some r => if r.timer then .next (s.signal o) else .next s
  | none => .next s

/-! ### Deadlock (R374, R375) -/

/-- A waiting program or host target in a deadlock test: who, its object, its priority and its registration number. -/
structure DlMember where
  who : Waiter
  obj : Fin 1024
  prio : Nat
  reg : Nat
deriving DecidableEq, Repr
/-- An object is closed (R374). -/
def State.closed (s : State) (o : Fin 1024) : Bool :=
  match s.syncRec o with
  | some r => !r.timer && !r.external && s.lck.sync[o].count == 0
  | none => false
/-- The priority of a waiter (R374). -/
def State.waitPrio (s : State) (w : Waiter) : Nat :=
  match w with
  | .prog n => (match s.cfg.prog[n] with | some p => p.crit | none => 0)
  | .host t => (match s.lck.tgt[t].wait with | some (_, p, _) => p | none => 0)
/-- Every waiter whose object is closed. -/
def State.dlWaiters (s : State) : List DlMember :=
  (List.finRange 1024).flatMap (fun o => if s.closed o then
    (s.lck.sync[o].waits).map (fun x => { who := x.2, obj := o, prio := s.waitPrio x.2, reg := x.1 }) else [])
/-- Whether every signaller of an object is a member of `d`. -/
def State.signallersIn (s : State) (o : Fin 1024) (d : List DlMember) : Bool :=
  match s.syncRec o with
  | some r =>
    (List.finRange 256).all (fun n => !r.programs.getLsbD n.val || d.any (fun x => x.who == .prog n)) &&
    (List.finRange 64).all (fun t => !r.hosts.getLsbD t.val || d.any (fun x => x.who == .host t))
  | none => false
/-- The passes of R374: members whose object has a signaller outside go, until none goes. -/
def State.dlShrink (s : State) : Nat → List DlMember → List DlMember
  | 0, d => d
  | k + 1, d =>
    let e := d.filter (fun x => s.signallersIn x.obj d)
    if e.length = d.length then d else s.dlShrink k e
/-- The better victim: the lowest priority, on a tie the latest registered: that of the later round, in one round that which R372 puts
last. -/
def State.dlVictim (s : State) (a : Option DlMember) (x : DlMember) : Option DlMember :=
  match a with
  | none => some x
  | some y =>
    let later := y.reg < x.reg || (x.reg == y.reg && s.waitRank y.who < s.waitRank x.who)
    if x.prio < y.prio || (x.prio == y.prio && later) then some x else some y
/-- The word of LCK_DEADLOCK (R375). -/
def State.wDeadlock (s : State) : Word :=
  pack [(0, 10, s.lck.dlObject.val), bit1 10 s.lck.dlVictimHost, (12, 8, s.lck.dlVictim), (20, 12, s.lck.dlCount)]
/-- Deadlock detection of one round (R374, R375): one victim is taken; the entry is made whether the record freezes or not. -/
def State.detect (s : State) : State :=
  let d0 := s.dlWaiters
  match (s.dlShrink d0.length d0).foldl s.dlVictim none with
  | none => s
  | some v =>
    let s1 : State := (s.unregister v.who).completeWait (fun s n => s.raise n) v.who true
    let host := match v.who with | .host _ => true | .prog _ => false
    let num := match v.who with | .host t => t.val | .prog n => n.val
    let s2 : State := { s1 with lck := { s1.lck with
      dlObject := v.obj, dlVictimHost := host, dlVictim := num, dlCount := min 4095 (s1.lck.dlCount + 1) } }
    (s2.raise 6 v.obj.val).faultLogged 10 6 "DEADLOCK" [s2.wDeadlock.toNat]

end Sys2Proof.Machine
end

