-- ==== Sys2Proof/Machine/Headstock.lean ====
section
/-!
DEFINITION. Meanings: the Headstock (R332-R358): the energy horizon and the plan level, thermal domains, tokens, queues and
the dispatch round.
-/
namespace Sys2Proof.Machine
open Sys2Proof

/-! ### Horizon and level (R334-R339) -/

/-- The energy horizon counts the module supply as present (R59, R75, R334). -/
def State.supplyCounts (s : State) : Bool := (s.sup.present || !s.sup.lossDeclared) && !s.pfw
/-- The line counts as present, by LINE_SRC (R333, R334). -/
def State.lineCounts (s : State) : Bool :=
  match s.cfg.hds with
  | some h => if h.lineMeter then s.meterLine else s.supplyCounts
  | none => false
/-- The fans count as running, by FAN_SRC (R333). DESIGN CHOICE: R16 lets the key name an analog input as the fans' indication, for
which FAN_SRC of R333 has no code; the model takes the line, the field point or always (log entry 144). -/
def State.fansRun (s : State) : Bool :=
  match s.cfg.hds with
  | some h => if h.fanSrc = 0 then s.lineCounts else if h.fanSrc = 1 then s.fio.point[h.fanPoint].debounced else true
  | none => true
/-- E_ride in mJ (R334). -/
def State.eRide (s : State) : Nat := s.sup.usableMj - 5000
/-- E_batt in J (R334, R338). -/
def State.eBatt (s : State) : Nat := if s.hds.battValid then s.hds.alloc.toNat else 0
/-- The rails that stay up at level `l` (R334): those of its plan outside its active shed sets, and the essential ones (R147). -/
def State.staysUp (s : State) (l : Level) : List RailN :=
  let named : List RailN := match s.cfg.plan[s.planOf l] with
    | some p => p.groups.flatMap CGroup.rails
    | none => []
  (List.finRange 256).filter (fun n => match s.railCfg n with
    | some c => c.used && (c.sets.getLsbD 0 || (named.contains n && (c.sets &&& shedMask l) == 0))
    | none => false)
/-- The energy that a rail takes in 1 ms, in µJ, which is its power in mW, when its IMON is scanned (R334, R351). -/
def State.railEnergy (s : State) (n : RailN) : Option Rat :=
  match s.railCfg n, (s.rail n).lastClean with
  | some c, some v =>
    if (s.entryOf (0x100#10 + BitVec.ofNat 10 n.val)).isSome then
      some (((v : Rat) / 256) * (((s.rail n).lastImon * c.imonFs : Int) : Rat) / 32768 / 1000000)
    else none
  | _, _ => none
/-- The load at one recompute enters the second that P_MEAS is the mean over (R334). DESIGN CHOICE: the mean is that of the loads at the
recomputes of the last second, each of the last results (log entry 145). -/
def State.sampleLoad (s : State) : State :=
  let at_ (l : Level) : Nat := ((((s.staysUp l).filterMap s.railEnergy).foldl (· + ·) 0 : Rat).floor).toNat
  { s with hds := { s.hds with power := ([Level.normal, .lean, .coast, .reserve].map at_ :: s.hds.power).take 1000 } }
/-- P_MEAS of the four levels, in mW (R334). -/
def State.pMeas (s : State) : List Nat :=
  (List.range 4).map (fun k => (s.hds.power.map (fun x => (x[k]?).getD 0)).sum / max 1 s.hds.power.length)
/-- P(L) in mW × 1,024 (R334): `meas` are P_MEAS of the four levels in mW, `pMod` is P_MOD. -/
def State.load1024 (s : State) (h : CHds) (meas : List Nat) (pMod : Nat) (l : Level) : Nat :=
  let pk := match h.levels[l.code]? with | some x => x.pKey | none => 0
  max (pk * s.nv.cur.estCorr) (((meas[l.code]?).getD 0) * 1024) + pMod * 1024
/-- H(L) ≥ MIN_H[L] raised by `pct` percent (R336), with `e` in mJ. H is unbounded while the line is present. -/
def State.holds (s : State) (h : CHds) (meas : List Nat) (pMod e : Nat) (pct : Nat) (l : Level) : Bool :=
  let minH := match h.levels[l.code]? with | some x => x.minH | none => 0
  s.lineCounts || decide (minH * (100 + pct) * s.load1024 h meas pMod l ≤ e * 1000 * 1024 * 100)
/-- The target level by R336, with every MIN_H raised by `pct` percent. -/
def State.targetLevel (s : State) (meas : List Nat) (pMod pct : Nat) : Level :=
  if !s.supplyCounts && (s.g.st == .start || s.g.st == .load || s.g.st == .check) then .lastGasp
  else match s.cfg.hds with
  | none => if s.supplyCounts then .normal else .lastGasp
  | some h =>
    if !s.supplyCounts then (if 0 < s.eRide then .reserve else .lastGasp)
    else
      let e := s.eRide + 1000 * s.eBatt
      match [Level.normal, .lean, .coast, .reserve].find? (s.holds h meas pMod e pct) with
      | some l => l
      | none => .lastGasp
/-- The level takes a new value (R337): source 8, or the entry to LAST_GASP. A running probe ends LEVEL at the change (R199). -/
def State.setLevel (s : State) (l : Level) : State :=
  if l = .lastGasp then s.enterLastGasp
  else (({ s.abandonTest with g := { s.g with level := l } }).raise 8 l.code).watchProbes
/-- The level judged against a target (R336, R337): it falls at once and rises after UP_HOLD_MS. -/
def State.judgeLevel (s : State) (target hystTarget : Level) (upHold : Nat) : State :=
  let s1 : State := { s with hds := { s.hds with target := target } }
  if s.g.level = .lastGasp then s1
  else if s.g.level.code < target.code then
    ({ s1 with hds := { s1.hds with holdSince := none } }).setLevel target
  else if target.code < s.g.level.code && hystTarget.code < s.g.level.code then
    match s.hds.holdSince with
    | some t =>
      if s.hds.holdTarget = target then
        if t + upHold * 1000000 ≤ s.now then ({ s1 with hds := { s1.hds with holdSince := none } }).setLevel target else s1
      else { s1 with hds := { s1.hds with holdSince := some s.tickUs, holdTarget := target } }
    | none => { s1 with hds := { s1.hds with holdSince := some s.tickUs, holdTarget := target } }
  else { s1 with hds := { s1.hds with holdSince := none } }

/-! ### Thermal domains (R340-R342) -/

/-- e^(−x ÷ 2⁹⁶) in units of 2⁻⁹⁶: five terms of the series for the 2²⁰-th part of the argument, squared twenty times. -/
def expNegFix (x : Nat) : Nat :=
  let f := 2 ^ 96
  let y := x / 2 ^ 20
  let y2 := y * y / f
  let y3 := y2 * y / f
  let y4 := y3 * y / f
  let y5 := y4 * y / f
  let base := f - y + y2 / 2 - y3 / 6 + y4 / 24 - y5 / 120
  if 64 * f ≤ x then 0 else (List.range 20).foldl (fun (v : Nat) _ => v * v / f) base
/-- The fraction a = e^(−W ÷ (R × C)) of R342, with W in ms, R in µK/W and C in mJ/K. DESIGN CHOICE: R342 gives no precision; the model
computes it to better than 2⁻⁶⁴ (log entry 146). -/
def decay (w : Nat) (r c : Rat) : Rat :=
  ((expNegFix ((w : Rat) * 1000000 * 79228162514264337593543950336 / (r * c)).floor.toNat : Nat) : Rat) / 79228162514264337593543950336

/-- The scan code of a source of R340. -/
def tsrcInput : TSrc → BitVec 10
  | .analog a => 0x200#10 + BitVec.ofNat 10 a.val
  | .internal k => 0x300#10 + BitVec.ofNat 10 k.val
/-- The last result of an input, when it is clean. -/
def State.cleanOf (s : State) (i : BitVec 10) : Option Int :=
  match s.scan.res.toList.find? (fun r => r.res.input == i) with
  | some r => if r.res.clean then some r.res.value else none
  | none => none
/-- The temperature in °C that a source gives, with its gain and offset (R340). -/
def State.tempOf (s : State) (t : TSrc) (gain offset : Int) : Option Rat :=
  (s.cleanOf (tsrcInput t)).map (fun x => match t with
    | .analog _ => (gain * x : Rat) / 1000 + (offset : Rat) / 100
    | .internal _ => (x : Rat) / 100)
/-- R_h in µK/W and C_h in mJ/K as corrected (R341, R453). -/
def State.thermRC (s : State) (h : Fin 8) (c : CTherm) : Rat × Rat :=
  let kR : Rat := (s.nv.cur.kR[h] : Rat) / 1024
  let kC : Rat := (s.nv.cur.kC[h] : Rat) / 1024
  (((if s.fansRun then c.rOn else c.rOff : Nat) : Rat) * kR, (c.c : Rat) * (kC / kR))
/-- The record of thermal domain `h`, when it is used. -/
def State.thermCfg (s : State) (h : Fin 8) : Option CTherm :=
  match s.cfg.hds with
  | some x => (match x.therms[h.val]? with | some c => if c.used then some c else none | none => none)
  | none => none
/-- One thermal domain's recompute (R341, R342). A heat capacity or resistance of 0 gives no value: it is left open. -/
def State.thermStep (s : State) (h : Fin 8) : State :=
  match s.cfg.hds, s.thermCfg h with
  | some x, some c =>
    let t := s.hds.therm[h]
    let amb := (s.tempOf c.amb c.ambGain c.ambOffset).getD t.tAmb
    let rc := s.thermRC h c
    let open_ := decide (rc.1 = 0) || decide (rc.2 = 0)
    let e : Rat := (t.deposit : Rat) + c.pBase
    let th1 : Rat := if open_ then (freeNat s.free : Rat) else t.theta + (e - t.theta * 1000000000 / rc.1) / (rc.2 * 1000)
    let th2 : Rat := match c.meas with
      | some m => (match s.tempOf m c.measGain c.measOffset with | some v => max th1 (v - amb) | none => th1)
      | none => th1
    let a : Rat := decay x.lookahead rc.1 rc.2
    let pHeat : Rat := (((c.tLim : Rat) / 100 - amb) - th2 * a) / (rc.1 / 1000000 * (1 - a))
    let allow : Int := if open_ then (freeNat (s.free + 1) : Int) else max 0 (pHeat * 1000).floor
    let temp := amb + th2
    let hot := decide ((c.tLim : Rat) / 100 ≤ temp)
    let s1 : State := { s with
      free := if open_ then s.free + 2 else s.free
      hds := { s.hds with therm := tset s.hds.therm h { t with
        tAmb := amb, theta := th2, temp := temp, allow := allow, deposit := 0, isOver := hot } } }
    if hot && !t.isOver then s1.raise (592 + h.val) 2 else s1
  | _, _ => s

/-! ### Measured energy of host items (R351) -/


/-- 1 ms of domain energy shared among the items in flight in the domain, by their charges. -/
def State.shareEnergy (s : State) (d : Fin 16) : State :=
  match s.domGroup d with
  | none => s
  | some (_, c) =>
    let parts := c.rails.filterMap s.railEnergy
    let qs := s.domQueues d
    let total : Nat := (qs.flatMap (fun x => s.hds.queue[x.1].items.filterMap (fun i =>
      if i.st = .queued then none else some i.charge))).sum
    if parts.isEmpty || total = 0 then s
    else
      let e := parts.foldl (· + ·) 0
      qs.foldl (fun (s : State) x => s.modQueue x.1 (fun u => { u with items := u.items.map (fun i =>
        if i.st = .queued then i
        else { i with measured := true, meas := i.meas + e * (i.charge : Rat) / (total : Rat) }) })) s

/-! ### The 1 ms recompute -/

/-- The states in which the Headstock computes its level: from START to UNPROVISIONED (R356). -/
def ModSt.computes : ModSt → Bool
  | .off | .stabled => false
  | _ => true
/-- Horizon, energy and load as HDS_HORIZON, HDS_ENERGY and HDS_PPRED show them. A horizon of a load of 0 and of an absent
supply, and a load at LAST_GASP, have no value in R334; they are left open. -/
def State.showHorizon (s : State) (h : CHds) (meas : List Nat) (pMod : Nat) : State :=
  let e := s.eRide + 1000 * s.eBatt
  let p := s.load1024 h meas pMod s.g.level
  let unb := s.supplyCounts && s.lineCounts
  let lg := decide (s.g.level = .lastGasp)
  let open_ := lg || (!unb && (!s.supplyCounts || p == 0))
  let hz : Word := if unb && !lg then 0xFFFFFFFF
    else if open_ then BitVec.ofNat 32 (freeNat s.free) else BitVec.ofNat 32 (min 0xFFFFFFFE (e * 1024000 / p))
  { s with
    free := if open_ then s.free + 2 else s.free
    hds := { s.hds with
      unbounded := unb && !lg, horizon := hz, eAvail := e / 1000, pMod := pMod
      pMw := if lg then freeNat (s.free + 1) else p / 1024 } }
/-- The token refill of one tick (R350): from the end of LOAD, none in LAST_GASP. -/
def State.refill (s : State) : State :=
  match s.cfg.hds with
  | some h => if s.g.level = .lastGasp then { s with hds := { s.hds with tokens := 0 } }
    else s.addTokens (match h.levels[s.g.level.code]? with | some x => (x.pAllow : Int) | none => 0)
  | none => s
/-- LEVEL_RECOMPUTE (R334-R342, R350, R351): every 1 ms; `pMod` is P_MOD, the module's own measured consumption, in mW. -/
def execLevelRecompute (_ : Marker) (pMod : Nat) (s : State) : Out :=
  if !s.g.st.computes then .next s
  else
    let s0 : State := ({ s with hds := { s.hds with supplyOk := s.supplyCounts, line := s.lineCounts, fans := s.fansRun } }).sampleLoad
    let meas := s0.pMeas
    let hp := match s.cfg.hds with | some h => (h.upHold, h.hyst) | none => (0, 0)
    let s1 : State := s0.judgeLevel (s0.targetLevel meas pMod 0) (s0.targetLevel meas pMod hp.2) hp.1
    match s1.cfg.hds with
    | none => .next { s1 with hds := { s1.hds with pMod := pMod } }
    | some h =>
      let s2 : State := (s1.showHorizon h meas pMod).refill
      let s3 : State := (List.finRange 8).foldl State.thermStep s2
      .next ((List.finRange 16).foldl State.shareEnergy s3)
/-- BATTERY_WRITE (R338, R339): host software writes HDS_BATTERY, in J. -/
def execBatteryWrite (joules : Word) (s : State) : Out :=
  .next { s with hds := { s.hds with alloc := joules, battValid := true, battAt := s.tickUs } }
/-- BATTERY_TIMEOUT (R338): no new write within BATT_TIMEOUT_MS. -/
def execBatteryTimeout (s : State) : Out :=
  if s.hds.battValid then
    .next (({ s with hds := { s.hds with battValid := false, battStale := true } }).laterFault none none "BATTERY_STALE")
  else .next s

/-! ### Queues (R343-R346, R355) -/

/-- The charge of an item by its queue's estimate or its descriptor, held to TOKEN_DEPTH (R344). -/
def State.chargeOf (s : State) (u : Queue) (x : Item) : Nat :=
  match x.desc with
  | some e => if e = 0 then u.est else min e s.depth
  | none => u.est
/-- The READY head item of a queue (R344): a host queue's descriptor has been read. -/
def Queue.readyItem (u : Queue) (c : CQueue) : Option Item :=
  match u.headItem with
  | some x => if c.dom.isNone || x.desc.isSome then some x else none
  | none => none
/-- A down request is withdrawn when an item for the domain becomes READY before the COMMIT (R353). -/
def State.withdrawDown (s : State) (q : QueueN) : State :=
  match s.queueCfg q with
  | some c => (match c.dom with
    | some d =>
      if s.hds.dom[d].st = .reqDown && (s.hds.queue[q].readyItem c).isSome && s.hds.queue[q].enable then
        let s1 : State := s.modDom d (fun y => { y with st := .on })
        { s1 with seq := { s1.seq with domReqs := s1.seq.domReqs.filter (fun r => r.dom != d) } }
      else s
    | none => s)
  | none => s
/-- A push into a spindle task queue (R344). -/
def State.pushTask (s : State) (q : QueueN) (c : CQueue) (w : Word) : State :=
  let u := s.hds.queue[q]
  if c.depth ≤ u.items.length then
    let s1 : State := s.modQueue q (fun y => { y with full := satInc 65535 y.full, fullCycle := some s.cyc.num })
    if u.fullCycle = some s.cyc.num then s1 else s1.laterFault none none "QUEUE_FULL" [q.val]
  else
    s.modQueue q (fun y => Queue.setReady { y with
      items := y.items ++ [{ index := y.tail, arg := w, pushed := s.tickUs }], tail := (y.tail + 1) % 65536 } s.tickUs)
/-- A new tail of a host queue (R344): the items from HEAD to it are queued. -/
def State.pushHost (s : State) (q : QueueN) (w : Word) : State :=
  let u := s.hds.queue[q]
  let dist (i : Nat) : Nat := (i + 65536 - u.headIndex) % 65536
  let n := dist w.toNat
  if 65536 ≤ w.toNat || 2 ^ u.ringLog2.toNat < n then s.accessErr 7 2 (16 * q.val)
  else
    let old := dist u.tail
    let keep := u.items.filter (fun x => x.st != .queued || decide (dist x.index < n))
    let new := (List.range (n - old)).map (fun k => ({ index := (u.tail + k) % 65536, arg := 0, pushed := s.tickUs } : Item))
    s.modQueue q (fun y => Queue.setReady { y with items := keep ++ new, tail := w.toNat } s.tickUs)
/-- QUEUE_PUSH (R344): the PUSH doorbell of queue `q`. -/
def execQueuePush (q : QueueN) (w : Word) (s : State) : Out :=
  match s.queueCfg q with
  | none => .next s
  | some c =>
    if !s.hds.queue[q].enable then .next s
    else .next ((if c.dom.isNone then s.pushTask q c w else s.pushHost q w))
/-- QUEUE_COMPLETE (R345): the COMPLETE doorbell names an item in flight, and whether it was ABORTED. -/
def execQueueComplete (q : QueueN) (index : BitVec 16) (aborted : Bool) (s : State) : Out :=
  match s.queueCfg q with
  | none => .next s
  | some c =>
    if !s.hds.queue[q].enable || c.dom.isNone then .next s
    else match s.hds.queue[q].items.find? (fun x => x.index == index.toNat && decide (x.st ≠ ItemSt.queued)) with
    | some x => .next (s.complete q x (if aborted then 3 else 1) x.measHost)
    | none => .next s
/-- QUEUE_CANCEL (R355): the CANCEL doorbell; the next round samples it (R347). -/
def execQueueCancel (q : QueueN) (index : BitVec 16) (s : State) : Out :=
  if (s.queueCfg q).isSome && s.hds.queue[q].enable then
    .next (s.modQueue q (fun u => { u with cancels := u.cancels ++ [index.toNat] }))
  else .next s
/-- QUEUE_FLUSH (R345): FLUSH of HDS_Q_CTL cancels every QUEUED item of the selected queue. -/
def execQueueFlush (s : State) : Out :=
  let q := s.hds.qSel
  .next ((s.hds.queue[q].items.filter (fun x => decide (x.st = ItemSt.queued))).foldl
    (fun (s : State) x => s.complete q x 2 none) s)
/-- DESCRIPTOR_READ_DONE (R344): the head descriptor of host queue `q` has been read; its EST_UJ is `est`. -/
def execDescriptorReadDone (q : QueueN) (est : Word) (s : State) : Out :=
  match s.queueCfg q, s.hds.queue[q].headItem with
  | some c, some x =>
    if c.dom.isNone || x.desc.isSome then .next s
    else .next ((s.modQueue q (fun u => u.modItem x.index (fun y => { y with desc := some est.toNat }))).withdrawDown q)
  | _, _ => .next s

/-! ### The dispatch round (R347-R355) -/

/-- The program bound to spindle task queue `q` (R310). -/
def State.taskOf (s : State) (q : QueueN) : Option ProgN :=
  (List.finRange 256).find? (fun n => match s.cfg.prog[n] with
    | some p => p.task && p.queue == some q
    | none => false)
/-- A CANCEL applied by a round (R355). -/
def State.cancelItem (s : State) (q : QueueN) (i : Nat) : State :=
  match s.hds.queue[q].items.find? (fun x => x.index == i) with
  | none => s
  | some x =>
    match x.st with
    | .queued => s.complete q x 2 none
    | .aborting => s
    | .dispatched =>
      let s1 : State := s.modQueue q (fun u => u.modItem i (fun y => { y with st := .aborting }))
      match s.queueCfg q with
      | none => s1
      | some c =>
        match c.dom with
        | some d => s1.grant d q x true
        | none =>
          match s.taskOf q with
          | none => s1
          | some n =>
            let between := s1.spn.prog[n].st = .running && s1.spn.lpair.toList.any (fun y => y.ready.contains n)
            if s1.spn.prog[n].st = .waiting || between then
              let out (x : LPair) : LPair := { x with ready := x.ready.filter (· != n) }
              let s2 : State := s1.unregister (.prog n)
              ({ s2 with spn := { s2.spn with lpair := tmap out s2.spn.lpair } }.modProg n (fun p => { p with st := .done, waitObj := none, woken := none })).taskDone n 3
            else s1.modProg n (fun p => { p with abortDue := true })
/-- Every CANCEL that reached the module before the round. -/
def State.applyCancels (s : State) (qs : List (QueueN × CQueue)) : State :=
  qs.foldl (fun (s : State) x =>
    let l := s.hds.queue[x.1].cancels
    l.foldl (fun (s : State) i => s.cancelItem x.1 i) (s.modQueue x.1 (fun u => { u with cancels := [] }))) s
/-- p_eff of a queue's head item (R348). -/
def State.pEff (s : State) (c : CQueue) (x : Item) : Nat :=
  if c.latency = 0 then c.prio
  else min 15 (c.prio + (s.now - x.ready.getD s.now) / (c.latency * 1000))
/-- Whether the target of a queue is free and powered (R347); otherwise the denial. -/
def State.targetDeny (s : State) (q : QueueN) (c : CQueue) : Option Deny :=
  match c.dom with
  | some d =>
    let u := s.hds.dom[d]
    if u.st ≠ .on then some .unpowered
    else match s.domCfg d with
    | some k =>
      let ring := u.enable && decide (4 ≤ u.sizeLog2.toNat) && decide (u.sizeLog2.toNat ≤ 16)
      if ring && u.inflight < k.maxInflight then none else some .targetBusy
    | none => some .unpowered
  | none =>
    match s.taskOf q with
    | none => some .unpowered
    | some n =>
      match s.cfg.prog[n] with
      | none => some .unpowered
      | some p =>
        let x := s.spn.lpair[p.pair]
        let first : State := s.modProg n (fun y => { y with ck := { y.ck with bead := s.firstBead n } })
        if s.spn.prog[n].st = .inactive && s.cyc.phase ≠ 0 && s.pairDone p.pair && x.cur.isNone && x.ready.isEmpty &&
            x.phys.isSome && x.replay.isNone && first.taskFits n then none
        else some .targetBusy
/-- One queue as a round judges it. -/
structure Judged where
  q : QueueN
  c : CQueue
  x : Item
  e : Nat
  p : Nat
  deny : Option Deny
deriving DecidableEq, Repr
/-- The reserving queue's charge for every other queue (R349). -/
def State.reserve (s : State) (q : QueueN) : Nat :=
  match s.hds.reserving with
  | none => 0
  | some r =>
    if r = q then 0
    else match s.hds.queue[r].headItem with
      | some x => s.chargeOf s.hds.queue[r] x
      | none => 0
/-- The queues a round judges: enabled, with a READY head item. -/
def State.judgeQueues (s : State) (qs : List (QueueN × CQueue)) : List Judged :=
  qs.filterMap (fun y =>
    let u := s.hds.queue[y.1]
    if !u.enable then none
    else (u.readyItem y.2).map (fun x =>
      let e := s.chargeOf u x
      let deny : Option Deny := match s.targetDeny y.1 y.2 with
        | some d => some d
        | none =>
          if s.hds.tokens < (e + s.reserve y.1 : Nat) then some .tokens
          else if s.hds.therm[y.2.therm].allow < (e : Int) then some .heat
          else none
      { q := y.1, c := y.2, x := x, e := e, p := s.pEff y.2 x, deny := deny }))
/-- The better of two by rank (R347): p_eff, the earlier ready time, the lower queue number. -/
def Judged.better (a : Option Judged) (b : Judged) : Option Judged :=
  match a with
  | none => some b
  | some a =>
    let ra := a.x.ready.getD 0
    let rb := b.x.ready.getD 0
    if a.p < b.p || (a.p == b.p && (rb < ra || (rb == ra && b.q < a.q))) then some b else some a
/-- The reservation after a round (R349): it goes on while the reserving queue holds an item at p_eff 15; else, of the queues denied for
tokens alone at p_eff 15, the one with the earliest ready time reserves. -/
def State.reservation (s : State) (l : List Judged) : Option QueueN :=
  let pool := l.filter (fun j => decide (j.p = 15) && j.deny == some Deny.tokens &&
    decide ((j.e : Int) ≤ s.hds.therm[j.c.therm].allow))
  match l.find? (fun j => decide (j.p = 15) && decide (s.hds.reserving = some j.q)) with
  | some j => some j.q
  | none => ((pool.map (fun j => { j with p := 0 })).foldl Judged.better none).map (·.q)
/-- Denials in HDS_Q_STAT, MISSED, and the heat events (R342, R347, R348). -/
def State.noteDenials (s : State) (l : List Judged) : State :=
  let s1 : State := l.foldl (fun (s : State) j =>
    s.modQueue j.q (fun u => { u with deny := match j.deny with | some d => d | none => u.deny })) s
  (List.finRange 8).foldl (fun (s : State) h =>
    let mine := l.filter (fun j => j.c.therm == h)
    let hot := mine.any (fun j => j.deny == some Deny.heat)
    let ok := mine.any (fun j => decide ((j.e : Int) ≤ s.hds.therm[h].allow))
    let lim := s.hds.therm[h].limited
    let set (s : State) (b : Bool) : State := { s with hds := { s.hds with therm := tmod s.hds.therm h (fun t => { t with limited := b }) } }
    if hot && !lim then (set s true).raise (592 + h.val) 0
    else if !hot && ok && lim then (set s false).raise (592 + h.val) 1
    else s) s1
/-- The wait of a head item has reached its queue's latency bound for the first time (R348). -/
def Item.misses (x : Item) (c : CQueue) (now : Ns) : Bool :=
  decide (c.latency ≠ 0) && !x.late && decide (c.latency * 1000 ≤ now - x.ready.getD now)
/-- MISSED of every queue whose head item's wait has reached LATENCY_US (R348). -/
def State.noteMissed (s : State) (qs : List (QueueN × CQueue)) : State :=
  qs.foldl (fun (s : State) y =>
    match s.hds.queue[y.1].headItem with
    | none => s
    | some x =>
      if x.misses y.2 s.now then
        s.modQueue y.1 (fun u => { (u.modItem x.index (fun i => { i with late := true })) with missed := true })
      else s) s
/-- The head of the chosen queue is dispatched (R345, R347). -/
def State.dispatch (s : State) (j : Judged) : State :=
  let s1 : State := s.addTokens (-(j.e : Int))
  let s2 : State := { s1 with hds := { s1.hds with
    therm := tmod s1.hds.therm j.c.therm (fun t => { t with allow := t.allow - j.e, deposit := t.deposit + j.e })
    reserving := if s1.hds.reserving = some j.q then none else s1.hds.reserving } }
  let byEst := match j.x.desc with | some e => decide (e = 0) | none => true
  let it : Item := { j.x with st := .dispatched, charge := j.e, byEst := byEst }
  let s3 : State := s2.modQueue j.q (fun u => (u.modItem j.x.index (fun _ => it)).setReady s.tickUs)
  match j.c.dom with
  | some d => (s3.modDom d (fun y => { y with inflight := y.inflight + 1 })).grant d j.q it false
  | none =>
    match s3.taskOf j.q with
    | none => s3
    | some n =>
      match s3.cfg.prog[n] with
      | none => s3
      | some p =>
        let regs : Regs := { w := tset (tset (Vector.replicate 32 0) 0 j.x.arg) 1 (BitVec.ofNat 32 j.q.val) }
        ((s3.modProg n (fun y => { y with
          st := .running, abortDue := false, beadTime := 0, startAt := s3.now, initDue := false
          ck := { regs := regs, bead := s3.firstBead n, item := some (j.q, j.x.index) } })).modPair p.pair
          (fun y => { y with ready := y.ready ++ [n] })).pick p.pair
/-- The queued value of domain `d` (R353), times 16. -/
def State.domValue16 (s : State) (d : Fin 16) : Nat :=
  ((s.domQueues d).map (fun y =>
    let u := s.hds.queue[y.1]
    if u.enable && (u.readyItem y.2).isSome then u.queued * u.est * (y.2.prio + 1) else 0)).sum
/-- An up request of domain `d` (R353). -/
def State.domWake (s : State) (d : Fin 16) : State :=
  match s.domCfg d, s.domGroup d with
  | some k, some (g, c) =>
    let urgent := match s.cfg.hds with
      | some h => (match h.urgent with
        | some u => (s.domQueues d).any (fun y => s.hds.queue[y.1].enable &&
            (match s.hds.queue[y.1].headItem with | some x => decide (u ≤ s.pEff y.2 x) | none => false))
        | none => false)
      | none => false
    let shed := c.rails.all s.isShed
    if s.hds.dom[d].st = .off && s.g.st = .run && !shed && (s.group g).st != .failed && (s.group g).reason != .shed &&
        (16 * k.wakeUj ≤ s.domValue16 d || urgent) && (k.wakeUj : Int) ≤ s.hds.tokens then
      let s1 : State := (s.addTokens (-(k.wakeUj : Int))).modDom d (fun y => { y with st := .reqUp })
      let r : DomReq := { dom := d, up := true }
      ({ s1 with seq := { s1.seq with domReqs := s1.seq.domReqs ++ [r] } }).raise (576 + d.val) 1
    else s
  | _, _ => s
/-- DISPATCH_ROUND (R347-R355, R374): one round; it dispatches at most one item, judges the domains and tests the waits. -/
def execDispatchRound (s : State) : Out :=
  match s.cfg.hds with
  | none => if s.g.st.cycleRuns then .next s.detect.endRound else .next s.endRound
  | some h =>
    if !s.g.st.cycleRuns then .next s.endRound
    else
      let s1 : State := (s.applyCancels h.queues).noteMissed h.queues
      let l := s1.judgeQueues h.queues
      let s2 : State := s1.noteDenials l
      let s3 : State := { s2 with hds := { s2.hds with reserving := s2.reservation l } }
      let s4 : State := match (l.filter (fun j => j.deny.isNone)).foldl Judged.better none with
        | some j => s3.dispatch j
        | none => s3
      .next ((List.finRange 16).foldl State.domWake s4).detect.endRound
/-- DOMAIN_IDLE_TIMEOUT (R353): nothing in flight or READY for domain `d` for IDLE_DOWN_MS. -/
def execDomainIdleTimeout (d : Fin 16) (s : State) : Out :=
  match s.domCfg d with
  | none => .next s
  | some k =>
    let ready := (s.domQueues d).any (fun y => s.hds.queue[y.1].enable && (s.hds.queue[y.1].readyItem y.2).isSome)
    if s.hds.dom[d].st = .on && !k.alwaysOn && s.hds.dom[d].inflight = 0 && !ready && s.g.st.cycleRuns then
      let s1 : State := s.modDom d (fun y => { y with st := .reqDown })
      let r : DomReq := { dom := d, up := false }
      .next (({ s1 with seq := { s1.seq with domReqs := s1.seq.domReqs ++ [r] } }).raise (576 + d.val) 2)
    else .next s

/-! ### A HEADSTOCK section lands or is loaded (R351, R353, R357, R358) -/

/-- The items in flight of a domain that is no longer used complete DOMAIN_LOST under the section that dispatched them (R345, R353). -/
def State.losesUnused (s : State) (old : Option CHds) (used : Fin 16 → Bool) : State :=
  let gone := (List.finRange 16).filter (fun d => !used d && (match s.hds.dom[d].st with | .on | .reqDown => true | _ => false))
  if gone.isEmpty then s
  else
    let s1 : State := gone.foldl State.loseDomain { s with cfg := { s.cfg with hds := old } }
    { s1 with cfg := { s1.cfg with hds := s.cfg.hds } }
/-- E_K of a queue under the correction in force (R351). -/
def State.ek (s : State) (c : CQueue) : Nat := c.est * s.nv.cur.estCorr / 1024
/-- Queues, domains and tokens after a landing (R358), `old` the section before: a changed queue's estimate is E_K, the
others are held to their bounds; a domain no longer used is UNUSED, and what was in flight in it is lost. -/
def State.landHds (s : State) (old : Option CHds) : State :=
  match s.cfg.hds with
  | none => s
  | some h =>
    let before (q : QueueN) : Option CQueue := match old with
      | some o => (o.queues.find? (fun x => x.1 == q)).map (·.2)
      | none => none
    let used (d : Fin 16) : Bool := match h.doms[d.val]? with | some c => c.used | none => false
    let s1 : State := h.queues.foldl (fun (s : State) y =>
      let b := s.estBounds y.2
      s.modQueue y.1 (fun u => { u with est := if before y.1 = some y.2 then clampN b.1 b.2 u.est else s.ek y.2 }))
        (s.losesUnused old used)
    let s2 : State := { s1 with hds := { s1.hds with
      dom := Vector.ofFn (fun d : Fin 16 =>
        let x := s1.hds.dom[d]
        if used d then (if x.st = .unused then { x with st := .off } else x) else { x with st := .unused })
      holdSince := none } }
    s2.addTokens 0
/-- At the end of LOAD (R341, R350): the landing, and after OFF each θ starts at 0, or at the measured rise. -/
def State.loadHds (s : State) (first : Bool) : State :=
  let s1 : State := s.landHds none
  if !first then s1
  else (List.finRange 8).foldl (fun (s : State) h =>
    match s.thermCfg h with
    | none => s
    | some c =>
      let t := s.hds.therm[h]
      let amb := (s.tempOf c.amb c.ambGain c.ambOffset).getD t.tAmb
      let th : Rat := match c.meas with
        | some m => (match s.tempOf m c.measGain c.measOffset with | some v => v - amb | none => 0)
        | none => 0
      { s with hds := { s.hds with therm := tset s.hds.therm h { t with tAmb := amb, theta := th } } }) s1
/-- The Headstock part of the input image, 256 bytes (R357). -/
def State.hdsImage (s : State) : List Byte :=
  let a := s.hds
  let bits (f : Fin 16 → Bool) : Nat := ((List.finRange 16).map (fun d => (f d).toNat * 2 ^ d.val)).sum
  leBytes 4 a.horizon.toNat ++ leBytes 4 a.eAvail ++ leBytes 4 a.pMw ++ leBytes 4 (scode 32 a.tokens) ++
  leBytes 1 (a.line.toNat + 2 * a.fans.toNat + 4 * a.supplyOk.toNat + 8 * a.battValid.toNat + 16 * a.reserving.isSome.toNat) ++
  leBytes 1 s.g.level.code ++ leBytes 1 a.target.code ++ [0] ++
  leBytes 2 (bits (fun d => decide (a.dom[d].st = .on))) ++
  leBytes 2 (bits (fun d => decide (a.dom[d].st = .reqUp) || decide (a.dom[d].st = .reqDown))) ++
  List.replicate 8 0 ++
  (List.finRange 8).flatMap (fun h => leBytes 2 (scode 16 (a.therm[h].temp * 100).floor) ++ [0, 0] ++
    leBytes 4 (min 0xFFFFFFFF (a.therm[h].allow.toNat))) ++
  List.replicate 160 0

end Sys2Proof.Machine
end

