-- ==== Sys2Proof/Machine/Meter.lean ====
section
/-!
DEFINITION. Meanings: the energy meter (R405-R424): meter bursts, line judgement, classification, signature and readback.
-/
namespace Sys2Proof.Machine
open Sys2Proof

/-! ### Integration (R406-R409, R413) -/

/-- Nominal voltage of a system code in V, and whether it is AC (R411). -/
def nominal : Nat → Option (Nat × Bool)
  | 1 => some (25000, true)
  | 2 => some (15000, true)
  | 3 => some (3000, false)
  | 4 => some (1500, false)
  | _ => none
/-- A set's system: its own when it senses the line, else the module's. -/
def State.systemOf (s : State) (m : Fin 4) : Nat :=
  match s.setCfg m with
  | some c => if c.lineSense then s.mtr.sets[m].system else s.mtr.system
  | none => 0
/-- A corrected sample in units of 1/(32768 × 10¹³) of the line quantity (R64, R407): the input in µV, its offset added, then
its gain and scale. -/
def corrected (code gain offset : Int) (scale : Nat) : Int :=
  (code * 10000000 + offset * 32768) * (1000000 + gain) * scale
/-- One mWh in units of the product of two corrected samples over one burst of 20 µs. -/
def mWhUnits : Nat := (32768 * 10 ^ 13) ^ 2 * 180000
/-- One pair of samples integrated into a set (R408). -/
def MSet.integrate (x : MSet) (c : CMSet) (a : MeterSample) : MSet :=
  let v := corrected a.v c.vGain c.vOffset c.vScale
  let i := corrected a.i c.iGain c.iOffset c.iScale
  let p := v * (if c.reverse then -i else i)
  if 0 < p then
    let r := x.rawPos + p.toNat
    { x with consumed := x.consumed + r / mWhUnits, rawPos := r % mWhUnits }
  else
    let r := x.rawNeg + (-p).toNat
    { x with regenerated := x.regenerated + r / mWhUnits, rawNeg := r % mWhUnits }
/-- The results of a 200 ms window taken (R408, R424): means, and on an AC system the reactive energy. One mvarh is
3.6 × 10⁹ var ns. -/
def MSet.window (x : MSet) (w : MeterWin) (ac : Bool) : MSet :=
  let y : MSet := { x with vRms := w.vRms, iRms := w.iRms, p := w.p, q := w.q, freq := if ac then w.freq else 0 }
  if !ac then y
  else if 0 < w.q then
    let r := x.rawInd + w.q.toNat * w.ns
    { y with inductive_ := x.inductive_ + r / 3600000000, rawInd := r % 3600000000 }
  else
    let r := x.rawCap + (-w.q).toNat * w.ns
    { y with capacitive := x.capacitive + r / 3600000000, rawCap := r % 3600000000 }
/-- The flags that a burst gives its period (R406, R409, R412, R414, R418, R420). -/
def State.burstFlags (s : State) (samples : List MeterSample) : BitVec 32 :=
  let f (n : Nat) (b : Bool) : BitVec 32 := if b then 1#32 <<< n else 0
  let used := List.finRange 4 |>.filter (fun m => (s.setCfg m).isSome)
  let old (c : ConvN) : Bool := decide (s.nv.cur.cal[c].at_ + 10080 < s.nv.cur.opNs / 60000000000)
  let cov (c : ConvN) : Bool := decide (s.scan.conv[c].st ≠ .scanning)
  f 4 (decide (s.time.utcQual = 2)) ||| f 6 (decide (0 < s.time.leapLeft)) ||| f 7 (!s.meterLine) |||
    f 9 (used.any (fun m => s.mtr.sets[m].system == 15)) ||| f 10 (cov 14 || cov 15) |||
    f 11 (used.any (fun m => match samples[m.val]? with | some a => a.sat | none => false)) ||| f 17 (old 14 || old 15) |||
    f 19 s.mtr.disagree ||| f 15 (s.mtr.shadowRole != s.standby)
/-- METER_BURST (R206, R405-R414, R420, R421): one pair of samples of each set, each current at its voltage's instant, and the
results of the 200 ms windows that end here. The first burst of SEQUENCE opens a period; the first at which UTC has
reached the end of the slot closes it. -/
def execMeterBurst (samples : List MeterSample) (wins : List (Option MeterWin)) (s : State) : Out :=
  if samples.length ≠ 4 || wins.length ≠ 4 then .refused .illFormed
  else if !s.metering then .next s
  else
    let s2 : State :=
      if !s.mtr.open_ then s.openPeriod 1
      else if !s.mtr.untimed && s.mtr.slotEnd.toNat ≤ s.time.utc.toNat then (s.closePeriod 0).openPeriod 0
      else s
    let one (s : State) (m : Fin 4) : State :=
      match s.setCfg m, samples[m.val]? with
      | some c, some a =>
        let ac := match nominal (s.systemOf m) with | some n => n.2 | none => false
        let t : State := s.modSet m (fun x => x.integrate c a)
        (match (wins[m.val]?).getD none with
        | some w => t.modSet m (fun x => x.window w ac)
        | none => t)
      | _, _ => s
    let s3 : State := (List.finRange 4).foldl one s2
    .next { s3 with mtr := { s3.mtr with
      flags := s3.mtr.flags ||| s3.burstFlags samples, shadowRole := s3.standby
      sysTime := tmod s3.mtr.sysTime (Fin.ofNat 16 s3.mtr.system) (· + 1) } }

/-! ### Line state and supply system (R410-R412) -/

/-- The states in which the line is judged: from the end of a successful LOAD until LAST_GASP (R421). -/
def State.judgesLine (s : State) : Bool :=
  s.g.loadOk && s.cfg.meter.isSome && (match s.g.st with
    | .off | .stabled | .start | .load | .lastGasp => false
    | _ => true)
/-- The LINE_SENSE sets. -/
def State.senseSets (s : State) : List (Fin 4) :=
  (List.finRange 4).filter (fun m => match s.setCfg m with | some c => c.lineSense | none => false)
/-- A set is classified present on a system of the table. -/
def present (code : Nat) : Bool := (nominal code).isSome
/-- More than one system in the open period (R418): `sys` feeds the train now, another one did before. A stretch without a system, or an
UNCLASSIFIED one, is no second system (DEDUCED, log entry 150). -/
def State.secondSystem (s : State) (sys : Nat) : Bool :=
  let before (k : Nat) : Bool := k == s.mtr.system || decide (0 < (s.mtr.sysTime.toList[k]?).getD 0)
  present sys && [1, 2, 3, 4].any (fun k => k != sys && before k)
/-- Line, system and DISAGREE after the sets' systems may have changed (R410, R412). -/
def State.lineSync (s : State) : State :=
  let codes := s.senseSets.map (fun m => s.mtr.sets[m].system)
  let live := codes.filter present
  let line := !live.isEmpty
  let sys := match live with | c :: _ => c | [] => if codes.contains 15 then 15 else 0
  let dis := live.any (fun c => c != sys)
  let was := s.meterLine
  let s1 : State := { s with mtr := { s.mtr with
    line := line, system := sys, disagree := dis
    lossSeen := s.mtr.lossSeen || (was && !line && s.mtr.classified)
    changeSeen := s.mtr.changeSeen || (sys != s.mtr.system)
    flags := if s.mtr.open_ && s.secondSystem sys then s.mtr.flags ||| (1#32 <<< 8) else s.mtr.flags } }
  let s2 : State := if was && !line && s.mtr.classified then s1.raise 9 0 else s1
  let s3 : State := if sys != s.mtr.system then s2.raise 9 (1 + sys) else s2
  if dis && !s.mtr.disagree then s3.raise 9 32 else s3
/-- Whether a set classified on `code` has lost the line (R410): its level in mV, the amplitude on AC and the magnitude of the
mean on DC, lies below LOSS_PCT of the nominal peak or nominal voltage. -/
def lost (pct code level : Nat) : Bool :=
  match nominal code with
  | some (n, true) => decide (level ^ 2 * 10000 < 2 * (n * 1000 * pct) ^ 2)
  | some (n, false) => decide (level * 100 < n * 1000 * pct)
  | none => false
/-- LINE_JUDGEMENT (R410): every 1 ms, the level of each set in mV. -/
def execLineJudgement (levels : List Nat) (s : State) : Out :=
  if levels.length ≠ 4 then .refused .illFormed
  else match s.cfg.meter with
  | none => .next s
  | some c =>
    if !s.judgesLine then .next s
    else
      let one (s : State) (m : Fin 4) : State :=
        if lost c.lossPct s.mtr.sets[m].system ((levels[m.val]?).getD 0) then s.modSet m (fun x => { x with system := 0 }) else s
      .next ((s.senseSets.foldl one s).lineSync)
/-- The code that a window matches (R411). -/
def lineMatch (w : LineWin) : Option Nat :=
  let f (lo hi : Nat) : Bool := decide (lo ≤ w.freqMin) && decide (w.freqMax ≤ hi)
  let r (lo hi : Nat) : Bool := decide (lo ≤ w.rmsMin) && decide (w.rmsMax ≤ hi)
  let d (lo hi : Nat) : Bool := w.dc && decide (lo ≤ w.meanMin) && decide (w.meanMax ≤ hi)
  if f 4500 5500 && r 17500 29000 then some 1
  else if f 1570 1770 && r 11000 18000 then some 2
  else if d 2000 3900 then some 3
  else if d 1000 1950 then some 4
  else none
/-- Whether a peak in V lies above the loss threshold of a system. -/
def aboveLoss (pct peak code : Nat) : Bool := !lost pct code (peak * 1000)
/-- One set's window (R411). A window that matches no row is UNCLASSIFIED above the thresholds of every system and NONE above
none; between the two the spec gives no code, which is left open. -/
def State.classify (s : State) (pct : Nat) (m : Fin 4) (w : LineWin) : State :=
  let x := s.mtr.sets[m]
  if present x.system then s
  else
    let all := [1, 2, 3, 4].all (aboveLoss pct w.peak)
    let any := [1, 2, 3, 4].any (aboveLoss pct w.peak)
    let code := match lineMatch w with
      | some c => c
      | none => if all then 15 else if any then (if freeNat s.free % 2 = 0 then 0 else 15) else 0
    let s1 : State := { s.modSet m (fun y => { y with system := code }) with
      free := if (lineMatch w).isNone && any && !all then s.free + 1 else s.free }
    if code = 15 && x.system ≠ 15 then s1.raise (720 + m.val) else s1
/-- SYSTEM_CLASSIFY (R411, R412): a 100 ms window of each set that is not classified present ends. -/
def execSystemClassify (wins : List LineWin) (s : State) : Out :=
  if wins.length ≠ 4 then .refused .illFormed
  else match s.cfg.meter with
  | none => .next s
  | some c =>
    if !s.judgesLine then .next s
    else
      let one (s : State) (m : Fin 4) : State := match wins[m.val]? with | some w => s.classify c.lossPct m w | none => s
      let s1 : State := s.senseSets.foldl one s
      .next ({ s1 with mtr := { s1.mtr with classified := true } }.lineSync)

/-! ### Signature and readback (R418, R419) -/

/-- DATA_SET_SIGNED (R419). -/
def execDataSetSigned (s : State) : Out := .next s.signOne
/-- METER_DS_SELECT (R418): a write to MTR_DS_SEL loads a stored data set into MTR_DS_DATA. -/
def execMeterDsSelect (ds : Word) (s : State) : Out :=
  let hit := s.nv.cur.dataSets.find? (fun d => d.dsSeq == ds)
  .next { s with mtr := { s.mtr with
    dsSel := ds, dsAns := if hit.isSome then .found else .notFound
    dsData := match hit with | some d => d.bytes s.fac.serial | none => s.mtr.dsData } }
/-- Whole Wh of an energy kept in mWh. -/
def wh (x : Nat) : Nat := x / 1000
/-- The meter part of the input image, 256 bytes (R424). -/
def State.meterImage (s : State) : List Byte :=
  let one (m : Fin 4) : List Byte :=
    let x := s.mtr.sets[m]
    leBytes 4 x.vRms ++ leBytes 4 x.iRms ++ leBytes 4 (scode 32 x.p) ++ leBytes 4 (scode 32 x.q) ++ leBytes 4 (wh x.consumed) ++
      leBytes 4 (wh x.regenerated) ++ leBytes 2 x.freq ++ leBytes 1 (s.systemOf m) ++ List.replicate 5 0
  leBytes 1 (s.meterLine.toNat + 2 * s.mtr.disagree.toNat + 4 * s.metering.toNat) ++ leBytes 1 s.mtr.system ++ [0, 0] ++
    leBytes 4 s.nv.cur.periodSeq.toNat ++ leBytes 8 s.mtr.label.toNat ++ (List.finRange 4).flatMap one ++ List.replicate 112 0

end Sys2Proof.Machine
end

