-- ==== Sys2Proof/Machine/Record.lean ====
section
/-!
DEFINITION. Meanings: the record engine and the storage units (R425-R442).
-/
namespace Sys2Proof.Machine
open Sys2Proof

/-! ### Records as bytes (R427) -/

/-- One byte taken into a CRC-32C (reflected polynomial 0x82F6_3B78). -/
def crcByteC (c : Word) (b : Byte) : Word :=
  (List.range 8).foldl (fun (c : Word) _ => if c.getLsbD 0 then (c >>> 1) ^^^ 0x82F63B78 else c >>> 1)
    (c ^^^ BitVec.setWidth 32 b)
/-- CRC-32C of bytes. -/
def crc32c (l : List Byte) : Word := ~~~(l.foldl crcByteC 0xFFFFFFFF)
/-- A record's bytes: header, payload and padding (R427). -/
def recBytes (r : Rec) : List Byte :=
  let body := (r.payload ++ List.replicate r.len 0).take (r.len - 64)
  let head := leBytes 4 0x52454344 ++ leBytes 4 r.len ++ leBytes 8 r.seq ++ leBytes 8 r.mtime.toNat ++ leBytes 8 r.utc.toNat ++
    leBytes 1 r.stream.val ++ leBytes 1 (r.shadow.toNat + 2 * r.rewritten.toNat + 4 * r.leap.toNat) ++ leBytes 2 r.poweron.toNat ++
    leBytes 1 r.utcQual ++ [r.typ, 0, 0] ++ leBytes 4 r.payloadLen ++ List.replicate 16 0
  head ++ leBytes 4 (crc32c (head ++ body)).toNat ++ body

/-! ### Units and chunks (R429-R434) -/

/-- STATE of REC_STAT: 0 STOPPED, 1 RECORDING, 2 FLUSHING, 3 READ_ONLY. -/
def State.recState (s : State) : Nat :=
  match s.g.st with
  | .off | .stabled | .start | .load => 0
  | .safeHold | .unprovisioned => 3
  | .lastGasp => if s.g.lgStep = 1 then 2 else 0
  | _ => if s.shut.kind = 1 && 3 ≤ s.shut.phase then (if s.shut.phase = 3 && !s.shut.flushed then 2 else 0) else 1
/-- Unit `k` changed by `f`. -/
def State.modUnit (s : State) (k : Fin 8) (f : StUnit → StUnit) : State :=
  { s with reng := { s.reng with unit := tmod s.reng.unit k f } }
/-- The units of a stream's UNITS that are IN_SERVICE (R432). -/
def State.unitsOf (s : State) (i : Fin 64) : List (Fin 8) :=
  match s.streamCfg i with
  | some c => (List.finRange 8).filter (fun k => c.units.getLsbD k.val && decide (s.reng.unit[k].st = .inService))
  | none => []
/-- Bytes waiting for unit `k`: the unwritten bytes of the streams with an OPEN chunk on it. -/
def State.waitingOn (s : State) (k : Fin 8) : Nat :=
  ((s.reng.stream.toList.filter (fun x => x.units.contains k)).map (fun x => (x.buf.map (·.left)).sum)).sum
/-- Units in the order in which a new chunk tries them: fewest bytes waiting, then the lowest number (R432). -/
def State.byWaiting (s : State) (l : List (Fin 8)) : List (Fin 8) :=
  let rec ins (k : Fin 8) : List (Fin 8) → List (Fin 8)
    | [] => [k]
    | m :: rest => if s.waitingOn k < s.waitingOn m then k :: m :: rest else m :: ins k rest
  l.foldl (fun acc k => ins k acc) []
/-- The oldest chunk by NEWEST_UTC. -/
def oldest (l : List Chunk) : Option Chunk :=
  l.foldl (fun a c => match a with
    | none => some c
    | some b => if c.newestUtc < b.newestUtc then some c else some b) none
/-- The RECORD record of a stream, used or not (R426). -/
def State.streamRec (s : State) (i : Fin 64) : Option CStream :=
  match s.cfg.record with | some l => l[i.val]? | none => s.streamCfg i
/-- A chunk is past its retention (R434); one that holds no record with valid UTC is not before the next LOCKED has stamped it. -/
def State.pastRetention (s : State) (c : Chunk) : Bool :=
  !c.open_ && s.time.utcQual != 0 && c.newestUtc != 0 && (match s.streamRec c.stream with
    | some k => decide (c.newestUtc.toNat + k.retainH * 3600000000000 < s.time.utc.toNat)
    | none => false)
/-- The chunk that a unit with no FREE chunk reclaims (R434). -/
def State.reclaims (s : State) (u : StUnit) : Option Chunk :=
  match oldest (u.chunks.filter s.pastRetention) with
  | some c => some c
  | none => oldest (u.chunks.filter (fun c => !c.open_ && !(match s.streamRec c.stream with | some k => k.prot | none => false)))
/-- A chunk opened for stream `i` on unit `k`, when the unit yields one. -/
def State.openOn (s : State) (i : Fin 64) (copy first : Nat) (k : Fin 8) : Option State :=
  let u := s.reng.unit[k]
  let new : Chunk := { stream := i, copy := copy, open_ := true, first := first, last := first, newestUtc := 0, bytes := 0, recs := [] }
  let add (l : List Chunk) : State :=
    (s.modUnit k (fun u => { u with chunks := l ++ [new] })).modStream i (fun x => { x with units := x.units ++ [k] })
  if u.chunks.length < u.capChunks then some (add u.chunks)
  else match s.reclaims u with
    | some c => some (add (u.chunks.filter (· != c)))
    | none => none
/-- A chunk for one copy of stream `i` on the first unit that yields one; none makes the stream FULL (R434). -/
def State.openChunk (s : State) (i : Fin 64) (copy first : Nat) : Option State :=
  (s.byWaiting ((s.unitsOf i).filter (fun k => !s.reng.stream[i].units.contains k))).findSome? (s.openOn i copy first)
/-- The copies that stream `i` writes now: one where a COPIES 2 stream has a single unit (R433). -/
def State.copiesNow (s : State) (i : Fin 64) : Nat :=
  match s.streamCfg i with | some c => min c.copies (s.unitsOf i).length | none => 0
/-- The OPEN chunks of stream `i` on units in service, once the stream writes to none of them: before recording those of a COPIES 2
stream whose copies differ in length are completed from the longer copy; then they are closed (R436, R439). -/
def State.settleOpen (s : State) (i : Fin 64) : State :=
  let mine (c : Chunk) : Bool := c.stream == i && c.open_
  let all := (s.reng.unit.toList.filter (fun u => decide (u.st = .inService))).flatMap (fun u => u.chunks.filter mine)
  let two := match s.streamCfg i with | some c => decide (c.copies = 2) | none => false
  let level (c : Chunk) : Chunk :=
    match (all.filter (fun d => d.first = c.first && decide (c.bytes < d.bytes))).head? with
    | some d => if two then { c with bytes := d.bytes, recs := d.recs, last := d.last, newestUtc := d.newestUtc } else c
    | none => c
  let shut (c : Chunk) : Chunk :=
    let d := level c
    if mine c then { d with open_ := false } else c
  { s with reng := { s.reng with unit := tmap (fun u : StUnit =>
    if u.st = .inService then { u with chunks := u.chunks.map shut } else u) s.reng.unit } }
/-- The copies of stream `i` that have an OPEN chunk it writes to (R429). -/
def State.openCopies (s : State) (i : Fin 64) : List Nat :=
  s.reng.stream[i].units.flatMap (fun k => (s.reng.unit[k].chunks.filter (fun c => c.stream == i && c.open_)).map (·.copy))
/-- Chunks for every copy that has none (R432-R434). The Bool says that the stream has a chunk to write to. -/
def State.ensureChunks (s0 : State) (i : Fin 64) : State × Bool :=
  let s : State := if s0.reng.stream[i].units.isEmpty then s0.settleOpen i else s0
  let first := match s.reng.stream[i].buf.find? (fun r => decide (0 < r.left)) with | some r => r.rcd.seq | none => 0
  let want := s.copiesNow i
  let single := match s.streamCfg i with | some c => decide (c.copies = 2) && decide (want = 1) | none => false
  let try_ (a : State) (k : Nat) : State :=
    if a.reng.stream[i].units.length < want && !(a.openCopies i).contains k then (a.openChunk i k first).getD a else a
  let s1 : State := (List.range want).foldl (fun (a : State) k => try_ a (k + 1)) s
  let has := !s1.reng.stream[i].units.isEmpty
  let s2 : State := s1.modStream i (fun x => { x with single := single, full := !has })
  (if !has && !s.reng.stream[i].full then s2.raise (640 + i.val) 1 else s2, has)
/-- Records of the buffer put into a block of 4,096 bytes: those completed by it get the units they are written on. -/
def fillBlock : Nat → BitVec 8 → List BufRec → List BufRec × List Rec
  | _, _, [] => ([], [])
  | room, us, r :: rest =>
    if r.left = 0 then
      let t := fillBlock room us rest
      (r :: t.1, t.2)
    else if r.left ≤ room then
      let t := fillBlock (room - r.left) us rest
      ({ r with left := 0, written := r.written ||| us } :: t.1, r.rcd :: t.2)
    else ({ r with left := r.left - room } :: rest, [])
/-- A block's records entered in the OPEN chunk of stream `i` on a unit; a chunk with no room for another block closes. -/
def chunkBlock (c : Chunk) (recs : List Rec) : Chunk :=
  { c with
    bytes := c.bytes + 4096, recs := c.recs ++ recs
    last := match recs.getLast? with | some r => r.seq | none => c.last
    newestUtc := recs.foldl (fun a r => if a < r.utc then r.utc else a) c.newestUtc
    open_ := decide (c.bytes + 8192 ≤ 67108864) }
/-- Whether the engine writes to units now. -/
def State.writesUnits (s : State) : Bool := s.recState = 1 || s.recState = 2
/-- BLOCK_WRITE (R429, R432-R434): the next block of stream `i` goes to a chunk of each copy; what it lacks is a PAD record. -/
def execBlockWrite (i : Fin 64) (s : State) : Out :=
  if !s.writesUnits || !s.reng.stream[i].buf.any (fun r => decide (0 < r.left)) then .next s
  else
    let p := s.ensureChunks i
    if !p.2 then .next p.1
    else
      let us := p.1.reng.stream[i].units
      let bits : BitVec 8 := us.foldl (fun b k => b ||| (1#8 <<< k.val)) 0
      let f := fillBlock 4096 bits p.1.reng.stream[i].buf
      let s1 : State := p.1.modStream i (fun x => { x with buf := f.1 })
      let s2 : State := us.foldl (fun (s : State) k => s.modUnit k (fun u => { u with
        chunks := u.chunks.map (fun c => if c.stream = i && c.open_ then chunkBlock c f.2 else c) })) s1
      let still (k : Fin 8) : Bool := s2.reng.unit[k].chunks.any (fun c => c.stream = i && c.open_)
      .next (s2.modStream i (fun x => { x with units := x.units.filter still }))
/-- A record that stands durably on every copy it was written to (R433). -/
def BufRec.done (r : BufRec) : Bool := r.left = 0 && r.written != 0 && r.durable &&& r.written == r.written
/-- The records at the head of a buffer that are durable leave it; the last one's SEQ is DURABLE_SEQ. -/
def dropDone : Nat → List BufRec → Nat × List BufRec
  | d, [] => (d, [])
  | d, r :: rest => if r.done then dropDone r.rcd.seq rest else (d, r :: rest)
/-- DURABLE_SEQ of every stream after writes have become durable; room may let data sets be streamed (R419, R433). -/
def State.advanceDurable (s : State) : State :=
  let step (x : Stream) : Stream :=
    let d := dropDone x.durable x.buf
    { x with durable := d.1, buf := d.2 }
  ({ s with reng := { s.reng with stream := tmap step s.reng.stream } }).streamSets
/-- A record is written with FUA: streams 0 and 1, and SYNC (R433). -/
def BufRec.fua (r : BufRec) : Bool := r.sync || r.rcd.stream = 0 || r.rcd.stream = 1
/-- UNIT_FLUSH (R433): a Flush is issued to each unit; with the engine's rates of the last second, in MB/s. -/
def execUnitFlush (writeMbs inMbs : Nat) (s : State) : Out :=
  if !s.writesUnits then .next s
  else .next { s with reng := { s.reng with
    writeMbs := writeMbs, inMbs := inMbs
    stream := tmap (fun x : Stream => { x with buf := x.buf.map (fun r => { r with flushing := r.written }) }) s.reng.stream } }
/-- UNIT_WRITE_DONE (R433): the writes with FUA, or the Flush, in flight on unit `k` complete. -/
def execUnitWriteDone (k : Fin 8) (flush : Bool) (s : State) : Out :=
  let bit : BitVec 8 := 1#8 <<< k.val
  let upd (r : BufRec) : BufRec :=
    if flush then { r with durable := r.durable ||| (r.flushing &&& bit), flushing := r.flushing &&& ~~~ bit }
    else if r.fua && r.left = 0 then { r with durable := r.durable ||| (r.written &&& bit) } else r
  .next ({ s with reng := { s.reng with
    stream := tmap (fun x : Stream => { x with buf := x.buf.map upd }) s.reng.stream } }.advanceDurable)

/-! ### Units in and out of service (R438-R440) -/

/-- Storage link `k` is enabled by LINKS, or no LINKS section is in force. -/
def State.storageOn (s : State) (k : Fin 8) : Bool :=
  match s.cfg.links with | some l => l.storageEn.getLsbD k.val | none => true
/-- UNIT_PRESENT (R438): PRSNT_N asserted for 100 ms. -/
def execUnitPresent (k : Fin 8) (s : State) : Out :=
  match s.g.st with
  | .off | .stabled => .next s
  | _ =>
    if s.reng.unit[k].st = .absent && s.storageOn k then
      .next (s.modUnit k (fun u => { u with st := .training, present := true, perst := false }))
    else .next (s.modUnit k (fun u => { u with present := true }))
/-- UNIT_CONTROLLER_READY (R438): `met` says that R430 is met; with the unit's data chunks and its wear. -/
def execUnitControllerReady (k : Fin 8) (met : Bool) (chunks wearPct : Nat) (s : State) : Out :=
  if s.reng.unit[k].st = .training && !s.noRetrain (704 + k.val) then
    .next ((s.linkFound (704 + k.val)).modUnit k (fun u => { u with
      st := if met then .verifying else .failed, failCause := if met then u.failCause else some .unsupported
      capChunks := chunks, wearPct := wearPct }))
  else .next s
/-- UNIT_TRAINING_TIMEOUT (R438). -/
def execUnitTrainingTimeout (k : Fin 8) (s : State) : Out :=
  if s.reng.unit[k].st = .training then .next (s.modUnit k (fun u => { u with st := .failed, failCause := some .noLink })) else .next s
/-- The chunks of a unit that enters service: those that were left OPEN are closed where their stream records already (R439); before
recording they wait to be completed (R436). -/
def State.takeChunks (s : State) (l : List Chunk) : List Chunk :=
  l.map (fun c =>
    let x := s.reng.stream[c.stream]
    if x.units.isEmpty && x.durable = 0 then c else { c with open_ := false })
/-- UNIT_VERIFY_DONE (R436, R438, R439): in SAFE_HOLD, UNPROVISIONED and with no vehicle position read a unit goes no further
than VERIFYING or FOREIGN. -/
def execUnitVerifyDone (k : Fin 8) (r : UnitCheck) (s : State) : Out :=
  if s.reng.unit[k].st ≠ .verifying then .next s
  else
    let stay := s.g.st = .safeHold || s.g.st = .unprovisioned || !s.g.loadOk
    match r with
    | .foreign => if s.g.loadOk || s.g.st = .safeHold then .next (s.modUnit k (fun u => { u with st := .foreign })) else .next s
    | .good l =>
      if stay then .next (s.modUnit k (fun u => { u with chunks := l }))
      else .next ((s.modUnit k (fun u => { u with st := .inService, chunks := s.takeChunks l })).raise (704 + k.val))
    | .blank => if stay then .next s else .next (s.modUnit k (fun u => { u with st := .blank, chunks := [] }))
    | .badIndex => if stay then .next s else .next (s.modUnit k (fun u => { u with st := .failed, failCause := some .indexBad, chunks := [] }))
/-- UNIT_SHUTDOWN_DONE (R438, R442): a releasing unit is durable and shut down; not after the entry to LAST_GASP. -/
def execUnitShutdownDone (k : Fin 8) (s : State) : Out :=
  if s.reng.unit[k].st = .releasing && s.g.st ≠ .lastGasp then .next (s.modUnit k (fun u => { u with st := .removable, perst := true }))
  else .next s
/-- Unit `k` no longer holds what is not durable on it (R440): those records are written again, with REWRITTEN, into new chunks of their
streams on other units, whose OPEN chunks close; a record that stands there in part begins anew. -/
def State.unwrite (s : State) (k : Fin 8) : State :=
  let bit : BitVec 8 := 1#8 <<< k.val
  let upd (r : BufRec) : BufRec :=
    if r.written &&& bit &&& ~~~ r.durable = 0 then (if 0 < r.left then { r with left := r.rcd.len } else r)
    else { r with written := r.written &&& ~~~ bit, flushing := r.flushing &&& ~~~ bit, left := r.rcd.len, rcd := { r.rcd with rewritten := true } }
  let step (x : Stream) : Stream :=
    if x.units.contains k then { x with units := [], buf := x.buf.map upd } else x
  let hit (i : Fin 64) : Bool := s.reng.stream[i].units.contains k
  let close (u : StUnit) : StUnit := { u with chunks := u.chunks.map (fun c => if hit c.stream then { c with open_ := false } else c) }
  { s with reng := { s.reng with stream := tmap step s.reng.stream, unit := tmap close s.reng.unit } }
/-- Unit `k` is no longer in service: a stream none of whose units is IN_SERVICE is FULL (R434, R439). -/
def State.unitGone (s : State) (k : Fin 8) : State :=
  (List.finRange 64).foldl (fun (s : State) i =>
    match s.streamCfg i with
    | some c => if c.units.getLsbD k.val && (s.unitsOf i).isEmpty && !s.reng.stream[i].full && s.writesUnits then
        (s.modStream i (fun x => { x with full := true })).raise (640 + i.val) 1 else s
    | none => s) s
/-- UNIT_REMOVED (R438, R440). -/
def execUnitRemoved (k : Fin 8) (s : State) : Out :=
  let u := s.reng.unit[k]
  if u.st = .absent then .next (s.modUnit k (fun u => { u with present := false }))
  else
    let surprise := decide (u.st ≠ .removable)
    let s1 : State := if surprise then s.unwrite k else s
    .next (((s1.modUnit k (fun u => { u with
      st := .absent, present := false, perst := true, failCause := none, linkDown := false, chunks := [], capChunks := 0
      surpriseSeen := u.surpriseSeen || surprise })).raise (704 + k.val) 1).unitGone k)
/-- STORAGE_LINK_DOWN (R440, R481): the link of an IN_SERVICE unit drops and is retrained for up to 1 s; under TB_FAULT it is lost, with
its source. -/
def execStorageLinkDown (k : Fin 8) (s : State) : Out :=
  if s.reng.unit[k].st = .inService && !s.reng.unit[k].linkDown then
    let s1 : State := s.modUnit k (fun u => { u with linkDown := true })
    .next (if s.time.tbFault then s1.linkLost (704 + k.val) else s1.noteLost (704 + k.val))
  else .next s
/-- STORAGE_LINK_RECOVERED (R440, R481): retrained within 1 s; the writes in flight are reissued to the same addresses. -/
def execStorageLinkRecovered (k : Fin 8) (s : State) : Out :=
  if s.reng.unit[k].linkDown && !s.time.tbFault then
    .next ((s.linkFound (704 + k.val)).modUnit k (fun u => { u with linkDown := false, recoveredSeen := true }))
  else .next s
/-- UNIT_WRITE_ERROR (R438, R440): a write error, or 1 s of lost link, fails an IN_SERVICE unit. -/
def execUnitWriteError (k : Fin 8) (linkLost : Bool) (s : State) : Out :=
  if s.reng.unit[k].st = .inService then
    .next ((((s.unwrite k).modUnit k (fun u => { u with
      st := .failed, failCause := some (if linkLost then .linkLost else .writeError), linkDown := false })).raise (704 + k.val) 2).unitGone k)
  else .next s
/-- The answer to a unit command. -/
def State.unitAnswer (s : State) (k : Fin 8) (a : Ans) : State := s.modUnit k (fun u => { u with cmdAns := a })
/-- UNIT_RELEASE (R438, R442): the OPEN chunks of the unit close at once. -/
def execUnitRelease (k : Fin 8) (force : Bool) (s : State) : Out :=
  match s.reng.unit[k].st with
  | .inService =>
    if s.unitsOf 0 = [k] && !force then .next (s.unitAnswer k .refusedJuridical)
    else
      let s1 : State := s.modUnit k (fun u => { u with st := .releasing, chunks := u.chunks.map (fun c => { c with open_ := false }) })
      .next ((({ s1 with reng := { s1.reng with
        stream := tmap (fun x : Stream => { x with units := x.units.filter (· != k) }) s1.reng.stream } }).unitAnswer k .accepted).unitGone k)
  | .releasing | .removable => .next (s.unitAnswer k .noChange)
  | _ => .next (s.unitAnswer k .refusedState)
/-- UNIT_ADMIT (R438): PERST_N of a FAILED unit is cycled. -/
def execUnitAdmit (k : Fin 8) (s : State) : Out :=
  match s.reng.unit[k].st with
  | .failed => .next ((s.modUnit k (fun u => { u with st := .training, failCause := none, perst := false })).unitAnswer k .accepted)
  | .training | .verifying | .inService => .next (s.unitAnswer k .noChange)
  | _ => .next (s.unitAnswer k .refusedState)
/-- UNIT_FORMAT (R438): a label and a table of FREE entries; FORCE for a FOREIGN unit or one with a bad index. -/
def execUnitFormat (k : Fin 8) (force : Bool) (s : State) : Out :=
  let u := s.reng.unit[k]
  let wipe : State := ((s.modUnit k (fun u => { u with st := .inService, failCause := none, chunks := [] })).unitAnswer k .accepted).raise (704 + k.val)
  if s.recState ≠ 1 then .next (s.unitAnswer k .refusedState)
  else match u.st with
  | .blank => .next wipe
  | .foreign => if force then .next (wipe.juridical "UNIT_FORMATTED" [k.val]) else .next (s.unitAnswer k .refusedState)
  | .failed => if force && u.failCause = some .indexBad then .next (wipe.juridical "UNIT_FORMATTED" [k.val]) else .next (s.unitAnswer k .refusedState)
  | .inService => .next (s.unitAnswer k .noChange)
  | _ => .next (s.unitAnswer k .refusedState)

/-! ### Host streams (R437) -/

/-- STREAM_TAIL_WRITE (R362, R437): host software writes REC_STR_TAIL. -/
def execStreamTailWrite (i : Fin 64) (tail : BitVec 16) (s : State) : Out :=
  let x := s.reng.stream[i]
  if i.val < 3 then .next s
  else if 2 ^ x.ringLog2.toNat < (tail - x.head).toNat then .next (s.accessErr 7 0 (0x091024 + 64 * i.val))
  else .next (s.modStream i (fun y => { y with tail := tail }))
/-- STREAM_PAYLOAD_ADMITTED (R431, R437): the descriptor at HEAD with its payload; HEAD passes it. One out of range is skipped,
counted and reported; with no room HEAD stays. -/
def execStreamPayloadAdmitted (i : Fin 64) (len : Word) (typ : Byte) (sync : Bool) (payload : List Byte) (s : State) : Out :=
  let x := s.reng.stream[i]
  let n := len.toNat
  let ok := decide (1 ≤ n) && decide (n ≤ 1048512) && decide (16 ≤ typ.toNat)
  if ok && payload.length != n then .refused .illFormed
  else if i.val < 3 || (s.streamCfg i).isNone || !x.enable || x.head = x.tail || s.reng.hostStopped || s.recState ≠ 1 then .next s
  else if !ok then
    .next ((s.modStream i (fun y => { y with head := y.head + 1, dropped := satInc 0xFFFFFFFF y.dropped })).raise (640 + i.val) 2)
  else if !s.hasRoom i (64 + (n + 15) / 16 * 16) then .next s
  else .next ((s.putEntry i typ payload n s.edge.mtime s.stampUtc s.time.utcQual s.nv.cur.poweron sync).modStream i
    (fun y => { y with head := y.head + 1 }))

/-! ### Reading back (R441) -/

/-- The records of stream `i` that units hold, in SEQ order, each SEQ once, the one without REWRITTEN first. -/
def State.storedRecs (s : State) (i : Fin 64) : List Rec :=
  let units := s.reng.unit.toList.filter (fun u => u.st = .inService || u.st = .releasing || u.st = .verifying)
  let all := units.flatMap (fun u => (u.chunks.filter (fun c => c.stream = i)).flatMap (·.recs))
  let ins (l : List Rec) (r : Rec) : List Rec :=
    let before := l.filter (fun x => decide (x.seq < r.seq))
    let same := l.filter (fun x => x.seq = r.seq)
    let after := l.filter (fun x => decide (r.seq < x.seq))
    match same with
    | x :: _ => before ++ [if x.rewritten then r else x] ++ after
    | [] => before ++ [r] ++ after
  all.foldl ins []
/-- The durable records from a SEQ on that a read returns, within `room` bytes and before a damaged one (R441). -/
def takeRecs (stop : Option Nat) : Nat → List Rec → List Rec
  | _, [] => []
  | room, r :: rest => if some r.seq = stop || room < r.len then [] else r :: takeRecs stop (room - r.len) rest
/-- What a read of stream `i` from `seq` returns within `len` bytes; `damaged` is a SEQ damaged on every copy, and the
Bool says that the read ended at it. -/
def State.readRecs (s : State) (i : Fin 64) (seq len : Nat) (damaged : Option Nat) : List Rec × Bool :=
  let open_ := (s.reng.stream[i].buf.map (·.rcd.seq))
  let cand := (s.storedRecs i).filter (fun r => decide (seq ≤ r.seq) && !open_.contains r.seq)
  let l := takeRecs damaged len cand
  (l, damaged.isSome && decide ((cand[l.length]?).map (·.seq) = damaged))
/-- RECORD_READ (R441): READ in REC_RD_CMD. -/
def execRecordRead (i : Fin 64) (s : State) : Out :=
  if s.reng.rdState = 1 then .next { s with reng := { s.reng with rdAns := .refusedBusy } }
  else .next { s with reng := { s.reng with rdState := 1, rdAns := .none, rdStream := i, rdKib := 0 } }
/-- RECORD_READ_ABORT (R441). -/
def execRecordReadAbort (s : State) : Out :=
  if s.reng.rdState = 1 then .next { s with reng := { s.reng with rdState := 0 } } else .next s
/-- RECORD_READ_DONE (R441): the records stand in host memory; `damaged` is a SEQ that no copy gives intact. -/
def execRecordReadDone (hostError : Bool) (damaged : Option Nat) (s : State) : Out :=
  if s.reng.rdState ≠ 1 then .next s
  else if hostError then .next { s with reng := { s.reng with rdState := 2, rdAns := .hostWriteError } }
  else
    let p := s.readRecs s.reng.rdStream s.reng.rdSeq.toNat s.reng.rdLen.toNat damaged
    let l := p.1
    let hit := p.2
    let bytes := l.flatMap recBytes
    let next := if hit then damaged.getD 0 + 1 else match l.getLast? with | some r => r.seq + 1 | none => s.reng.rdNext.toNat
    let ans : Ans := if hit then .truncated else if l.isEmpty then .notFound else .found
    let s1 : State := if bytes.isEmpty then s else s.toHost s.reng.rdAddr bytes
    .next { s1 with reng := { s1.reng with rdState := 2, rdAns := ans, rdKib := bytes.length / 1024, rdNext := dw next } }

end Sys2Proof.Machine
end

