-- ==== Sys2Proof/Machine/Ageing.lean ====
section
/-!
DEFINITION. Meanings: the spalting monitor (R27-R29, R76-R79, R311, R443-R458).
-/
namespace Sys2Proof.Machine
open Sys2Proof

/-- A value that stands outside the commit groups and is kept as soon as it is measured. -/
def State.keep (s : State) (f : NvData → NvData) : State :=
  { s with nv := { s.nv with cur := f s.nv.cur, durable := f s.nv.durable, committing := s.nv.committing.map f } }
/-- The states in which the monitor measures (R27): every one except OFF and STABLED. -/
def State.measures (s : State) : Bool := s.g.st.operating

/-! ### The slowdown factor (R27-R29, R311) -/

/-- A factor above 1.000 at the full offset (R29): TIMING_BEYOND_MODEL, its one entry in the later-fault list under class 17
(R276, R283), and BEYOND. -/
def State.beyondModel (s : State) (factor : BitVec 16) : State :=
  if s.nv.cur.beyond then s
  else ((s.keep (fun d => { d with beyond := true })).raise 13).faultLogged 17 13 "TIMING_BEYOND_MODEL" [factor.toNat]
/-- SLOWDOWN_MEASURE (R27, R29, R311): the factor of one 1 ms window. -/
def execSlowdownMeasure (factor : BitVec 16) (s : State) : Out :=
  if !s.measures then .next s
  else
    let s1 : State := s.keep (fun d => { d with factor := factor })
    let s2 : State := if s1.nv.cur.coreOffset = 60 && 4096 < factor.toNat then s1.beyondModel factor else s1
    .next (if s2.nv.cur.beyond && decide (s2.spn.checkFactor.toNat * 1000 + 20480 ≤ factor.toNat * 1000) && s2.g.st.cycleRuns
      then s2.checkBudget factor else s2)
/-- CORE_OFFSET_STEP (R28, R445): the core voltage offset moves 5 mV toward that of the re-plan. -/
def execCoreOffsetStep (s : State) : Out :=
  if s.g.st.operating && s.nv.cur.coreOffset < s.age.coreTarget then
    .next (s.keep (fun d => { d with coreOffset := min 60 (d.coreOffset + 5) }))
  else .next s

/-! ### References, cell and load (R447, R451, R443) -/

/-- Whether a pair of references agrees (R447). -/
def refAgree (d : Int) : Bool := decide (d.natAbs ≤ 200)
/-- One reference's turn in R447: outvoted, back in after an hour of agreement, or as before. The Bool says newly outvoted. -/
def refTurn (now : Ns) (out rejoined agreesBoth : Bool) (since : Option Ns) (wasOut : Bool) : Bool × Option Ns × Bool :=
  if out then (true, none, !wasOut)
  else if wasOut && agreesBoth then
    match since with
    | none => (!rejoined, some now, false)
    | some t => if t + 3600000000000 ≤ now then (false, none, false) else (true, some t, false)
  else (wasOut, none, false)
/-- REFERENCE_CHECK (R447): the differences of the references in pairs, in ppm. -/
def execReferenceCheck (ab bc ca : Int) (s : State) : Out :=
  if !s.measures then .next s
  else
    let x := refAgree ab
    let y := refAgree bc
    let z := refAgree ca
    let a := s.age
    let rA := refTurn s.now (y && !x && !z) false (x && z) a.rejoin[(0 : Fin 3)] (a.outvoted.getLsbD 0)
    let rB := refTurn s.now (z && !x && !y) false (x && y) a.rejoin[(1 : Fin 3)] (a.outvoted.getLsbD 1)
    let rC := refTurn s.now (x && !y && !z) false (y && z) a.rejoin[(2 : Fin 3)] (a.outvoted.getLsbD 2)
    let bits := BitVec.ofNat 3 (rA.1.toNat + 2 * rB.1.toNat + 4 * rC.1.toNat)
    let new := rA.2.2 || rB.2.2 || rC.2.2
    let s1 : State := { s with age := { a with
      dAb := ab, dBc := bc, dCa := ca, refDisagree := !x && !y && !z, refFail := a.refFail || (!x && !y && !z)
      outvoted := bits, refOutSeen := a.refOutSeen || new
      rejoin := tset (tset (tset a.rejoin 0 rA.2.1) 1 rB.2.1) 2 rC.2.1 } }
    .next (if new then s1.laterFault none none "REF_OUTVOTED" [bits.toNat] else s1)
/-- CELL_CHECK (R443): the secret-store cell's voltage in mV, hourly in every state except OFF. -/
def execCellCheck (mv : Nat) (s : State) : Out :=
  if s.g.st = .off then .next s else .next (s.keep (fun d => { d with cellMv := mv }))
/-- The window of R451: 500 operating hours in ns. -/
def estWindow : Nat := 1800000000000000
/-- P_MEAS(NORMAL) counts at least one rail (R334, R451). -/
def State.countsRail (s : State) : Bool := (s.staysUp .normal).any (fun n => (s.railEnergy n).isSome)
/-- LOAD_ESTIMATE_SAMPLE (R451): a second ends in which the level was NORMAL; its P_MEAS(NORMAL), in mW, and the key's P_KEY enter the
sums of EST_CORR when P_MEAS(NORMAL) counted a rail. -/
def execLoadEstimateSample (_ : Marker) (s : State) : Out :=
  match s.cfg.hds with
  | some h =>
    if s.g.level = .normal && s.measures && s.countsRail then
      let k := match h.levels[0]? with | some x => x.pKey | none => 0
      let now := s.nv.cur.opNs
      .next { s with age := { s.age with
        load := (now, s.pMeas.headD 0, k) :: s.age.load.filter (fun x => decide (now ≤ x.1 + estWindow)) } }
    else .next s
  | none => .next s

/-! ### The hold-up store (R76, R77, R79, R449) -/

/-- The reserve threshold in mV (R77): the voltage at which the usable energy is 5 J, rounded up to 50 mV. -/
def reserveMv (uf : Nat) : Nat :=
  50 * ((List.range 64000).find? (fun k => decide (10000000000000 + 144000000 * uf ≤ uf * (50 * k) * (50 * k)))).getD 64000
/-- The store is judged by its usable energy at full charge (R79). -/
def State.judgeStore (s : State) : State :=
  let full := usableMj s.nv.cur.capUf 27000
  let s1 : State := s.nvWrite 3 (fun d => { d with fullDj := full / 100, fade := decide (full < 28000) })
  if full < 28000 then s1.raise 11 0 else s1
/-- A new capacitance (µF) and ESR (0.1 mΩ) come into force, and the store is judged (R76, R77, R79, R449). -/
def State.landStore (s : State) (uf esr : Nat) : State :=
  let esrHigh := decide (0 < s.fac.esr0 ∧ 3 * s.fac.esr0 < esr)
  let s1 : State := s.nvWrite 16 (fun d => { d with
    capUf := uf, esr := esr, reserveMv := reserveMv uf, esrHigh := esrHigh, holdupTestNs := d.opNs })
  let s2 : State := { s1 with sup := { s1.sup with usableMj := usableMj uf s1.sup.bankMv } }
  let s3 : State := s2.judgeStore
  if esrHigh then s3.raise 11 2 else s3
/-- The conditions of a test discharge (R449). -/
def State.testOk (s : State) : Bool :=
  decide (27000 ≤ s.sup.bankMv) && s.sup.present && !s.pfw && decide (s.g.level = .normal) &&
    (match s.g.st with | .off | .stabled | .lastGasp => false | _ => true)
/-- HOLDUP_TEST_START (R449): in a re-plan, or once deferred. -/
def execHoldupTestStart (s : State) : Out :=
  if s.testOk && !s.age.testing && (s.age.state = 1 || s.age.state = 2) then
    .next { s with age := { s.age with testing := true } }
  else .next s
/-- HOLDUP_TEST_END (R449): the fall of the bank voltage in µV and the step at the onset in 0.1 mV. A fall of 0 leaves the
capacitance open. -/
def execHoldupTestEnd (dv step : Nat) (s : State) : Out :=
  if !s.age.testing then .next s
  else
    let uf := if dv = 0 then freeNat s.free else 80000000000 / dv
    let s1 : State := { s with
      free := if dv = 0 then s.free + 1 else s.free
      age := { s.age with testing := false } }
    if s.age.state = 1 then .next { s1 with age := { s1.age with tested := some (uf, step) } }
    else .next ({ s1 with age := { s1.age with state := 0 } }.landStore uf step)

/-! ### Warning windows, estimates and thermal factors (R450-R453) -/

/-- BASELINE_SET (R198). -/
def RailKept.hasBase (k : RailKept) : Bool := decide (8 ≤ k.baseCount)
/-- A rational rounded to the nearest integer, a half upward. -/
def ratRound (x : Rat) : Int := (x + 1 / 2).floor
/-- The narrowing n of rail `n` (R450). -/
def State.narrowing (s : State) (n : RailN) : Rat :=
  match s.cfg.ageing with
  | none => 0
  | some a =>
    let k := s.nv.cur.rail[n]
    if a.narrowEn && k.hasBase then
      let x : Rat := (100 - (k.health : Rat)) / (100 - (a.healthEol : Rat))
      (a.narrowMax : Rat) / 100 * min 1 (max 0 x)
    else 0
/-- The effective warning window of a rail under a narrowing (R450). -/
def narrowed (c : CRail) (n : Rat) : UV × UV :=
  (ratRound ((c.warnLo : Rat) + n * ((c.upLo : Rat) - c.warnLo)), ratRound ((c.warnHi : Rat) - n * ((c.warnHi : Rat) - c.upHi)))
/-- The effective windows of all used rails (R450). -/
def State.windows (s : State) : List (RailN × UV × UV) :=
  (List.finRange 256).filterMap (fun n => match s.railCfg n with
    | some c => if c.used then some (n, narrowed c (s.narrowing n)) else none
    | none => none)
/-- EST_CORR as a re-plan forms it (R451). -/
def State.newEstCorr (s : State) : Nat :=
  match s.cfg.ageing with
  | none => 1024
  | some a =>
    if !a.estEn then 1024
    else
      let l := s.age.load.filter (fun x => decide (s.nv.cur.opNs ≤ x.1 + estWindow))
      let m := (l.map (fun x => x.2.1)).sum
      let k := (l.map (fun x => x.2.2)).sum
      if l.length < 3600 || k = 0 then s.nv.cur.estCorr
      else min a.estMax (max a.estMin ((2 * 1024 * m + k) / (2 * k)))
/-- The domains whose queues take E_K as lower bound (R452): a rail of the domain's group holds HEALTH below HEALTH_WARN. -/
def State.newEklow (s : State) : BitVec 16 :=
  let warn := match s.cfg.module with | some m => m.healthWarn | none => 0
  let low (n : RailN) : Bool := s.nv.cur.rail[n].hasBase && decide (s.nv.cur.rail[n].health < warn)
  BitVec.ofNat 16 ((List.finRange 16).map (fun d => match s.domGroup d with
    | some (_, c) => (c.rails.any low).toNat * 2 ^ d.val
    | none => 0)).sum
/-- K_R or K_C of every thermal domain (R453). -/
def State.newTherm (s : State) (old : Vector Nat 8) (m : List (Option Nat)) : List Nat :=
  (List.finRange 8).map (fun h =>
    match s.cfg.ageing, s.thermCfg h with
    | some a, some c =>
      if a.thermEn && c.meas.isSome then
        match (m[h.val]?).getD none with
        | some k => min (1024 + 1024 * a.thermMax / 100) (max (1024 - 1024 * a.thermMax / 100) k)
        | none => old[h]
      else 1024
    | _, _ => 1024)

/-! ### Comparator trims (R238, R448) -/

/-- The trim for two differences in 1/16,384 step, and whether it lies beyond the range. -/
def trimOf (d : Int × Int) : Int × Bool :=
  let t : Int := -((d.1 + d.2 + 256) / 512)
  (max (-31) (min 31 t), decide (31 < t.natAbs))
/-- Whether comparator `i` keeps its old trim for now: its rail is in RAMP (R448). -/
def State.trimWaits (s : State) (i : Fin 320) : Bool :=
  if h : i.val < 256 then decide ((s.rail ⟨i.val, h⟩).st = .ramp) else false

/-! ### Forecasts (R454, R455) -/

/-- A least-squares line through points: slope and intercept. -/
def lineFit (l : List (Rat × Rat)) : Option (Rat × Rat) :=
  let n : Rat := l.length
  let sx := (l.map (·.1)).sum
  let sy := (l.map (·.2)).sum
  let sxx := (l.map (fun p => p.1 * p.1)).sum
  let sxy := (l.map (fun p => p.1 * p.2)).sum
  let d := n * sxx - sx * sx
  if d = 0 then none else some ((n * sxy - sx * sy) / d, (sy * sxx - sx * sxy) / d)
/-- What a forecast says: nothing, no end in sight, or the hours left. -/
inductive Fc where
  | unknown | beyond | hours (h : Rat)
deriving DecidableEq, Repr
/-- The time until a line through the newest 10 points (hours, value), oldest first, reaches its limit (R454). -/
def forecastOf (pts : List (Rat × Rat)) (limit : Rat) (rising : Bool) (now : Rat) : Fc :=
  let l := pts.drop (pts.length - 10)
  match l.head?, l.getLast?, lineFit l with
  | some a, some b, some (m, c) =>
    if l.length < 3 || b.1 - a.1 < 1000 then .unknown
    else if (if rising then decide (0 < m) else decide (m < 0)) then .hours (max 0 ((limit - c) / m - now))
    else if (if rising then decide (limit ≤ m * now + c) else decide (m * now + c ≤ limit)) then .hours 0
    else .beyond
  | _, _, _ => .unknown
/-- The earlier of two forecasts of one item. -/
def Fc.earlier : Fc → Fc → Fc
  | .hours a, .hours b => .hours (min a b)
  | .hours a, _ => .hours a
  | _, .hours b => .hours b
  | .unknown, x => x
  | x, _ => x
/-- YEARS of AGE_FORECAST, in 0.1 year of 8,760 hours, rounded down. -/
def Fc.years : Fc → Nat
  | .unknown => 0xFFFF
  | .beyond => 0xFFFE
  | .hours h => let y := (h / 876).floor.toNat
    if 65533 < y then 0xFFFE else y
/-- Rails of item 5 with their forecasts: HEALTH of each rail with BASELINE_SET now. -/
def State.healthNow (s : State) : List (Nat × Nat) :=
  (List.finRange 256).filterMap (fun n => if s.nv.cur.rail[n].hasBase && s.railUsed n then some (n.val, s.nv.cur.rail[n].health) else none)
/-- The six forecasts, and the rail of item 5 (R454). -/
def State.forecasts (s : State) : List Fc × Nat :=
  let p := s.nv.cur.perm
  let now : Rat := s.opHours
  let op (f : HistRec → Rat) : List (Rat × Rat) := p.map (fun r => ((r.opHours : Rat), f r))
  let cal := (p.filter (fun r => r.utcQual = 1 || r.utcQual = 2)).map (fun r =>
    ((r.utc.toNat : Rat) / 3600000000000, (r.cellMv : Rat)))
  let f0 := forecastOf (op (fun r => (r.f60.toNat : Rat))) 4096 true now
  let f1 := forecastOf (op (fun r => (r.fullDj : Rat))) 100 false now
  let f2 := if s.time.utcQual = 0 then Fc.unknown else forecastOf cal 2600 false ((s.time.utc.toNat : Rat) / 3600000000000)
  let f3 := (forecastOf (op (fun r => (r.wearPct : Rat))) 100 true now).earlier
    (forecastOf (op (fun r => (r.retired : Rat))) 64 true now)
  let f4 := forecastOf (op (fun r => ((max r.dAb.natAbs (max r.dBc.natAbs r.dCa.natAbs) : Nat) : Rat))) 200 true now
  let eol : Rat := match s.cfg.ageing with | some a => (a.healthEol : Rat) | none => 0
  let rails := s.healthNow.map (fun x =>
    (x.1, x.2, forecastOf (p.filterMap (fun r => (r.healths.find? (fun y => y.1 == x.1)).map (fun y => ((r.opHours : Rat), (y.2 : Rat)))))
      eol false now))
  let pick (a : Option (Nat × Nat × Fc)) (b : Nat × Nat × Fc) : Option (Nat × Nat × Fc) :=
    match a with
    | none => some b
    | some x => match x.2.2, b.2.2 with
      | .hours u, .hours v => if v < u then some b else some x
      | .hours _, _ => some x
      | _, .hours _ => some b
      | _, _ => if b.2.1 < x.2.1 then some b else some x
  let f5 := rails.foldl pick none
  match f5 with
  | some x => ([f0, f1, f2, f3, f4, if s.cfg.ageing.isSome then x.2.2 else .unknown], x.1)
  | none => ([f0, f1, f2, f3, f4, .unknown], 0)
/-- A forecast shown, with AGE_EOL_WARN at a falling crossing of WARN_H (R455). -/
def State.showForecast (s : State) (u : Fin 6) (f : Fc) (detail : Nat) : State :=
  let old := s.nv.cur.forecast[u]
  let w := match s.cfg.ageing, f with
    | some a, .hours h => decide (h < a.warnH)
    | some _, .beyond => false
    | _, _ => old.warn
  let s1 : State := s.keep (fun d => { d with forecast := tset d.forecast u { years := f.years, warn := w, detail := detail } })
  if w && !old.warn then
    (({ s1 with age := { s1.age with changed := s1.age.changed ||| 0x80 } }).raise 31 (1 + u.val)).laterFault (some 31) none
      "AGE_EOL_WARN" [u.val, detail]
  else s1

/-! ### The re-plan (R444, R445, R456) -/

/-- Results of a re-plan take effect (R445): the take's entries have landed before, and a rail without a baseline has the
key's window. -/
def State.landReplan (s : State) (r : Replan) : State :=
  let wait := r.cmpTrim.filter (fun x => s.trimWaits x.1)
  let now := r.cmpTrim.filter (fun x => !s.trimWaits x.1)
  let s0 : State := now.foldl State.lagTrim s
  let s1 : State := ({ s0 with age := { s.age with due := none, trimLate := wait, eKlow := r.eKlow } }).nvWrite 400 (fun d => { d with
    cmpTrim := now.foldl (fun (v : Vector Int 320) (x : Fin 320 × Int) => tset v x.1 x.2) d.cmpTrim
    estCorr := r.estCorr
    kR := Vector.ofFn (fun h : Fin 8 => (r.kR[h.val]?).getD d.kR[h])
    kC := Vector.ofFn (fun h : Fin 8 => (r.kC[h.val]?).getD d.kC[h])
    agedBase := r.baseline.getD d.agedBase })
  let s2 : State := match r.cap with | some c => s1.landStore c.1 c.2 | none => s1
  let s3 : State := r.warn.foldl (fun (s : State) x =>
    let edges := match s.railCfg x.1 with
      | some c => if s.nv.cur.rail[x.1].hasBase then x.2 else (c.warnLo, c.warnHi)
      | none => x.2
    let t : State := s.modRail x.1 (fun y => { y with effLo := edges.1, effHi := edges.2 })
    match (t.rail x.1).st, (t.rail x.1).lastClean with
    | .up, some v => t.judgeWarn x.1 v
    | _, _ => t) s2
  let s4 : State := match s3.cfg.hds with
    | some h => h.queues.foldl (fun (s : State) y =>
        let b := s.estBounds y.2
        s.modQueue y.1 (fun u => { u with est := clampN b.1 b.2 u.est })) s3
    | none => s3
  match s4.g.st with
  | .check | .sequence | .run | .runDown => s4.checkBudget r.factor
  | _ => s4
/-- The 256 bytes of a history record (R456). -/
def HistRec.bytes (r : HistRec) : List Byte :=
  let s2 (x : Int) : List Byte := leBytes 2 (scode 16 x)
  withCrc (padTo 252 (leBytes 4 0x41474548 ++ leBytes 2 1 ++ leBytes 1 r.kind ++ [0] ++ leBytes 8 r.mtime.toNat ++ leBytes 8 r.utc.toNat ++
    leBytes 4 r.opHours ++ leBytes 2 r.poweron.toNat ++ leBytes 1 r.coreOffset ++ leBytes 1 r.utcQual ++
    leBytes 2 r.factor.toNat ++ leBytes 2 r.f60.toNat ++ s2 r.dAb ++ s2 r.dBc ++ s2 r.dCa ++ leBytes 2 r.cellMv ++
    leBytes 2 (r.cap / 10) ++ leBytes 2 r.esr ++ leBytes 2 r.fullDj ++ leBytes 2 r.retired ++ leBytes 1 r.wearPct ++
    leBytes 1 (min 255 r.trimLimit) ++ leBytes 2 r.estCorr ++ leBytes 4 r.corr24 ++
    ((List.range 8).flatMap (fun h => leBytes 2 ((r.kR[h]?).getD 0) ++ leBytes 2 ((r.kC[h]?).getD 0))) ++
    (r.forecasts.flatMap (leBytes 2)) ++ leBytes 1 r.rail ++ leBytes 1 r.health))
/-- A re-plan ends (R444): its steps in order, AGE_REPLAN, the history record, source 31; the results land now, or at the
first COMMIT in SEQUENCE, RUN and RUN_DOWN (R445). -/
def State.replanEnd (s : State) (kind : Nat) (m : ReplanIn) : State :=
  let cur := s.nv.cur.coreOffset / 5
  let fits (k : Nat) : Bool := decide (((m.factors[k]?).getD 0).toNat * 1000 ≤ 950 * 4096)
  let k := (((List.range 13).filter (fun k => decide (cur ≤ k))).find? fits).getD 12
  let factor := (m.factors[k]?).getD 0
  let s1 : State := { s with age := { s.age with coreTarget := max s.nv.cur.coreOffset (5 * k) } }
  let s2 : State := if k = 12 && 4096 < factor.toNat then s1.beyondModel factor
    else s1.keep (fun d => { d with beyond := d.beyond && decide (4096 < factor.toNat) })
  let long := s2.cfg.prog.toList.filterMap id |>.any (fun p => p.beads.any (fun b => decide (160000 * 4096 < b.2 * max 4096 factor.toNat)))
  let s3 : State := if long then s2.raise 13 2 else s2
  let trims := (List.finRange 320).map (fun i => (i, trimOf ((m.offsets[i.val]?).getD (0, 0))))
  let atLimit := (trims.filter (fun x => x.2.2)).length
  let s4 : State := (trims.filter (fun x => x.2.2)).foldl (fun (s : State) x =>
    (s.raise 31 (4096 + x.1.val)).laterFault (some 31) none "COMPARATOR_TRIM_LIMIT" [x.1.val]) s3
  let warn := s4.windows
  let r : Replan := {
    cmpTrim := trims.map (fun x => (x.1, x.2.1)), cap := s4.age.tested, warn := warn, estCorr := s4.newEstCorr
    kR := s4.newTherm s4.nv.cur.kR m.kR, kC := s4.newTherm s4.nv.cur.kC m.kC, factor := factor, eKlow := s4.newEklow
    baseline := some s4.touch.base }
  let moved := warn.any (fun (x : RailN × UV × UV) => (s4.rail x.1).effLo != x.2.1 || (s4.rail x.1).effHi != x.2.2)
  let bits : Nat := (decide (s.nv.cur.coreOffset < 5 * k)).toNat + 2 * (r.cmpTrim.any (fun (x : Fin 320 × Int) => s4.nv.cur.cmpTrim[x.1] != x.2)).toNat +
    4 * r.cap.isSome.toNat + 8 * moved.toNat + 16 * (r.estCorr != s4.nv.cur.estCorr).toNat +
    32 * (r.kR != s4.nv.cur.kR.toList || r.kC != s4.nv.cur.kC.toList).toNat +
    64 * (s4.dropsFit factor.toNat != s4.spn.budgetDropped).toNat
  let s5 : State := { s4 with age := { s4.age with
    changed := BitVec.ofNat 8 bits, trimLimit := min 255 atLimit
    narrowed := ((List.finRange 256).filter (fun n => s4.railUsed n && decide (0 < s4.narrowing n))).length } }
  let fc := s5.forecasts
  let s6 : State := ((List.finRange 6).zip fc.1).foldl (fun (s : State) (x : Fin 6 × Fc) =>
    s.showForecast x.1 x.2 (if x.1.val = 5 then fc.2 else 0)) s5
  let d := s6.nv.cur
  let uf := match r.cap with | some c => c.1 | none => d.capUf
  let rec_ : HistRec := {
    kind := kind, mtime := s6.time.mtime, utc := s6.utcNow, utcQual := s6.time.utcQual, opHours := s6.opHours, poweron := d.poweron
    coreOffset := s6.age.coreTarget, factor := factor, f60 := (m.factors[12]?).getD 0
    dAb := s6.age.dAb, dBc := s6.age.dBc, dCa := s6.age.dCa, cellMv := d.cellMv, cap := uf
    esr := match r.cap with | some c => c.2 | none => d.esr
    fullDj := usableMj uf 27000 / 100, retired := s6.nv.retired, wearPct := s6.nv.wearPct, trimLimit := min 255 atLimit
    estCorr := r.estCorr, corr24 := s6.nv.corrBits, kR := r.kR, kC := r.kC, forecasts := fc.1.map Fc.years, rail := fc.2
    health := ((s6.healthNow.find? (fun x => x.1 == fc.2)).map (·.2)).getD 0, healths := s6.healthNow }
  let s7 : State := (s6.nvWrite 256 (fun d => { d with
    ring := (d.ring ++ [rec_]).drop (d.ring.length + 1 - 4096)
    perm := if (kind = 2 || s.age.kind = 2) && d.perm.length < 1024 then d.perm ++ [rec_] else d.perm
    replans := satInc 65535 d.replans, lastReplanNs := d.opNs })).commitStart
  let s8 : State := ({ s7 with age := { s7.age with
    state := if r.cap.isSome then 0 else 2, testing := false, tested := none, due := some r } }).raise 31
  let s9 : State := if r.cap.isSome then s8 else s8.judgeStore
  match s9.g.st with
  | .sequence | .run | .runDown => s9
  | _ => s9.landReplan r

/-- A re-plan begins (R444); that of a CHECK stays marked when the 500 hours passed on the way to it. -/
def State.replanStart (s : State) (kind : Nat) : State :=
  let k := if kind = 1 && s.age.kind = 2 then 2 else kind
  { s with age := { s.age with state := 1, kind := k, testing := false, tested := none } }
/-- The states in which a re-plan of its own starts (R444). -/
def ModSt.replans : ModSt → Bool
  | .sequence | .run | .runDown | .safeHold | .unprovisioned => true
  | _ => false
/-- REPLAN_DUE (R444): 500 operating hours have passed since the last re-plan. One that falls due in START or LOAD is that of the coming
CHECK, whose record enters the permanent list as well (R456; DEDUCED, log entry 152). -/
def execReplanDue (s : State) : Out :=
  if s.g.st.replans && s.age.state != 1 then .next (s.replanStart 2)
  else if s.g.st = .start || s.g.st = .load then .next { s with age := { s.age with kind := 2 } }
  else .next s
/-- REPLAN (R444, R458): AGE_CMD. -/
def execReplan (s : State) : Out :=
  let ans (s : State) (a : Ans) : State := { s with age := { s.age with cmdAns := a } }
  if !s.g.st.replans then .next (ans s .refusedState)
  else if s.age.state = 1 then .next (ans s .refusedBusy)
  else .next ((ans s .accepted).replanStart 3)
/-- REPLAN_END (R28, R29, R444-R456): the re-plan that runs ends with what it measured. That of a CHECK ends with the
self-test. -/
def execReplanEnd (m : ReplanIn) (s : State) : Out :=
  if m.factors.length ≠ 13 || m.offsets.length ≠ 320 || m.kR.length ≠ 8 || m.kC.length ≠ 8 then .refused .illFormed
  else if s.age.state = 1 && s.g.st.replans then .next (s.replanEnd s.age.kind m).settle
  else .next s
/-- AGE_HIST_SELECT (R456, R457): a write to AGE_HIST_SEL loads the record selected. -/
def execAgeHistSelect (sel : BitVec 13) (s : State) : Out :=
  let l := if sel.getLsbD 12 then s.nv.cur.perm else s.nv.cur.ring
  let hit := l[sel.toNat % 4096]?
  .next { s with age := { s.age with
    histSel := sel, histAns := if hit.isSome then .found else .notFound
    histData := match hit with | some r => r.bytes | none => s.age.histData } }

end Sys2Proof.Machine
end

