-- ==== Sys2Proof/Machine/Watchdogs.lean ====
section
/-!
DEFINITION. Meanings: the host link and its resets, host reset and the manual-reset input, the host watchdog (R180, R181,
R459-R464, R465-R469, R481).
-/
namespace Sys2Proof.Machine
open Sys2Proof

/-! ### The host link (R465-R469, R481) -/


/-- HOST_LINK_DOWN (R469). -/
def execHostLinkDown (s : State) : Out := .next s.hostLinkDown
/-- Whether the host link may train: the internal rails good (R80), enabled, not held in reset, and not lost under TB_FAULT (R180,
R471, R481). DEDUCED: in SAFE_HOLD after a failed CHECK a LINK_EN that disables the host link keeps it down, although R18 says that
the host link is up there (log entry 119). -/
def State.hostLinkMay (s : State) : Bool :=
  s.linksPowered && !s.mrst.hostRst && !s.lnk.up && !s.noRetrain 719 &&
    (match s.cfg.links with | some l => l.linkEn.getLsbD 0 | none => true)
/-- HOST_LINK_UP (R465, R469, R260, R460): the link trains, PERST_N being released. A recovery is recorded and reported; the first
training after START opens the watchdog's first window, which counts from the end of START. -/
def execHostLinkUp (width rate : Nat) (s : State) : Out :=
  if !s.hostLinkMay then .next s
  else
    let s0 : State := s.linkFound 719
    let s1 : State := { s0 with lnk := { s0.lnk with
      up := true, width := width, rate := rate, perst := false, trainedSinceStart := true, lostAt := none } }
    let s2 : State := match s.lnk.lostAt with
      | some t => (({ s1 with lnk := { s1.lnk with
          downAt := t, upAt := s.time.mtime, retrains := satInc 65535 s1.lnk.retrains } }).modEvt Evt.retrain).raise 30 1
      | none => s1
    let s3 : State := s2.raise 719 1
    .next (if s.lnk.trainedSinceStart || s.g.st = .start then s3 else s3.wdgFromStart)
/-- The host items of queue `q` that are QUEUED or DISPATCHED leave without a completion record; their charges are refunded
(R468). -/
def State.discardItems (s : State) (q : QueueN) (d : Fin 16) : State :=
  s.hds.queue[q].items.foldl (fun (s : State) (x : Item) =>
    if x.st = .aborting then s
    else
      let s1 : State := (s.addTokens x.charge).modQueue q (fun u => { u with items := u.items.filter (fun y => y.index != x.index) })
      if x.st = .dispatched then s1.modDom d (fun y => { y with inflight := y.inflight - 1 }) else s1) s
/-- What PERST_N, a Hot Reset or a Function Level Reset does to the Headstock's host queues (R468). -/
def State.resetQueues (s : State) : State :=
  match s.cfg.hds with
  | none => s
  | some h => h.queues.foldl (fun (s : State) y =>
      match y.2.dom with
      | some d => (s.discardItems y.1 d).modQueue y.1 (fun u => { u with enable := false })
      | none => s) s
/-- A staging session of host software ends as by ABORT; a prepared set stays (R468). -/
def State.resetStaging (s : State) : State :=
  if s.stg.owner = some Owner.host && !s.stg.switching && s.stg.st != StgState.idle then
    let s1 : State := if s.take.st = TakeState.preparing then s.abandonSet else s
    let b := s.key.selValid && !s.key.activeBank
    let k := s1.key
    let erased : KeySt := if b then { k with bank1 := .invalid } else { k with bank0 := .invalid }
    ({ s1 with
      key := if s.stg.st = StgState.writing then erased else k
      stg := { s1.stg with st := .idle, owner := none, result := 0, stagedSecs := [], diffs := [] } }).raise 19
  else s
/-- The host-facing state is reset (R468). -/
def State.hostFacingReset (s : State) : State :=
  let host (x : Src) : Bool := x == Src.host
  let noPrio (x : Tgt) : Tgt := { x with prio := 0xFF }
  let offDom (x : Dom) : Dom := { x with enable := false }
  let offStr (x : Stream) : Stream := { x with enable := false }
  let s1 : State := (s.riseHosts).resetQueues
  ({ s1 with
    evt := { s1.evt with msixEn := false, tgt := tmap noPrio s1.evt.tgt }
    railReqs := s1.railReqs.filter (fun q => !host q.src)
    marginReqs := s1.marginReqs.filter (fun q => !host q.src)
    seq := { s1.seq with rerun := if s1.seq.rerun = some Src.host then none else s1.seq.rerun }
    cmd := { s1.cmd with modReqs := s1.cmd.modReqs.filter (fun q => !host q.src) }
    hds := { s1.hds with dom := tmap offDom s1.hds.dom }
    reng := { s1.reng with stream := tmap offStr s1.reng.stream } }).resetStaging
/-- PERST_ASSERT (R468): the host-facing state is reset, and the link is down until PERST_N is released. -/
def execPerstAssert (s : State) : Out :=
  match s.g.st with
  | .off | .stabled => .next s
  | _ =>
    let s1 : State := (s.hostFacingReset).hostLinkDown
    .next { s1 with lnk := { s1.lnk with perst := true } }
/-- HOST_FUNCTION_RESET (R468): a Hot Reset or a Function Level Reset. -/
def execHostFunctionReset (s : State) : Out :=
  match s.g.st with
  | .off | .stabled => .next s
  | _ => .next s.hostFacingReset

/-! ### Host reset and the manual-reset input (R180, R181) -/

/-- HOST_RST_N is asserted for 100 ms: the link endpoint is held in reset with it, and the epochs of all host targets rise
(R180, R368, R461). -/
def State.hostReset (s : State) : State :=
  let s1 : State := (s.riseHosts).hostLinkDown
  { s1 with mrst := { s1.mrst with hostRst := true, hostRstAt := s.tickUs } }
/-- The states in which the manual-reset input acts (R90, R180). -/
def ModSt.readsMrst : ModSt → Bool
  | .off | .stabled | .lastGasp => false
  | _ => true
/-- MRST_PRESS (R180): the first assertion. -/
def execMrstPress (s : State) : Out :=
  let s1 : State := { s with mrst := { s.mrst with level := true } }
  if s.g.st.readsMrst && s.mrst.st = 0 then
    .next { s1 with mrst := { s1.mrst with st := 1, pressAt := s.tickUs, fired := false } }
  else .next s1
/-- MRST_RELEASE (R180): ten reads have found the input not asserted; the press ended at the first of them, 9 coarse ticks
before. -/
def execMrstRelease (s : State) : Out :=
  let s1 : State := { s with mrst := { s.mrst with level := false } }
  if s.mrst.st = 1 then
    let d := s.now - 9000 - s.mrst.pressAt
    let s2 : State := { s1 with mrst := { s1.mrst with st := 0 } }
    if s.g.st.readsMrst && 20000000 ≤ d && d < 8000000000 && !s.mrst.fired then
      .next ({ s2 with mrst := { s2.mrst with hostResets := satInc 65535 s2.mrst.hostResets } }).hostReset
    else .next s2
  else .next s1
/-- MRST_RESTART_PRESS (R180, R83): the press reaches 8 s. -/
def execMrstRestartPress (s : State) : Out :=
  if s.mrst.st = 1 && !s.mrst.fired && s.g.st.readsMrst then
    .next (({ s with mrst := { s.mrst with fired := true } }).restartRequest .mrst)
  else .next s
/-- MRST_STUCK (R181): the press is held beyond 60 s. -/
def execMrstStuck (s : State) : Out :=
  if s.mrst.st = 1 then .next (({ s with mrst := { s.mrst with st := 2, stuckSeen := true } }).raise 21 1) else .next s
/-- MRST_HELD_END (R181): the ignored input has read not asserted for 100 ms. -/
def execMrstHeldEnd (s : State) : Out :=
  if s.mrst.st = 2 then .next { s with mrst := { s.mrst with st := 0, level := false } } else .next s
/-- HOST_RESET_END (R180, R460): 100 ms after the later cause; a first window starts. -/
def execHostResetEnd (s : State) : Out :=
  if s.mrst.hostRst then
    let s1 : State := { s with mrst := { s.mrst with hostRst := false } }
    match s1.wdg.st with
    | .disabled | .stopped => .next s1
    | _ => .next s1.wdgFirst
  else .next s

/-! ### The host watchdog (R459-R463) -/

/-- The settings in force; before any successful LOAD those of R460. -/
def State.wdgCfg (s : State) : CWatchdog :=
  match s.cfg.watchdog with
  | some c => c
  | none => { openMs := 0, closeMs := 30000, firstS := 60, action := 0, domain := 0, lock := s.nv.cur.wdgLock, spnTimeoutUs := 50 }
/-- DOMAIN_CYCLE (R461, R464): in RUN, the domain's group is shut down and comes up again. -/
def State.domainCycle (s : State) (d : Fin 16) : State :=
  if s.g.st = .run then
    match s.domGroup d with
    | none => s
    | some (g, _) => (match (s.group g).st with
      | .down | .failed => s
      | _ => ((s.modDom d (fun x => { x with cycling := true })).shutGroup g .domainRequest).settle)
  else s
/-- The host watchdog expires (R461), LATE or EARLY. -/
def State.wdgExpire (s : State) (late : Bool) : State :=
  let c := s.wdgCfg
  let n := min 255 (s.wdg.expiries + 1)
  let s1 : State := { s with wdg := { s.wdg with expiredSeen := true, late := some late, expiries := n } }
  let s2 : State := (s1.raise 14 (if late then 2 else 1)).faultLogged 12 14 "HOST_WATCHDOG" [if late then 2 else 1, s.wdg.last.toNat]
  let opened : State := { s2 with wdg := { s2.wdg with st := .window, since := s.tickUs } }
  if c.action = 1 then ({ s2 with wdg := { s2.wdg with st := .first, started := false } }).hostReset
  else if c.action = 2 then opened.domainCycle c.domain
  else opened
/-- HOST_WDG_SERVICE (R460): a write to WDG_HOST_SVC, judged while a window runs. -/
def execHostWdgService (w : Word) (s : State) : Out :=
  let s1 : State := { s with wdg := { s.wdg with last := w, time := s.time.mtime } }
  let valid : State := { s1 with wdg := { s1.wdg with st := .window, since := s.tickUs, started := true, expiries := 0 } }
  match s.wdg.st with
  | .disabled | .stopped => .next s1
  | .first => .next (if s.wdg.started then valid else s1)
  | .window => .next (if s.now < s.wdg.since + s.wdgCfg.openMs * 1000000 then s1.wdgExpire false else valid)
/-- HOST_WDG_EXPIRY (R461): the close time has passed without a service. -/
def execHostWdgExpiry (s : State) : Out :=
  match s.wdg.st with
  | .window => .next (s.wdgExpire true)
  | .first => .next (if s.wdg.started then s.wdgExpire true else s)
  | _ => .next s
/-- WDG_DISABLE's answer to its writer (R463, R479). -/
def State.wdgAnswer (s : State) (o : Owner) (a : Ans) : State :=
  match o with
  | .host => { s with wdg := { s.wdg with ans := a } }
  | .session n => s.reply n 4 a
/-- WDG_DISABLE_ARM (R463): 0x1ACF written. -/
def execWdgDisableArm (o : Owner) (s : State) : Out :=
  match o with
  | .host => .next { s with wdg := { s.wdg with armed := some s.tickUs } }
  | .session n => .next ((s.modSession n (fun x => { x with wdgArmed := some s.tickUs })).reply n 4 .none)
/-- The sequence of R463 is accepted in the present state. -/
def State.wdgMayDisable (s : State) : Bool :=
  match s.g.st with
  | .start | .check | .safeHold => true
  | .run => false
  | _ => s.inTestMode
/-- WDG_DISABLE_CONFIRM (R463): 0xE532 written with the watchdogs named (bit 0 host, bit 1 spindle), within 1 ms of the arming
write. -/
def execWdgDisableConfirm (o : Owner) (which : BitVec 2) (s : State) : Out :=
  let armed := match o with
    | .host => s.wdg.armed
    | .session n => (match s.lnk.sessions[n] with | some x => x.wdgArmed | none => none)
  match armed with
  | none => .next s
  | some t =>
    let s1 : State := match o with
      | .host => { s with wdg := { s.wdg with armed := none } }
      | .session n => s.modSession n (fun x => { x with wdgArmed := none })
    if t + 1000000 < s.now then .next s1
    else if s.nv.cur.wdgLock then .next (s1.wdgAnswer o .refusedLock)
    else if !s.wdgMayDisable then .next (s1.wdgAnswer o .refusedState)
    else
      let off (w : SpnWdg) : SpnWdg := if which.getLsbD 1 then { w with enabled := false } else w
      .next (({ s1 with wdg := { s1.wdg with
        st := if which.getLsbD 0 && s1.wdg.st != WdgSt.stopped then .disabled else s1.wdg.st
        spn := tmap off s1.wdg.spn } }).wdgAnswer o .accepted)

end Sys2Proof.Machine
end

