-- ==== Sys2Proof/Machine/Links.lean ====
section
/-!
DEFINITION. Meanings: the train network ports, PTP, speed and location telegrams, network commands, the status telegram and
wake frames (R36, R37, R165, R470-R476, R481).
-/
namespace Sys2Proof.Machine
open Sys2Proof

/-! ### Ports (R470, R471, R481) -/

/-- Train network port `n` changed by `f`. -/
def State.modNet (s : State) (n : Fin 4) (f : NetPort → NetPort) : State :=
  { s with lnk := { s.lnk with net := tmod s.lnk.net n f } }
/-- A bit of LINKS for a port. -/
def State.portBit (s : State) (f : CLinks → BitVec 4) (n : Fin 4) : Bool :=
  match s.cfg.links with | some l => (f l).getLsbD n.val | none => false
/-- ROLE of a port (R471): 0 ECN_A, 1 ECN_B, 2 AUX. -/
def State.netRole (s : State) (n : Fin 4) : Nat :=
  match s.cfg.links with | some l => (l.roles.toNat / 4 ^ n.val) % 4 | none => 0
/-- A port takes telegrams (R470): enabled, linked, and not AUX. -/
def State.portTakes (s : State) (n : Fin 4) : Bool :=
  s.g.st.operating && s.portBit CLinks.netEn n && s.lnk.net[n].link && decide (s.netRole n ≤ 1)

/-! ### PTP (R475) -/

/-- The keys of the best master clock algorithm, first first. -/
def annKeys (a : Announce) : List Nat := [a.priority1, a.clockClass, a.accuracy, a.variance, a.priority2, a.identity]
/-- Lexicographic order of keys. -/
def keysBefore : List Nat → List Nat → Bool
  | x :: l, y :: m => decide (x < y) || (decide (x = y) && keysBefore l m)
  | _, _ => false
/-- The better of the masters qualified on two ports; the lower port wins ties. -/
def betterPort (acc : Option (Fin 4 × Announce)) (x : Fin 4 × Announce) : Option (Fin 4 × Announce) :=
  match acc with
  | none => some x
  | some y => if keysBefore (annKeys x.2) (annKeys y.2) then some x else some y
/-- The port that the algorithm selects, with its master. -/
def State.bestPort (s : State) : Option (Fin 4 × Announce) :=
  ((List.finRange 4).filterMap (fun n => (s.lnk.net[n].qualified).map (fun a => (n, a)))).foldl betterPort none
/-- The selection follows the qualified masters; a new master starts the count of qualifying Syncs again. -/
def State.selectPort (s : State) : State :=
  let old := s.lnk.net[s.lnk.ptpPort].qualified.map (·.identity)
  match s.bestPort with
  | none => { s with lnk := { s.lnk with ptpMaster := false, goodSyncs := 0, ptpClass := 0 } }
  | some (n, a) =>
    let same := s.lnk.ptpMaster && n = s.lnk.ptpPort && old = some a.identity
    { s with lnk := { s.lnk with
      ptpPort := n, ptpMaster := true, ptpClass := a.clockClass, goodSyncs := if same then s.lnk.goodSyncs else 0 } }
/-- What the selected master last announced of a leap second (R39, R475); the loss of the master does not withdraw it. -/
def State.noteLeap (s : State) (n : Fin 4) : State :=
  match s.lnk.net[n].qualified with
  | some a =>
    if s.lnk.ptpMaster && s.lnk.ptpPort = n then
      { s with lnk := { s.lnk with leap := if a.leap61 then some true else if a.leap59 then some false else none } }
    else s
  | none => s
/-- PTP_ANNOUNCE_RX (R475): the second Announce of a master on a port qualifies it; the better of it and the master qualified there
stays. -/
def execPtpAnnounceRx (n : Fin 4) (a : Announce) (s : State) : Out :=
  if !s.g.st.operating || !s.portBit CLinks.ptpEn n || !s.portBit CLinks.netEn n || !s.lnk.net[n].link then .next s
  else
    let p := s.lnk.net[n]
    let known := match p.qualified with | some q => q.identity == a.identity | none => false
    let second := match p.heard with | some h => h.identity == a.identity | none => false
    let chosen := match p.qualified with
      | some q => if keysBefore (annKeys a) (annKeys q) then a else q
      | none => a
    .next (((if known then s.modNet n (fun x => { x with qualified := some a })
      else if second then s.modNet n (fun x => { x with qualified := some chosen, heard := none })
      else s.modNet n (fun x => { x with heard := some a })).selectPort).noteLeap n)
/-- PTP_MASTER_LOSS (R475): the port loses its qualified master, and the best qualified port is selected at once. -/
def execPtpMasterLoss (n : Fin 4) (s : State) : Out :=
  .next ((s.modNet n (fun x => { x with qualified := none, heard := none })).selectPort)
/-- A measured offset of UTC against PTP time is corrected (R37): slewed below 1 ms, else stepped at the next coarse tick. It
replaces the rest of a slew, and a step that has not yet taken place. -/
def State.correctUtc (s : State) (offset : Int) : State :=
  if offset.natAbs < 1000000 then { s with time := { s.time with slewLeft := -offset, stepDue := none } }
  else { s with time := { s.time with slewLeft := 0, stepDue := some (-offset) } }
/-- PTP_SYNC_RX (R36, R37, R475): a Sync of the selected master with the offset of the module's time against it in ns, the mean path
delay, and the PTP time less currentUtcOffset. -/
def execPtpSyncRx (n : Fin 4) (offset : Int) (delay : Nat) (utc : DWord) (s : State) : Out :=
  if !s.g.st.operating || !s.lnk.ptpMaster || n ≠ s.lnk.ptpPort || !s.lnk.net[n].link then .next s
  else
    let near := 0 < s.lnk.goodSyncs && decide ((offset - s.lnk.ptpOffset).natAbs ≤ 1000)
    let good := if near then min 255 (s.lnk.goodSyncs + 1) else 1
    let valid := match s.lnk.net[n].qualified with | some a => a.utcOffsetValid | none => false
    let lock := decide (8 ≤ good) && valid && !s.time.tbFault
    let s1 : State := { s with lnk := { s.lnk with
      goodSyncs := good, ptpOffset := offset, ptpDelay := delay, lastSync := some s.now } }
    match s.time.utcQual with
    | 0 => .next (if lock then s1.setUtc utc else s1)
    | 1 => .next (s1.correctUtc offset)
    | _ => .next (if lock then
        (({ s1 with time := { s1.time with utcQual := 1 } }).correctUtc offset).stampChunks
      else s1)
/-- NET_LINK_CHANGE (R56, R80, R475, R481): a train network port, or as number 4 the maintenance port, links or loses its link. A
port that the key does not enable is kept powered down. -/
def execNetLinkChange (port : Fin 5) (isUp g1000 : Bool) (s : State) : Out :=
  if !s.g.st.operating then .next s
  else if h : port.val < 4 then
    let n : Fin 4 := ⟨port.val, h⟩
    if isUp then
      if s.lnk.net[n].link || s.noRetrain (712 + n.val) || !s.portBit CLinks.netEn n then .next s
      else .next (((s.linkFound (712 + n.val)).modNet n (fun x => { x with link := true, g1000 := g1000 })).raise (712 + n.val) 1)
    else if !s.lnk.net[n].link then .next s
    else .next (((s.modNet n (fun x => { x with link := false, g1000 := false, qualified := none, heard := none })).selectPort).linkLost (712 + n.val))
  else if isUp then
    if s.lnk.edivoLink || s.noRetrain 718 || !s.linksPowered || !s.portEn then .next s
    else
      let s1 : State := s.linkFound 718
      .next (({ s1 with lnk := { s1.lnk with edivoLink := true } }).raise 718 1)
  else if !s.lnk.edivoLink then .next s
  else .next (({ s with lnk := { s.lnk with edivoLink := false } }).linkLost 718)

/-! ### Speed, location, status and wake telegrams (R165, R472, R474, R476) -/

/-- A big-endian number of `n` bytes at an offset; none where the telegram is too short. -/
def beAt (l : List Byte) (o n : Nat) : Option Nat :=
  if o + n ≤ l.length then some (leNat ((l.drop o).take n).reverse) else none
/-- A signed big-endian 4-byte number. -/
def beInt (l : List Byte) (o : Nat) : Option Int :=
  (beAt l o 4).map (fun x => if 2 ^ 31 ≤ x then (x : Int) - 2 ^ 32 else x)
/-- SPEED_REPORT_RX (R165, R472): the SPEED_COMID telegram received within its timeout on one plane. -/
def execSpeedReportRx (n : Fin 4) (data : List Byte) (s : State) : Out :=
  match s.cfg.links with
  | none => .next s
  | some l =>
    if !s.portTakes n || l.speedComId = 0 then .next s
    else match beAt data l.speedOffset 2, beAt data (l.speedOffset + 2) 1 with
    | some v, some ok =>
      if ok ≠ 1 || v = 0xFFFF then .next s
      else
        let m : Motion := { s.motion with netSpeed := v / 10 }
        .next { s with motion := if 50 < v then { m with lastFast := some s.tickUs } else { m with lastSlow := some s.tickUs } }
    | _, _ => .next s
/-- LOCATION_RX (R472): the LOC_COMID telegram. -/
def execLocationRx (n : Fin 4) (data : List Byte) (s : State) : Out :=
  match s.cfg.links with
  | none => .next s
  | some l =>
    if !s.portTakes n || l.locComId = 0 then .next s
    else match beInt data l.locOffset, beInt data (l.locOffset + 4), beAt data (l.locOffset + 8) 1 with
    | some lat, some lon, some ok =>
      if ok = 1 && lat.natAbs ≤ 900000000 && lon.natAbs ≤ 1800000000 then
        .next { s with lnk := { s.lnk with lat := lat, lon := lon, locAt := some s.now } }
      else .next s
    | _, _, _ => .next s
/-- The duties of a PRIMARY are held: PRIMARY or DISABLED (R378, R386). -/
def State.primaryDuties (s : State) : Bool := s.hsb.st = .primary || s.hsb.st = .disabled
/-- The status telegram's 16 bytes (R474). -/
def State.statusBytes (s : State) : List Byte :=
  let flags := s.motion.moving.toNat + 2 * s.g.fault.toNat + 4 * s.g.ready.toNat + 8 * s.g.degraded.toNat + 16 * s.meterLine.toNat
  [BitVec.ofNat 8 s.g.st.code, BitVec.ofNat 8 s.g.level.code, BitVec.ofNat 8 flags, BitVec.ofNat 8 s.mtr.system] ++
    beBytes 4 s.nv.cur.periodSeq.toNat ++ beBytes 4 (s.key.runSerial.toNat % 4294967296) ++ List.replicate 4 0
/-- STATUS_TELEGRAM (R474): every 100 ms. -/
def execStatusTelegram (s : State) : Out :=
  match s.cfg.links with
  | none => .next s
  | some l =>
    if s.g.st.operating && s.primaryDuties && l.statusComId != 0 then
      .next { s with lnk := { s.lnk with telegrams := s.statusBytes :: s.lnk.telegrams } }
    else .next s
/-- The wake pattern of port `n`: 6 bytes of 0xFF and its MAC address 16 times (R476). -/
def State.wakePattern (s : State) (n : Fin 4) : List Byte :=
  List.replicate 6 0xFF ++ (List.replicate 16 (beBytes 6 (s.fac.mac.toNat + n.val))).flatten
/-- A list holds another as consecutive entries. -/
def holdsRun (p : List Byte) : List Byte → Bool
  | [] => p.isEmpty
  | x :: l => p.isPrefixOf (x :: l) || holdsRun p l
/-- WAKE_FRAME_RX (R85, R476): a frame on an enabled port with WAKE_EN; frames that arrive outside STABLED have no effect. -/
def execWakeFrameRx (n : Fin 4) (payload : List Byte) (s : State) : Out :=
  let links := match s.cfg.links with | some l => some l | none => s.prev.links
  let en := match links with | some l => l.netEn.getLsbD n.val && l.wakeEn.getLsbD n.val | none => false
  if s.g.st = .stabled && en && holdsRun (s.wakePattern n) payload then .next (s.wakeUp 7) else .next s

/-! ### Network commands (R473) -/

/-- NETWORK_OFF_ALLOWED (R86, R168). -/
def State.networkOff (s : State) : Bool := match s.modCfg with | some m => m.networkOffAllowed | none => false
/-- A module request of the network waits for the COMMIT, or is answered where no cycle runs (R365, R473). -/
def State.netRequest (s : State) (off : Bool) : State :=
  match s.cfg.links with
  | none => s
  | some l =>
    if l.cmdComId = 0 || !s.g.st.operating then s
    else if s.g.st.cycleRuns then
      { s with cmd := { s.cmd with modReqs := s.cmd.modReqs ++ [{ src := .network, off := off }] } }
    else if s.standby || (off && !s.networkOff) then s.modAnswer .network .refusedState
    else if off then s.offRequest .network
    else s.onRequest .network
/-- NET_OFF_REQUEST (R473). -/
def execNetOffRequest (s : State) : Out := .next (s.netRequest true)
/-- NET_ON_REQUEST (R473). -/
def execNetOnRequest (s : State) : Out := .next (s.netRequest false)
/-- CODE of RSQ_RAIL_CMD (R131). -/
def railCodeOf : Nat → Option RailCode
  | 1 => some .on
  | 2 => some .off
  | 3 => some .clear
  | 4 => some .release
  | 5 => some .park
  | 6 => some .unpark
  | _ => none
/-- NET_RAIL_COMMAND (R473): judged at the next COMMIT as source 4. Codes that RSQ_RAIL_CMD does not have are ignored, as there. -/
def execNetRailCommand (n : RailN) (code : BitVec 8) (s : State) : Out :=
  match s.cfg.links, railCodeOf code.toNat with
  | some l, some c =>
    if l.cmdComId = 0 || !s.g.st.operating then .next s
    else if s.g.st.cycleRuns then .next { s with railReqs := s.railReqs ++ [{ src := .network, rail := n, code := c }] }
    else .next (s.answer .network n .refusedState)
  | _, _ => .next s

end Sys2Proof.Machine
end

