-- ==== Sys2Proof/Machine/Memory.lean ====
section
/-!
DEFINITION. The shared image memory and the local memories (R289, R296): a list of cells in one canonical form, addresses
strictly rising and no cell that holds what an unlisted address reads as, 0x00 (R295). Addresses are offsets of BAR2.
-/
namespace Sys2Proof.Machine
open Sys2Proof

/-- The canonical form from address `lo` on. -/
def Memory.wfFrom : Nat → List Host.Cell → Bool
  | _, [] => true
  | lo, (a, b) :: rest => decide (lo ≤ a) && b != 0 && Memory.wfFrom (a + 1) rest
/-- The canonical form. -/
def Memory.wf (m : List Host.Cell) : Bool := Memory.wfFrom 0 m
/-- The byte at an address. -/
def Memory.get : List Host.Cell → Nat → Byte
  | [], _ => 0
  | (x, y) :: rest, a => if x = a then y else Memory.get rest a
/-- The memory with a byte written. -/
def Memory.set : List Host.Cell → Nat → Byte → List Host.Cell
  | [], a, b => if b = 0 then [] else [(a, b)]
  | (x, y) :: rest, a, b =>
    if a < x then (if b = 0 then (x, y) :: rest else (a, b) :: (x, y) :: rest)
    else if a = x then (if b = 0 then rest else (a, b) :: rest)
    else (x, y) :: Memory.set rest a b
/-- The bytes from an address on. -/
def Memory.bytes (m : List Host.Cell) (a n : Nat) : List Byte := (List.range n).map (fun i => Memory.get m (a + i))
/-- The memory with bytes written one by one from an address on. -/
def Memory.put : List Host.Cell → Nat → List Byte → List Host.Cell
  | m, _, [] => m
  | m, a, b :: rest => Memory.put (Memory.set m a b) (a + 1) rest
/-- The 32-bit word at an address, least significant byte first (R359). -/
def Memory.word (m : List Host.Cell) (a : Nat) : Word :=
  Memory.get m (a + 3) ++ Memory.get m (a + 2) ++ Memory.get m (a + 1) ++ Memory.get m a
/-- The memory with a 32-bit word written. -/
def Memory.putWord (m : List Host.Cell) (a : Nat) (w : Word) : List Host.Cell :=
  Memory.put m a [w.extractLsb' 0 8, w.extractLsb' 8 8, w.extractLsb' 16 8, w.extractLsb' 24 8]
/-- The cells from `lo` on and below `hi`. -/
def Memory.range (m : List Host.Cell) (lo hi : Nat) : List Host.Cell := m.filter (fun c => decide (lo ≤ c.1) && decide (c.1 < hi))
/-- The cells of bytes that stand from an address on. -/
def Memory.cells : Nat → List Byte → List Host.Cell
  | _, [] => []
  | a, b :: rest => if b = 0 then Memory.cells (a + 1) rest else (a, b) :: Memory.cells (a + 1) rest
/-- The memory with the whole area from `a` on replaced by bytes. -/
def Memory.fill (m : List Host.Cell) (a : Nat) (l : List Byte) : List Host.Cell :=
  m.filter (fun c => decide (c.1 < a)) ++ Memory.cells a l ++ m.filter (fun c => decide (a + l.length ≤ c.1))
/-- The memory with `n` bytes from `a` on cleared to 0x00. -/
def Memory.clear (m : List Host.Cell) (a n : Nat) : List Host.Cell :=
  m.filter (fun c => !(decide (a ≤ c.1) && decide (c.1 < a + n)))
/-- The memory with `n` bytes copied from `src` to `dst`. -/
def Memory.copy (m : List Host.Cell) (src dst n : Nat) : List Host.Cell :=
  m.filter (fun c => decide (c.1 < dst)) ++ (Memory.range m src (src + n)).map (fun c => (c.1 - src + dst, c.2)) ++
    m.filter (fun c => decide (dst + n ≤ c.1))

end Sys2Proof.Machine
end

