-- ==== Sys2Proof/Machine/Field.lean ====
section
/-!
DEFINITION. Meanings: field inputs and outputs (R392-R404).
-/
namespace Sys2Proof.Machine
open Sys2Proof

/-- The group of a point. -/
def pointGroup (p : PointN) : Fin 8 := Fin.ofNat 8 (p.val / 16)
/-- Point `i` of group `g`. -/
def groupPoint (g : Fin 8) (i : Nat) : PointN := Fin.ofNat 128 (16 * g.val + i)
/-- The points of a group. -/
def groupPoints (g : Fin 8) : List PointN := (List.range 16).map (groupPoint g)
/-- The FIELD section in force of a group, when it is used (R392). -/
def State.fieldCfg (s : State) (g : Fin 8) : Option CField :=
  match s.cfg.field[g] with
  | some c => if c.used then some c else none
  | none => none
/-- The record of a point of a used group. -/
def State.pointCfg (s : State) (p : PointN) : Option CPoint :=
  match s.fieldCfg (pointGroup p) with
  | some c => c.points[p.val % 16]?
  | none => none
/-- An input mode (R392). -/
def isInput : PMode → Bool
  | .inputT1 | .inputT3 | .input110 => true
  | _ => false
/-- The point is configured as an output. -/
def State.isOutput (s : State) (p : PointN) : Bool :=
  match s.pointCfg p with | some c => decide (c.mode = .output) | none => false
/-- Point `p` changed by `f`. -/
def State.modPoint (s : State) (p : PointN) (f : Point → Point) : State :=
  { s with fio := { s.fio with point := tmod s.fio.point p f } }
/-- Group `g` changed by `f`. -/
def State.modFGroup (s : State) (g : Fin 8) (f : FGroup → FGroup) : State :=
  { s with fio := { s.fio with group := tmod s.fio.group g f } }
/-- The switched value of a point (R394, R397, R399-R402): 1 only while the point conducts. -/
def State.switched (s : State) (p : PointN) : Bool :=
  let g := s.fio.group[pointGroup p]
  let x := s.fio.point[p]
  match s.pointCfg p with
  | none => false
  | some c =>
    decide (c.mode = .output) && !s.fio.outputsOff && g.supplyOk && !g.latched && !g.waiting && !x.thermal &&
      (if x.inSafe then (match c.safe with | .off => false | .on => true | .hold => x.hold) else x.cmd)
/-- The debounced values of 32 points (R396): FIO_IN. Output points read 0. -/
def State.fieldIn (s : State) (p : PointN) : Bool := !s.isOutput p && s.fio.point[p].debounced

/-- One raw sample of an input point (R396). -/
def Point.sample (x : Point) (v : Bool) (debounceUs : Nat) (now : Ns) : Point :=
  if v = x.debounced then { x with raw := v, cnt := none }
  else match x.cnt with
  | none => { x with raw := v, cnt := some (usUp now) }
  | some t => if t + debounceUs * 1000 ≤ now then { x with raw := v, debounced := v, cnt := none } else { x with raw := v }
/-- FIELD_SAMPLE (R395, R396): a sampling pulse of group `g` reads its contacts; `current` is the group's output current in
10 mA. -/
def execFieldSample (g : Fin 8) (contacts : BitVec 16) (current : Nat) (s : State) : Out :=
  match s.fieldCfg g with
  | none => .next s
  | some c =>
    if !s.cmpPowered then .next s
    else
      let s1 : State := s.modFGroup g (fun x => { x with current := current })
      if !s.fio.group[g].supplyOk then .next s1
      else
        let one (s : State) (i : Nat) : State :=
          match c.points[i]? with
          | some k => if isInput k.mode then
              s.modPoint (groupPoint g i) (fun x => x.sample (contacts.getLsbD i) k.debounceUs s.now) else s
          | none => s
        .next ((List.range 16).foldl one s1).settle
/-- SILENT_LOGIC_EXPIRY (R398, R399): the running timer of an output point expires; the point enters SAFE. -/
def execSilentLogicExpiry (p : PointN) (s : State) : Out :=
  if s.isOutput p && s.fio.point[p].timerAt.isSome && !s.fio.outputsOff then
    let held := s.switched p
    let s1 : State := s.modPoint p (fun x => { x with timerAt := none, inSafe := true, hold := if x.inSafe then x.hold else held })
    if s.fio.point[p].inSafe then .next s1
    else .next ((s1.raise (376 + p.val / 16) 3).laterFault (some (376 + p.val / 16)) none "SILENT_LOGIC" [p.val])
  else .next s
/-- Every input of a group back to 0 with no count (R394). -/
def State.clearInputs (s : State) (g : Fin 8) : State :=
  (groupPoints g).foldl (fun (s : State) p => s.modPoint p (fun x => { x with raw := false, debounced := false, cnt := none })) s
/-- GROUP_SUPPLY_LOST (R394): L+ below 18 V for 1 ms, on a used group, from the end of a successful LOAD. -/
def execGroupSupplyLost (g : Fin 8) (s : State) : Out :=
  if (s.fieldCfg g).isSome && s.cmpPowered && s.fio.group[g].supplyOk then
    let s1 : State := s.modFGroup g (fun x => { x with supplyOk := false, lostSeen := true })
    .next (((s1.clearInputs g).raise (376 + g.val) 0).settle)
  else .next s
/-- GROUP_SUPPLY_RETURNED (R394): the inputs debounce afresh and the outputs wait for a COMMIT; the first return after START
raises no event. -/
def execGroupSupplyReturned (g : Fin 8) (s : State) : Out :=
  if (s.fieldCfg g).isSome && s.cmpPowered && !s.fio.group[g].supplyOk then
    let old := s.fio.group[g].everOk
    let s1 : State := (s.modFGroup g (fun x => { x with supplyOk := true, waiting := true, everOk := true })).clearInputs g
    .next ((if old then s1.raise (376 + g.val) 1 else s1).settle)
  else .next s
/-- A used group whose supply has not returned by the end of CHECK raises the supply-loss event once (R394). -/
def State.fieldCheckEnd (s : State) : State :=
  (List.finRange 8).foldl (fun (s : State) g =>
    if (s.fieldCfg g).isSome && !s.fio.group[g].supplyOk then
      (s.modFGroup g (fun x => { x with lostSeen := true, everOk := true })).raise (376 + g.val) 0
    else s) s
/-- GROUP_OVERLOAD (R66, R401): the group is latched off. -/
def execGroupOverload (g : Fin 8) (s : State) : Out :=
  if s.cmpPowered && (s.fieldCfg g).isSome then
    .next ((s.modFGroup g (fun x => { x with
      latched := true, overSeen := true, overloads := satInc 65535 x.overloads })).raise (376 + g.val) 4)
  else .next s
/-- POINT_OVERLOAD (R400): a point enters current limit, or thermal shutdown. -/
def execPointOverload (p : PointN) (thermal : Bool) (s : State) : Out :=
  if s.cmpPowered && s.isOutput p then
    let old := s.fio.point[p].ovl
    let s1 : State := s.modPoint p (fun x => { x with ovl := true, ovlSeen := true, thermal := thermal })
    .next (if old then s1 else s1.raise (376 + p.val / 16) 2)
  else .next s
/-- POINT_OVERLOAD_CLEAR (R400). -/
def execPointOverloadClear (p : PointN) (s : State) : Out :=
  .next (s.modPoint p (fun x => { x with ovl := false, thermal := false }))
/-- RESET of a group overload, with its answer (R401). -/
def State.fieldReset (s : State) (g : Fin 8) : State × Ans :=
  let x := s.fio.group[g]
  if !x.latched then (s, .noChange)
  else if !x.supplyOk then (s, .refusedSupply)
  else if !s.g.st.cycleRuns then (s, .refusedState)
  else (s.modFGroup g (fun x => { x with latched := false, waiting := true }), .accepted)
/-- FIELD_GROUP_RESET (R401): RESET written to FIO_GROUP_CMD. -/
def execFieldGroupReset (g : Fin 8) (s : State) : Out :=
  let r := s.fieldReset g
  .next (r.1.modFGroup g (fun x => { x with cmdAns := r.2 }))

/-! ### COMMIT and landings (R397-R399, R403) -/

/-- The program that owns an output point (R310). -/
def State.pointOwner (s : State) (p : PointN) : Option ProgN :=
  (List.finRange 256).find? (fun n => match s.cfg.prog[n] with
    | some c => c.fieldOwn.getLsbD p.val
    | none => false)
/-- One output point at step 6 of a COMMIT (R397-R399): its image bit is taken; a refresh restarts the timer and ends SAFE;
the first COMMIT starts every timer. An output that no program owns stays off. -/
def State.pointCommit (s : State) (bits : BitVec 128) (first : Bool) (p : PointN) : State :=
  if !s.isOutput p then s
  else
    match s.pointOwner p with
    | none => s.modPoint p (fun x => { x with cmd := false, timerAt := none, inSafe := false })
    | some n =>
      let fresh := s.spn.prog[n].refreshed
      let bit := bits.getLsbD p.val
      s.modPoint p (fun x => { x with
        cmd := bit
        inSafe := x.inSafe && !fresh
        timerAt := if fresh || first then some s.tickUs else x.timerAt
        ovl := x.ovl && (bit || (x.inSafe && !fresh)) })
/-- Step 6 of R294 for the field outputs. -/
def State.fieldCommit (s : State) (bits : BitVec 128) : State :=
  let first := !s.fio.committed
  let s1 : State := (List.finRange 128).foldl (fun (s : State) p => s.pointCommit bits first p) s
  { s1 with fio := { s1.fio with
    outputsOff := false, committed := true
    group := tmap (fun x : FGroup => if x.supplyOk && !x.latched then { x with waiting := false } else x) s1.fio.group } }
/-- A FIELD section lands on group `g` (R56, R403); `old` gave the points their modes before. The supply of a group no longer used is
not judged: it counts as lost until it returns under a later section. -/
def State.fieldLand (s0 : State) (g : Fin 8) (old : Option CField) : State :=
  let s : State := if (s0.fieldCfg g).isSome then s0
    else s0.modFGroup g (fun x => { x with supplyOk := false, current := 0 })
  (List.range 16).foldl (fun (s : State) i =>
    let p := groupPoint g i
    let was : PMode := match old with
      | some c => (match c.points[i]? with | some k => k.mode | none => .unused)
      | none => .unused
    let is : PMode := match s.pointCfg p with | some k => k.mode | none => .unused
    if is = .output then
      s.modPoint p (fun x => { x with
        cmd := x.cmd && decide (was = .output), inSafe := false, timerAt := if s.fio.committed then some s.tickUs else none
        raw := false, debounced := false, cnt := none })
    else if was = is || (isInput was && isInput is) then s.modPoint p (fun x => { x with cnt := none })
    else s.modPoint p (fun x => { ovlSeen := x.ovlSeen })) s

end Sys2Proof.Machine
end

