-- ==== Sys2Proof/Machine/Key.lean ====
section
/-!
DEFINITION. Meanings: the key and its LOAD, the self-test at CHECK, staging and SWITCH (R21, R50, R56, R82, R86, R92-R106,
R112, R113, R126, R213, R216, R243, R244, R257-R259, R330).
-/
namespace Sys2Proof.Machine
open Sys2Proof

/-! ### The key's state (R50, R94, R103) -/

/-- A bank's state changed. -/
def KeySt.setBank (k : KeySt) (b : Bool) (st : BankSt) : KeySt := if b then { k with bank1 := st } else { k with bank0 := st }
/-- The bytes of a bank replaced in the key. -/
def KeySt.program (k : KeySt) (b : Bool) (image : List Byte) : KeySt :=
  { k with key := k.key.map (fun x => if b then { x with bank1 := image } else { x with bank0 := image }) }
/-- The bytes that a bank of the key holds. -/
def KeySt.bankBytes (k : KeySt) (b : Bool) : List Byte := match k.key with | some x => if b then x.bank1 else x.bank0 | none => []
/-- The key that the module reads as present: one whose VKEY is not shorted and whose identity sector's CRC is right (R67, R93). -/
def KeySt.present (k : KeySt) : Option Key := k.key.filter (fun x => !x.vkeyShort && x.identityOk)
/-- MISMATCH (R103): the key present is not the one read at LOAD, or its selector names another manifest. -/
def KeySt.differs (k : KeySt) : Bool :=
  match k.present with
  | none => k.mismatch
  | some x =>
    (k.wasRead && x.serial != k.loadedSerial) ||
      (!k.loadedDigest.isEmpty && (match x.selector with | some y => y.1.digest != k.loadedDigest | none => true))
/-- A bank as the module knows it before it has verified it: a bank with nothing programmed is INVALID, else WRITTEN (R106). -/
def bankSeen (b : List Byte) : BankSt := if b.isEmpty then .invalid else .written
/-- The selector of a key is read (R94): which bank is active, and which copy holds the current generation. With no valid copy no
bank is active. -/
def KeySt.readSelector (k : KeySt) (x : Key) : KeySt :=
  match x.selector with
  | none => { k with selValid := false, activeBank := false, selCopy := false, selGen := 0, bank0 := bankSeen x.bank0, bank1 := bankSeen x.bank1 }
  | some (sel, copyB, _) =>
    ({ k with activeBank := sel.bank, selCopy := copyB, selValid := true, selGen := sel.gen }.setBank sel.bank .active).setBank
      (!sel.bank) (bankSeen (x.bank !sel.bank))
/-- A LOAD fails (R102): its code and section are kept, and SAFE_HOLD is entered with them. -/
def State.loadFail (s : State) (r : LoadRes) : State :=
  let named := r.code = 4 || r.code = 6 || r.code = 0xB
  let t := if named then r.typ else 0
  let i := if named then r.inst else 0
  let s1 : State := { s with key := { s.key with
    loadCode := BitVec.ofNat 8 r.code, loadType := BitVec.ofNat 8 t, loadInst := BitVec.ofNat 8 i } }
  s1.enterSafeHold "LOAD_FAILED" [r.code, t, i]

/-! ### The configuration is applied at the end of LOAD -/

/-- The touch key at the end of a successful LOAD (R175). -/
def State.touchAtLoad (s : State) (used : Bool) : State :=
  let t := s.touch
  if !used then { s with touch := { t with st := .unused, forced := false, first := 21 } }
  else match t.st with
  | .unused =>
    if (t.samples.head?.map (fun (x : Int) => decide (t.base + s.fac.delta < x))).getD false then
      { s with touch := { t with st := .heldAtPowerup, heldSeen := true, held := 0, relRun := 0 } }.raise 20 1
    else { s with touch := { t with st := .idle } }
  | _ => s
/-- User regions whose CLASS or PAGES differ from the last successful LOAD are erased (R488). -/
def State.eraseRegions (s : State) (c : CSecurity) : State :=
  let changed (m : Fin 16) : Bool :=
    match s.nv.cur.secLoad, c.regions[m.val]? with
    | some o, some n => (match o.regions[m.val]? with
      | some x => x.trace != n.trace || x.pages != n.pages
      | none => true)
    | _, _ => false
  (((List.finRange 16).filter changed).foldl (fun (s : State) m =>
    (s.nvWrite 256 (fun d => { d with user := d.user.filter (fun p => p.region != m) })).juridical "REGION_ERASED" [m.val]) s).nvWrite 64
    (fun d => { d with secLoad := some c })
/-- Every used rail moves from PARKED to OBSERVE (R126), with the key's warning window. -/
def State.railsAtLoad (s : State) : State :=
  (List.finRange 256).foldl (fun (s : State) n =>
    match s.railCfg n with
    | some c => if c.used then (s.modRail n (fun r => { r with effLo := c.warnLo, effHi := c.warnHi })).toObserve n else s
    | none => s) s
/-- The scan converters take the key's lists (R213, R216): SENSE entries of another range than the built-in 32 V start with
two SETTLING results. A calibration that fell due before START is due again, by its age in operating time (R217). The results of the
built-in lists stand until their registers' first results (R226). -/
def State.scanAtLoad (s : State) : State :=
  let conv (c : ConvN) : Conv :=
    let x : Conv := s.scan.conv[c]
    match s.cfg.scan[c] with
    | some l => { x with
        st := .scanning, pos := 0, pass := 0, passAt := s.now, overPrev := false
        cur := (l.entries[0]?).map (fun e => { own := true, pos := 0, entry := e })
        calDue := (s.nv.cur.cal[c]).lost || decide (l.calIntervalMin ≤ s.nv.cur.opNs / 60000000000 - (s.nv.cur.cal[c]).at_) }
    | none => x
  let s1 : State := { s with scan := { s.scan with conv := Vector.ofFn conv } }
  (List.finRange 16).foldl (fun (s : State) c =>
    ((List.range (s.listOf c).length).zip (s.listOf c)).foldl (fun (s : State) (e : Nat × CScanEntry) =>
      let wide := match s.railCfg (Fin.ofNat 256 e.2.input.toNat) with | some r => decide (r.range = 2) | none => true
      if e.2.input.toNat < 256 && !wide then
        { s with scan := { s.scan with res := tmod s.scan.res (resIndex c e.1) (fun g => { g with settle := 2 }) } }
      else s) s) s1
/-- Routing sets and hold-offs of the key's EVENT section (R254, R258, R259). -/
def State.eventsAtLoad (s : State) : State :=
  match s.cfg.event with
  | none => s
  | some e =>
    let route (n : Fin 1024) : BitVec 64 := (e.route[n.val]?).getD 0
    let hold (g : Fin 32) : BitVec 16 := BitVec.ofNat 16 ((e.holdoff[g.val]?).getD 0)
    s.modEvt (fun x => { x with route := Vector.ofFn route, holdoff := Vector.ofFn hold })
/-- Links that the key declares unused are powered down at the end of LOAD (R56, R471). -/
def State.linksAtLoad (s : State) : State :=
  match s.cfg.links with
  | none => s
  | some l =>
    let s1 : State := if l.linkEn.getLsbD 0 then s else s.hostLinkDown
    let s2 : State := if l.linkEn.getLsbD 1 || !s1.lnk.edivoLink then s1
      else ({ s1 with lnk := { s1.lnk with edivoLink := false, sessions := Vector.replicate 4 none } }).linkLost 718
    { s2 with reng := { s2.reng with unit := Vector.ofFn (fun k : Fin 8 =>
      if l.storageEn.getLsbD k.val then s2.reng.unit[k] else s2.reng.unit[k].atStart false) } }
/-- Module parameters that outlive STABLED and START (R86, R459). -/
def State.paramsAtLoad (s : State) : State :=
  let s1 : State := match s.cfg.module with
    | some m => { s with g := { s.g with wakeEn := m.wakeEn, timerMin := BitVec.ofNat 16 m.wakeTimerMin } }.touchAtLoad m.touchUsed
    | none => s
  let s2 : State := match s1.cfg.watchdog with
    | some w => if s1.nv.cur.wdgLock = w.lock then s1 else s1.nvWrite 1 (fun d => { d with wdgLock := w.lock })
    | none => s1
  let hsb := match s2.cfg.links with | some l => l.hsbEnabled | none => false
  let s3 : State := { s2 with hsb := { s2.hsb with st := if hsb then .seeking else .disabled } }
  match s3.cfg.security with
  | some c => s3.eraseRegions c
  | none => s3
/-- What the store reports at the end of LOAD: a rolled-back group (R273), and sections that were taken and not switched,
which have reverted (R113). -/
def State.nvAtLoad (s : State) : State :=
  let s1 : State := match s.nv.rollback with
    | some q => ({ s with nv := { s.nv with rollback := none } }).raise 26 q.toNat
    | none => s
  if s1.nv.cur.takenSecs.isEmpty then s1
  else (s1.juridical "TAKE_REVERTED" (s1.nv.cur.takenSecs.map (fun x => x.1 * 256 + x.2))).nvWrite 8 (fun d => { d with takenSecs := [] })
/-- The configuration of a checked image is applied to every subsystem, and the module enters CHECK (R102, R126). -/
def State.applyLoad (s : State) (img : Image) (sel : Selector) : State :=
  let c := cfgOf img.secs
  let first := !s.g.loaded
  let prog (n : ProgN) : ProgSt := if (c.prog[n]).isSome then { st := .inactive, initDue := true } else {}
  let s1 : State := { s with
    cfg := c, prev := c, run := img.secs
    g := { s.g with loaded := true, loadOk := true }
    key := { s.key with loadedDigest := sel.digest, runSerial := img.hdr.serial, loadCode := 0, loadType := 0, loadInst := 0 }
    spn := { s.spn with prog := Vector.ofFn prog } }
  let s2 : State := s1.setMod .check
  let s3 : State := (s2.eventsAtLoad.scanAtLoad).railsAtLoad.linksAtLoad
  let s4 : State := (List.finRange 64).foldl (fun (s : State) a => s.cmpSync (Fin.ofNat 320 (256 + a.val))) s3
  ((((s4.paramsAtLoad).nvAtLoad).alertsAtLoad).loadHds first).replanStart 1
/-- KEY_LOAD_COMPLETE (R102): the key is read and checked. -/
def execKeyLoadComplete (_ : Marker) (s : State) : Out :=
  if s.g.st ≠ .load then .next s
  else match s.key.present with
  | none => .next (s.loadFail ⟨1, 0, 0⟩)
  | some k =>
    let s1 : State := { s with key := { s.key with wasRead := true, keySerial := k.serial, loadedSerial := k.serial }.readSelector k }
    match k.selector with
    | none => .next (s1.loadFail ⟨3, 0, 0⟩)
    | some (sel, _, tie) =>
      let s2 : State := if tie then s1.laterFault none none "SELECTOR_TIE" else s1
      match checkImage (k.bank sel.bank) (some sel.digest) s.sec.custKey k.position s.fac.hwRev with
      | .inl r => .next (s2.loadFail r)
      | .inr img => .next (s2.applyLoad img sel)

/-! ### CHECK ends (R21, R28, R74, R79, R244, R265, R330) -/

/-- Whether a failed comparator has no redundancy (R244): of a used rail, an armed analog point or S0-S15. -/
def State.cmpMatters (s : State) (i : Fin 336) : Bool :=
  if h : i.val < 256 then s.railUsed ⟨i.val, h⟩
  else if i.val < 320 then (match s.cfg.trip with
    | some t => (match t.cmps[i.val]? with | some c => c.used | none => false)
    | none => false)
  else true
/-- Why the self-test leads to SAFE_HOLD, if it does: a unit without redundancy has failed. The code tells the unit. -/
def State.checkFails (s : State) (t : SelfTest) : Option Nat :=
  let resets := s.g.railResets.filter (fun x => decide (s.now ≤ x + 3600000000000))
  if 3 ≤ resets.length then some 1
  else if usableMj s.nv.cur.capUf 27000 < 10000 then some 2
  else if s.age.refDisagree || s.age.refFail then some 3
  else if (List.range 8).any (fun k => t.convs.getLsbD (2 * k) && t.convs.getLsbD (2 * k + 1)) then some 4
  else if t.cmps.any s.cmpMatters then some 5
  else if 2 ≤ ((List.range 9).filter (fun q => t.pairs.getLsbD q)).length then some 6
  else if 64 < s.nv.retired then some 7
  else if t.other then some 8 else none
/-- A physical pair that fails at CHECK: the spare serves its logical pair (R288, R330). -/
def State.pairFailsCheck (s : State) (q : PPairN) : State :=
  let out (x : PPair) : PPair := { x with st := .failed, lpA := none, lpB := none }
  let s1 : State := { s with spn := { s.spn with phys := tmod s.spn.phys q out } }
  if h : q.val < 8 then
    let l : LPairN := ⟨q.val, h⟩
    ({ s1 with spn := { s1.spn with phys := tmod s1.spn.phys 8 (fun x => { x with st := .active, lpA := some l }) } }).modPair l
      (fun x => { x with phys := some 8 })
  else s1
/-- Every unit that failed the self-test is marked, wherever the self-test leads (R216, R244, R328): FAILED_CMP names the lowest
comparator, and a spindle pair's SELFTEST_FAILS counts. -/
def State.markFailed (s : State) (t : SelfTest) : State :=
  let s1 : State := (List.finRange 16).foldl (fun (s : State) (c : ConvN) =>
    if t.convs.getLsbD c.val then (s.leaveList c .failed).convFail c else s) s
  let out (x : PPair) : PPair := { x with st := .failed }
  let s2 : State := (List.finRange 9).foldl (fun (s : State) (q : PPairN) =>
    if t.pairs.getLsbD q.val then (({ s with spn := { s.spn with phys := tmod s.spn.phys q out } }).nvWrite 4
      (fun d => { d with physSelfFails := tmod d.physSelfFails q (satInc 65535) })).raise (608 + q.val) else s) s1
  let s3 : State := t.cmps.foldl (fun (s : State) i => ({ s with trip := { s.trip with
    selftestFail := true, failedCmp := if s.trip.selftestFail then min s.trip.failedCmp i.val else i.val } }).laterFault none none
      "COMPARATOR_FAILED" [i.val]) s2
  s3.updDegraded
/-- What the units that failed leave to their redundancy when the self-test goes on (R288, R330). -/
def State.parkFailed (s : State) (t : SelfTest) : State :=
  ((List.finRange 9).foldl (fun (s : State) (q : PPairN) => if t.pairs.getLsbD q.val then s.pairFailsCheck q else s) s).updDegraded
/-- SELFTEST_COMPLETE (R21): the self-test and the re-plan of CHECK end. -/
def execSelftestComplete (t : SelfTest) (m : ReplanIn) (s : State) : Out :=
  if m.factors.length ≠ 13 || m.offsets.length ≠ 320 || m.kR.length ≠ 8 || m.kC.length ≠ 8 then .refused .illFormed
  else if s.g.st ≠ .check then .next s
  else
    let s0 : State := (s.replanEnd 1 m).markFailed t
    let fails := s0.checkFails t
    let s1 : State := { s0 with age := { s0.age with refFail := false } }
    if s1.nv.cur.tbFinding then
      .next (((s1.setFinding false).nvWrite 16 id).enterSafeHold "TIME_BASE_FAULT")
    else match fails with
    | some u => .next (s1.enterSafeHold "SELFTEST_FAILED" [u])
    | none =>
      let s2 : State := (s1.parkFailed t).fieldCheckEnd
      let s3 : State := { s2 with cyc := { s2.cyc with phase := 3, closeAt := s2.now, first := true, late := false } }
      match s3.g.heldOff with
      | none => .next s3.enterSequence
      | some src =>
        let p := s3.planOf s3.g.level
        let s4 : State := { s3 with
          g := { s3.g with heldOff := none }
          seq := { s3.seq with held := p, level := s3.g.level, levelPlan := p } }
        .next ((((s4.admitKept.enableWdgs).convModes).setMod .sequence).offRequest src).settle

/-! ### Removal and insertion (R50, R103, R110) -/

/-- The target bank of a staging session: the inactive one, or bank 0 without a valid selector (R104). -/
def State.target (s : State) : Bool := s.key.selValid && !s.key.activeBank
/-- A juridical entry of a STAGE or its result (R106): both serials, with DOWNGRADE or the code. -/
def State.stageEntry (s : State) (name : String) (x : Nat) : State :=
  let a := s.stg.stagedSerial.toNat
  let b := s.key.runSerial.toNat
  s.juridical name [x, a % 4294967296, a / 4294967296, b % 4294967296, b / 4294967296, s.stg.downgrade.toNat] (some 19)
/-- The result of a STAGE enters the juridical stream (R106); a VERIFY stages nothing. -/
def State.stageResult (s : State) (code : Nat) : State := if s.stg.verifyOnly then s else s.stageEntry "STAGE_RESULT" code
/-- A session ends FAILED (R105). DESIGN CHOICE: OWNER reads none once a session has FAILED, and keeps the owner while it stands
STAGED, whose SWITCH and ABORT are the owner's; the rule does not say (log entry 123). -/
def State.stageFail (s : State) (code : BitVec 8) (bank : BankSt) : State :=
  let s1 : State := { s with
    stg := { s.stg with st := .failed, owner := none, result := code }
    key := s.key.setBank s.target bank }
  (s1.stageResult code.toNat).raise 19
/-- What the removal of the key does to the session and to a set in preparation (R105, R110). DEDUCED: a SWITCH whose selector copy
is being written fails with KEY_WRITE_ERROR, its bank as it was, and ends the session (log entry 124). -/
def State.keyGone (s : State) : State :=
  let s1 : State :=
    if s.stg.st = .writing || s.stg.st = .verifying then s.stageFail 2 .invalid
    else if s.stg.switching then
      ({ s with stg := { s.stg with st := .failed, owner := none, result := 0x10, switching := false } }).raise 19
    else s
  if s1.take.st = .preparing then s1.abandonSet else s1
/-- KEY_REMOVED (R50): KEY_PRES_N breaks. A key that reads as missing (R67, R93) leaves without a word. -/
def execKeyRemoved (s : State) : Out :=
  let s0 : State := { s with key := { s.key with key := none } }
  match s.key.present with
  | none => .next s0
  | some _ =>
    if s.g.st = .off then .next s0
    else
      if s.g.st = .load then .next (s0.loadFail ⟨2, 0, 0⟩) else .next (s0.raise 18 0).keyGone
/-- An inserted key is read for MISMATCH (R103): its serial, and its selector. Where it is the loaded key, or no key was read at
LOAD, its selector is the one in force for staging and SWITCH; a bank verified before keeps its state. -/
def KeySt.insert (k : KeySt) (x : Key) : KeySt :=
  let m := k.differs
  let k1 : KeySt := { k with mismatch := m }
  if m then k1
  else
    let k2 : KeySt := { k1.readSelector x with keySerial := x.serial }
    if k.wasRead && k.selValid && k2.selValid then k1 else k2
/-- KEY_INSERTED (R50, R103): MISMATCH is judged. A key with VKEY shorted or a wrong identity CRC reads as missing (R67, R93). -/
def execKeyInserted (key : Key) (s : State) : Out :=
  let s0 : State := { s with key := { s.key with key := some key } }
  if s.g.st = .off then .next s0
  else match s0.key.present with
  | none => .next s0
  | some x =>
    let s1 : State := s0.raise 18 1
    let s2 : State := { s1 with key := s1.key.insert x }
    .next (if s2.key.mismatch && !s.key.mismatch then s2.raise 18 2 else s2)

/-! ### Staging (R104-R106) -/

/-- A session is open: it has begun and not reached STAGED or FAILED (R104). -/
def State.stgOpen (s : State) : Bool := s.stg.st = .writing || s.stg.st = .verifying || s.stg.switching
/-- The states in which staging is accepted (R104). -/
def ModSt.stages : ModSt → Bool
  | .sequence | .run | .runDown | .safeHold => true
  | _ => false
/-- The reason why a STAGE or VERIFY is refused, if it is (R103, R104, R485): code 0x12, 0x13 or 0x01. DESIGN CHOICE: the rules
refuse a STAGE under MISMATCH, and one without a key has nothing to write; they name no RESULT for either, and the model gives
REFUSED_STATE and NO_KEY (log entry 125). DESIGN CHOICE: a second STAGE of the session's own owner is refused with REFUSED_BUSY as
one from a second source is (log entry 126). -/
def State.stageRefusal (s : State) : Option (BitVec 8) :=
  if !s.g.st.stages || s.sec.breachSinceStart then some 0x13
  else if s.stgOpen || s.take.st = .preparing || s.take.st = .ready then some 0x12
  else if s.key.mismatch then some 0x13
  else if s.key.present.isNone then some 0x01
  else none
/-- A result code for a command that starts nothing. -/
def State.stgResult (s : State) (code : BitVec 8) : State := { s with stg := { s.stg with result := code } }
/-- STAGE (R104, R105): the target bank is erased and programming begins. Every STAGE and its result enter the juridical stream, a
refused one too (R106). -/
def execStage (owner : Owner) (downgrade : Bool) (s : State) : Out :=
  match s.stageRefusal with
  | some c => .next (((s.stageEntry "STAGE" downgrade.toNat).stgResult c).stageEntry "STAGE_RESULT" c.toNat)
  | none =>
    let s1 : State := { s with
      key := (s.key.setBank s.target .invalid).program s.target []
      stg := { s.stg with
        st := .writing, owner := some owner, result := 0, writtenMib := 0, downgrade := downgrade, verifyOnly := false
        source := (s.stg.addr, s.stg.len)
        stagedSerial := 0, stagedDigest := [], stagedSecs := [], diffs := [], copyErased := false } }
    .next (s1.stageEntry "STAGE" downgrade.toNat)
/-- The length of a bank: 30 MiB (R92). -/
def bankLen : Nat := 31457280
/-- What a bank takes of an image: no more than its 30 MiB (R92). DESIGN CHOICE: of a longer source the first 30 MiB are programmed
(log entry 127). -/
def bankFits (image : List Byte) : List Byte := image.take bankLen
/-- STAGE_WRITE_DONE (R105): programming ends, and verification begins. `ok` carries what host memory holds from the source address
on, of which SEC_STG_LEN bytes are read; for Edivo the image is the bytes that the session has transferred. DESIGN CHOICE: a part MiB
counts as a whole one in WRITTEN_MIB (log entry 128). -/
def execStageWriteDone (r : StageWrite) (s : State) : Out :=
  if s.stg.st ≠ .writing then .next s
  else match r with
  | .keyWriteError => .next (s.stageFail 0x10 .invalid)
  | .hostReadError => .next (s.stageFail 0x11 .invalid)
  | .ok given =>
    let image : List Byte := match s.stg.owner with
      | some (.session _) => s.key.bankBytes s.target
      | _ => bankFits (padTo s.stg.source.2.toNat given)
    .next { s with
      key := (s.key.setBank s.target .written).program s.target image
      stg := { s.stg with st := .verifying, writtenMib := (image.length + 1048575) / 1048576 } }
/-- The take classes that a SWITCH waits for: all but RESTART (R100, R112). -/
def restartClass (typ : Nat) : Bool := [0x01, 0x0D, 0x0E, 0x0F, 0x10, 0x80].contains typ
/-- The sections that differ between the staged image and the running configuration (R105). DESIGN CHOICE: a section that only one
of the two holds counts as differing; the rule compares DIGESTs and is silent on absent sections (log entry 129). -/
def diffsOf (run staged : List Sec) : List Differ :=
  let same (a b : Sec) : Bool := a.typ == b.typ && a.inst == b.inst
  (staged.filter (fun x => !run.any (fun y => same x y && x.digest == y.digest))).map (fun x => ⟨x.typ, x.inst, false⟩) ++
    (run.filter (fun y => !staged.any (fun x => same x y))).map (fun y => ⟨y.typ, y.inst, false⟩)
/-- STAGE_VERIFY_DONE (R105, R106): the checks of R102 from 0x04 on, but 0x05; then the serial, the differing sections and
the selector copy that the next SWITCH writes. -/
def execStageVerifyDone (_ : Marker) (s : State) : Out :=
  if s.stg.st ≠ .verifying then .next s
  else match s.key.present with
  | none => .next (s.stageFail 2 .invalid)
  | some k =>
    let b := k.bank s.target
    let s0 : State := { s with stg := { s.stg with stagedSerial := serialOf b } }
    match checkImage b none s.sec.custKey k.position s.fac.hwRev with
    | .inl r => .next (s0.stageFail (BitVec.ofNat 8 r.code) .written)
    | .inr img =>
      let s1 : State := { s0 with key := s.key.setBank s.target .verified }
      if img.hdr.serial < s.key.runSerial && !s.stg.downgrade then .next (s1.stageFail 0x14 .verified)
      else
        let copyB := s.key.selValid && !s.key.selCopy
        let erase (k : Key) : Key := if copyB then { k with selB := [] } else { k with selA := [] }
        let s2 : State := { s1 with
          key := { s1.key with key := s1.key.key.map erase }
          stg := { s1.stg with
            st := .staged, result := 0, stagedSecs := img.secs, diffs := diffsOf s.run img.secs, copyErased := true
            stagedDigest := sha384 (manifestOf b img.hdr) } }
        .next ((s2.stageResult 0).raise 19)
/-- VERIFY (R106): steps 3 to 5 on the inactive bank. -/
def execVerify (owner : Owner) (s : State) : Out :=
  match s.stageRefusal with
  | some c => .next (s.stgResult c)
  | none =>
    .next { s with stg := { s.stg with
      st := .verifying, owner := some owner, result := 0, downgrade := false, verifyOnly := true
      stagedSerial := 0, stagedDigest := [], stagedSecs := [], diffs := [], copyErased := false } }
/-- A session ends by ABORT (R104, R110): a bank that was being written stays INVALID. -/
def State.stageAbort (s : State) : State :=
  let s1 : State := s.abandonTake
  ({ s1 with
    key := if s.stg.st = StgState.writing then s1.key.setBank s.target .invalid else s1.key
    stg := { s1.stg with st := .idle, owner := none, result := 0, stagedSecs := [], diffs := [] } }).raise 19
/-- STAGE_ABORT (R104, R110): accepted from the session's owner. -/
def execStageAbort (owner : Owner) (s : State) : Out :=
  if s.stg.owner = some owner && s.stg.st != StgState.idle && !s.stg.switching then .next s.stageAbort else .next s

/-! ### SWITCH (R112) -/

/-- Whether a SWITCH from `owner` is accepted (R112). DESIGN CHOICE: beside R112's conditions it must come from the session's owner,
with the key present, MISMATCH clear and no SWITCH already being written (log entry 130). -/
def State.switchOk (s : State) (owner : Owner) : Bool :=
  decide (s.stg.st = .staged) && decide (s.stg.owner = some owner) && !s.stg.switching && s.key.present.isSome && !s.key.mismatch &&
    (decide (s.g.st = .safeHold) || s.stg.diffs.all (fun d => d.taken || restartClass d.typ))
/-- SWITCH (R112): judged, and the selector copy begins to be written. -/
def execSwitch (owner : Owner) (s : State) : Out :=
  if s.switchOk owner then .next { s with stg := { s.stg with switching := true } }
  else .next (s.stgResult 0x15)
/-- A selector page (R94). -/
def selectorPage (gen : Word) (bank : Bool) (digest : List Byte) : List Byte :=
  withCrc (padTo 252 (leBytes 4 0x4C455343 ++ leBytes 4 gen.toNat ++ leBytes 8 bank.toNat ++ padTo 48 digest))
/-- SELECTOR_WRITE_DONE (R112): the staged bank is ACTIVE and the session ends. A key that has left meanwhile keeps its
earlier selector in force (R94). DESIGN CHOICE: the bank that was active reads VERIFIED from then on; the rule gives the new bank's
state alone (log entry 131). -/
def execSelectorWriteDone (s : State) : Out :=
  if !s.stg.switching then .next s
  else match s.key.present with
  | none => .next s.keyGone
  | some k =>
    let copyB := s.key.selValid && !s.key.selCopy
    let gen : Word := if s.key.selValid then s.key.selGen + 1 else 1
    let b := s.target
    let page := selectorPage gen b s.stg.stagedDigest
    let k1 : Key := if copyB then { k with selB := page } else { k with selA := page }
    let old : KeySt := if s.key.selValid then s.key.setBank s.key.activeBank .verified else s.key
    let pend := s.key.pendingRestart || s.stg.diffs.any (fun d => restartClass d.typ)
    let s1 : State := { s with
      key := { (old.setBank b .active) with
        key := some k1, activeBank := b, selCopy := copyB, selValid := true, selGen := gen
        loadedDigest := s.stg.stagedDigest, runSerial := s.stg.stagedSerial, pendingRestart := pend }
      stg := { s.stg with st := .idle, owner := none, result := 0, switching := false, stagedSecs := [], diffs := [] } }
    .next ((s1.nvWrite 8 (fun d => { d with takenSecs := [] })).raise 19)

end Sys2Proof.Machine
end

