-- ==== Sys2Proof/Machine/Takes.lean ====
section
/-!
DEFINITION. Meanings: TAKE, the preparation of a set and its landing at COMMIT (R107-R111, R213, R242, R259, R313, R314,
R315, R358, R389, R403, R426).
-/
namespace Sys2Proof.Machine
open Sys2Proof

/-! ### TAKE is judged (R107, R108) -/

/-- The staged section of a type and instance. -/
def State.stagedSec (s : State) (typ inst : Nat) : Option Sec := s.stg.stagedSecs.find? (fun x => x.typ == typ && x.inst == inst)
/-- The running section of a type and instance. -/
def State.runSec (s : State) (typ inst : Nat) : Option Sec := s.run.find? (fun x => x.typ == typ && x.inst == inst)
/-- A RECORD section changes the juridical stream (R107, R426). -/
def State.changesJuridical (s : State) (x : Sec) : Bool :=
  match recordOf x.body, s.cfg.record with
  | some a, some b => a[0]? != b[0]?
  | some a, none => a[0]? != some ⟨true, true, 2, 0xFF, 8760, 64⟩
  | none, _ => true
/-- Why one part cannot be prepared (R107, R108), if it cannot. -/
def State.partRefusal (s : State) (p : TakePart) : Option Ans :=
  let typ := p.typ.toNat
  let inst := p.inst.toNat
  if restartClass typ then some .refusedClass
  else match s.stagedSec typ inst with
  | some x => if typ = 0x0C && s.changesJuridical x then some .refusedClass else none
  | none => if typ = 0x09 && (s.runSec typ inst).isSome then none else some .refusedAbsent
/-- The first `n` parts take their answers. -/
def State.partAnswers (s : State) (n : Nat) (f : Nat → Ans) : State :=
  { s with take := { s.take with
    parts := Vector.ofFn (fun i : Fin 32 =>
      if i.val < n then { s.take.parts[i] with ans := f i.val } else s.take.parts[i]) } }
/-- A set is refused: the parts take their answers, and the refusal is raised (source 19). -/
def State.takeRefused (s : State) (f : Nat → Ans) : State :=
  let s1 : State := s.partAnswers s.take.count f
  let unload (x : LPair) : LPair := { x with bankLoaded := false }
  ({ s1 with
    take := { s1.take with st := .refused, prepared := [] }
    spn := { s1.spn with lpair := tmap unload s1.spn.lpair }
    hsb := { s1.hsb with pairedTake := if s1.standby then s1.hsb.pairedTake else none } }).raise 19
/-- The logical pairs that the PROGRAM parts of a set affect: the pair of the running program and of the new one (R314). -/
def State.affected (s : State) (set : List (Nat × Nat × Option Sec)) : List LPairN :=
  (List.finRange 8).filter (fun l => set.any (fun x => x.1 == 0x09 &&
    ((match s.cfg.prog[Fin.ofNat 256 x.2.1] with | some p => p.pair == l | none => false) ||
     (match x.2.2 with
      | some y => (match progOf y.body y.digest with | some p => p.pair == l | none => false)
      | none => false))))
/-- A set of `n` parts begins its preparation with a target cycle (R108, R314). -/
def State.prepare (s : State) (n : Nat) (target : DWord) : State :=
  let parts := s.take.parts.toList.take n
  let set := parts.map (fun p => (p.typ.toNat, p.inst.toNat, s.stagedSec p.typ.toNat p.inst.toNat))
  let pairs := s.affected set
  let s1 : State := s.partAnswers n (fun _ => .none)
  pairs.foldl (fun (s : State) l => s.modPair l (fun x => { x with bankLoaded := true }))
    { s1 with take := { s1.take with st := .preparing, count := n, target := target, prepared := set } }
/-- A TAKE of `n` parts is judged; it begins its preparation or is refused. -/
def State.takeSet (s : State) (n : Nat) (target : DWord) : State :=
  if s.take.st = .preparing || s.take.st = .ready then s.partAnswers n (fun _ => .refusedBusy)
  else
    let s1 : State := { s with take := { s.take with count := n } }
    let running := s.g.st = .sequence || s.g.st = .run
    if !running || s.stg.st != .staged || s.stg.switching then s1.takeRefused (fun _ => .refusedState)
    else if s.key.present.isNone || s.key.mismatch || s.sec.breachSinceStart then s1.takeRefused (fun _ => .refusedKey)
    else
      let parts := s.take.parts.toList.take n
      if parts.any (fun p => (s.partRefusal p).isSome) then
        s1.takeRefused (fun i => match parts[i]? with
          | some p => (s.partRefusal p).getD .refusedSet
          | none => .refusedSet)
      else s1.prepare n target
/-- TAKE (R107, R108, R386, R389): SEC_TAKE_CMD with a part count. A STANDBY module refuses its host's takes. While the partner is STANDBY_READY a take on the PRIMARY is
paired: its named cycle lies SYNC_LEAD ahead when none is named, and it travels in the mirror. -/
def execTake (count : BitVec 6) (s : State) : Out :=
  let n := count.toNat
  if n = 0 || 32 < n then .next s
  else
    if s.standby then
      if s.take.st = .preparing || s.take.st = .ready then .next (s.partAnswers n (fun _ => .refusedState))
      else .next (({ s with take := { s.take with count := n } }).takeRefused (fun _ => .refusedState))
    else if s.hsb.st = .primary && s.partnerIn .standbyReady then
      let lead := match s.cfg.links with | some l => l.syncLead | none => 0
      let target := if s.take.cycle = 0 then s.cyc.num + dw lead else s.take.cycle
      let s1 : State := s.takeSet n target
      if s1.take.st = .preparing && s.take.st != .preparing then
        .next { s1 with hsb := { s1.hsb with
          pairedTake := some (target, (s.take.parts.toList.take n).map (fun p => (p.typ.toNat, p.inst.toNat))) } }
      else .next s1
    else .next (s.takeSet n s.take.cycle)

/-! ### Preparation ends (R108) -/

/-- The running sections once a set has landed. -/
def runAfter (run : List Sec) (set : List (Nat × Nat × Option Sec)) : List Sec :=
  set.foldl (fun (l : List Sec) (x : Nat × Nat × Option Sec) => match x.2.2 with
    | some y => putRun l y
    | none => l.filter (fun y => !(y.typ == x.1 && y.inst == x.2.1))) run
/-- A part's section, read again from the staged bank, has the DIGEST of the verified manifest (R108). -/
def State.partDigestOk (s : State) (x : Nat × Nat × Option Sec) : Bool :=
  match x.2.2, s.key.present with
  | none, _ => true
  | some _, none => false
  | some y, some k =>
    let b := k.bank s.target
    match headerOf b with
    | none => false
    | some h => ((List.range h.sectionCount).map (entryAt b)).any (fun e =>
        e.typ == x.1 && e.inst == x.2.1 && sha384 (bankBytes b e.off e.len) == y.digest)
/-- The first part of the set in preparation whose section fails its DIGEST. -/
def State.badDigest (s : State) : Option Nat := s.take.prepared.findIdx? (fun x => !s.partDigestOk x)
/-- Every point that a FIELD part makes an output has its ownership in the same set, through its PROGRAM section (R403). A program
that runs can own no such point before (R310), so an output without one is refused (DEDUCED, log entry 149). -/
def ownedInSet (old : Cfg) (set : List (Nat × Nat × Option Sec)) (x : Nat × Nat × Option Sec) : Bool :=
  let isOut (f : Option CField) (i : Nat) : Bool := match f with
    | some c => (match c.points[i]? with | some k => decide (k.mode = .output) | none => false)
    | none => false
  let owns (i : Nat) (z : Nat × Nat × Option Sec) : Bool := z.1 == 0x09 && (match z.2.2 with
    | some y => (match progOf y.body y.digest with | some p => p.fieldOwn.getLsbD (16 * x.2.1 + i) | none => false)
    | none => false)
  match x.1, x.2.2 with
  | 0x07, some y => (List.range 16).all (fun i =>
      !isOut (fieldOf y.body) i || isOut (old.field[Fin.ofNat 8 x.2.1]) i || set.any (owns i))
  | _, _ => true
/-- The first part of a set whose section makes a reference that the configuration to come does not resolve (R108). -/
def unresolved (old : Cfg) (run : List Sec) (set : List (Nat × Nat × Option Sec)) : Option Nat :=
  let c := cfgOf (runAfter run set)
  set.findIdx? (fun x => !ownedInSet old set x || (match x.2.2 with
    | some y => (Cfg.put {} y).isNone || !c.secOk y
    | none => false))
/-- TAKE_PREPARED (R108): the sections have been read and checked, their references in the configuration that will run, and the
set waits for its COMMIT. -/
def execTakePrepared (_ : Marker) (s : State) : Out :=
  if s.take.st ≠ .preparing then .next s
  else match s.badDigest, unresolved s.cfg s.run s.take.prepared with
  | some k, _ => .next (s.takeRefused (fun i => if i = k then .refusedKey else .refusedSet))
  | none, some k => .next (s.takeRefused (fun i => if i = k then .refusedDependency else .refusedSet))
  | none, none => .next { s with take := { s.take with st := .ready } }

/-! ### Landing (R107-R111) -/

/-- A part equals the running section (R108). -/
def State.unchangedPart (s : State) (x : Nat × Nat × Option Sec) : Bool :=
  match x.2.2, s.runSec x.1 x.2.1 with
  | some a, some b => a.digest == b.digest
  | _, _ => false
/-- A part meets the condition of its take class (R107). -/
def State.classOk (s : State) (x : Nat × Nat × Option Sec) : Bool :=
  if x.1 = 0x02 then
    (match (s.rail (Fin.ofNat 256 x.2.1)).st with | .off | .parked | .lockout => true | _ => false)
  else if x.1 = 0x03 then s.seq.held.val != x.2.1 && !s.shut.jobs.any (fun j => j.plan.val == x.2.1)
  else true
/-- SETTLING results for the entries of an input that satisfy `f` (R213). -/
def State.settleInputs (s : State) (f : CScanEntry → Bool) (k : Nat) : State :=
  (List.finRange 16).foldl (fun (s : State) c =>
    ((List.range (s.listOf c).length).zip (s.listOf c)).foldl (fun (s : State) (e : Nat × CScanEntry) =>
      if f e.2 then
        { s with scan := { s.scan with res := tmod s.scan.res (resIndex c e.1) (fun g => { g with settle := max k g.settle }) } }
      else s) s) s
/-- A RAIL section lands (R111, R198, R213): PARKED under the new entry, and at once OBSERVE when it is used. -/
def State.landRail (s : State) (n : RailN) (old : Option CRail) : State :=
  match s.railCfg n with
  | none => s
  | some c =>
    let fresh (k : RailKept) : RailKept := { seen := k.seen, count := k.count }
    let s1 : State := s.enterRail n .parked (fun r => { r with
      onPending := [], drained := false, discharge := .stopped
      effLo := c.warnLo, effHi := c.warnHi, lastClean := none, mg := {} })
    let s2 : State := s1.nvWrite 16 (fun d => { d with rail := tmod d.rail n fresh })
    let s3 : State := if (old.map (·.range)) = some c.range then s2
      else s2.settleInputs (fun e => e.input == BitVec.ofNat 10 n.val) 2
    if c.used then s3.toObserve n else s3.railSync n
/-- A SCAN section lands on converter `c` (R207, R209, R213): the list starts at the next slot boundary, where its entries take their
SETTLING results: two where an analog input changes its mode (voltage where no list held it), one on every entry where AVG changes. -/
def State.landScan (s : State) (c : ConvN) (old : Cfg) : State :=
  match s.cfg.scan[c] with
  | none => s
  | some a =>
    let mode (i : BitVec 10) : Bool := old.scan.toList.any (fun o => match o with
      | some b => b.entries.any (fun e => e.input == i && e.currentMode)
      | none => false)
    let avgNew := (old.scan[c]).map (·.avg) != some a.avg
    let due (e : CScanEntry) : Nat :=
      if e.input.extractLsb' 8 2 = 2 && mode e.input != e.currentMode then 2 else if avgNew then 1 else 0
    (s.modConv c (fun x => { x with
      listDue := true
      settleDue := ((List.range a.entries.length).zip a.entries).map (fun x => (x.1, due x.2)) })).convMode c
/-- A PROGRAM section lands, or removes its program (R313, R314). The banks of the affected pairs have been swapped. -/
def State.landProg (s : State) (n : ProgN) : State :=
  match s.cfg.prog[n] with
  | none =>
    let s1 : State := s.taskDone n 3
    let gone (w : Nat × Waiter) : Bool := match w.2 with | .prog m => m != n | .host _ => true
    let strip (x : LPair) : LPair := { x with due := x.due.filter (· != n), ready := x.ready.filter (· != n) }
    let drop (o : SyncSt) : SyncSt := { o with waits := o.waits.filter gone }
    { s1.modProg n (fun _ => {}) with
      spn := { (s1.modProg n (fun _ => {})).spn with lpair := tmap strip s1.spn.lpair }
      lck := { s1.lck with sync := tmap drop s1.lck.sync } }
  | some _ =>
    s.modProg n (fun p => { p with
      st := match p.st with | .absent | .stopped => .inactive | .dropped => .dropped | x => x
      consecutive := match p.st with | .absent | .stopped => 0 | _ => p.consecutive
      initDue := true, stopDue := false
      ck := { regs := {}, bead := 0, t := p.ck.t, item := p.ck.item } })
/-- Cyclic programs that wait on a pair whose bank is swapped end their run as DONE without fault (R314). -/
def State.endWaiting (s : State) (l : LPairN) : State :=
  (List.finRange 256).foldl (fun (s : State) n =>
    match s.cfg.prog[n] with
    | some p => if !p.task && p.pair == l && decide (s.spn.prog[n].st = .waiting) then
        let gone (w : Nat × Waiter) : Bool := match w.2 with | .prog m => m != n | .host _ => true
        let drop (o : SyncSt) : SyncSt := { o with waits := o.waits.filter gone }
        { s.modProg n (fun q => { q with st := .done, waitObj := none, woken := none }) with
          lck := { s.lck with sync := tmap drop s.lck.sync } }
      else s
    | none => s) s
/-- What the landing of one part does beside the new configuration; `old` is the configuration before. -/
def State.landPart (s : State) (old : Cfg) (x : Nat × Nat × Option Sec) : State :=
  match x.1 with
  | 0x02 => s.landRail (Fin.ofNat 256 x.2.1) (old.rail[Fin.ofNat 256 x.2.1])
  | 0x05 => s.landScan (Fin.ofNat 16 x.2.1) old
  | 0x06 => (List.finRange 64).foldl (fun (s : State) a => s.cmpSync (Fin.ofNat 320 (256 + a.val))) s
  | 0x07 => s.fieldLand (Fin.ofNat 8 x.2.1) (old.field[Fin.ofNat 8 x.2.1])
  | 0x08 => s.eventsAtLoad
  | 0x09 => s.landProg (Fin.ofNat 256 x.2.1)
  | 0x0A => s.landHds old.hds
  | _ => s
/-- A section put into the configuration, or a program taken out of it. -/
def cfgPart (c : Cfg) (x : Nat × Nat × Option Sec) : Cfg :=
  match x.2.2 with
  | some y => (c.put y).getD c
  | none => { c with prog := tset c.prog (Fin.ofNat 256 x.2.1) none }
/-- The record of a removed program's landing: it is no longer among the running sections (R110, R314). -/
def State.removedPart (s : State) (typ inst : Nat) : State :=
  let s1 : State := { s with
    run := s.run.filter (fun y => !(y.typ == typ && y.inst == inst))
    stg := { s.stg with diffs := s.stg.diffs.map (fun d => if d.typ = typ && d.inst = inst then { d with taken := true } else d) } }
  (s1.nvWrite 8 (fun d => { d with takenSecs := d.takenSecs ++ [(typ, inst)] })).takeEntry "TAKE_LANDED" typ inst none
/-- A part's section becomes the running one, with its juridical entry (R110). -/
def State.notePart (s : State) (x : Nat × Nat × Option Sec) : State :=
  match x.2.2 with | some y => s.landed y | none => s.removedPart x.1 x.2.1
/-- An unchanged part counts as taken (R108). -/
def State.noteUnchanged (s : State) (x : Nat × Nat × Option Sec) : State :=
  { s with stg := { s.stg with
    diffs := s.stg.diffs.map (fun d => if d.typ = x.1 && d.inst = x.2.1 then { d with taken := true } else d) } }
/-- A METER section waits for its period boundary, or lands at once where no period is open (R107, R108). -/
def State.meterPart (s : State) (x : Nat × Nat × Option Sec) : State :=
  match x.2.2 with
  | none => s
  | some y => (match meterOf y.body with
    | some c =>
      let s1 : State := { s with take := { s.take with meterDue := some (y, c) } }
      if s1.mtr.open_ then s1 else s1.landMeter
    | none => s)
/-- A prepared set lands (R108-R111, R314): if any part fails its take-class condition, none does. -/
def State.landSet (s : State) : State :=
  let set := s.take.prepared
  let bad (x : Nat × Nat × Option Sec) : Bool := !s.unchangedPart x && !s.classOk x
  if set.any bad then
    s.takeRefused (fun i => match set[i]? with
      | some x => if bad x then .refusedBusy else .refusedSet
      | none => .refusedSet)
  else
    let same := set.filter s.unchangedPart
    let period := set.filter (fun x => !s.unchangedPart x && x.1 == 0x0B)
    let now := set.filter (fun x => !s.unchangedPart x && x.1 != 0x0B)
    let ans (i : Nat) : Ans := match set[i]? with
      | some x => if s.unchangedPart x then .unchanged else if x.1 = 0x0B then .pending else .taken
      | none => .none
    let pairs := s.affected now
    let s1 : State := pairs.foldl (fun (s : State) l =>
      (s.endWaiting l).modPair l (fun x => { x with bank := !x.bank })) (s.partAnswers s.take.count ans)
    let unload (x : LPair) : LPair := { x with bankLoaded := false }
    let s2 : State := { s1 with
      cfg := now.foldl cfgPart s.cfg
      spn := { s1.spn with lpair := tmap unload s1.spn.lpair }
      take := { s1.take with st := .done, seq := (s.take.seq + 1) % 65536, prepared := [] }
      hsb := { s1.hsb with pairedTake := if s1.standby then s1.hsb.pairedTake else none } }
    let s3 : State := now.foldl State.notePart s2
    let old := s.cfg
    let s4 : State := now.foldl (fun (s : State) x => s.landPart old x) { s3 with prev := s3.cfg }
    let s5 : State := same.foldl State.noteUnchanged s4
    (period.foldl State.meterPart s5).raise 19
/-- The set in hand at a COMMIT (R108, R389): one still preparing at its named cycle is late; a ready one lands when its cycle
has come, a paired one only when the standby has prepared it. -/
def State.landTake (s : State) : State :=
  if s.take.st = .preparing then
    if s.take.target != 0 && s.take.target = s.cyc.num then s.takeRefused (fun _ => .refusedLate) else s
  else if s.take.st = .ready && decide (s.take.target ≤ s.cyc.num) then
    match (if s.hsb.st = .primary then s.hsb.pairedTake else none), (if s.hsb.eligible then s.hsb.partner else none) with
    | some _, some b => (match b.prep with
      | .prepared => s.landSet
      | .refused => s.takeRefused (fun _ => .refusedSet)
      | .none => s.takeRefused (fun _ => .refusedLate))
    | some _, none => s.landSet
    | none, _ => s.landSet
  else s
/-- The pairs whose banks the COMMIT now due will swap (R314). -/
def State.pairsLanding (s : State) : List LPairN :=
  if s.take.st = .ready && decide (s.take.target ≤ s.cyc.num) then
    s.affected (s.take.prepared.filter (fun x => !s.unchangedPart x))
  else []

end Sys2Proof.Machine
end

