-- ==== Sys2Proof/Machine/Security.lean ====
section
/-!
DEFINITION. Meanings: passwords over Edivo, provisioning, return to maker and the Girdle (R483-R496).
-/
namespace Sys2Proof.Machine
open Sys2Proof

/-! ### Sessions and proofs (R477, R487, R489) -/

/-- A message of session `n` arrives: its effect, when the session is open, after the time of the message is noted (R477). -/
def State.onSession (s : State) (n : Fin 4) (f : Session → State → State) : State :=
  match s.lnk.sessions[n] with
  | none => s
  | some x => f x (s.modSession n (fun y => { y with lastAt := s.now }))
/-- An AUTH answer: STATUS ANSWERED with a code of R489. -/
def State.auth (s : State) (n : Fin 4) (a : Ans) (ws : List Word := []) : State := s.reply n 4 a ws
/-- Whether a session other than `n` holds MAINTENANCE or higher (R477). -/
def State.levelTaken (s : State) (n : Fin 4) : Bool :=
  (List.finRange 4).any (fun m => m != n && (match s.lnk.sessions[m] with
    | some x => decide (x.level ≠ .view)
    | none => false))
/-- The nonce of the session's last CHALLENGE while it can serve a proof (R487). -/
def Session.nonceNow (x : Session) (now : Ns) : Option (List Byte × Nat) :=
  match x.nonce with
  | some (b, i, t) => if now ≤ t + 30000000000 then some (b, i) else none
  | none => none
/-- A password index of R486. -/
def pwdIndex (b : Byte) : Option (Fin 35) := if h : b.toNat < 35 then some ⟨b.toNat, h⟩ else none
/-- CHALLENGE (R487, R489): a fresh nonce, and the salt of the named password; an unset password has no salt, and the words are
open. -/
def execChallenge (n : Fin 4) (index : Byte) (s : State) : Out :=
  .next (s.onSession n (fun _ s =>
    let b := nonce s.free
    let salt : List Word := match pwdIndex index with
      | some i => (match s.sec.verifiers[i] with
        | some v => bytesToWords 4 v.salt
        | none => s.freeWords 4)
      | none => s.freeWords 4
    let s1 : State := s.modSession n (fun y => { y with nonce := some (b, index.toNat, s.tickUs) })
    { (s1.auth n .accepted (bytesToWords 8 b ++ salt)) with free := s.free + 4 }))
/-- Whether a proof shows knowledge of password `i` (R487). -/
def State.proofOk (s : State) (x : Session) (i : Fin 35) (proof : List Byte) : Bool :=
  match x.nonceNow s.now, s.sec.verifiers[i] with
  | some (b, k), some v => k == i.val && decide (hmac384 v.verifier b = proof)
  | _, _ => false
/-- LOGIN (R477, R487, R489): index 33 gives MAINTENANCE and 34 PROVISIONING. -/
def execLogin (n : Fin 4) (index : Byte) (proof : List Byte) (s : State) : Out :=
  .next (s.onSession n (fun x s =>
    match pwdIndex index with
    | none => s.auth n .refusedLevel
    | some i =>
      if i.val < 33 || s.levelTaken n then s.auth n .refusedLevel
      else
        match s.pwdBarred i with
        | some a => s.auth n a
        | none =>
          let s1 : State := s.modSession n (fun y => { y with nonce := none })
          if s.proofOk x i proof then
            let lv : SLevel := if i = 33 then .maintenance else .provisioning
            ((s1.pwdPass i).modSession n (fun y => { y with level := lv })).auth n .accepted
          else s1.pwdFail (.session n) .login i))
/-- LOGOUT (R489): the session is back at VIEW. -/
def execLogout (n : Fin 4) (s : State) : Out :=
  .next (s.onSession n (fun _ s => (s.modSession n (fun y => { y with level := .view })).auth n .accepted))
/-- The shortest password accepted: MIN_LEN of the last successful LOAD, 8 before any (R489). -/
def State.minLen (s : State) : Nat := match s.nv.cur.secLoad with | some c => max 8 c.minLen | none => 8
/-- SET_PASSWORD (R486, R489): a new verifier. -/
def execSetPassword (n : Fin 4) (p : PwdFields) (s : State) : Out :=
  .next (s.onSession n (fun x s =>
    match pwdIndex p.index with
    | none => s.auth n .refusedLevel
    | some i =>
      let may := if i.val < 33 then decide (x.level ≠ .view) else decide (x.level = .provisioning)
      if !may then s.auth n .refusedLevel
      else if !s.sec.wrapKey || s.sec.breachSinceStart then s.auth n .noSecret
      else if p.len.toNat < s.minLen then s.auth n .tooShort
      else ({ s with sec := { s.sec with
        verifiers := tset s.sec.verifiers i (some ⟨p.salt, p.verifier⟩) } }).auth n .accepted))

/-! ### Provisioning (R490, R491) -/

/-- The words of a 32-bit-worded byte list as numbers, for a juridical entry's detail. -/
def detailWords (l : List Byte) : List Nat := (bytesToWords ((l.length + 3) / 4) l).map (·.toNat)
/-- The operation that R490 carries out once the touch has come: a new wrapping key and meter key, the customer key and the
three verifiers wrapped, BREACHED, its CAUSE, FACTORY and RELEASED cleared and every attempt counter 0. -/
def State.provisionNow (s : State) (n : Fin 4) (key : List Byte) (v : List Verifier) : State :=
  let pub := meterPub s.sec.provisions
  let id := customerKeyId key
  let vs : Vector (Option Verifier) 35 :=
    Vector.ofFn (fun i : Fin 35 => if i.val < 32 then none else v[i.val - 32]?)
  let s1 : State := { s with sec := { s.sec with
    wrapKey := true, areaErased := false, custKey := key, meterKey := true, verifiers := vs, meterPub := pub
    provisions := s.sec.provisions + 1, breached := false, cause := 0, factory := false, released := false, waiting := none } }
  let s2 : State := s1.nvWrite 280 (fun d => { d with
    pwd := tmap (fun p : PwdSt => { p with fails := 0, lockedSince := none }) d.pwd })
  (s2.juridical "PROVISIONED" ([id.toNat % 4294967296, id.toNat / 4294967296] ++ detailWords pub)).auth n .accepted
/-- PROVISION (R490): accepted in UNPROVISIONED, where it waits for a presence proof; another operation that waits keeps the
module busy. -/
def execProvision (n : Fin 4) (key : List Byte) (p : List PwdFields) (s : State) : Out :=
  .next (s.onSession n (fun _ s =>
    if s.g.st != .unprovisioned || s.nv.cur.releasing != 0 then s.auth n .refusedState
    else if s.sec.waiting.isSome then s.reply n 3 .none
    else if p.map (fun x => x.index.toNat) != [32, 33, 34] then s.auth n .refusedLevel
    else if p.any (fun x => decide (x.len.toNat < s.minLen)) then s.auth n .tooShort
    else { s with sec := { s.sec with
      waiting := some (.provision n key (p.map (fun x => ⟨x.salt, x.verifier⟩)), s.tickUs) } }))
/-- The module serial as signed messages carry it; little-endian, as every multi-byte field of Edivo is (R478; DEDUCED, log entry 153). -/
def State.serialBytes (s : State) : List Byte := leBytes 8 s.fac.serial.toNat
/-- REKEY (R491): the customer key is replaced when the signature over the module serial and the new key verifies with the present
key. -/
def execRekey (n : Fin 4) (key : List Byte) (sig : List Byte) (s : State) : Out :=
  .next (s.onSession n (fun x s =>
    if x.level != .provisioning then s.auth n .refusedLevel
    else if s.g.st != .safeHold || s.nv.cur.releasing != 0 then s.auth n .refusedState
    else if !s.hasKey || s.sec.breachSinceStart then s.auth n .noSecret
    else if !ecdsaP384 s.sec.custKey (s.serialBytes ++ key) sig then s.auth n .badSignature
    else ({ s with sec := { s.sec with custKey := key } }).auth n .accepted))

/-! ### Return to maker (R492, R493) -/

/-- The answer to RELEASE_FOR_RETURN: in SEC_STAT, or in the Edivo reply. -/
def State.secAnswer (s : State) (o : Owner) (a : Ans) : State :=
  match o with
  | .host => { s with sec := { s.sec with ans := a } }
  | .session n => s.auth n a
/-- Data sets of the METER region that the record engine has not accepted (R419, R492). -/
def State.unstreamed (s : State) : Nat := (s.nv.cur.dataSets.filter (fun d => !d.streamed)).length
/-- A release is accepted (R492): the RELEASED entry in PENDING_JURIDICAL and in the later-fault list, kept at once, then the
wrapping key and the wrapped area are erased. -/
def State.releaseBegin (s : State) (o : Owner) (force : Bool) : State :=
  let n := s.unstreamed
  let cause := match o with | .host => 4 | .session _ => 5
  let s1 : State := ((s.secAnswer o .accepted).juridical "RELEASED" [force.toNat, n]).laterFault none none "RELEASED" [force.toNat, n]
  let s2 : State := s1.nvWrite 8 (fun d => { d with releasing := cause })
  let keep (d : NvData) : NvData := { d with
    pendingJur := s2.nv.cur.pendingJur, lfl := s2.nv.cur.lfl, lflSeq := s2.nv.cur.lflSeq
    lflOverflow := s2.nv.cur.lflOverflow, releasing := cause }
  ({ s2 with
    nv := { s2.nv with durable := keep s2.nv.durable, committing := s2.nv.committing.map keep }
    sec := { s2.sec.eraseArea with wrapKey := false, waiting := none, releaseForce := force } }).commitStart
/-- A release judged against the data sets (R492). -/
def State.releaseJudge (s : State) (o : Owner) (force : Bool) (go : State → State) : State :=
  if s.unstreamed != 0 && !force then s.secAnswer o .notStreamed else go s
/-- The presence proof of a release that is asked for in UNPROVISIONED (R492). -/
def State.releaseWait (s : State) (o : Owner) (force : Bool) : State :=
  let who : Option (Fin 4) := match o with | .host => none | .session n => some n
  { s with sec := { s.sec with waiting := some (.release who force, s.tickUs) } }
/-- Whether host software may ask for a release: HOST_RELEASE at the last successful LOAD (R492). -/
def State.hostMayRelease (s : State) : Bool := match s.nv.cur.secLoad with | some c => c.hostRelease | none => false
/-- A release from an owner whose right to ask has been settled. -/
def State.releaseAsk (s : State) (o : Owner) (force : Bool) (pwd : List Byte) : State :=
  if (s.g.st != .safeHold && s.g.st != .unprovisioned) || s.nv.cur.releasing != 0 then s.secAnswer o .refusedState
  else if s.g.st = .unprovisioned then
    if s.sec.waiting.isSome then
      match o with
      | .session n => s.reply n 3 .none
      | .host => s.secAnswer o .refusedState
    else s.releaseJudge o force (fun s => s.releaseWait o force)
  else
    match o with
    | .session _ => s.releaseJudge o force (fun s => s.releaseBegin o force)
    | .host =>
      match s.pwdBarred 33 with
      | some a => s.secAnswer .host a
      | none =>
        if s.pwdMatches 33 pwd then (s.pwdPass 33).releaseJudge o force (fun s => s.releaseBegin o force)
        else s.pwdFail .host .release 33
/-- RELEASE_FOR_RETURN (R487, R492), from a session at MAINTENANCE or from host software through SEC_CMD, which clears SEC_PWD. -/
def execReleaseForReturn (o : Owner) (force : Bool) (s : State) : Out :=
  match o with
  | .host =>
    let pwd := wordsToBytes s.sec.pwd.toList
    let s1 : State := { s with sec := { s.sec with pwd := Vector.replicate 8 0 } }
    .next (if s1.hostMayRelease then s1.releaseAsk .host force pwd else s1.secAnswer .host .refusedLevel)
  | .session n =>
    .next (s.onSession n (fun x s =>
      if x.level = .view && s.g.st != .unprovisioned then s.auth n .refusedLevel else s.releaseAsk o force []))
/-- Every user region erased (R492); what had been gathered for one is gone with it. -/
def State.eraseUser (s : State) : State :=
  let f (d : NvData) : NvData := { d with user := [] }
  { s with nv := { s.nv with
    cur := f s.nv.cur, durable := f s.nv.durable, committing := s.nv.committing.map f
    dirty := [], dirtyC := [], stalePages := [], waitWr := [] } }
/-- RELEASE_DONE (R492, R496): steps 2 to 4 have ended, and a module restart follows. -/
def execReleaseDone (s : State) : Out :=
  let cause := s.nv.cur.releasing
  if cause = 0 then .next s
  else
    match s.g.st with
    | .start | .safeHold | .unprovisioned =>
      let s1 : State := s.eraseUser
      let done (d : NvData) : NvData := { d with releasing := 0 }
      let s2 : State := { s1 with
        nv := { s1.nv with cur := done s1.nv.cur, durable := done s1.nv.durable, committing := s1.nv.committing.map done }
        sec := { s1.sec.eraseArea with
          wrapKey := false, releases := satInc 65535 s.sec.releases, releaseTime := s.time.mtime, releaseUtc := s.utcNow
          released := true } }
      .next (s2.startEntry cause 0)
    | _ => .next s

/-! ### Presence, MAKER and the Girdle (R484, R485, R490, R494, R496) -/

/-- A short touch while an operation waits for a presence proof (R490, R492). -/
def State.presence (s : State) : State :=
  match s.sec.waiting with
  | none => s
  | some (p, t) =>
    if t + 30000000000 < s.now then s
    else match p with
    | .provision n key v => s.provisionNow n key v
    | .release none force => s.releaseBegin .host force
    | .release (some n) force => s.releaseBegin (.session n) force
/-- PRESENCE_TIMEOUT (R490): 30 s without a short touch. -/
def execPresenceTimeout (s : State) : Out :=
  match s.sec.waiting with
  | none => .next s
  | some (p, _) =>
    let s1 : State := { s with sec := { s.sec with waiting := none } }
    match p with
    | .provision n _ _ => .next (s1.auth n .noPresence)
    | .release none _ => .next (s1.secAnswer .host .noPresence)
    | .release (some n) _ => .next (s1.auth n .noPresence)
/-- A maker token verifies with the read-only key over the module serial and the nonce of the session's last CHALLENGE (R494). -/
def State.tokenOk (s : State) (x : Session) (token : List Byte) : Bool :=
  match x.nonceNow s.now with
  | some (b, _) => makerToken makerKey (s.serialBytes ++ b) token
  | none => false
/-- MAKER (R494): a token that verifies sets FACTORY; FACTORY's test modes are open to that session. -/
def execMaker (n : Fin 4) (token : List Byte) (s : State) : Out :=
  .next (s.onSession n (fun x s =>
    if s.g.st != .unprovisioned then s.auth n .refusedState
    else
      let s1 : State := s.modSession n (fun y => { y with nonce := none })
      if s.tokenOk x token then
        (({ s1 with sec := { s1.sec with factory := true } }).modSession n (fun y => { y with maker := true })).auth n .accepted
      else s1.auth n .badSignature))
/-- CAUSE of SEC_GIRDLE. -/
def Breach.code : Breach → Nat
  | .mesh => 1 | .light => 2 | .pressure => 3 | .supply => 4
/-- GIRDLE_BREACH (R24, R484, R485, R496): in every state the wrapping key is erased; a powered module also erases the wrapped area,
reports the breach and gives up what needs the key. -/
def execGirdleBreach (b : Breach) (s : State) : Out :=
  let s1 : State := { s with sec := { s.sec with
    wrapKey := false, breached := true, cause := Breach.code b, breaches := satInc 65535 s.sec.breaches } }
  match s.g.st with
  | .off => .next s1
  | _ =>
    let s2 : State := { s1 with sec := { s1.sec.eraseArea with breachSinceStart := true } }
    let s3 : State := match s2.sec.waiting with
      | some (.provision n _ _, _) => ({ s2 with sec := { s2.sec with waiting := none } }).auth n .noSecret
      | _ => s2
    let s4 : State := (s3.raise 1 (Breach.code b)).faultLogged 16 1 "GIRDLE_BREACH" [Breach.code b]
    .next (((s4.juridical "GIRDLE_BREACH" [Breach.code b] (some 1)).abandonTake).relinquish false)

end Sys2Proof.Machine
end

