-- ==== Sys2Proof/Machine/Touch.lean ====
section
/-!
DEFINITION. Meanings: the touch key and the status display (R173-R179).
-/
namespace Sys2Proof.Machine
open Sys2Proof

/-- The touch key changed by `f`. -/
def State.modTouch (s : State) (f : Touch → Touch) : State := { s with touch := f s.touch }
/-- A touched sample (R173). -/
def State.touched (s : State) (count : Int) : Bool := decide (s.touch.base + s.fac.delta < count)
/-- A released sample (R173): below the baseline plus half of DELTA. -/
def State.released (s : State) (count : Int) : Bool := decide (2 * (count - s.touch.base) < s.fac.delta)
/-- The mean of the samples that are held, at most 20 (R175). -/
def Touch.mean (t : Touch) (old : Int) : Int :=
  if t.samples.isEmpty then old else t.samples.foldl (· + ·) 0 / t.samples.length
/-- Drift tracking moves a baseline toward the count by at most one count per second, 200 samples (R173). -/
def Touch.track (t : Touch) (count : Int) : Touch :=
  if t.drift + 1 < 200 then { t with drift := t.drift + 1 }
  else
    let d : Int := if t.base < count then 1 else if count < t.base then -1 else 0
    { t with drift := 0, base := t.base + d }
/-- LONG_PRESS in ns; 8 s before any successful LOAD (R167). -/
def State.longPress (s : State) : Ns := (match s.modCfg with | some m => m.longPressS | none => 8) * 1000000000
/-- An action of the key: LAST_ACTION and its juridical entry (R174). -/
def State.touchAct (s : State) (code : Nat) (name : String) (detail : List Nat := []) : State :=
  (s.modTouch (fun t => { t with lastAction := code })).juridical name detail (some 20)
/-- A short touch (R179): on page 2 it acknowledges the oldest alert, else the next page is shown; it is a presence proof where
one is awaited (R490, R492). -/
def State.shortTouch (s : State) : State :=
  let s1 : State := match s.touch.alerts with
    | a :: rest =>
      if s.touch.page = 2 then
        ((s.modTouch (fun t => { t with alerts := rest })).touchAct 6 "TOUCH_ACK" [a]).raise 20 0
      else (s.modTouch (fun t => { t with page := t.page + 1 })).touchAct 1 "TOUCH_SHORT"
    | [] => (s.modTouch (fun t => { t with page := t.page + 1 })).touchAct 1 "TOUCH_SHORT"
  s1.presence
/-- The action at the release of a touch of duration `d` (R174); a touch that has acted as a force-off has no other. -/
def State.touchEnd (s : State) (d : Ns) (forced : Bool) : State :=
  if s.g.st = .lastGasp || forced || d < 50000000 then s
  else if d ≤ 2000000000 then s.shortTouch
  else if d < s.longPress then (s.touchAct 4 "TOUCH_IGNORED").raise 20 2
  else s
/-- A touched sample begins a touch (R175). DESIGN CHOICE: a touch among the first 20 samples after OFF leaves the aged baseline in use, so no
touched count enters the mean (log entry 136). -/
def Touch.begin_ (t : Touch) : Touch := { t with st := .touched, held := 0, relRun := 0, drift := 0, forced := false, first := 21 }
/-- The first sample after OFF is judged against the aged baseline (R175). -/
def State.touchFirst (s : State) (count : Int) : State :=
  if s.touched count then
    (s.modTouch (fun t => { t with st := .heldAtPowerup, heldSeen := true, held := 0, relRun := 0, first := 21 })).raise 20 1
  else s
/-- TOUCHED, at a sample that is not released (R174-R176): in STABLED the key wakes the module when the touch reaches 50 ms. -/
def State.touchHold (s : State) : State :=
  let k := s.touch.held + 1
  let s1 : State := s.modTouch (fun t => { t with held := k })
  if s.stabling && k = 10 then s1.wakeUp 2
  else if s.g.st = .stabled && k = 10 then
    let s2 : State := s1.modTouch (fun t => { t with st := .waitRelease })
    if s.wakeEnabled 2 then (s2.wakeUp 2).touchAct 5 "TOUCH_WAKE" else s2
  else s1
/-- One sample judged in the key's state (R173, R175). -/
def State.touchStep (s : State) (count : Int) : State :=
  match s.touch.st with
  | .unused => s.modTouch (fun t => t.track count)
  | .idle =>
    if s.touched count then s.modTouch Touch.begin_
    else if s.touch.first < 20 then s
    else if s.touch.first = 20 then s.modTouch (fun t => { t with base := t.mean t.base, first := 21, drift := 0 })
    else s.modTouch (fun t => t.track count)
  | .touched =>
    if s.released count then
      let d := (s.touch.held + 1) * 5000000
      (s.modTouch (fun t => { t with st := .idle, held := 0, forced := false })).touchEnd d s.touch.forced
    else s.touchHold
  | .waitRelease =>
    if s.released count then s.modTouch (fun t => { t with st := .idle, held := 0, forced := false })
    else s.modTouch (fun t => { t with held := t.held + 1 })
  | .heldAtPowerup =>
    if s.released count then s.modTouch (fun t => { t with held := 0, relRun := t.relRun + 1 })
    else s.modTouch (fun t => { t with held := t.held + 1, relRun := 0 })
  | .stuck =>
    if s.touched count then s.modTouch Touch.begin_
    else if 2 * (count - s.touch.base) < -(s.fac.delta : Int) then
      (s.modTouch (fun t => { t with st := .idle, base := t.mean t.base, held := 0 })).raise 20 4
    else s.modTouch (fun t => let u : Touch := t.track count; { u with stuckBase := u.base })
/-- TOUCH_SAMPLE (R173): every 5 ms outside OFF. -/
def execTouchSample (count : Int) (s : State) : Out :=
  if s.g.st = .off then .next s
  else
    let fresh := decide (s.touch.first = 0)
    let s1 : State := s.modTouch (fun t => { t with
      raw := s.touched count, samples := (count :: t.samples).take 20, first := if t.first < 20 then t.first + 1 else t.first })
    .next (if fresh && s1.touch.st = .idle && s1.touched count then s1.touchFirst count else s1.touchStep count)
/-- TOUCH_FORCE_OFF (R174, R177, R182): the touch reaches LONG_PRESS, once per touch; an off request at authority level 1. -/
def execTouchForceOff (s : State) : Out :=
  if s.touch.st != .touched || s.touch.forced then .next s
  else
    let s1 : State := s.modTouch (fun t => { t with forced := true })
    match s.g.st with
    | .off | .stabled | .lastGasp => .next s1
    | _ =>
      let s2 : State := s1.touchAct 2 "TOUCH_FORCE_OFF"
      let s3 : State := { s2 with cmd := { s2.cmd with forceOff := s2.cmd.forceOff || s2.g.st.cycleRuns } }
      .next (s3.offRequest .touch)
/-- TOUCH_RUNDOWN_OFF (R172, R174): the touch reaches 20 s; in RUN_DOWN the run-down set follows once shedding is complete. -/
def execTouchRundownOff (s : State) : Out :=
  if s.touch.st != .touched then .next s
  else
    let s1 : State := s.modTouch (fun t => { t with st := .waitRelease })
    if s.g.st = .runDown && !s.stabling then
      let s2 : State := s1.touchAct 3 "TOUCH_RUNDOWN_OFF"
      let s3 : State := { s2 with shut := { s2.shut with rundownForced := true } }
      .next (if s3.shut.kind = 3 then s3.beginFlush.settle else s3)
    else .next s1
/-- TOUCH_STUCK (R175, R178): a touch held for 1 h; the present count is the stuck baseline. -/
def execTouchStuck (s : State) : Out :=
  match s.touch.st with
  | .touched | .waitRelease | .heldAtPowerup =>
    let c := (s.touch.samples.head?).getD s.touch.base
    .next (((s.modTouch (fun t => { t with
      st := .stuck, stuckSeen := true, base := c, stuckBase := c, held := 0, drift := 0, forced := false })).raise 20 3).laterFault
        (some 20) none "TOUCH_STUCK")
  | _ => .next s
/-- TOUCH_POWERUP_RELEASE (R175): released samples for 2 s without a break. -/
def execTouchPowerupRelease (s : State) : Out :=
  if s.touch.st = .heldAtPowerup then
    .next (s.modTouch (fun t => { t with st := .idle, base := t.mean t.base, first := 21, held := 0, relRun := 0, drift := 0 }))
  else .next s
/-- What a page of the front status display shows (R179). -/
inductive Display where
  /-- Page 0: module state, plan level and MOVING. -/
  | status (st : ModSt) (level : Level) (moving : Bool)
  /-- Page 1: the lowest rail in FAULT or LOCKOUT with its cause, and the number of such rails. -/
  | faults (first : Option (RailN × Option Cause)) (count : Nat)
  /-- Page 2: the oldest alert that is not acknowledged. -/
  | alert (entry : Option Lfl)
  /-- Page 3: the module serial, RUN_SERIAL and UTC. -/
  | ident (serial runSerial utc : DWord)
deriving DecidableEq, Repr
/-- What the front status display shows now (R179). -/
def State.display (s : State) : Display :=
  let bad := (List.finRange 256).filter (fun n => (s.rail n).faulted)
  match s.touch.page with
  | 0 => .status s.g.st s.g.level s.motion.moving
  | 1 => .faults (bad.head?.map (fun n => (n, (s.rail n).cause))) bad.length
  | 2 => .alert (s.touch.alerts.head?.bind (fun a => s.nv.cur.lfl.find? (fun e => e.seq == a)))
  | _ => .ident s.fac.serial s.key.runSerial s.utcNow
/-- DISPLAY_PAGE_TIMEOUT (R179): 60 s without a touch. -/
def execDisplayPageTimeout (s : State) : Out := .next (s.modTouch (fun t => { t with page := 0 }))

end Sys2Proof.Machine
end

