-- ==== Sys2Proof/Machine/Tailstock.lean ====
section
/-!
DEFINITION. Meanings: the tailstock: heartbeats, roles, takeover, and the mirror as the COMMIT applies and ships it
(R52, R377-R391).
-/
namespace Sys2Proof.Machine
open Sys2Proof


/-- The state that a heartbeat's HSB_STATE codes (R380). -/
def hsbOf (k : Fin 5) : HsbSt :=
  match k with | 0 => .disabled | 1 => .seeking | 2 => .primary | 3 => .standbySync | 4 => .standbyReady
/-- The tailstock changed by `f`. -/
def State.modHsb (s : State) (f : Hsb → Hsb) : State := { s with hsb := f s.hsb }
/-- The tailstock function runs: from the end of a successful LOAD, with HSB_ENABLED set, and powered (R84, R378). -/
def State.hsbRuns (s : State) : Bool :=
  s.g.loadOk && s.g.st.operating && s.hsb.st != .disabled && (match s.cfg.links with | some l => l.hsbEnabled | none => false)

/-! ### Roles (R378, R379, R387) -/

/-- The keys of arbitration, the first that differs deciding (R379). -/
def arbWins (run run' : Bool) (epoch epoch' : Word) (prefer prefer' : Bool) (serial serial' : DWord) : Bool :=
  if run != run' then run
  else if epoch != epoch' then decide (epoch' < epoch)
  else if prefer != prefer' then prefer
  else decide (serial < serial')
/-- Whether a module state counts as RUN or RUN_DOWN in arbitration. -/
def runCode (mod : Nat) : Bool := mod == 5 || mod == 6
/-- Arbitration against the partner's heartbeat: this module wins (R379). -/
def State.arbitrate (s : State) (b : Beat) : Bool :=
  let prefer := match s.cfg.links with | some l => l.preferPrimary | none => false
  arbWins (runCode s.g.st.code) (runCode b.mod) s.hsb.epoch b.epoch prefer b.prefer s.fac.serial b.serial
/-- STANDBY_SYNC is entered: the cycle in progress is stretched toward the partner's grid, by a length that the two clocks give, a
free value; the next COMMIT takes the partner's cycle number (R378, R385). -/
def State.adoptGrid (s : State) : State :=
  let len := match s.cfg.module with | some m => m.cycleUs * 1000 | none => 1
  (({ s with cyc := { s.cyc with closeAt := s.cyc.closeAt + freeNat s.free % len } }).modHsb (fun h => { h with
    st := .standbySync, aligned := false, readyCount := 0, missed := 0 })).tickFree
/-- STANDBY_SYNC is entered from SEEKING or PRIMARY: resynchronisation starts (R378, R385). -/
def State.enterSync (s : State) : State :=
  s.adoptGrid.modHsb (fun h => { h with
    got := none, markersTaken := false, arbitrated := true, relinquish := false, handover := false, queue := [] })
/-- A takeover (R387). -/
def State.takeover (s : State) : State :=
  let lost := match s.hsb.got with | some m => m.cmds.length | none => 0
  let s1 : State := s.modHsb (fun h => { h with
    st := .primary, epoch := h.epoch + 1, unsynced := h.unsynced || decide (h.st = .standbySync)
    aligned := false, readyCount := 0, missed := 0, got := none, takeoverSeen := true, takeoverFreeze := true
    takeovers := satInc 65535 h.takeovers, takeTime := s.time.mtime, discarded := min 255 (h.discarded + lost)
    arbitrated := true, pairedTake := none, queue := [] })
  ((s1.raise 5 2).faultEvent 11 5 "TAKEOVER" [s1.hsb.epoch.toNat]).juridical "TAKEOVER"
    [s1.hsb.epoch.toNat, s.hsb.marker % 4294967296, s.hsb.marker / 4294967296] (some 5)
/-- Partner loss is declared (R378, R381): a STANDBY takes over, a PRIMARY reports it. -/
def State.partnerLost (s : State) : State :=
  let s1 : State := s.modHsb (fun h => { h with lostSeen := true, eligible := false, pairMismatch := false })
  match s.hsb.st with
  | .standbySync | .standbyReady => (s1.raise 5 1).takeover
  | .primary => (s1.modHsb (fun h => { h with relinquish := false, handover := false })).raise 5 1
  | _ => s1
/-- STANDBY_READY falls back to STANDBY_SYNC; source 5 (R378). -/
def State.readyLost (s : State) : State := s.adoptGrid.raise 5 3
/-- PRIMARY without a partner to arbitrate with: after SEEK_MS, or miswired (R378, R379). -/
def State.primaryAlone (s : State) : State := (s.modHsb (fun h => { h with st := .primary, arbitrated := true })).raise 5 0
/-- Two PRIMARY modules meet, at the first heartbeat that shows it (R378, R379). -/
def State.dualPrimary (s : State) (b : Beat) (first : Bool) : State :=
  if s.hsb.relinquish then s.enterSync
  else if b.relinquish || !first then s
  else
    let s1 : State := s.modHsb (fun h => { h with dualSeen := true, arbitrated := true })
    if s1.arbitrate b then s1
    else ((s1.raise 5 4).laterFault (some 5) none "DUAL_PRIMARY" [b.epoch.toNat, s1.hsb.epoch.toNat]).enterSync
/-- What an eligible partner's heartbeat does to the role of an eligible module (R378-R380). `first` says that the heartbeat
before did not show the same partner state. -/
def State.judgeRole (s : State) (b : Beat) (first : Bool) : State :=
  match s.hsb.st, b.st with
  | .seeking, .primary => s.enterSync
  | .seeking, .seeking =>
    if s.arbitrate b then (s.modHsb (fun h => { h with st := .primary, arbitrated := true })).raise 5 0 else s.enterSync
  | .primary, .primary => s.dualPrimary b first
  | .standbySync, _ => if b.relinquish then s.takeover else s
  | .standbyReady, _ => if b.relinquish then s.takeover else if s.hsb.pairMismatch then s.readyLost else s
  | _, _ => s
/-- A refused preparation of the standby refuses the paired set on the primary once its own parts are prepared (R389). -/
def State.judgePrep (s : State) (b : Beat) : State :=
  let shipped := match s.hsb.sent with | some m => m.take == s.hsb.pairedTake | none => false
  if s.hsb.st = .primary && s.hsb.pairedTake.isSome && shipped && b.prep = .refused && s.take.st = .ready then
    s.takeRefused (fun _ => .refusedSet)
  else s

/-! ### Heartbeats (R380, R381) -/

/-- A valid heartbeat arrives (R380, R381). -/
def State.beatValid (s : State) (x : Heartbeat) : State :=
  let b : Beat := { serial := x.serial, pairId := x.pairId, st := hsbOf x.state, mod := x.mod, epoch := x.epoch
                    prefer := x.prefer, cycle := x.cycle, close := x.close, mirrorOk := x.mirrorOk, prep := x.prep
                    relinquish := x.relinquish, at_ := s.now }
  let el := x.mod == 4 || x.mod == 5 || x.mod == 6
  let first := match s.hsb.partner with | some p => !(s.hsb.eligible && decide (p.st = b.st)) | none => true
  let mis := match s.cfg.links with | some l => l.pairId != x.pairId | none => false
  let was := s.hsb.eligible
  let s1 : State := s.modHsb (fun h => { h with partner := some b, eligible := el, pairMismatch := mis })
  if !el then (if was && s1.g.st.cycleRuns then s1.partnerLost else s1)
  else if s1.g.st.cycleRuns then (s1.judgeRole b first).judgePrep b
  else s1
/-- Two links with different partners (R52, R378): no partner is declared, and a SEEKING module becomes PRIMARY. -/
def State.miswire (s : State) : State :=
  let s1 : State := if s.hsb.miswired then s else (s.modHsb (fun h => { h with miswired := true })).raise 5 5
  let s2 : State := s1.modHsb (fun h => { h with partner := none, eligible := false })
  match s1.hsb.st with
  | .seeking => if s2.g.st.cycleRuns then s2.primaryAlone else s2
  | _ => s2
/-- HEARTBEAT_RX (R52, R378-R381): one with a wrong CRC is counted; one whose serial differs from the other link's is not
valid. -/
def execHeartbeatRx (k : Fin 2) (b : Heartbeat) (s : State) : Out :=
  if !s.hsbRuns || !s.tailEn k || s.noRetrain (716 + k.val) then .next s
  else if !b.crcOk then .next (s.modHsb (fun h => { h with crcErr := tmod h.crcErr k (satInc 65535) }))
  else
    let other := s.hsb.linkSerial[1 - k]
    let s1 : State := s.modHsb (fun h => { h with
      linkSerial := tset h.linkSerial k b.serial
      linkNo := if b.link = 0 then h.linkNo &&& ~~~ (1#2 <<< k.val) else h.linkNo ||| (1#2 <<< k.val) })
    if other != 0 && other != b.serial then .next s1.miswire
    else
      let s2 : State := (s1.linkFound (716 + k.val)).modHsb (fun h => { h with miswired := false, up := h.up ||| (1#2 <<< k.val) })
      .next (s2.beatValid b)
/-- HEARTBEAT_SEND (R380): one heartbeat on each enabled link, of an eligible or SEEKING module. A module that hands over
on its way out of the cycle carries RELINQUISH in it. -/
def execHeartbeatSend (s : State) : Out :=
  if s.hsbRuns && (s.g.st.cycleRuns || s.hsb.st = .seeking) then .next s.sendBeats else .next s
/-- A tailstock link stops carrying valid heartbeats: its bit clears and its source is raised (R381). -/
def State.tailDown (s : State) (k : Fin 2) : State :=
  if s.hsb.up.getLsbD k.val then
    (s.modHsb (fun h => { h with
      up := h.up &&& ~~~ (1#2 <<< k.val), linkSerial := tset h.linkSerial k 0
      linkNo := h.linkNo &&& ~~~ (1#2 <<< k.val), miswired := false })).linkLost (716 + k.val)
  else s.modHsb (fun h => { h with linkSerial := tset h.linkSerial k 0, miswired := false })
/-- TAILSTOCK_LINK_LOSS (R381). -/
def execTailstockLinkLoss (k : Fin 2) (s : State) : Out := if s.hsbRuns then .next (s.tailDown k) else .next s
/-- PARTNER_LOSS (R381): 24 µs without a valid heartbeat on either link. -/
def execPartnerLoss (s : State) : Out :=
  if !s.hsbRuns then .next s
  else
    let had := s.hsb.eligible
    let s1 : State := (s.tailDown 0).tailDown 1
    let s2 : State := if had || s1.standby then s1.partnerLost else s1
    .next (s2.modHsb (fun h => { h with partner := none, eligible := false }))
/-- SEEK_TIMEOUT (R378): SEEK_MS after entry to SEQUENCE without an eligible partner. -/
def execSeekTimeout (s : State) : Out :=
  if s.hsbRuns && s.hsb.st = .seeking && s.g.st.cycleRuns && !s.hsb.eligible then
    .next s.primaryAlone
  else .next s
/-- HANDOVER (R378, R390): accepted by a PRIMARY whose partner is STANDBY_READY; it relinquishes at the next COMMIT. -/
def execHandover (s : State) : Out :=
  if s.hsb.st = .primary && s.partnerIn .standbyReady then
    .next (s.modHsb (fun h => { h with cmdAns := .accepted, handover := true }))
  else .next (s.modHsb (fun h => { h with cmdAns := .refusedState }))
/-- PARTNER_COMMAND (R382, R386, R390): HSB_PCMD queues a command for the next mirror; an on request already queued counts
once. -/
def execPartnerCommand (n : RailN) (code : BitVec 4) (s : State) : Out :=
  let c : Option PCmd := if code = 0xF then some .on else (railCodeOf code.toNat).map (fun x => .rail n x)
  match c with
  | none => .next s
  | some x =>
    if s.hsb.st != .primary || !s.hsb.eligible || !s.hsb.arbitrated then .next (s.modHsb (fun h => { h with pcmdAns := .refusedState }))
    else if x = .on && s.hsb.queue.contains .on then .next (s.modHsb (fun h => { h with pcmdAns := .queued }))
    else if x != .on && 64 ≤ (s.hsb.queue.filter (· != .on)).length then .next (s.modHsb (fun h => { h with pcmdAns := .refusedBusy }))
    else .next (s.modHsb (fun h => { h with pcmdAns := .queued, queue := h.queue ++ [x] }))

/-! ### The mirror (R382-R385, R388, R420) -/

/-- MIRROR_RX (R382, R383): the first complete copy of a mirror; one that the COMMIT it was due at has passed is discarded and
counted. -/
def execMirrorRx (m : Mirror) (s : State) : Out :=
  if !s.standby || !s.hsb.arbitrated then .next s
  else if (match s.hsb.got with | some g => g.cycle == m.cycle | none => false) || (s.hsb.lastApplied = m.cycle && s.hsb.lastApplied != 0) then
    .next s
  else if s.hsb.aligned && decide (m.cycle + 1 < s.cyc.num) then
    .next (s.modHsb (fun h => { h with late := satInc 65535 h.late }))
  else .next (s.modHsb (fun h => { h with got := some m }))
/-- Base address and length of the mirror region (R377). -/
def State.mirrorArea (s : State) : Nat × Nat :=
  match s.cfg.links with | some l => (0x40000 + l.mirrorBase, l.mirrorLen) | none => (0x40000, 0)
/-- The active program bank of each logical pair (R382). -/
def State.banks (s : State) : BitVec 8 :=
  (List.finRange 8).foldl (fun (b : BitVec 8) l => if s.spn.lpair[l].bank then b ||| (1#8 <<< l.val) else b) 0
/-- The paired take that a mirror carries begins its preparation (R389). One that has left the mirror before it landed was refused on
the primary, and is refused here as the rest of its set is (R108; DEDUCED, log entry 148). -/
def State.pairedPrepare (s : State) (t : Option (DWord × List (Nat × Nat))) : State :=
  if t = s.hsb.pairedTake then s
  else
    let s1 : State := s.modHsb (fun h => { h with pairedTake := t })
    match t with
    | none => if s.take.st = .preparing || s.take.st = .ready then s1.takeRefused (fun _ => .refusedSet) else s1
    | some (cycle, l) =>
      let part (i : Fin 32) : TakePart := match l[i.val]? with
        | some (a, b) => { typ := BitVec.ofNat 8 a, inst := BitVec.ofNat 8 b }
        | none => {}
      (({ s1 with take := { s1.take with parts := Vector.ofFn part } }).takeSet (min 32 l.length) cycle)
/-- A complete mirror is applied at the start of the standby's COMMIT (R383, R384, R420). -/
def State.applyMirror (s : State) (m : Mirror) : State :=
  let a := s.mirrorArea
  let mem := (m.region.filter (fun c => decide (c.1 < a.2))).foldl (fun (x : List Host.Cell) (c : Nat × Byte) => Memory.set x (a.1 + c.1) c.2)
    (Memory.clear s.mem a.1 a.2)
  let mine := s.cmd.applied[0]
  let theirs := m.applied.headD 0
  let reqs : List RailReq := m.cmds.filterMap (fun c => match c with
    | .rail n code => some { src := .partner, rail := n, code := code }
    | .on => none)
  let ons : List ModReq := if m.cmds.contains .on then [{ src := .partner, off := false }] else []
  let num (a b : Word) : Word := if a < b then b else a
  let s1 : State := { s with
    mem := mem
    cmd := { s.cmd with
      applied := if mine < theirs then tset s.cmd.applied 0 theirs else s.cmd.applied
      modReqs := s.cmd.modReqs ++ ons }
    railReqs := s.railReqs ++ reqs }
  let s2 : State := if s.nv.cur.periodSeq < m.periodSeq || s.nv.cur.dsSeq < m.dsSeq then
      s1.nvWrite 8 (fun d => { d with periodSeq := num d.periodSeq m.periodSeq, dsSeq := num d.dsSeq m.dsSeq })
    else s1
  (s2.modHsb (fun h => { h with
    got := none, lastApplied := m.cycle, appliedNow := true, missed := 0, readyCount := satInc 255 h.readyCount
    marker := m.recMarker, markersTaken := true, bankDiffer := m.banks != s.banks })).pairedPrepare m.take
/-- The start of a COMMIT on a STANDBY (R378, R383, R385, R388): the grid is adopted once, the mirror applied, and the state
judged. -/
def State.mirrorCommit (s : State) : State :=
  if !s.standby then s.modHsb (fun h => { h with appliedNow := false })
  else
    let s1 : State := match s.hsb.aligned, s.hsb.partner with
      | false, some b => (({ s with cyc := { s.cyc with num := b.cycle } }).modHsb (fun h => { h with aligned := true })).juridical
          "GRID_ADOPTED" [b.cycle.toNat % 4294967296, b.cycle.toNat / 4294967296]
      | _, _ => s
    let s2 : State := match s1.hsb.got with
      | some m => s1.applyMirror m
      | none => s1.modHsb (fun h => { h with appliedNow := false, readyCount := 0, missed := h.missed + 1 })
    let h := s2.hsb
    if h.st = .standbyReady && (8 ≤ h.missed || h.bankDiffer || h.pairMismatch) then s2.readyLost
    else if h.st = .standbySync && h.aligned && 16 ≤ h.readyCount && !h.bankDiffer && !h.pairMismatch && h.markersTaken then
      (s2.modHsb (fun h => { h with st := .standbyReady })).juridical "STANDBY_READY" [] (some 5)
    else s2
/-- The last record of the juridical stream that storage holds (R382). -/
def State.recMarker (s : State) : Nat := s.reng.stream[0].durable
/-- The end of a COMMIT on a PRIMARY (R378, R382): a HANDOVER begins, and the mirror of the cycle is shipped to an eligible
partner. -/
def State.mirrorShip (s : State) : State :=
  let s1 : State := if s.hsb.handover then
      (if s.partnerIn .standbyReady then s.modHsb (fun h => { h with handover := false, relinquish := true })
       else s.modHsb (fun h => { h with handover := false }))
    else s
  if s1.hsb.st = .primary && s1.hsb.eligible then
    let a := s1.mirrorArea
    let m : Mirror := {
      cycle := s1.cyc.num
      region := (Memory.range s1.mem a.1 (a.1 + a.2)).map (fun c => (c.1 - a.1, c.2))
      runSerial := s1.key.runSerial, banks := s1.banks, applied := s1.cmd.applied.toList
      periodSeq := s1.nv.cur.periodSeq, label := s1.mtr.label, dsSeq := s1.nv.cur.dsSeq
      recMarker := s1.recMarker, cmds := s1.hsb.queue, take := s1.hsb.pairedTake }
    s1.modHsb (fun h => { h with sent := some m, queue := [] })
  else s1
/-- Input image offsets 0x3B00-0x3BFF (R391). -/
def State.hsbImage (s : State) : List Byte :=
  let h := s.hsb
  let pm := match h.partner with | some b => b.mod | none => 0
  let ps := match h.partner with | some b => b.serial.toNat | none => 0
  leBytes 1 h.st.code ++ leBytes 1 pm ++
    leBytes 1 (h.up.toNat + 4 * h.appliedNow.toNat + 8 * h.takeoverFreeze.toNat + 16 * h.unsynced.toNat) ++ [0] ++
    leBytes 4 h.epoch.toNat ++ leBytes 8 h.lastApplied.toNat ++ leBytes 8 ps ++ List.replicate 232 0

end Sys2Proof.Machine
end

