-- ==== Sys2Proof/Machine/Programs.lean ====
section
/-!
DEFINITION. Runs of programs as shared operations: the store buffer's drain, the ends of beads and runs, faults, STOP and
RESTART (R299, R306, R308, R312, R313).
-/
namespace Sys2Proof.Machine
open Sys2Proof

/-! ### The store buffer (R308) -/

/-- A byte under a mask. -/
def maskByte (old mask data : Byte) : Byte := (old &&& ~~~ mask) ||| (data &&& mask)
/-- One entry written into memory. -/
def BufEntry.apply (m : List Host.Cell) (e : BufEntry) : List Host.Cell :=
  e.bytes.foldl (fun (m : List Host.Cell) (b : Nat × Byte × Byte) => Memory.set m b.1 (maskByte (Memory.get m b.1) b.2.1 b.2.2)) m
/-- An entry that covers a whole word, and so rewrites its ECC. -/
def BufEntry.whole (e : BufEntry) : Option Nat :=
  match e.bytes with
  | [(a, 0xFF#8, _), (_, 0xFF#8, _), (_, 0xFF#8, _), (_, 0xFF#8, _)] => if a % 4 = 0 then some a else none
  | _ => none
/-- An entry reaches the shared image memory. -/
def State.storeEntry (s : State) (e : BufEntry) : State :=
  { s with
    mem := e.apply s.mem
    ecc := match e.whole with | some a => s.ecc.filter (· != a) | none => s.ecc }
/-- The store buffer of pair `l` drained, in order (R308). -/
def State.drain (s : State) (l : LPairN) : State :=
  (s.spn.lpair[l].buf.foldl State.storeEntry s).modPair l (fun x => { x with buf := [] })
/-- The oldest entry of every store buffer drained: what 10 ns allow (R308). -/
def State.drainOne (s : State) (l : LPairN) : State :=
  match s.spn.lpair[l].buf with
  | [] => s
  | e :: rest => (s.storeEntry e).modPair l (fun x => { x with buf := rest })

/-! ### Ends of runs (R306, R312, R313) -/

/-- FAULT_LIMIT (R290). -/
def State.faultLimit (s : State) : Nat := match s.modCfg with | some m => m.faultLimit | none => 3
/-- The source of the physical pair that serves `l` (R312). -/
def State.pairSource (s : State) (l : LPairN) : Option Nat := (s.spn.lpair[l].phys).map (fun q => 608 + q.val)
/-- The pair's program leaves it: the bead's time counts for a task, and the journal is cleared with the checkpoint (R318). -/
def State.leavePair (s : State) (l : LPairN) : State :=
  match s.spn.lpair[l].cur with
  | none => s
  | some n =>
    let x := s.spn.lpair[l]
    (s.modProg n (fun p => { p with beadTime := p.beadTime + (s.now - x.beadAt) })).modPair l
      (fun x => { x with cur := none, journal := [] })
/-- A STOP that waits takes effect at the program's next INACTIVE or DONE, with a juridical entry (R313). -/
def State.stopNow (s : State) (n : ProgN) : State :=
  match s.spn.prog[n].st with
  | .inactive | .done =>
    if s.spn.prog[n].stopDue then
      (s.modProg n (fun p => { p with st := .stopped, stopDue := false })).juridical "PROGRAM_STOP" [n.val]
    else s
  | _ => s
/-- The state a program takes when its run ends: DONE, or INACTIVE where the cycle has stopped; a program that was dropped
stays DROPPED (R295, R313). -/
def State.endState (s : State) (n : ProgN) (st : PSt) : PSt :=
  match s.spn.prog[n].st with
  | .dropped => .dropped
  | .absent => .absent
  | _ => if st = .done && s.cyc.phase = 0 then .inactive else st
/-- The pair and its partner on a shared physical pair take up what comes next. -/
def State.pickNext (s : State) (l : LPairN) : State :=
  match s.otherPair l with
  | none => s.pick l
  | some m => (s.pick l).pick m
/-- A run of program `n` on pair `l` ends in a state, with the code of its task's item (R312, R313, R345). -/
def State.endRun (s : State) (l : LPairN) (n : ProgN) (st : PSt) (code : Nat) : State :=
  let s1 : State := (s.drain l).leavePair l
  let s2 : State := s1.modProg n (fun p => { p with
    st := s1.endState n st, lastUs := min 65535 ((s1.now - p.startAt) / 1000), waitObj := none, woken := none })
  ((if s.isTask n then s2.taskDone n code else s2).stopNow n).pickNext l
/-- The names of the program faults (R312). -/
def PFault.name : PFault → String
  | .illegalOpcode => "ILLEGAL_OPCODE" | .storeProtected => "STORE_PROTECTED" | .addressRange => "ADDRESS_RANGE"
  | .jumpRange => "JUMP_RANGE" | .stack => "STACK" | .beadRange => "BEAD_RANGE" | .imageEcc => "IMAGE_ECC"
  | .waitExpired => "WAIT_EXPIRED"
/-- The codes of the program faults (R312). -/
def PFault.code : PFault → Nat
  | .illegalOpcode => 1 | .storeProtected => 2 | .addressRange => 3 | .jumpRange => 4 | .stack => 5 | .beadRange => 6
  | .imageEcc => 7 | .waitExpired => 8
/-- A fault is recorded for program `n` of pair `l` (R312); answers the state it leaves the program in. A program that enters
STOPPED has nothing further raised for it. -/
def State.noteFault (s : State) (l : LPairN) (n : ProgN) (f : PFault) (bead word : Nat) : State × PSt :=
  let k := satInc 255 s.spn.prog[n].consecutive
  let stopOn := match s.cfg.prog[n] with | some p => p.stopOnFault | none => false
  let stops := stopOn || s.faultLimit ≤ k
  let s1 : State := s.modProg n (fun p => { p with
    lastFault := some f, consecutive := k, faults := satInc 65535 p.faults, faultBead := bead, faultWord := min 65535 word })
  let s2 : State := match s.pairSource l with | some src => s1.raise src (16 + f.code) | none => s1
  (s2.laterFault (s.pairSource l) none f.name [n.val, bead, word], if stops then .stopped else .done)
/-- Program `n`, whose bead runs on pair `l`, faults at the instruction it is at (R312). -/
def State.programFault (s : State) (l : LPairN) (n : ProgN) (f : PFault) : State :=
  let x := s.spn.lpair[l]
  let r := s.noteFault l n f x.bead (x.regs.pc - s.beadStart n x.bead)
  r.1.endRun l n r.2 5
/-- A cyclic program still WAITING at its closing tick ends with WAIT_EXPIRED (R306, R313). -/
def State.waitExpired (s : State) (n : ProgN) : State :=
  match s.cfg.prog[n] with
  | none => s
  | some p =>
    let r := s.noteFault p.pair n .waitExpired s.spn.prog[n].ck.bead 0
    let s1 : State := r.1.unregister (.prog n)
    (s1.modProg n (fun q => { q with
      st := s1.endState n r.2, waitObj := none, woken := none, lastUs := min 65535 ((s1.now - q.startAt) / 1000) })).stopNow n

/-! ### RESTART and STOP of a program (R313) -/

/-- PROGRAM_RESTART (R313): SPN_PROG_CMD, from STOPPED only; the init bead is due and the fault count 0. -/
def execProgramRestart (n : ProgN) (s : State) : Out :=
  match s.spn.prog[n].st with
  | .stopped => .next (s.modProg n (fun p => { p with st := .inactive, initDue := true, consecutive := 0, cmdAns := .accepted }))
  | _ => .next (s.modProg n (fun p => { p with cmdAns := .refusedState }))
/-- PROGRAM_STOP (R313): acts at the program's next INACTIVE or DONE. -/
def execProgramStop (n : ProgN) (s : State) : Out :=
  match s.spn.prog[n].st with
  | .stopped => .next (s.modProg n (fun p => { p with cmdAns := .noChange }))
  | .absent | .dropped => .next (s.modProg n (fun p => { p with cmdAns := .refusedState }))
  | _ => .next ((s.modProg n (fun p => { p with cmdAns := .accepted, stopDue := true })).stopNow n)

end Sys2Proof.Machine
end

