-- ==== Sys2Proof/Machine/Cycle.lean ====
section
/-!
DEFINITION. Meanings: the supervision cycle (R291-R298, R304, R363-R366): INPUT_FREEZE, the end of EXECUTE, the closing tick
and COMMIT.
-/
namespace Sys2Proof.Machine
open Sys2Proof

/-! ### The end of EXECUTE (R291, R326) -/

/-- A cyclic program that waits for a sync object, and has not been woken (R306). -/
def State.waitsOpen (s : State) (n : ProgN) : Bool :=
  match s.cfg.prog[n] with
  | some p => !p.task && decide (s.spn.prog[n].st = .waiting) && s.spn.prog[n].woken.isNone
  | none => false
/-- EXECUTE has ended: no cyclic program is due, runs or can run on, and no bead is replayed (R291, R294). A program that
waits on a pair whose bank lands ends at the landing (R314). -/
def State.executeDone (s : State) : Bool :=
  let landing := s.pairsLanding
  (List.finRange 8).all (fun l => s.spn.lpair[l].replay.isNone && s.spn.lpair[l].due.isEmpty &&
    (List.finRange 256).all (fun n => match s.cfg.prog[n] with
      | some p => p.task || p.pair != l || (match s.spn.prog[n].st with
        | .running => false
        | .waiting => landing.contains l && s.waitsOpen n
        | _ => true)
      | none => true))
/-- The pairs that serve the cycle of a takeover without a spare, whose unfinished cyclic runs end at the closing tick
(R326). -/
def State.cutPairs (s : State) : List LPairN :=
  (List.finRange 8).filter (fun l => match s.spn.lpair[l].phys with
    | some q => s.spn.phys[q].sharedIn == some s.cyc.num
    | none => false)
/-- Pair `l` starts no further cyclic bead in this cycle (R326): what is ready ends as DONE without fault. -/
def State.cutShort (s : State) (l : LPairN) : State :=
  let ends := s.spn.lpair[l].ready.filter (fun n => !s.isTask n)
  ends.foldl (fun (s : State) n => s.modProg n (fun p => { p with st := .done, waitObj := none, woken := none }))
    (s.modPair l (fun x => { x with due := [], ready := x.ready.filter (fun n => !ends.contains n) }))
/-- EXEC_LAST and EXEC_MAX of a pair whose EXECUTE has just ended (SPN_LPAIR_TIME). -/
def LPair.timed (x : LPair) (now : Ns) : LPair :=
  let t := min 65535 ((now - x.freezeAt) / 1000)
  { x with execLast := t, execMax := max x.execMax t, freezeAt := 0 }
/-- Every pair whose EXECUTE has ended has its time recorded. -/
def State.timePairs (s : State) : State :=
  (List.finRange 8).foldl (fun (s : State) l =>
    if s.spn.lpair[l].freezeAt != 0 && s.pairDone l then s.modPair l (fun x => x.timed s.now) else s) s

/-! ### Commands that meet at one COMMIT (R168, R304, R363-R366) -/

/-- Slot `n` of the output image (R298). -/
def State.railSlot (s : State) (n : RailN) : Word := Memory.word s.mem (0x10000 + 4 * n.val)
/-- The programs' rail commands in a slot, as one source (R304). OTHER stands for codes that programs may not issue. -/
def slotReqs (n : RailN) (w : Word) : List RailReq :=
  let q (b : Nat) (c : RailCode) : List RailReq := if w.getLsbD b then [{ src := .program 0, rail := n, code := c }] else []
  q 3 .release ++ q 2 .clear ++ q 1 .off ++ q 0 .on
/-- The programs' margin request in a slot; a conflict stands as two that differ (R304). -/
def slotMargins (n : RailN) (w : Word) : List MarginReq :=
  if w.getLsbD 8 then
    let one : MarginReq := { src := .program 0, rail := n, target := if w.getLsbD 9 then none else some (w.extractLsb' 16 8).toInt }
    let other : MarginReq := { src := .program 0, rail := n, target := if w.getLsbD 9 then some 0 else none }
    if w.getLsbD 10 then [one, other] else [one]
  else []
/-- The direction of a command: off is true; RELEASE, CLEAR and UNPARK are neutral (R364). -/
def railDir : RailCode → Option Bool
  | .on => some false
  | .off | .park => some true
  | _ => none
/-- The answer that the command `q` has just been given. -/
def State.answerOf (s : State) (q : RailReq) : Ans :=
  match q.src with
  | .host => (s.rail q.rail).answer
  | .program _ => if q.code = .clear then (s.rail q.rail).progClear else (s.rail q.rail).progOn
  | _ => (match s.answers with | a :: _ => a.ans | [] => .none)
/-- An answer given to a command without judging it. -/
def State.answerTo (s : State) (q : RailReq) (a : Ans) : State :=
  if q.code = .clear then s.answerClear q.src q.rail a
  else if a = .pending then (s.modRail q.rail (fun r => r.waits q.src)).answer q.src q.rail a
  else s.answer q.src q.rail a
/-- Identical commands count as one, and each takes the answer of that one (R364). -/
def State.judgeSame (s : State) (l : List RailReq) (c : RailCode) : State :=
  match l.filter (fun q => q.code == c) with
  | [] => s
  | q :: rest =>
    let s1 : State := s.railCommand q
    rest.foldl (fun (s : State) r => s.answerTo r (s1.answerOf q)) s1
/-- CONTRADICTED (R364): reported on the rail's source for host software. -/
def State.contradict (s : State) (q : RailReq) : State :=
  let s1 : State := s.answerTo q .contradicted
  match q.src with | .host => s1.raise (32 + q.rail.val) 20 | _ => s1
/-- Commands in the order of their authority, the highest first (R363). -/
def byAuthority (l : List RailReq) : List RailReq :=
  [2, 3, 4, 5].flatMap (fun k => l.filter (fun q => q.src.authority == k))
/-- Commands that are refused before they are judged: a partner's that is not PRIMARY (R363), and RELEASE, PARK and UNPARK of
a source that may not issue them (R132). -/
def State.refusedSrc (s : State) (q : RailReq) : Bool :=
  (q.src == Src.partner && !s.partnerIn .primary) ||
    (!q.src.mayPark && (q.code == .release || q.code == .park || q.code == .unpark))
/-- The commands of one rail at one COMMIT (R364). -/
def State.judgeRail (s : State) (all : List RailReq) : State :=
  let s0 : State := (all.filter s.refusedSrc).foldl (fun (s : State) q => s.answerTo q .refusedState) s
  let cmds := byAuthority (all.filter (fun q => !s.refusedSrc q))
  let s1 : State := [RailCode.clear, .release, .unpark].foldl (fun (s : State) c => s.judgeSame cmds c) s0
  let ways := cmds.filter (fun q => (railDir q.code).isSome)
  match ways with
  | [] => s1
  | top :: _ =>
    let d := ways.any (fun q => q.src.authority == top.src.authority && railDir q.code == some true)
    let s2 : State := (ways.filter (fun q => railDir q.code != some d)).foldl State.contradict s1
    let rest := ways.filter (fun q => railDir q.code == some d)
    [RailCode.off, .park, .on].foldl (fun (s : State) c => s.judgeSame rest c) s2
/-- Every rail's commands, the lowest rail first (R294). -/
def State.judgeRails (s : State) : State :=
  let reqs := (List.finRange 256).flatMap (fun n => slotReqs n (s.railSlot n)) ++ s.railReqs
  (List.finRange 256).foldl (fun (s : State) n => match reqs.filter (fun q => q.rail == n) with
    | [] => s
    | l => s.judgeRail l) { s with railReqs := [] }
/-- Margin requests of every source (R186, R189, R304). -/
def State.judgeAllMargins (s : State) : State :=
  ({ s with marginReqs := (List.finRange 256).flatMap (fun n => slotMargins n (s.railSlot n)) ++ s.marginReqs }).judgeMargins
/-- A module request that is refused whatever the state (R168, R363, R386). -/
def State.modRefused (s : State) (q : ModReq) : Bool :=
  match q.src, q.off with
  | .network, true => s.standby || !s.networkOff
  | .network, false => s.standby
  | .edivo, false => true
  | .partner, _ => q.off || !s.partnerIn .primary
  | _, _ => false
/-- The answer that a module request of a source has just been given. -/
def State.modAnswerOf (s : State) (src : Src) : Ans :=
  if src = Src.host then s.cmd.offAns else (match s.cmd.modAnswers with | a :: _ => a.2 | [] => .none)
/-- Module off and on requests (R168): an off request, or a force-off of this cycle, beats an on request. -/
def State.judgeMods (s : State) : State :=
  let reqs := s.cmd.modReqs
  let forced := s.cmd.forceOff
  let s0 : State := { s with cmd := { s.cmd with modReqs := [], forceOff := false } }
  let s1 : State := (reqs.filter s.modRefused).foldl (fun (s : State) q => s.modAnswer q.src .refusedState) s0
  let live := reqs.filter (fun q => !s.modRefused q)
  let offs := live.filter (fun q => q.off)
  let ons := live.filter (fun q => !q.off)
  let s2 : State := if forced || !offs.isEmpty then ons.foldl (fun (s : State) q => s.modAnswer q.src .contradicted) s1 else s1
  match (if forced || !offs.isEmpty then offs else ons) with
  | [] => s2
  | q :: rest =>
    let s3 : State := if q.off then s2.offRequest q.src else s2.onRequest q.src
    rest.foldl (fun (s : State) r => s.modAnswer r.src (s3.modAnswerOf q.src)) s3
/-- RERUN waiting for the COMMIT (R158, R365). -/
def State.judgeSeqCmd (s : State) : State :=
  let s1 : State := match s.seq.rerun with
    | some src => ({ s with seq := { s.seq with rerun := none } }).judgeRerun src
    | none => s
  if s1.seq.rerunEdivo then ({ s1 with seq := { s1.seq with rerunEdivo := false } }).judgeRerun .edivo else s1
/-- The command source number of R363. -/
def Src.number : Src → Option (Fin 5)
  | .program _ => some 0 | .partner => some 1 | .host => some 2 | .edivo => some 3 | .network => some 4
  | _ => none
/-- How many commands of a source wait for this COMMIT (R366). -/
def State.waiting (s : State) (k : Fin 5) : Nat :=
  let slot (n : RailN) : Nat :=
    let w := s.railSlot n
    (slotReqs n w).length + (w.getLsbD 8).toNat
  ((s.railReqs.filter (fun q => q.src.number == some k)).length + (s.marginReqs.filter (fun q => q.src.number == some k)).length +
    (s.cmd.modReqs.filter (fun q => q.src.number == some k)).length + (if s.seq.rerun.bind Src.number = some k then 1 else 0) +
    (if s.seq.rerunEdivo && k == 3 then 1 else 0)) +
    (if k = 0 then ((List.finRange 256).map slot).sum else 0)
/-- APPLIED after this COMMIT (R366): host software's is the last number issued, the others count what reached the COMMIT. -/
def State.appliedAfter (s : State) : Vector DWord 5 :=
  Vector.ofFn (fun k : Fin 5 => if k = 2 then s.cmd.issuedHost else s.cmd.applied[k] + dw (s.waiting k))

/-! ### COMMIT (R293, R294) -/

/-- A step of the COMMIT, as long as the cycle has not stopped within it (R20, R295). -/
def State.within (s : State) (f : State → State) : State := if s.cyc.phase = 3 && s.g.st.cycleRuns then f s else s
/-- The COMMIT starts: how late it is after its closing tick (R293). -/
def State.commitOpen (s : State) : State :=
  let d := s.now - s.cyc.closeAt
  let clear (r : Rail) : Rail := { r with progOn := .none, progClear := .none, progMargin := .none }
  let s1 : State := { s with
    rails := tmap clear s.rails
    cyc := { s.cyc with
      phase := 3, late := false, stretch := min 65535 (d / 10), stretchLast := decide (0 < d)
      stretchSeen := s.cyc.stretchSeen || decide (0 < d), overrun := s.cyc.overrun || decide (20000 < d) } }
  if 20000 < d then (s1.raise 13 3).laterFault (some 13) none "CYCLE_OVERRUN" [min 4294967295 d] else s1
/-- Steps 1 and 2 of R294: stores drain, sets of a take land, and the results of a re-plan take effect (R109, R445). -/
def State.commitLand (s : State) : State :=
  let s1 : State := ((List.finRange 8).foldl State.drain s).landTake
  let s2 : State := (List.finRange 256).foldl (fun (s : State) n => if s.waitsOpen n then s.waitExpired n else s) s1
  match s2.age.due with
  | some r => s2.landReplan r
  | none => s2

/-- Step 3 of R294: the plan of the current level is adopted, and in RUN the Headstock's domain requests are applied
(R148, R149, R207). -/
def State.commitAdopt (s : State) : State :=
  let q := s.planOf s.g.level
  let adopts := (s.g.st = .sequence || s.g.st = .run) && (s.g.level != s.seq.level || s.seq.held != q)
  let s1 : State := if adopts then (s.adopt q).convModes else s
  if s1.g.st = .run then
    let one (s : State) (r : DomReq) : State :=
      if r.up then s.domRequest r else (s.modDom r.dom (fun d => { d with st := .off })).domRequest r
    (s1.seq.domReqs.foldl one { s1 with seq := { s1.seq with domReqs := [] } }).settle
  else s1
/-- Step 4 of R294. -/
def State.commitJudge (s : State) : State :=
  let done := s.appliedAfter
  let s1 : State := (((s.judgeMods).judgeSeqCmd).within State.judgeRails).within State.judgeAllMargins
  (s1.within (fun s => { s with cmd := { s.cmd with applied := done } })).settle
/-- Step 6 of R294: sequencer flags and field outputs take their values from the output image (R298). -/
def State.commitOutputs (s : State) : State :=
  let flags : BitVec 64 := BitVec.ofNat 64 (leNat (Memory.bytes s.mem 0x10400 8))
  let bits : BitVec 128 := BitVec.ofNat 128 (leNat (Memory.bytes s.mem 0x10500 16))
  (({ s with seq := { s.seq with flags := flags } }).fieldCommit bits).settle
/-- Step 7 of R294: program events, in source order (R305). -/
def State.commitEvents (s : State) : State :=
  let bits : BitVec 224 := BitVec.ofNat 224 (leNat (Memory.bytes s.mem 0x10420 28))
  ((List.range 224).filter (fun e => bits.getLsbD e)).foldl (fun (s : State) e => s.raise (768 + e)) s
/-- Step 8 of R294: the output image is copied, and its one-shot fields are cleared (R298). -/
def State.commitCopy (s : State) : State :=
  let copied := Memory.copy s.mem 0x10000 0x20000 0x10000
  { s with mem := Memory.clear (Memory.clear copied 0x10000 0x400) 0x10420 28 }
/-- A program at the end of a COMMIT (R313). -/
def ProgSt.commit (p : ProgSt) : ProgSt :=
  { p with refreshed := false, st := match p.st with | .done => .inactive | x => x }
/-- The physical pairs that served the EXECUTE of this COMMIT take its time (R462). -/
def State.serveTimes (s : State) : State :=
  { s with wdg := { s.wdg with spn := Vector.ofFn (fun q : Fin 9 =>
    if s.spn.phys[q].serves.isEmpty then s.wdg.spn[q] else { s.wdg.spn[q] with time := s.time.mtime }) } }
/-- Cycle length in ns (R290). -/
def State.cycleNs (s : State) : Nat := match s.modCfg with | some m => m.cycleUs * 1000 | none => 500000
/-- The next closing tick on the grid, found at the freeze that follows the end of the COMMIT within one fine tick (R291, R293): ticks
less than 10 µs after that end are skipped. -/
def State.nextTick (s : State) : State :=
  let len := s.cycleNs
  let k := max 1 ((s.now + 10000 - s.cyc.closeAt + len - 1) / len)
  { s with cyc := { s.cyc with closeAt := s.cyc.closeAt + k * len, skips := min 255 (s.cyc.skips + (k - 1)) } }
/-- The last of a COMMIT: programs that are DONE become INACTIVE, the mirror is shipped (R313, R382). -/
def State.commitClose (s : State) : State :=
  ({ s with spn := { s.spn with prog := tmap ProgSt.commit s.spn.prog } }).mirrorShip
/-- COMMIT of the cycle in progress (R294). -/
def State.commit (s : State) : State :=
  let s1 : State := (((s.commitOpen).mirrorCommit).commitLand).commitAdopt
  let s2 : State := s1.within State.commitJudge
  let s3 : State := s2.within (fun s => if s.g.st = .run then s.probePass else s)
  let s4 : State := ((s3.within State.commitOutputs).within State.serveTimes).within State.commitEvents
  (s4.within State.commitCopy).within State.commitClose
/-- What follows the end of a run, of a bead or of a replay (R291): times are recorded; when all of EXECUTE has ended, a COMMIT
that waits starts, or HOUSEKEEP begins, with the probe results that wait for it (R197). -/
def State.afterEnd (s : State) : State :=
  let s1 : State := s.timePairs
  if s1.cyc.phase != 1 || !s1.executeDone then s1
  else if s1.cyc.late then s1.commit
  else ({ s1 with cyc := { s1.cyc with phase := 2 } }).probeResults
/-- CLOSING_TICK (R291, R306, R326): the closing tick of the cycle in progress is reached. -/
def execClosingTick (s : State) : Out :=
  if !s.g.st.cycleRuns || s.cyc.late || !(s.cyc.phase = 1 || s.cyc.phase = 2) then .next s
  else
    let s1 : State := { s with cyc := { s.cyc with closeAt := s.now } }
    let landing := s1.pairsLanding
    let expires (n : ProgN) : Bool := s1.waitsOpen n &&
      (match s1.cfg.prog[n] with | some p => !landing.contains p.pair | none => false)
    let s2 : State := ((List.finRange 256).filter expires).foldl State.waitExpired s1
    let s3 : State := (s2.cutPairs.foldl State.cutShort s2).timePairs
    if s3.executeDone then .next s3.commit else .next { s3 with cyc := { s3.cyc with late := true } }

/-! ### INPUT_FREEZE (R291, R295, R297, R327, R329) -/

/-- The result of an input in the lists of its converter, when it stands in one. -/
def State.lastRes (s : State) (input : Nat) : Res :=
  let at_ (c : ConvN) : Option Res := match s.cfg.scan[c] with
    | some l => (l.entries.findIdx? (fun e => e.input.toNat == input)).map (fun i => (s.scan.res[resIndex c i]).res)
    | none => none
  ((List.finRange 16).findSome? at_).getD {}
/-- The rail record of a rail (R297). -/
def State.railRecord (s : State) (n : RailN) : List Byte :=
  let r := s.rail n
  leBytes 4 r.word.toNat ++ leBytes 4 r.marginWord.toNat ++ leBytes 2 (scode 16 (s.lastRes n.val).value) ++
    leBytes 2 (scode 16 (s.lastRes (256 + n.val)).value) ++ leBytes 1 (r.progOn.railCode + 16 * r.progClear.railCode) ++
    leBytes 1 r.progMargin.marginCode ++ leBytes 2 0
/-- The bytes of 128 bits, point `p` in bit `p`. -/
def pointBytes (f : PointN → Bool) : List Byte :=
  leBytes 16 ((List.finRange 128).foldl (fun a p => a + (f p).toNat * 2 ^ p.val) 0)
/-- The first 0x100 bytes of the input image (R297). -/
def State.imageHead (s : State) : List Byte :=
  let flags := s.motion.moving.toNat + 2 * s.motion.confirmed.toNat + 4 * s.g.degraded.toNat + 8 * s.cyc.stretchLast.toNat +
    16 * s.cyc.first.toNat + 32 * s.g.fault.toNat + 64 * s.g.ready.toNat
  padTo 0x100 (leBytes 8 s.cyc.num.toNat ++ leBytes 8 s.cyc.freezeAt ++ leBytes 8 s.utcNow.toNat ++ leBytes 1 s.time.utcQual ++
    leBytes 1 s.g.st.code ++ leBytes 1 s.g.level.code ++ leBytes 1 flags ++ leBytes 1 s.seq.held.val ++ leBytes 3 0 ++
    leBytes 8 s.key.runSerial.toNat ++ leBytes 2 s.nv.cur.factor.toNat ++ leBytes 2 (sat 65535 s.sup.vinMv) ++
    leBytes 2 (sat 65535 s.sup.usableMj))
/-- The sequencer's part of the input image, 0x0100-0x0FFF (R297). -/
def State.imageSeq (s : State) : List Byte :=
  padTo 0xF00 (padTo 0x40 (wordsToBytes [s.wSeqStat, s.wSeqFail, s.wChain, s.wPlanSel] ++ leBytes 8 s.seq.flags.toNat) ++
    s.seq.groups.toList.map (fun g => BitVec.ofNat 8 (g.st.code + 16 * (if g.st = .down then g.reason.code else 0))))
/-- The input image but for the host mailbox (R297). -/
def State.inputImage (s : State) : List Byte :=
  s.imageHead ++ s.imageSeq ++ (List.finRange 256).flatMap s.railRecord ++
    wordsToBytes (s.scan.res.toList.map (fun g => g.res.word &&& 0x400FFFFF)) ++
    wordsToBytes ((List.finRange 320).map s.wCmp) ++ padTo 0x300 (wordsToBytes ((List.finRange 16).map s.wSmp)) ++
    pointBytes s.fieldIn ++ padTo 0xF0 (pointBytes s.switched) ++
    padTo 256 s.meterImage ++ padTo 256 s.hdsImage ++ padTo 256 s.hsbImage ++ List.replicate 1024 0
/-- The input image is taken (R297): the mailbox stands at 0x4000, the last 32 KiB read 0. -/
def State.takeImage (s : State) : State :=
  let filled := Memory.copy (Memory.fill s.mem 0 s.inputImage) 0x30000 0x4000 0x4000
  ({ s with mem := Memory.clear filled 0x8000 0x8000 }).modHsb (fun h => { h with takeoverFreeze := false })
/-- Logical pair `l` moves to physical pair `q`, which becomes ACTIVE (R328, R329). -/
def State.place (s : State) (l : LPairN) (q : PPairN) : State :=
  let off (x : PPair) : PPair :=
    if x.lpA = some l then { x with lpA := x.lpB, lpB := none } else if x.lpB = some l then { x with lpB := none } else x
  let s1 : State := { s with spn := { s.spn with phys := tmap off s.spn.phys } }
  ({ s1 with spn := { s1.spn with
    phys := tmod s1.spn.phys q (fun x => { x with st := .active, lpA := some l }) } }).modPair l (fun x => { x with phys := some q })
/-- The logical pair that a spare takes at a freeze: one that no physical pair serves, else the higher-numbered one of the
lowest shared pair, at a bead boundary (R327, R329). -/
def State.wanted (s : State) : Option LPairN :=
  match (List.finRange 8).find? (fun l => s.spn.lpair[l].phys.isNone) with
  | some l => some l
  | none => (List.finRange 9).findSome? (fun q => match s.spn.phys[q].lpB with
    | some l => if s.spn.lpair[l].cur.isNone && s.spn.lpair[l].replay.isNone then some l else none
    | none => none)
/-- One spare takes a logical pair at a freeze, if one is wanted. -/
def State.handOver (s : State) : State :=
  match (List.finRange 9).find? (fun q => decide (s.spn.phys[q].st = .spare)), s.wanted with
  | some q, some l => s.place l q
  | _, _ => s
/-- What placements have changed since the last freeze takes effect (R327, R329): planned handovers, and the fit of shared
pairs. -/
def State.replaceAtFreeze (s : State) : State :=
  let shared := s.spn.phys.toList.any (fun x => x.sharedIn.isSome)
  let s1 : State := (List.range 9).foldl (fun (s : State) _ => s.handOver) s
  if shared || s1.spn.phys != s.spn.phys then
    let settled (x : PPair) : PPair := { x with sharedIn := none }
    ({ s1 with spn := { s1.spn with phys := tmap settled s1.spn.phys } }).checkBudget s1.nv.cur.factor
  else s1
/-- A program put in its place by ORDER (R309). -/
def orderInsert (x : ProgN × CProg) : List (ProgN × CProg) → List (ProgN × CProg)
  | [] => [x]
  | y :: l => if x.2.order < y.2.order then x :: y :: l else y :: orderInsert x l
/-- The cyclic programs of pair `l` that are due in this cycle, in ORDER (R291, R309). -/
def State.dueNow (s : State) (l : LPairN) : List ProgN :=
  let due := s.cfg.cyclicOf l (fun n => decide (s.spn.prog[n].st = .inactive))
  ((due.filter (fun x => s.cyc.num.toNat % max 1 x.2.div == x.2.phase)).foldr orderInsert []).map (·.1)
/-- Pair `l` starts its EXECUTE. -/
def State.armPair (s : State) (l : LPairN) : State :=
  let due := if s.spn.lpair[l].phys.isSome then s.dueNow l else []
  s.modPair l (fun x => { x with due := due, freezeAt := s.now })
/-- INPUT_FREEZE (R291): the first fine tick after a COMMIT, or the start of the grid at entry to SEQUENCE. -/
def execInputFreeze (s : State) : Out :=
  if !s.g.st.cycleRuns || !(s.cyc.phase = 0 || s.cyc.phase = 3) then .next s
  else
    let s0 : State := if s.cyc.phase = 0 then { s with cyc := { s.cyc with closeAt := s.now + s.cycleNs } } else s.nextTick
    let s1 : State := s0.replaceAtFreeze
    let s2 : State := { s1 with cyc := { s1.cyc with
      num := s1.cyc.num + 1, first := decide (s1.cyc.num = 0), freezeAt := s1.now, phase := 1 } }
    let s3 : State := (List.finRange 8).foldl State.armPair s2.takeImage
    .next ((List.finRange 8).foldl State.pick s3).afterEnd

end Sys2Proof.Machine
end

