-- ==== Sys2Proof/Machine/Replacement.lean ====
section
/-!
DEFINITION. Meanings: mismatches, retirement, replacement with and without a spare, the end of a replay, and the physical
pair states (R317-R331, R462).
-/
namespace Sys2Proof

/-- The codes of *Mismatch kinds* (R319). -/
def MKind.code : MKind → Nat
  | .store => 1 | .operation => 2 | .beadEnd => 3 | .timeout => 4 | .parity => 5 | .injected => 6 | .shadow => 7

end Sys2Proof

namespace Sys2Proof.Machine
open Sys2Proof

/-- Physical pair `q` changed by `f`. -/
def State.modPhys (s : State) (q : PPairN) (f : PPair → PPair) : State :=
  { s with spn := { s.spn with phys := tmod s.spn.phys q f } }
/-- The last replacement changed by `f`. -/
def State.modRepl (s : State) (f : Repl → Repl) : State := { s with spn := { s.spn with repl := f s.spn.repl } }

/-! ### Retirement (R328, R329) -/

/-- A pair retires (R328): its third retirement since START makes it FAILED. The kept count and source 608 + q follow. -/
def State.retire (s : State) (q : PPairN) (kind : Option MKind) : State :=
  let s1 : State := s.modPhys q (fun x => { x with
    st := if 3 ≤ x.retires + 1 then .failed else .retired
    lpA := none, lpB := none, lastKind := kind, retires := min 3 (x.retires + 1), inject := false, sharedIn := none })
  ((s1.nvWrite 4 (fun d => { d with physRetirements := tmod d.physRetirements q (satInc 65535) })).raise (608 + q.val)
    (match kind with | some k => k.code | none => 0)).updDegraded
/-- SPINDLE_RETIRED (R276, R324): source 4 and fault class 9. -/
def State.noteRetired (s : State) (q : PPairN) (kind : MKind) : State :=
  ((s.raise 4 0).faultEvent 9 4 "SPINDLE_RETIRED" [q.val, kind.code]).updDegraded

/-! ### Checkpoints lost (R317) -/

/-- A task's item returns to the head of its queue with its charge refunded; one that is aborting completes ABORTED
(R317, R345). -/
def State.returnItem (s : State) (n : ProgN) : State :=
  match s.spn.prog[n].ck.item with
  | none => s
  | some (q, i) =>
    let s1 : State := s.modProg n (fun p => { p with ck := { p.ck with item := none }, abortDue := false })
    match s1.hds.queue[q].items.find? (fun x => x.index == i) with
    | none => s1
    | some x =>
      if x.st = .aborting then s1.complete q x 3 none
      else (s1.addTokens x.charge).modQueue q (fun u => u.modItem i (fun y => { y with st := .queued, charge := 0 }))
/-- One program of a pair is restarted (R317, R313). -/
def State.restartProg (s : State) (n : ProgN) : State :=
  let s1 : State := (s.returnItem n).unregister (.prog n)
  s1.modProg n (fun p => { p with
    st := match p.st with | .dropped => .dropped | _ => .inactive
    initDue := true, consecutive := 0, stopDue := false, waitObj := none, woken := none })
/-- The programs of a logical pair. -/
def State.progsOf (s : State) (l : LPairN) : List ProgN :=
  (List.finRange 256).filter (fun n => match s.cfg.prog[n] with | some p => p.pair == l | none => false)
/-- A pair with nothing due, ready or running. -/
def LPair.idle (x : LPair) : LPair := { x with due := [], ready := [], cur := none, journal := [], buf := [], replay := none }
/-- RESTART of a pair's programs (R317): what they stored stands, its epoch rises, CHECKPOINT_LOST. -/
def State.restartPair (s : State) (l : LPairN) : State :=
  let s1 : State := (s.drain l).modPair l LPair.idle
  let s2 : State := ((s.progsOf l).foldl State.restartProg s1).risePair l
  ((s2.raise 4 1).laterFault (some 4) none "CHECKPOINT_LOST" [l.val]).modRepl (fun r => { r with lostCk := true })

/-! ### The identity moves (R320, R326, R327) -/

/-- The replay of the bead that ran on `l` begins from its checkpoint (R320, R321): stores that the comparator let pass
reach memory, and the journal is kept to be matched. An earlier replay that did not end keeps its journal, with what it
did since. The divergence lies at most 1 µs before the detection, by a free length (R319, R320; log entry 142). -/
def State.startReplay (s : State) (l : LPairN) (n : ProgN) : State :=
  let x := s.spn.lpair[l]
  let ops := match x.replay with
    | some r => r.whole ++ r.live
    | none => x.journal
  let p := s.spn.prog[n]
  let regs := { p.ck.regs with calls := [], loops := [], pc := s.beadStart n p.ck.bead }
  ((s.drain l).modPair l (fun y => { y with
    regs := regs, bead := p.ck.bead, t := p.ck.t, beadAt := s.now, journal := []
    replay := some { rest := ops, whole := ops, since := match x.replay with
      | some r => r.since
      | none => s.now - min s.now (freeNat s.free % 1001) } })).tickFree
/-- The ACTIVE physical pair that takes an orphaned logical pair when no spare is left (R326): among those that serve one
logical pair, the one whose logical pair has the smallest WCET_US; the lowest number on a tie. -/
def State.sharer (s : State) : Option (PPairN × LPairN) :=
  (List.finRange 9).foldl (fun (a : Option (PPairN × LPairN)) q =>
    match s.spn.phys[q].st, s.spn.phys[q].lpA, s.spn.phys[q].lpB with
    | .active, some m, none => (match a with
      | none => some (q, m)
      | some (_, b) => if s.spn.lpair[m].wcetUs < s.spn.lpair[b].wcetUs then some (q, m) else a)
    | _, _, _ => a) none
/-- A logical pair that cannot be placed (R327): every program of it is DROPPED, items return, its epoch rises. -/
def State.unplace (s : State) (l : LPairN) : State :=
  let s1 : State := ((s.drain l).modPair l LPair.idle).modPair l (fun x => { x with phys := none })
  let drop (s : State) (n : ProgN) : State := match s.spn.prog[n].st with
    | .dropped | .absent => s
    | _ => (s.returnItem n).dropProg n
  (((s.progsOf l).foldl drop s1).risePair l).updDegraded
/-- NO_SPINDLES (R327): the last ACTIVE pair of `old` is gone. -/
def State.noSpindles (s old : State) : State :=
  let active (t : State) : Bool := t.spn.phys.toList.any (fun x => decide (x.st = .active))
  if active old && !active s then (s.raise 4 3).laterFault (some 4) none "NO_SPINDLES" [] else s
/-- The identity of an orphaned logical pair moves (R320, R326, R327); the result names the taker and says whether it is
shared. -/
def State.rehome (s : State) (l : LPairN) : State × Option (PPairN × Bool) :=
  let s0 : State := s.modPair l (fun x => { x with phys := none })
  match (List.finRange 9).find? (fun q => decide (s.spn.phys[q].st = .spare)) with
  | some q => (s0.place l q, some (q, false))
  | none =>
    match s0.sharer with
    | some (q, m) =>
      ((s0.modPhys q (fun x => { x with
        lpA := some (min l m), lpB := some (max l m), sharedIn := some s.cyc.num })).modPair l (fun x => { x with phys := some q }),
        some (q, true))
    | none => (s0.unplace l, none)
/-- One orphaned logical pair after its physical pair `q` has retired: its identity moves; its bead, if one ran, is replayed
while the cycle runs, or its programs are restarted where the checkpoint is lost (R317, R320). -/
def State.orphaned (s : State) (q : PPairN) (kind : MKind) (ckOk : Bool) (l : LPairN) : State :=
  let x := s.spn.lpair[l]
  let r := s.rehome l
  let s1 : State := r.1.modRepl (fun p => { p with
    retired := some q, taker := r.2.map (·.1), lpair := l, shared := match r.2 with | some t => t.2 | none => false
    kind := some kind, diverged := false, count := satInc 255 p.count, lostCk := false
    bead := x.bead, prog := match x.cur with | some n => n.val | none => 0, duration := 0, time := s.time.mtime })
  match r.2 with
  | none => s1
  | some _ =>
    if !s1.g.st.cycleRuns then s1.modPair l LPair.idle
    else if !ckOk then s1.restartPair l
    else match x.cur with
    | some n => s1.startReplay l n
    | none => s1
/-- Physical pair `q` is retired by a mismatch, and what it served moves (R319, R320, R324, R326): the bead that ran first, then
the other logical pair. A lost checkpoint is that of the bead. -/
def State.mismatch (s : State) (q : PPairN) (kind : MKind) (ckOk : Bool) : State :=
  let ls := s.spn.phys[q].serves
  let ran := ls.filter (fun l => s.spn.lpair[l].cur.isSome)
  let idle := ls.filter (fun l => s.spn.lpair[l].cur.isNone)
  let s1 : State := (s.retire q (some kind)).noteRetired q kind
  match ran ++ idle with
  | [] => s1.noSpindles s
  | l :: rest => (rest.foldl (fun (s : State) m => s.orphaned q kind true m) (s1.orphaned q kind ckOk l)).noSpindles s
/-- The replacement of this same fine tick whose taker a lower-numbered pair `q` claims (R331): the pair that retired, its taker and
the logical pair that moved. -/
def State.rival (s : State) (q : PPairN) : Option (PPairN × PPairN × LPairN × MKind) :=
  let r := s.spn.repl
  match r.retired, r.taker, r.kind with
  | some a, some t, some k =>
    if r.time = s.time.mtime && !r.shared && decide (q < a) && s.spn.phys[t].lpA == some r.lpair then some (a, t, r.lpair, k) else none
  | _, _, _ => none
/-- A mismatch on pair `q` after which a higher-numbered pair that took the spare in this fine tick follows R326 (R331). -/
def State.mismatchFirst (s : State) (q : PPairN) (kind : MKind) (ckOk : Bool) : State :=
  match s.rival q with
  | none => s.mismatch q kind ckOk
  | some (a, t, l, k) =>
    let s1 : State := (s.modPhys t (fun x => { x with st := .spare, lpA := none })).modPair l (fun x => { x with phys := none })
    ((s1.mismatch q kind ckOk).modRepl (fun r => { r with count := s.spn.repl.count })).orphaned a k true l
/-- MISMATCH (R319): the comparator of an ACTIVE pair declares a mismatch; `ckOk` says that a copy of the checkpoint can be
read. In STABLED and OFF the pairs are unpowered (R330). -/
def execMismatch (q : PPairN) (kind : MKind) (ckOk : Bool) (s : State) : Out :=
  if s.spn.phys[q].st = .active && s.g.st.operating then .next (s.mismatchFirst q kind ckOk).afterEnd else .next s

/-! ### The end of a replay (R322, R323) -/

/-- The bytes that journal operations stored, with the value each held before the bead and the value the bead left. -/
def journalBytes (ops : List JOp) : List (Nat × Byte × Byte) :=
  ops.foldl (fun (acc : List (Nat × Byte × Byte)) o => match o with
    | .store bytes => bytes.foldl (fun (acc : List (Nat × Byte × Byte)) b =>
        match acc.find? (fun x => x.1 == b.1) with
        | some x => acc.map (fun y => if y.1 = b.1 then (y.1, y.2.1, maskByte x.2.2 b.2.1 b.2.2.1) else y)
        | none => (match b.2.2.2 with
          | some old => acc ++ [(b.1, old, maskByte old b.2.1 b.2.2.1)]
          | none => acc)) acc
    | _ => acc) []
/-- A byte that the replay did not store goes back to its old value, if it still holds what the bead stored; otherwise it is
counted (R323). -/
def State.restoreByte (s : State) (b : Nat × Byte × Byte) : State :=
  if Memory.get s.mem b.1 = b.2.2 then { s with mem := Memory.set s.mem b.1 b.2.1 }
  else { s with spn := { s.spn with uncounted := s.spn.uncounted + 1 } }
/-- Two lock operations of a journal and of a replay count as the same one. -/
def JOp.sameLock : JOp → JOp → Bool
  | .lock a _ _, .lock b _ _ => a == b
  | .unlock a _ _, .unlock b _ _ => a == b
  | _, _ => false
/-- The operations left of a journal that the replay did not repeat. -/
def notRepeated (rest live : List JOp) : List JOp :=
  (rest.foldl (fun (acc : List JOp × List JOp) o =>
    match acc.2.findIdx? (o.sameLock) with
    | some i => (acc.1, acc.2.eraseIdx i)
    | none => (acc.1 ++ [o], acc.2)) ([], live)).1
/-- A lock operation of the original run that the replay did not repeat is taken back (R323). -/
def State.undoLock (s : State) (l : LPairN) : JOp → State
  | .lock k ba acc => if ba && !acc.getLsbD 2 then (s.release k (.pair l) false).1 else s
  | .unlock k _ released =>
    if !released then s
    else
      match s.lck.lock[k].st with
      | .free => (s.acquire k (.pair l)).1
      | _ => { s with spn := { s.spn with lostLocks := s.spn.lostLocks + 1 } }
  | _ => s
/-- A replay that diverged is reconciled (R323): bytes not repeated first, then lock operations, the last of the journal
first. -/
def State.reconcile (s : State) (l : LPairN) (r : Replay) : State :=
  let bytes := (journalBytes r.whole).filter (fun b => !r.stored.contains b.1)
  let s1 : State := bytes.foldl State.restoreByte s
  let s2 : State := (notRepeated r.rest r.live).reverse.foldl (fun (s : State) o => s.undoLock l o) s1
  ((s2.modRepl (fun x => { x with diverged := true })).raise 4 2).laterFault (some 4) none "REPLAY_DIVERGED" [l.val]
/-- REPLAY_END (R320-R323): the replayed bead of logical pair `l` has ended; a journal with operations left has diverged. -/
def execReplayEnd (l : LPairN) (s : State) : Out :=
  match s.spn.lpair[l].replay, s.spn.lpair[l].cur with
  | some r, none =>
    let s1 : State := if r.diverged || !r.rest.isEmpty then s.reconcile l r else s
    let s2 : State := (s1.modPair l (fun x => { x with replay := none })).modRepl (fun x => { x with
      duration := min 255 ((s.now - r.since) / 1000) })
    .next (s2.pickNext l).afterEnd
  | _, _ => .next s

/-! ### Return to service (R328-R331) -/

/-- PAIR_SELFTEST (R328): SELFTEST of SPN_PHYS_CMD, from RETIRED only. -/
def execPairSelftest (q : PPairN) (s : State) : Out :=
  match s.spn.phys[q].st with
  | .retired => .next ((s.modPhys q (fun x => { x with cmdAns := .accepted, st := .selftest })).updDegraded)
  | .selftest => .next (s.modPhys q (fun x => { x with cmdAns := .noChange }))
  | _ => .next (s.modPhys q (fun x => { x with cmdAns := .refusedState }))
/-- PAIR_INJECT (R331): INJECT of SPN_PHYS_CMD, at standstill, with a pair in SPARE, on an ACTIVE pair. -/
def execPairInject (q : PPairN) (s : State) : Out :=
  let spare := s.spn.phys.toList.any (fun x => decide (x.st = .spare))
  let a : Ans := if s.motion.moving then .refusedMoving
    else if !spare then .refusedNoSpare
    else if s.spn.phys[q].st != .active then .refusedState
    else if s.spn.phys[q].inject then .noChange
    else .accepted
  .next (s.modPhys q (fun x => { x with cmdAns := a, inject := x.inject || a == .accepted }))
/-- PAIR_SELFTEST_START (R328): in HOUSEKEEP, a RETIRED pair starts its self-test. -/
def execPairSelftestStart (q : PPairN) (s : State) : Out :=
  if s.spn.phys[q].st = .retired && s.g.st.cycleRuns && s.cyc.phase = 2 then .next (s.modPhys q (fun x => { x with st := .selftest }))
  else .next s
/-- PAIR_SELFTEST_DONE (R328, R329): a pass leads to SHADOWING, a failure back to RETIRED. Its slices run only in HOUSEKEEP. -/
def execPairSelftestDone (q : PPairN) (pass : Bool) (s : State) : Out :=
  if s.spn.phys[q].st != .selftest || !s.g.st.cycleRuns || s.cyc.phase != 2 then .next s
  else if pass then .next (s.modPhys q (fun x => { x with st := .shadowing }))
  else .next ((s.modPhys q (fun x => { x with st := .retired })).nvWrite 4
    (fun d => { d with physSelfFails := tmod d.physSelfFails q (satInc 65535) }))
/-- PAIR_SHADOW_DONE (R328, R329): a cycle without disagreement makes the pair SPARE, with PAIR_REJOINED; a disagreement
retires it with kind SHADOW, and is reported as every other retirement by a mismatch is (DEDUCED, log entry 143). -/
def execPairShadowDone (q : PPairN) (agree : Bool) (s : State) : Out :=
  if s.spn.phys[q].st != .shadowing || !s.g.st.cycleRuns then .next s
  else if agree then .next (((s.modPhys q (fun x => { x with st := .spare })).raise (608 + q.val) 32).updDegraded)
  else .next ((s.retire q (some .shadow)).noteRetired q .shadow)
/-- SPARE_SELFCHECK_FAIL (R328): the background self-check of a SPARE pair fails. -/
def execSpareSelfcheckFail (q : PPairN) (s : State) : Out :=
  if s.spn.phys[q].st = .spare && s.g.st.operating && s.g.st != .lastGasp then .next (s.retire q none) else .next s
/-- SPINDLE_WDG_EXPIRY (R462): a bead has run beyond its time on physical pair `q`; the pair is retired as by a mismatch. -/
def execSpindleWdgExpiry (q : PPairN) (s : State) : Out :=
  match s.spn.phys[q].serves.find? (fun l => s.spn.lpair[l].cur.isSome) with
  | none => .next s
  | some l =>
    let x := s.spn.lpair[l]
    if !s.wdg.spn[q].enabled || s.spn.phys[q].st != .active || !s.g.st.cycleRuns then .next s
    else
      let n := match x.cur with | some n => n.val | none => 0
      let s1 : State := { s with wdg := { s.wdg with spn := tmod s.wdg.spn q (fun w => { w with
        expiredSeen := true, expiries := satInc 65535 w.expiries
        word := min 65535 x.regs.pc, prog := n, bead := x.bead }) } }
      let s2 : State := (s1.raise (617 + q.val)).faultLogged 13 (617 + q.val) "SPINDLE_WATCHDOG" [n, x.bead, x.regs.pc]
      .next (s2.mismatch q .timeout true).afterEnd

end Sys2Proof.Machine
end

