-- ==== Sys2Proof/Machine/Flags.lean ====
section
/-!
DEFINITION. The arithmetic of the spindles (R299, R301-R303): saturation and OVF, division, timers, counters, and what is
computed into BA.
-/
namespace Sys2Proof.Machine
open Sys2Proof

/-- A result that saturates at 0x7FFF_FFFF and 0x8000_0000, and whether it did (R301). -/
def satWord (x : Int) : Word × Bool :=
  if 2147483647 < x then (0x7FFFFFFF, true)
  else if x < -2147483648 then (0x80000000, true)
  else (BitVec.ofInt 32 x, false)
/-- ACC takes a saturating result; OVF is sticky (R299, R301). -/
def Regs.setSat (r : Regs) (x : Int) : Regs := { r with acc := (satWord x).1, ovf := r.ovf || (satWord x).2 }
/-- ACC takes a word. -/
def Regs.setAcc (r : Regs) (w : Word) : Regs := { r with acc := w }
/-- BA takes a bit. -/
def Regs.setBa (r : Regs) (b : Bool) : Regs := { r with ba := b }
/-- Word register `k` takes a word. -/
def Regs.setW (r : Regs) (k : Fin 32) (w : Word) : Regs := { r with w := tset r.w k w }
/-- DIV (R301): truncated toward zero; by 0 it gives the bound of ACC's sign. -/
def Regs.divide (r : Regs) (w : Word) : Regs :=
  if w = 0 then r.setAcc (if 0 ≤ r.acc.toInt then 0x7FFFFFFF else 0x80000000)
  else r.setSat (r.acc.toInt.tdiv w.toInt)
/-- SCALE (R301): a 64-bit intermediate, truncated toward zero. -/
def Regs.scale (r : Regs) (a b c : Fin 32) : Regs :=
  r.setSat (((r.acc.toInt - r.w[a].toInt) * r.w[b].toInt).tdiv 65536 + r.w[c].toInt)
/-- LIM (R301). -/
def Regs.limit (r : Regs) (a b : Fin 32) : Regs :=
  r.setAcc (BitVec.ofInt 32 (min (max r.acc.toInt r.w[a].toInt) r.w[b].toInt))
/-- LDIH (R301). -/
def Regs.loadHigh (r : Regs) (i : BitVec 24) : Regs := r.setAcc (i.extractLsb' 0 16 ++ r.acc.extractLsb' 0 16)

/-! ### Timers and counters (R302, R303) -/

/-- The time since the start, modulo 2³² coarse ticks, has reached the preset (R302). -/
def elapsed (t start p : Word) : Bool := decide (p.toNat ≤ (t - start).toNat)
/-- A timer block: its start time, Q and the previous enable. -/
structure Timer where
  start : Word
  q : Bool
  prev : Bool
deriving DecidableEq, Repr
/-- The state word of a timer block. -/
def Timer.word (x : Timer) : Word := BitVec.ofNat 32 (x.q.toNat + 2 * x.prev.toNat)
/-- TON (R302). -/
def Timer.ton (x : Timer) (en : Bool) (t p : Word) : Timer :=
  let start := if en && !x.prev then t else x.start
  { start := start, q := en && elapsed t start p, prev := en }
/-- TOF (R302). -/
def Timer.tof (x : Timer) (en : Bool) (t p : Word) : Timer :=
  let start := if !en && x.prev then t else x.start
  { start := start, q := en || (x.q && !elapsed t start p), prev := en }
/-- TP (R302). -/
def Timer.tp (x : Timer) (en : Bool) (t p : Word) : Timer :=
  if en && !x.prev && !x.q then { start := t, q := true, prev := en }
  else { start := x.start, q := x.q && !elapsed t x.start p, prev := en }
/-- The count of CTU after an enable with its edge memory (R303). -/
def countUp (count : Word) (en edge : Bool) : Word := if en && !edge then (satWord (count.toInt + 1)).1 else count
/-- The count of CTD (R303). -/
def countDown (count : Word) (en edge : Bool) : Word := if en && !edge then (satWord (count.toInt - 1)).1 else count

end Sys2Proof.Machine
end

