-- ==== Sys2Proof/Machine/Operands.lean ====
section
/-!
DEFINITION. Operands of the spindles (R298, R300, R308, R318, R321, R322): where an operand stands, loads through the store
buffer, stores with their checks, the bead journal and its replay.
-/
namespace Sys2Proof.Machine
open Sys2Proof

/-- How an instruction leaves its program: at the next word, at the word it set, at a bead end or stopped by a mismatch, or
with a fault (R312). -/
inductive Act where
  | next (s : State)
  | jumped (s : State)
  | ended (s : State)
  | fault (s : State) (f : PFault)
deriving DecidableEq, Repr

/-- Where a bit operand stands: a byte of image or local memory, a word register, or OVF. -/
inductive BitAt where
  | mem (a : Nat) (b : Fin 8)
  | reg (k : Fin 32) (b : Fin 32)
  | ovf
deriving DecidableEq, Repr
/-- Where a word operand stands. -/
inductive WordAt where
  | mem (a : Nat)
  | reg (k : Fin 32)
deriving DecidableEq, Repr

/-- The registers of the pair. -/
def State.regs (s : State) (l : LPairN) : Regs := s.spn.lpair[l].regs
/-- The registers of the pair changed by `f`. -/
def State.modRegs (s : State) (l : LPairN) (f : Regs → Regs) : State := s.modPair l (fun x => { x with regs := f x.regs })
/-- The base of the local memory of pair `l` in BAR2 (R296). -/
def locBase (l : LPairN) : Nat := 0xC00000 + 0x10000 * l.val
/-- An address of the shared image memory that spindles may read: IN, OUT and DATA (R296). -/
def imageOk (a : Nat) : Bool := decide (a < 0x20000) || (decide (0x40000 ≤ a) && decide (a < 0x400000))

/-! ### Operand forms (R300) -/

/-- A field of the 24 operand bits. -/
def field (w : BitVec 24) (lo n : Nat) : Nat := w.toNat / 2 ^ lo % 2 ^ n
/-- A register number in the operand bits. -/
def regField (w : BitVec 24) (lo : Nat) : Fin 32 := Fin.ofNat 32 (field w lo 5)
/-- A bit operand, form B (R300); none is ADDRESS_RANGE. -/
def State.bitAt (s : State) (l : LPairN) (w : BitVec 24) : Option BitAt :=
  let off := field w 0 21
  let at_ (base : Nat) : Option BitAt := some (.mem (base + off / 8) (Fin.ofNat 8 off))
  match field w 21 3 with
  | 0 => if off < 0x80000 then at_ 0 else none
  | 1 => if off < 0x80000 then at_ 0x10000 else none
  | 2 => at_ 0x40000
  | 3 => if off < 0x80000 then at_ (locBase l) else none
  | 4 => if off < 1024 then some (.reg (Fin.ofNat 32 (off / 32)) (Fin.ofNat 32 off)) else if off = 1024 then some .ovf else none
  | 7 =>
    let a := ((s.regs l).w[regField w 16]).toNat + field w 0 16
    if imageOk (a / 8) then some (.mem (a / 8) (Fin.ofNat 8 a)) else none
  | _ => none
/-- Word `i` of a word operand or block, form M (R300); none is ADDRESS_RANGE. -/
def State.wordAt (s : State) (l : LPairN) (w : BitVec 24) (i : Nat) : Option WordAt :=
  let off := field w 0 21 + i
  match field w 21 3 with
  | 0 => if off < 0x4000 then some (.mem (4 * off)) else none
  | 1 => if off < 0x4000 then some (.mem (0x10000 + 4 * off)) else none
  | 2 => if off < 0xF0000 then some (.mem (0x40000 + 4 * off)) else none
  | 3 => if off < 0x4000 then some (.mem (locBase l + 4 * off)) else none
  | 4 => if field w 0 5 + i < 32 then some (.reg (Fin.ofNat 32 (field w 0 5 + i))) else none
  | 7 =>
    let a := ((s.regs l).w[regField w 16]).toNat + 4 * (field w 0 16 + i)
    if a % 4 = 0 && imageOk a && imageOk (a + 3) then some (.mem a) else none
  | _ => none

/-! ### Loads (R289, R308, R321) -/

/-- The entry that stores byte `a`, as the buffer would leave the byte. -/
def BufEntry.over (e : BufEntry) (a : Nat) (b : Byte) : Byte :=
  match e.bytes.find? (fun x => x.1 == a) with | some x => maskByte b x.2.1 x.2.2 | none => b
/-- An entry overlaps the bytes of a load. -/
def BufEntry.overlaps (e : BufEntry) (a n : Nat) : Bool := e.bytes.any (fun x => decide (a ≤ x.1) && decide (x.1 < a + n))
/-- An entry covers the bits of a load: every byte, with all the bits of `need`. -/
def BufEntry.covers (e : BufEntry) (a n : Nat) (need : Byte) : Bool :=
  (List.range n).all (fun i => e.bytes.any (fun x => x.1 == a + i && (x.2.1 &&& need) == need))
/-- The store buffer of pair `l` drained until no entry overlaps the bytes (R308). -/
def State.drainFor (s : State) (l : LPairN) (a n : Nat) : Nat → State
  | 0 => s
  | k + 1 => if s.spn.lpair[l].buf.any (fun e => e.overlaps a n) then (s.drainOne l).drainFor l a n k else s
/-- A byte that the replay has not stored yet reads as before the bead (R321). -/
def State.replayByte (s : State) (l : LPairN) (a : Nat) (b : Byte) : Byte :=
  match s.spn.lpair[l].replay with
  | none => b
  | some r =>
    if r.stored.contains a then b
    else match (journalBytes r.whole).find? (fun x => x.1 == a) with
    | some x => x.2.1
    | none => b
/-- The bytes of a load, as the pair sees them (R308, R321): forwarded from the newest entry that covers them, else read from
memory once every overlapping entry has drained. An uncorrectable word of the shared image is IMAGE_ECC (R289). -/
def State.loadBytes (s : State) (l : LPairN) (a n : Nat) (need : Byte) : State × Option (List Byte) :=
  let buf := s.spn.lpair[l].buf
  match (buf.filter (fun e => e.overlaps a n)).getLast? with
  | some e =>
    if e.covers a n need then
      (s, some ((List.range n).map (fun i => s.replayByte l (a + i) (e.over (a + i) 0))))
    else
      let s1 : State := s.drainFor l a n 8
      if s1.ecc.contains (a / 4 * 4) then (s1, none)
      else (s1, some ((List.range n).map (fun i => s1.replayByte l (a + i) (Memory.get s1.mem (a + i)))))
  | none =>
    if s.ecc.contains (a / 4 * 4) then (s, none)
    else (s, some ((List.range n).map (fun i => s.replayByte l (a + i) (Memory.get s.mem (a + i)))))
/-- A word is loaded and handed on. -/
def State.withWord (s : State) (l : LPairN) (w : BitVec 24) (i : Nat) (f : State → Word → Act) : Act :=
  match s.wordAt l w i with
  | none => .fault s .addressRange
  | some (.reg k) => f s (s.regs l).w[k]
  | some (.mem a) =>
    let r := s.loadBytes l a 4 0xFF
    match r.2 with
    | none => .fault r.1 .imageEcc
    | some bytes => f r.1 (BitVec.ofNat 32 (leNat bytes))
/-- A bit is loaded and handed on. -/
def State.withBit (s : State) (l : LPairN) (w : BitVec 24) (f : State → Bool → Act) : Act :=
  match s.bitAt l w with
  | none => .fault s .addressRange
  | some (.reg k b) => f s (((s.regs l).w[k]).getLsbD b.val)
  | some .ovf => f s (s.regs l).ovf
  | some (.mem a b) =>
    let r := s.loadBytes l a 1 (1#8 <<< b.val)
    match r.2 with
    | none => .fault r.1 .imageEcc
    | some bytes => f r.1 ((bytes.headD 0).getLsbD b.val)

/-! ### Stores (R298, R308, R318, R322, R331) -/

/-- Bits of a word at `a` are within OUT fields that program `p` owns (R298): flags, field outputs and host output words.
`mask` names the bits stored, from bit 0 of the byte at `a`. -/
def ownsOut (p : CProg) (a : Nat) (mask : Word) : Bool :=
  let bits := (List.range 32).filter (fun i => mask.getLsbD i)
  if 0x10400 ≤ a && a < 0x10408 then bits.all (fun i => p.flagOwn.getLsbD (8 * (a - 0x10400) + i))
  else if 0x10500 ≤ a && a < 0x10510 then bits.all (fun i => p.fieldOwn.getLsbD (8 * (a - 0x10500) + i))
  else if 0x11000 ≤ a && a < 0x15000 then
    let k := (a - 0x11000) / 4
    decide (p.hostBase ≤ k) && decide (k < p.hostBase + p.hostLen)
  else false
/-- Whether program `p` may store the bits at `a` (R298, R383). -/
def State.mayStore (s : State) (p : CProg) (a : Nat) (mask : Word) : Bool :=
  if a < 0x10000 then false
  else if a < 0x20000 then ownsOut p a mask
  else if s.standby && decide ((s.mirrorArea).1 ≤ a) && decide (a < (s.mirrorArea).1 + (s.mirrorArea).2) then false
  else true
/-- A journal holds a byte already. -/
def journaled (ops : List JOp) (a : Nat) : Bool :=
  ops.any (fun o => match o with | .store bytes => bytes.any (fun b => b.1 == a) | _ => false)
/-- A store reaches local memory, or enters the store buffer, which gives up its oldest entry when full (R308). -/
def State.putStore (s : State) (l : LPairN) (bytes : List (Nat × Byte × Byte)) : State :=
  let e : BufEntry := { bytes := bytes }
  if bytes.any (fun b => decide (0xC00000 ≤ b.1)) then { s with mem := e.apply s.mem }
  else
    let s1 : State := if 8 ≤ s.spn.lpair[l].buf.length then s.drainOne l else s
    s1.modPair l (fun x => { x with buf := x.buf ++ [e] })
/-- What a replay does with its next operation (R322, R323). -/
inductive Match where
  | live | same (o : JOp) | differs
deriving DecidableEq, Repr
/-- The next operation of pair `l` against its journal: `same` says whether a journal entry is that operation. -/
def State.matchOp (s : State) (l : LPairN) (same : JOp → Bool) : Match :=
  match s.spn.lpair[l].replay with
  | none => .live
  | some r =>
    if r.diverged then .live
    else match r.rest with
    | [] => .live
    | o :: _ => if same o then .same o else .differs
/-- The replay of pair `l` changed by `f`. -/
def State.modReplay (s : State) (l : LPairN) (f : Replay → Replay) : State :=
  s.modPair l (fun x => { x with replay := x.replay.map f })
/-- The matched operation leaves the journal to be matched. -/
def State.popOp (s : State) (l : LPairN) : State := s.modReplay l (fun r => { r with rest := r.rest.drop 1 })
/-- The replay diverges (R323). -/
def State.diverge (s : State) (l : LPairN) : State := s.modReplay l (fun r => { r with diverged := true })
/-- An operation that acts is recorded: in the bead journal, and while a replay runs among its own (R318). -/
def State.record (s : State) (l : LPairN) (o : JOp) : State :=
  if s.spn.lpair[l].replay.isSome then s.modReplay l (fun r => { r with live := r.live ++ [o] })
  else s.modPair l (fun x => { x with journal := x.journal ++ [o] })
/-- Two stores are the same operation: addresses, masks and data (R319). -/
def sameStore (bytes : List (Nat × Byte × Byte)) : JOp → Bool
  | .store b => b.map (fun x => (x.1, x.2.1, x.2.2.1)) == bytes
  | _ => false
/-- The bytes are noted as stored by a replay. -/
def State.noteStored (s : State) (l : LPairN) (bytes : List (Nat × Byte × Byte)) : State :=
  s.modReplay l (fun r => { r with stored := r.stored ++ bytes.map (·.1) })
/-- The value that a byte holds before the bead's first store to it (R318). -/
def State.oldByte (s : State) (l : LPairN) (a : Nat) : Option Byte :=
  let x := s.spn.lpair[l]
  let before := match x.replay with | some r => r.whole ++ r.live | none => x.journal
  if journaled before a then none else some (Memory.get s.mem a)
/-- A store of checked bytes (R318, R322). -/
def State.doStore (s : State) (l : LPairN) (bytes : List (Nat × Byte × Byte)) : State :=
  let op : JOp := .store (bytes.map (fun b => (b.1, b.2.1, b.2.2, s.oldByte l b.1)))
  match s.matchOp l (sameStore bytes) with
  | .same _ => ((s.popOp l).noteStored l bytes).putStore l bytes
  | .live => ((s.record l op).noteStored l bytes).putStore l bytes
  | .differs => (((s.diverge l).record l op).noteStored l bytes).putStore l bytes
/-- The physical pair of `l` that an INJECT makes disagree at this store (R331). -/
def State.injected (s : State) (l : LPairN) : Option PPairN :=
  match s.spn.lpair[l].phys with
  | some q => if s.spn.phys[q].inject then some q else none
  | none => none
/-- A store with its checks, then what follows (R298, R331). -/
def State.storeThen (s : State) (l : LPairN) (n : ProgN) (a : Nat) (mask : Word) (bytes : List (Nat × Byte × Byte))
    (f : State → Act) : Act :=
  match s.cfg.prog[n] with
  | none => .fault s .storeProtected
  | some p =>
    if !s.mayStore p a mask then .fault s .storeProtected
    else match s.injected l with
    | some q => .ended (s.mismatch q .injected true)
    | none => f (s.doStore l bytes)
/-- The bytes of a whole word. -/
def wordBytes (a : Nat) (v : Word) : List (Nat × Byte × Byte) :=
  [(a, 0xFF, v.extractLsb' 0 8), (a + 1, 0xFF, v.extractLsb' 8 8), (a + 2, 0xFF, v.extractLsb' 16 8),
    (a + 3, 0xFF, v.extractLsb' 24 8)]
/-- A word is stored, then what follows. -/
def State.setWord (s : State) (l : LPairN) (n : ProgN) (w : BitVec 24) (i : Nat) (v : Word) (f : State → Act) : Act :=
  match s.wordAt l w i with
  | none => .fault s .addressRange
  | some (.reg k) => f (s.modRegs l (fun r => r.setW k v))
  | some (.mem a) => s.storeThen l n a 0xFFFFFFFF (wordBytes a v) f
/-- A bit is stored, then what follows. -/
def State.setBit (s : State) (l : LPairN) (n : ProgN) (w : BitVec 24) (v : Bool) (f : State → Act) : Act :=
  match s.bitAt l w with
  | none => .fault s .addressRange
  | some (.reg k b) =>
    let m : Word := 1#32 <<< b.val
    f (s.modRegs l (fun r => r.setW k (if v then r.w[k] ||| m else r.w[k] &&& ~~~ m)))
  | some .ovf => f (s.modRegs l (fun r => { r with ovf := v }))
  | some (.mem a b) =>
    s.storeThen l n a (1#32 <<< b.val) [(a, 1#8 <<< b.val, if v then 1#8 <<< b.val else 0)] f

end Sys2Proof.Machine
end

