-- ==== Sys2Proof/Machine/Spindles.lean ====
section
/-!
DEFINITION. Meanings: the instructions of the spindles (R299-R308, R317, R318, R322). The row of an instruction executes the
word at the program counter of logical pair `l` when that word is the instruction; a word whose opcode is not listed ends
the program with ILLEGAL_OPCODE.
-/
namespace Sys2Proof.Machine
open Sys2Proof

/-! ### Fetch, extents and what an instruction leaves behind (R301, R307) -/

/-- The opcodes of R301. -/
def listedOps : List Nat :=
  [0x01, 0x02, 0x03, 0x04, 0x05, 0x06, 0x07, 0x08, 0x09, 0x0A, 0x0B, 0x0C, 0x0D, 0x0E, 0x10, 0x11, 0x18, 0x19, 0x1A, 0x1C, 0x1D,
    0x1E, 0x20, 0x21, 0x22, 0x23, 0x24, 0x25, 0x26, 0x27, 0x28, 0x29, 0x2A, 0x2B, 0x2C, 0x2D, 0x2E, 0x2F] ++
  [0x30, 0x31, 0x32, 0x33, 0x34, 0x35, 0x36, 0x37, 0x40, 0x41, 0x43, 0x48, 0x49, 0x4A, 0x4B, 0x50, 0x51, 0x52, 0x53, 0x54, 0x55,
    0x56, 0x57, 0x5F]
/-- The program whose bead runs on pair `l` and the word at its program counter. A replay on a physical pair that still
finishes a bead of its other logical pair waits for it (R326). A word beyond the code reads as 0, which is no opcode. -/
def State.fetched (s : State) (l : LPairN) : Option (ProgN × Word) :=
  let x := s.spn.lpair[l]
  let busy := match s.otherPair l with | some m => s.spn.lpair[m].cur.isSome && s.spn.lpair[m].replay.isNone | none => false
  match x.cur, x.phys with
  | some n, some _ =>
    if !s.g.st.operating || (x.replay.isSome && busy) then none
    else match s.cfg.prog[n] with
    | some p => some (n, (p.code[x.regs.pc]?).getD 0)
    | none => none
  | _, _ => none
/-- Word indexes at which beads and subroutines start (R309). -/
def codeStarts (p : CProg) : List Nat := p.beads.map (·.1) ++ p.subs.map (·.1)
/-- The end of the code that starts at `a`: the next start above it, or the end of the code. -/
def codeEnd (p : CProg) (a : Nat) : Nat := ((codeStarts p).filter (fun x => decide (a < x))).foldl min p.code.length
/-- The running bead or the running subroutine, as a range of word indexes (R307). -/
def State.extent (s : State) (l : LPairN) (n : ProgN) : Nat × Nat :=
  match s.cfg.prog[n] with
  | none => (0, 0)
  | some p =>
    let r := s.regs l
    let a := if r.calls.isEmpty then s.beadStart n s.spn.lpair[l].bead
      else ((codeStarts p).filter (fun x => decide (x ≤ r.pc))).foldl max 0
    (a, codeEnd p a)
/-- The LOOPs that a new program counter leaves, or whose subroutine has returned, are forgotten (R301). -/
def Regs.prune (r : Regs) : Regs :=
  let d := r.calls.length
  { r with loops := r.loops.filter (fun e => decide (e.2.2.1 < d) ||
    (e.2.2.1 == d && decide (e.2.1 ≤ r.pc) && decide (r.pc ≤ e.1))) }
/-- What an instruction left, put into effect (R301, R312). -/
def State.finish (l : LPairN) (n : ProgN) : Act → State
  | .next t => t.modRegs l (fun r => ({ r with pc := r.pc + 1 }).prune)
  | .jumped t => t.modRegs l Regs.prune
  | .ended t => t.afterEnd
  | .fault t f => (t.programFault l n f).afterEnd
/-- The instruction with opcode `op` on pair `l`, with its 24 operand bits. -/
def State.instr (s : State) (l : LPairN) (op : Nat) (act : State → ProgN → BitVec 24 → Act) : Out :=
  match s.fetched l with
  | none => .next s
  | some (n, w) =>
    let code := (w.extractLsb' 24 8).toNat
    if !listedOps.contains code then .next (s.programFault l n .illegalOpcode).afterEnd
    else if code = op then .next (State.finish l n (act s n (w.extractLsb' 0 24)))
    else .next s
/-- Registers changed, and on to the next word. -/
def State.go (s : State) (l : LPairN) (f : Regs → Regs) : Act := .next (s.modRegs l f)
/-- A bit operand combined with BA. -/
def State.bitOp (s : State) (l : LPairN) (w : BitVec 24) (f : Bool → Bool → Bool) : Act :=
  s.withBit l w (fun s b => s.go l (fun r => r.setBa (f r.ba b)))
/-- A word operand combined with the registers. -/
def State.wordOp (s : State) (l : LPairN) (w : BitVec 24) (f : Regs → Word → Regs) : Act :=
  s.withWord l w 0 (fun s v => s.go l (fun r => f r v))

/-! ### Bit instructions (R301) -/
/-- LD (R301): BA takes the bit. -/
def execLd (l : LPairN) (s : State) : Out :=
  s.instr l 0x01 (fun s _ w => s.bitOp l w (fun _ b => b))
/-- LDN (R301): BA takes the inverse. -/
def execLdn (l : LPairN) (s : State) : Out :=
  s.instr l 0x02 (fun s _ w => s.bitOp l w (fun _ b => !b))
/-- AND (R301): BA AND b. -/
def execAnd (l : LPairN) (s : State) : Out :=
  s.instr l 0x03 (fun s _ w => s.bitOp l w (fun a b => a && b))
/-- ANDN (R301): BA AND NOT b. -/
def execAndn (l : LPairN) (s : State) : Out :=
  s.instr l 0x04 (fun s _ w => s.bitOp l w (fun a b => a && !b))
/-- OR (R301): BA OR b. -/
def execOr (l : LPairN) (s : State) : Out :=
  s.instr l 0x05 (fun s _ w => s.bitOp l w (fun a b => a || b))
/-- ORN (R301): BA OR NOT b. -/
def execOrn (l : LPairN) (s : State) : Out :=
  s.instr l 0x06 (fun s _ w => s.bitOp l w (fun a b => a || !b))
/-- XOR (R301): BA XOR b. -/
def execXor (l : LPairN) (s : State) : Out :=
  s.instr l 0x07 (fun s _ w => s.bitOp l w (fun a b => a != b))
/-- ST (R301): the bit takes BA. -/
def execSt (l : LPairN) (s : State) : Out :=
  s.instr l 0x08 (fun s n w => s.setBit l n w (s.regs l).ba .next)
/-- SET (R301): if BA, the bit is 1. -/
def execSet (l : LPairN) (s : State) : Out :=
  s.instr l 0x09 (fun s n w => if (s.regs l).ba then s.setBit l n w true .next else .next s)
/-- RST (R301): if BA, the bit is 0. -/
def execRst (l : LPairN) (s : State) : Out :=
  s.instr l 0x0A (fun s n w => if (s.regs l).ba then s.setBit l n w false .next else .next s)
/-- NOT (R301): BA is inverted. -/
def execNot (l : LPairN) (s : State) : Out :=
  s.instr l 0x0B (fun s _ _ => s.go l (fun r => r.setBa (!r.ba)))
/-- Eight bits that the spec leaves open. -/
def freeBits (k : Nat) : List Bool := (List.range 8).map (fun i => (freeNat k).testBit i)
/-- BA pushed on the bit stack (R299). A ninth entry: the spec does not say what the eight entries then hold, free bits. -/
def State.pushBit (s : State) (l : LPairN) : Act :=
  if (s.regs l).bits.length < 8 then s.go l (fun r => { r with bits := r.ba :: r.bits })
  else (s.tickFree).go l (fun r => { r with bits := freeBits s.free })
/-- A bit popped from the bit stack and combined with BA; from an empty stack it is a free bit. -/
def State.popBit (s : State) (l : LPairN) (f : Bool → Bool → Bool) : Act :=
  match (s.regs l).bits with
  | b :: rest => s.go l (fun r => { r with ba := f r.ba b, bits := rest })
  | [] => (s.tickFree).go l (fun r => r.setBa (f r.ba ((freeNat s.free).testBit 0)))
/-- BPUSH (R301): BA on the bit stack. -/
def execBpush (l : LPairN) (s : State) : Out :=
  s.instr l 0x0C (fun s _ _ => s.pushBit l)
/-- BPOPAND (R301): BA AND the popped bit. -/
def execBpopand (l : LPairN) (s : State) : Out :=
  s.instr l 0x0D (fun s _ _ => s.popBit l (fun a b => a && b))
/-- BPOPOR (R301): BA OR the popped bit. -/
def execBpopor (l : LPairN) (s : State) : Out :=
  s.instr l 0x0E (fun s _ _ => s.popBit l (fun a b => a || b))
/-- An edge instruction: BA takes `f` of BA and the memory bit, which takes the former BA (R301). -/
def State.edgeOf (s : State) (l : LPairN) (n : ProgN) (w : BitVec 24) (f : Bool → Bool → Bool) : Act :=
  s.withBit l w (fun s m =>
    let a := (s.regs l).ba
    s.setBit l n w a (fun s => s.go l (fun r => r.setBa (f a m))))
/-- RE (R301): rising edge. -/
def execRe (l : LPairN) (s : State) : Out :=
  s.instr l 0x10 (fun s n w => s.edgeOf l n w (fun a m => a && !m))
/-- FE (R301): falling edge. -/
def execFe (l : LPairN) (s : State) : Out :=
  s.instr l 0x11 (fun s n w => s.edgeOf l n w (fun a m => !a && m))

/-! ### Timers and counters (R302, R303) -/

/-- A timer on its 16-byte block (R302): T is the reference time, ACC the preset, BA the enable and then Q. A preset below 0 is
outside what R302 states, and leaves Q free. -/
def State.timer (s : State) (l : LPairN) (n : ProgN) (w : BitVec 24) (f : Timer → Bool → Word → Word → Timer) : Act :=
  if (s.wordAt l w 3).isNone then .fault s .addressRange
  else s.withWord l w 0 (fun s start => s.withWord l w 1 (fun s st =>
    let r := s.regs l
    let y := f { start := start, q := st.getLsbD 0, prev := st.getLsbD 1 } r.ba s.spn.lpair[l].t r.acc
    let neg := decide (r.acc.toInt < 0)
    let z : Timer := if neg then { y with q := (freeNat s.free).testBit 0 } else y
    let s1 : State := if neg then s.tickFree else s
    let last (s : State) : Act := s.setWord l n w 1 z.word (fun s => s.go l (fun r => r.setBa z.q))
    if z.start = start then last s1 else s1.setWord l n w 0 z.start last))
/-- TON (R302): on-delay timer. -/
def execTon (l : LPairN) (s : State) : Out :=
  s.instr l 0x18 (fun s n w => s.timer l n w Timer.ton)
/-- TOF (R302): off-delay timer. -/
def execTof (l : LPairN) (s : State) : Out :=
  s.instr l 0x19 (fun s n w => s.timer l n w Timer.tof)
/-- TP (R302): pulse timer. -/
def execTp (l : LPairN) (s : State) : Out :=
  s.instr l 0x1A (fun s n w => s.timer l n w Timer.tp)
/-- A counter on its 8-byte block (R303): BA counts on a rising edge, then takes the comparison of the count. -/
def State.counter (s : State) (l : LPairN) (n : ProgN) (w : BitVec 24) (f : Word → Bool → Bool → Word)
    (out : Word → Word → Bool) : Act :=
  if (s.wordAt l w 1).isNone then .fault s .addressRange
  else s.withWord l w 0 (fun s count => s.withWord l w 1 (fun s st =>
    let r := s.regs l
    let c := f count r.ba (st.getLsbD 0)
    let last (s : State) : Act := s.setWord l n w 1 (if r.ba then st ||| 1#32 else st &&& ~~~ 1#32)
      (fun s => s.go l (fun r => r.setBa (out c r.acc)))
    if c = count then last s else s.setWord l n w 0 c last))
/-- CTU (R303): BA is count at or above ACC. -/
def execCtu (l : LPairN) (s : State) : Out :=
  s.instr l 0x1C (fun s n w => s.counter l n w countUp (fun c acc => decide (acc.toInt ≤ c.toInt)))
/-- CTD (R303): BA is count at or below 0. -/
def execCtd (l : LPairN) (s : State) : Out :=
  s.instr l 0x1D (fun s n w => s.counter l n w countDown (fun c _ => decide (c.toInt ≤ 0)))
/-- CRST (R301): if BA, the count is 0. -/
def execCrst (l : LPairN) (s : State) : Out :=
  s.instr l 0x1E (fun s n w => 
    if !(s.regs l).ba then .next s
    else if (s.wordAt l w 1).isNone then .fault s .addressRange
    else s.setWord l n w 0 0 .next)

/-! ### Word instructions (R301) -/
/-- LDW (R301): ACC takes the word. -/
def execLdw (l : LPairN) (s : State) : Out :=
  s.instr l 0x20 (fun s _ w => s.wordOp l w (fun r v => r.setAcc v))
/-- LDI (R301): ACC takes the immediate, sign-extended. -/
def execLdi (l : LPairN) (s : State) : Out :=
  s.instr l 0x21 (fun s _ w => s.go l (fun r => r.setAcc (w.signExtend 32)))
/-- LDIH (R301): ACC bits 31:16 take bits 15:0 of the immediate. -/
def execLdih (l : LPairN) (s : State) : Out :=
  s.instr l 0x22 (fun s _ w => s.go l (fun r => r.loadHigh w))
/-- STW (R301): the word takes ACC. -/
def execStw (l : LPairN) (s : State) : Out :=
  s.instr l 0x23 (fun s n w => s.setWord l n w 0 (s.regs l).acc .next)
/-- ADD (R301): saturating sum. -/
def execAdd (l : LPairN) (s : State) : Out :=
  s.instr l 0x24 (fun s _ w => s.wordOp l w (fun r v => r.setSat (r.acc.toInt + v.toInt)))
/-- SUB (R301): saturating difference. -/
def execSub (l : LPairN) (s : State) : Out :=
  s.instr l 0x25 (fun s _ w => s.wordOp l w (fun r v => r.setSat (r.acc.toInt - v.toInt)))
/-- MUL (R301): saturating product. -/
def execMul (l : LPairN) (s : State) : Out :=
  s.instr l 0x26 (fun s _ w => s.wordOp l w (fun r v => r.setSat (r.acc.toInt * v.toInt)))
/-- DIV (R301): quotient, truncated toward zero. -/
def execDiv (l : LPairN) (s : State) : Out :=
  s.instr l 0x27 (fun s _ w => s.wordOp l w (fun r v => r.divide v))
/-- ANDW (R301): ACC AND w. -/
def execAndw (l : LPairN) (s : State) : Out :=
  s.instr l 0x28 (fun s _ w => s.wordOp l w (fun r v => r.setAcc (r.acc &&& v)))
/-- ORW (R301): ACC OR w. -/
def execOrw (l : LPairN) (s : State) : Out :=
  s.instr l 0x29 (fun s _ w => s.wordOp l w (fun r v => r.setAcc (r.acc ||| v)))
/-- XORW (R301): ACC XOR w. -/
def execXorw (l : LPairN) (s : State) : Out :=
  s.instr l 0x2A (fun s _ w => s.wordOp l w (fun r v => r.setAcc (r.acc ^^^ v)))
/-- SHL (R301): zeros in. -/
def execShl (l : LPairN) (s : State) : Out :=
  s.instr l 0x2B (fun s _ w => s.go l (fun r => r.setAcc (r.acc <<< field w 0 5)))
/-- SHR (R301): the sign is kept. -/
def execShr (l : LPairN) (s : State) : Out :=
  s.instr l 0x2C (fun s _ w => s.go l (fun r => r.setAcc (r.acc.sshiftRight (field w 0 5))))
/-- MOVA (R301): Wn takes ACC. -/
def execMova (l : LPairN) (s : State) : Out :=
  s.instr l 0x2D (fun s _ w => s.go l (fun r => r.setW (regField w 0) r.acc))
/-- MOVW (R301): ACC takes Wn. -/
def execMovw (l : LPairN) (s : State) : Out :=
  s.instr l 0x2E (fun s _ w => s.go l (fun r => r.setAcc r.w[regField w 0]))
/-- ADDI (R301): saturating sum with the immediate. -/
def execAddi (l : LPairN) (s : State) : Out :=
  s.instr l 0x2F (fun s _ w => s.go l (fun r => r.setSat (r.acc.toInt + w.toInt)))
/-- CMPEQ (R301): BA is ACC = w. -/
def execCmpeq (l : LPairN) (s : State) : Out :=
  s.instr l 0x30 (fun s _ w => s.wordOp l w (fun r v => r.setBa (r.acc == v)))
/-- CMPNE (R301): BA is ACC not w. -/
def execCmpne (l : LPairN) (s : State) : Out :=
  s.instr l 0x31 (fun s _ w => s.wordOp l w (fun r v => r.setBa (r.acc != v)))
/-- CMPGT (R301): BA is ACC above w. -/
def execCmpgt (l : LPairN) (s : State) : Out :=
  s.instr l 0x32 (fun s _ w => s.wordOp l w (fun r v => r.setBa (decide (v.toInt < r.acc.toInt))))
/-- CMPLT (R301): BA is ACC below w. -/
def execCmplt (l : LPairN) (s : State) : Out :=
  s.instr l 0x33 (fun s _ w => s.wordOp l w (fun r v => r.setBa (decide (r.acc.toInt < v.toInt))))
/-- LIM (R301): ACC between Wa and Wb. -/
def execLim (l : LPairN) (s : State) : Out :=
  s.instr l 0x34 (fun s _ w => s.go l (fun r => r.limit (regField w 5) (regField w 0)))
/-- SCALE (R301): ACC scaled. -/
def execScale (l : LPairN) (s : State) : Out :=
  s.instr l 0x35 (fun s _ w => s.go l (fun r => r.scale (regField w 10) (regField w 5) (regField w 0)))
/-- ABS (R301): absolute value, saturating. -/
def execAbs (l : LPairN) (s : State) : Out :=
  s.instr l 0x36 (fun s _ _ => s.go l (fun r => r.setSat r.acc.toInt.natAbs))
/-- RESC (R301): ACC takes the value of a result in IN, BA whether it is clean. -/
def execResc (l : LPairN) (s : State) : Out :=
  s.instr l 0x37 (fun s _ w =>
    let r := s.loadBytes l (0x2000 + 4 * field w 0 10) 4 0xFF
    match r.2 with
    | none => .fault r.1 .imageEcc
    | some bytes =>
      let v : Word := BitVec.ofNat 32 (leNat bytes)
      r.1.go l (fun x => { x with acc := (v.extractLsb' 0 16).signExtend 32, ba := (v.extractLsb' 16 3) == 0#3 }))

/-! ### Requests in the output image (R304, R305, R318, R322) -/

/-- A request that is executed again in a replay (R322). -/
def State.request (s : State) (l : LPairN) (o : JOp) (act : State → State) : State :=
  match s.matchOp l (fun x => x == o) with
  | .same _ => act (s.popOp l)
  | .live => act (s.record l o)
  | .differs => act ((s.diverge l).record l o)
/-- The bit of a rail slot that a RAIL code sets (R304). -/
def railBit : Nat → Option Nat
  | 1 => some 0 | 2 => some 1 | 3 => some 2 | 4 => some 3 | 5 => some 3 | 6 => some 3
  | _ => none
/-- RAIL (R304): if BA, a rail command is merged into the slot. -/
def execRail (l : LPairN) (s : State) : Out :=
  s.instr l 0x40 (fun s _ w =>
    if !(s.regs l).ba then .next s
    else match railBit (field w 8 4) with
    | none => .fault s .illegalOpcode
    | some b =>
      let n : RailN := Fin.ofNat 256 (field w 0 8)
      let m : Byte := 1#8 <<< b
      .next (s.request l (.rail n (field w 8 4)) (fun s => s.putStore l [(0x10000 + 4 * n.val, m, m)])))
/-- A rail slot with a margin request merged into it (R304). -/
def mergeMargin (slot : Word) (isEnd : Bool) (target : BitVec 8) : Word :=
  if !slot.getLsbD 8 then
    (slot &&& ~~~ 0x00FF0600#32) ||| 0x100#32 ||| (if isEnd then 0x200#32 else 0) ||| (target.setWidth 32 <<< 16)
  else if slot.getLsbD 9 == isEnd && (isEnd || slot.extractLsb' 16 8 == target) then slot
  else slot ||| 0x400#32
/-- MRG (R304): if BA, a margin request is merged into the slot, in memory. -/
def execMrg (l : LPairN) (s : State) : Out :=
  s.instr l 0x41 (fun s _ w =>
    if !(s.regs l).ba then .next s
    else
      let n : RailN := Fin.ofNat 256 (field w 0 8)
      let a := 0x10000 + 4 * n.val
      .next (s.request l (.mrg n (BitVec.ofNat 9 (field w 8 9))) (fun s =>
        { s with mem := Memory.putWord s.mem a (mergeMargin (Memory.word s.mem a) (w.getLsbD 16) (w.extractLsb' 8 8)) })))
/-- Whether program `n` owns program event `e` (R305). -/
def State.ownsEvent (s : State) (n : ProgN) (e : Fin 256) : Bool :=
  match s.cfg.prog[n] with | some p => p.eventOwn.getLsbD e.val | none => false
/-- EVT (R305): if BA, an owned program event is marked; one that the program does not own is STORE_PROTECTED. -/
def execEvt (l : LPairN) (s : State) : Out :=
  s.instr l 0x43 (fun s n w =>
    let e : Fin 256 := Fin.ofNat 256 (field w 0 8)
    let m : Byte := 1#8 <<< (e.val % 8)
    if !(s.regs l).ba then .next s
    else if s.ownsEvent n e then .next (s.request l (.evt e) (fun s => s.putStore l [(0x10420 + e.val / 8, m, m)]))
    else .fault s .storeProtected)

/-! ### Sync objects and locks (R306, R318, R322, R369, R372) -/

/-- The signal of program `n` to object `o` (R372). -/
def State.progSignal (s : State) (l : LPairN) (n : ProgN) (o : Fin 1024) : State :=
  let may := match s.syncRec o with | some r => r.programs.getLsbD n.val | none => false
  if may then s.signal o else s.laterFault (s.pairSource l) none "SIGNAL_NOT_SIGNALLER" [n.val, o.val]
/-- SIGSYNC (R306): if BA, the store buffer drains and the object is signalled; a replay does not signal again. -/
def execSigsync (l : LPairN) (s : State) : Out :=
  s.instr l 0x48 (fun s n w =>
    if !(s.regs l).ba then .next s
    else
      let o : Fin 1024 := Fin.ofNat 1024 (field w 0 10)
      let s1 : State := s.drain l
      match s1.matchOp l (fun x => x == .sigsync o) with
      | .same _ => .next (s1.popOp l)
      | .live => .next ((s1.record l (.sigsync o)).progSignal l n o)
      | .differs => .next (((s1.diverge l).record l (.sigsync o)).progSignal l n o))
/-- The lock status that ACC receives (R306). -/
def Acq.word (a : Acq) : Word := BitVec.ofNat 32 (a.acquired.toNat + 2 * a.poisoned.toNat + 4 * a.own.toNat)
/-- A lock operation that is issued (R369), recorded with its result. -/
def State.liveLock (s : State) (l : LPairN) (k : Fin 256) : State :=
  let r := s.acquire k (.pair l)
  (r.1.record l (.lock k r.2.acquired r.2.word)).modRegs l (fun x => { x with ba := r.2.acquired, acc := r.2.word })
/-- LOCK (R306): never waits; a replay takes the recorded result. -/
def execLock (l : LPairN) (s : State) : Out :=
  s.instr l 0x4A (fun s _ w =>
    let k : Fin 256 := Fin.ofNat 256 (field w 0 8)
    match s.matchOp l (fun x => match x with | .lock j _ _ => j == k | _ => false) with
    | .same (.lock _ ba acc) => .next ((s.popOp l).modRegs l (fun x => { x with ba := ba, acc := acc }))
    | .differs => .next ((s.diverge l).liveLock l k)
    | _ => .next (s.liveLock l k))
/-- A release that is issued (R369). -/
def State.liveUnlock (s : State) (l : LPairN) (n : ProgN) (k : Fin 256) (clear : Bool) : State :=
  let r := s.release k (.pair l) clear
  let s1 : State := r.1.record l (.unlock k clear r.2)
  if r.2 then s1 else s1.laterFault (s.pairSource l) none "UNLOCK_NOT_OWNER" [n.val, k.val]
/-- UNLOCK (R306): the store buffer drains and the lock is released; a replay does not release again. -/
def execUnlock (l : LPairN) (s : State) : Out :=
  s.instr l 0x4B (fun s n w =>
    let k : Fin 256 := Fin.ofNat 256 (field w 0 8)
    let clear := w.getLsbD 12
    let s1 : State := s.drain l
    match s1.matchOp l (fun x => match x with | .unlock j c _ => j == k && c == clear | _ => false) with
    | .same _ => .next (s1.popOp l)
    | .live => .next (s1.liveUnlock l n k clear)
    | .differs => .next ((s1.diverge l).liveUnlock l n k clear))

/-! ### Jumps and calls (R301, R307) -/

/-- A jump to a word index, within the running bead or subroutine (R307). -/
def State.jumpTo (s : State) (l : LPairN) (n : ProgN) (target : Nat) : Act :=
  let e := s.extent l n
  if e.1 ≤ target && target < e.2 then .jumped (s.modRegs l (fun r => { r with pc := target })) else .fault s .jumpRange
/-- JMP: forward by 1 to 65,535 words. -/
def State.jump (s : State) (l : LPairN) (n : ProgN) (w : BitVec 24) : Act :=
  if field w 0 16 = 0 then .fault s .jumpRange else s.jumpTo l n ((s.regs l).pc + field w 0 16)
/-- JMP (R301, R307). -/
def execJmp (l : LPairN) (s : State) : Out := s.instr l 0x50 (fun s n w => s.jump l n w)
/-- JC (R301, R307). -/
def execJc (l : LPairN) (s : State) : Out := s.instr l 0x51 (fun s n w => if (s.regs l).ba then s.jump l n w else .next s)
/-- JNC (R301, R307). -/
def execJnc (l : LPairN) (s : State) : Out := s.instr l 0x52 (fun s n w => if (s.regs l).ba then .next s else s.jump l n w)
/-- LOOP (R301): Wn counts down; the program jumps back while Wn is above 0, at most max times per entry from above. -/
def execLoop (l : LPairN) (s : State) : Out :=
  s.instr l 0x53 (fun s n w =>
    let r := s.regs l
    let k := regField w 16
    let v := r.w[k] - 1
    let d := r.calls.length
    let mine (e : Nat × Nat × Nat × Nat) : Bool := e.1 == r.pc && e.2.2.1 == d
    let taken := match r.loops.find? mine with | some e => e.2.2.2 | none => 0
    let others := r.loops.filter (fun e => !mine e)
    let s1 : State := s.modRegs l (fun x => x.setW k v)
    if 0 < v.toInt && taken < field w 8 8 then
      if r.pc < field w 0 8 then .fault s .jumpRange
      else
        let target := r.pc - field w 0 8
        (s1.modRegs l (fun x => { x with loops := (r.pc, target, d, taken + 1) :: others })).jumpTo l n target
    else s1.go l (fun x => { x with loops := others }))
/-- CALL (R301, R307): a ninth call is STACK. -/
def execCall (l : LPairN) (s : State) : Out :=
  s.instr l 0x54 (fun s n w =>
    if 8 ≤ (s.regs l).calls.length then .fault s .stack
    else match s.cfg.prog[n] with
    | none => .fault s .jumpRange
    | some p => (match p.subs[field w 0 16]? with
      | some e => .jumped (s.modRegs l (fun r => { r with calls := (r.pc + 1) :: r.calls, pc := e.1 }))
      | none => .fault s .jumpRange))
/-- RET (R301, R307): with an empty stack it is STACK. -/
def execRet (l : LPairN) (s : State) : Out :=
  s.instr l 0x55 (fun s _ _ => match (s.regs l).calls with
    | a :: rest => .jumped (s.modRegs l (fun r => { r with calls := rest, pc := a }))
    | [] => .fault s .stack)

/-! ### Bead ends (R306, R307, R313, R317, R326, R355) -/

/-- A wait of program `n` is registered, or completes at once on a count above 0 (R306, R372). A cyclic program that comes to
wait after its closing tick has expired. -/
def State.waitOn (s : State) (l : LPairN) (n : ProgN) (o : Fin 1024) : State :=
  if 0 < s.lck.sync[o].count then
    (s.modSync o (fun x => { x with count := x.count - 1 })).modPair l (fun x => { x with ready := x.ready ++ [n] })
  else
    let s1 : State := (s.register o (.prog n)).modProg n (fun p => { p with st := .waiting, waitObj := some o })
    if s1.cyc.late && !s1.isTask n then s1.waitExpired n else s1
/-- A bead of program `n` ends and its next one is `next` (R317): the buffer drains, the checkpoint is written, and the pair
takes up what comes next. A run ends here where the cycle has stopped, the program is dropped, its item is aborted, or the
cycle of a takeover is over. -/
def State.endBead (s : State) (l : LPairN) (n : ProgN) (next : Nat) (wait : Option (Fin 1024)) : State :=
  let p := s.spn.prog[n]
  let over_ := s.cyc.phase = 0 || p.st = .dropped || p.st = .absent || (s.isTask n && p.abortDue) ||
    (!s.isTask n && s.cyc.late && s.cutPairs.contains l)
  if over_ then s.endRun l n .done 3
  else
    let s1 : State := s.drain l
    let x := s1.spn.lpair[l]
    let ck : Ckpt := { regs := { x.regs with calls := [], loops := [] }, bead := next, t := x.t, item := p.ck.item }
    let s2 : State := (s1.leavePair l).modProg n (fun q => { q with ck := ck })
    (match wait with
      | some o => s2.waitOn l n o
      | none => s2.modPair l (fun y => { y with ready := y.ready ++ [n] })).pickNext l
/-- How many beads a program has. -/
def State.beadCount (s : State) (n : ProgN) : Nat := match s.cfg.prog[n] with | some p => p.beads.length | none => 0
/-- BEND (R301, R307, R317). -/
def execBend (l : LPairN) (s : State) : Out :=
  s.instr l 0x56 (fun s n w =>
    let k := if field w 0 16 = 0xFFFF then s.spn.lpair[l].bead + 1 else field w 0 16
    if !(s.regs l).calls.isEmpty then .fault s .stack
    else if s.beadCount n ≤ k then .fault s .beadRange
    else .ended (s.endBead l n k none))
/-- PEND (R301, R307, R313): the run ends without fault; a task completes its item. -/
def execPend (l : LPairN) (s : State) : Out :=
  s.instr l 0x57 (fun s n _ =>
    if !(s.regs l).calls.isEmpty then .fault s .stack
    else .ended ((s.modProg n (fun p => { p with consecutive := 0, refreshed := true })).endRun l n .done 1))
/-- WAITSYNC (R306): it must be the last instruction of its bead; the next bead waits for the object. -/
def execWaitsync (l : LPairN) (s : State) : Out :=
  s.instr l 0x49 (fun s n w =>
    let x := s.spn.lpair[l]
    if !x.regs.calls.isEmpty || x.regs.pc + 1 != (s.extent l n).2 then .fault s .jumpRange
    else if s.beadCount n ≤ x.bead + 1 then .fault s .beadRange
    else .ended (s.endBead l n (x.bead + 1) (some (Fin.ofNat 1024 (field w 0 10)))))
/-- NOP (R301): nothing but the next word. -/
def execNop (l : LPairN) (s : State) : Out :=
  s.instr l 0x5F (fun s _ _ => .next s)

end Sys2Proof.Machine
end

