-- ==== Sys2Proof/Machine/RegMap.lean ====
section
/-!
DEFINITION. BAR0 as R497-R499 lay it out: every register's place, its kind of write (R498), and the word that a read of it
returns. A read's side effect is not here; Machine/Registers.lean has it.
-/
namespace Sys2Proof.Machine
open Sys2Proof

/-! ### The shape of a register map (R497, R498) -/

/-- How a register takes writes (R360, R498): it ignores them all, it merges narrow ones, or it ignores narrow ones with
NARROW_WRITE. -/
inductive RegKind where
  | ro | rw | cmd
deriving DecidableEq, Repr
/-- One line of a window's register map: offset, kind, and for an array its stride and instances, with the word that each
instance reads as. -/
structure RegE where
  base : Nat
  kind : RegKind
  read : Nat → Word
  count : Nat := 1
  stride : Nat := 4
/-- The instance that stands at an offset of the window. -/
def RegE.hit (e : RegE) (o : Nat) : Option Nat :=
  if e.base ≤ o && (o - e.base) % e.stride == 0 && decide ((o - e.base) / e.stride < e.count) then some ((o - e.base) / e.stride)
  else none
/-- The register at an offset: its kind and its word; none where no register stands (R497). -/
def findReg : List RegE → Nat → Option (RegKind × Word)
  | [], _ => none
  | e :: rest, o => match e.hit o with
    | some i => some (e.kind, e.read i)
    | none => findReg rest o
/-- A register that stands once. -/
def reg1 (base : Nat) (kind : RegKind) (w : Word) : RegE := { base := base, kind := kind, read := fun _ => w }
/-- An array of registers. -/
def regN (base : Nat) (kind : RegKind) (count stride : Nat) (f : Nat → Word) : RegE :=
  { base := base, kind := kind, read := f, count := count, stride := stride }
/-- The low and the high word of a 64-bit value. -/
def lo32 (x : DWord) : Word := x.extractLsb' 0 32
def hi32 (x : DWord) : Word := x.extractLsb' 32 32
/-- A pair of read-only registers, low word first. -/
def regPair (base : Nat) (x : DWord) : List RegE := [reg1 base .ro (lo32 x), reg1 (base + 4) .ro (hi32 x)]
/-- A word that holds a number. -/
def natWord (n : Nat) : Word := BitVec.ofNat 32 n
/-- A number that saturates at 65,535. -/
def sat16 (n : Nat) : Nat := sat 65535 n
/-- The code of an answer among those that a register can show, in their order from 1; 0 for none of them. -/
def ansAt (l : List Ans) (a : Ans) : Nat := match l.findIdx? (fun x => x == a) with | some i => i + 1 | none => 0
/-- A part of `den` counted in whole ones, where the spec does not say how a rest is rounded: either neighbour. -/
def State.roundOpen (s : State) (num den : Nat) : Nat :=
  if num % den = 0 then num / den else num / den + freeNat s.free % 2
/-- 32 bits, one for each index from `base` on. -/
def bits32 (base : Nat) (f : Nat → Bool) : Word :=
  BitVec.ofNat 32 ((List.range 32).foldl (fun a i => a + (f (base + i)).toNat * 2 ^ i) 0)
/-- A word of a byte list, padded with 0x00. -/
def listWord (l : List Byte) (k : Nat) : Word := natWord (leNat ((l.drop (4 * k)).take 4))

/-! ### GLB (R34, R59, R83, R85, R361, R362) -/

/-- The answers of GLB_RESTART and GLB_MRST. -/
def restartAnswers : List Ans := [.accepted, .refusedMoving, .refusedState]
/-- STATE reads START until the host link has been trained for the first time. -/
def State.rGlbState (s : State) : Word :=
  if s.lnk.trainedSinceStart then s.wGlbState else (s.wGlbState &&& ~~~ 0xF#32) ||| 1#32
/-- GLB_RESET_CAUSE. -/
def State.rResetCause (s : State) : Word :=
  pack [(0, 4, s.g.resetCause), (4, 4, s.g.wakeSrc), bit1 8 s.g.lgFlushDone, bit1 9 s.g.lgCommitDone, bit1 10 s.g.lgSealDone,
    (12, 4, sat 15 (s.g.railResets.filter (fun t => decide (s.now ≤ t + 3600000000000))).length), (16, 8, sat 255 s.g.lgMib)]
/-- STATE of GLB_TOUCH. -/
def TouchState.code : TouchState → Nat
  | .idle => 0 | .touched => 1 | .waitRelease => 2 | .heldAtPowerup => 3 | .stuck => 4 | .unused => 5
/-- GLB_TOUCH (R173-R178). -/
def State.rTouch (s : State) : Word :=
  let t := s.touch
  let held : Nat := match t.st with | .touched | .waitRelease | .heldAtPowerup => sat 255 (t.held * 5 / 1000) | _ => 0
  pack [(0, 3, t.st.code), bit1 3 t.raw, bit1 4 t.stuckSeen, bit1 5 t.heldSeen, (8, 8, held), (16, 8, t.lastAction)]
/-- GLB_TOUCH_CAL. -/
def State.rTouchCal (s : State) : Word :=
  pack [(0, 16, scode 16 (if s.touch.st = .stuck then s.touch.stuckBase else s.touch.base)), (16, 16, s.fac.delta)]
/-- GLB_MRST. -/
def State.rMrst (s : State) : Word :=
  pack [(0, 2, s.mrst.st), bit1 2 s.mrst.hostRst, bit1 3 s.mrst.stuckSeen, (8, 2, ansAt restartAnswers s.mrst.ans),
    (16, 16, s.mrst.hostResets)]
/-- GLB_ACCESS_ERR (R362). -/
def State.rAccessErr (s : State) : Word :=
  pack [bit1 0 s.acc.err, (1, 3, s.acc.cause), (4, 2, s.acc.bar), (8, 24, s.acc.offset)]
/-- A command sequence number of source `i`; sources 5-63 read 0 (R366). -/
def seqReg (i : Nat) (f : Fin 5 → Word) : Word := if h : i < 5 then f ⟨i, h⟩ else 0
/-- The GLB window. -/
def State.glbMap (s : State) : List RegE := [
  reg1 0x10 .ro s.rGlbState, reg1 0x20 .ro (lo32 s.time.mtime), reg1 0x24 .ro s.time.mtimeHi,
  reg1 0x28 .cmd (pack [bit1 0 s.time.tbFault, bit1 1 s.time.tbSeen, (16, 16, s.nv.cur.poweron.toNat)]),
  reg1 0x30 .ro s.rResetCause, reg1 0x34 .cmd (pack [(16, 2, ansAt restartAnswers s.g.restartAns)]),
  reg1 0x40 .cmd s.wSupply, reg1 0x44 .ro s.wHoldup,
  reg1 0x50 .rw (pack [(0, 7, s.g.wakeEn.toNat), (16, 16, s.g.timerMin.toNat)]),
  reg1 0x60 .ro s.wMotion,
  reg1 0x64 .cmd (pack [(16, 3, ansAt [.accepted, .held, .noChange, .refusedState, .contradicted] s.cmd.offAns)]),
  reg1 0x70 .cmd s.rTouch, reg1 0x74 .ro s.rTouchCal, reg1 0x78 .cmd s.rMrst, reg1 0x80 .cmd s.rAccessErr,
  regN 0x100 .ro 64 16 (fun i => seqReg i (fun k => lo32 s.cmd.applied[k])),
  regN 0x104 .ro 64 16 (fun i => seqReg i (fun k => s.cmd.appliedHi[k])),
  regN 0x108 .ro 64 16 (fun i => seqReg i (fun k => lo32 (s.issued k))),
  regN 0x10C .ro 64 16 (fun i => seqReg i (fun k => s.cmd.issuedHi[k]))]

/-! ### RSQ (R114-R198) -/

/-- A rail number from an index. -/
def rn (i : Nat) : RailN := Fin.ofNat 256 i
/-- RSQ_SHUT_STAT: GROUP is the highest-numbered group that a running shut-down works at. -/
def State.rShutStat (s : State) : Word :=
  let works (x : Nat × GroupProg) : Bool := match x.2 with | .allowance | .atStep _ => true | _ => false
  let g := ((s.shut.jobs.flatMap (·.groups)).filter works).foldl (fun a x => max a x.1) 0
  pack [(0, 4, s.shut.kind), (4, 3, s.shut.phase), (8, 6, g), (16, 8, sat 255 s.shut.lockouts)]
/-- RSQ_PROBE_STAT. -/
def State.rProbeStat (s : State) : Word :=
  let run := ((List.finRange 256).filter (fun n => decide ((s.rail n).mg.mode = .probe))).length
  pack [(0, 3, run), bit1 3 ((match s.cfg.module with | some m => m.probingEnabled | none => false) && !s.planner.pause),
    (8, 8, match s.planner.requested with | some n => n.val | none => 0), bit1 16 s.planner.requested.isSome,
    (17, 15, s.planner.validCount)]
/-- RSQ_REACT_STAT. -/
def ReactSt.word (r : ReactSt) : Word :=
  pack [(0, 16, r.count), (16, 8, r.lastSrc), bit1 24 r.analog,
    (25, 3, if r.analog then 0 else match r.lastCause with | some c => c.code | none => 0)]
/-- RSQ_RAIL_CAUSE of a rail (R128). -/
def RailKept.causeWord (k : RailKept) : Word := pack [(0, 7, k.seen.toNat), (16, 16, k.count)]
/-- RSQ_RAIL_INFO of a rail (R114). -/
def State.rRailInfo (s : State) (n : RailN) : Word :=
  match s.railCfg n with
  | none => 0
  | some c =>
    pack [bit1 0 c.used, bit1 1 c.pushPull, bit1 2 c.pgUsed, bit1 3 c.trimAllowed, bit1 4 c.trimPol, bit1 5 c.probeAllowed,
      bit1 6 c.warmRestart, bit1 7 c.ocUsed, (8, 2, c.range), (10, 5, c.sets.toNat), (16, 16, c.serial.toNat)]
/-- RSQ_PROBE_RES of a rail (R197). -/
def RailKept.probeWord (k : RailKept) : Word :=
  pack [(0, 12, k.settle), (12, 8, k.overshoot), (20, 8, k.damping), bit1 28 k.valid, bit1 29 k.notSettled, bit1 30 k.gainMismatch]
/-- RSQ_PROBE_HEALTH of a rail (R198); with no valid probe AGE_H is open. -/
def State.rProbeHealth (s : State) (n : RailN) : Word :=
  let k := s.nv.cur.rail[n]
  let age : Nat := match k.lastValidNs with | some t => sat16 ((s.nv.cur.opNs - t) / 3600000000000) | none => freeNat s.free
  pack [(0, 8, k.health), bit1 8 (decide (8 ≤ k.baseCount)), (9, 4, sat 8 k.baseCount), (16, 16, age)]
/-- The RSQ window. -/
def State.rsqMap (s : State) : List RegE := [
  reg1 0x0 .ro s.wPlanSel, reg1 0x4 .ro s.wSeqStat, reg1 0x8 .ro s.wSeqFail,
  reg1 0xC .cmd (pack [(4, 2, ansAt [.accepted, .refusedState] s.seq.cmdAns)]), reg1 0x10 .ro s.wChain,
  reg1 0x18 .ro (lo32 s.seq.flags), reg1 0x1C .ro (hi32 s.seq.flags), reg1 0x20 .ro s.rShutStat,
  reg1 0x30 .cmd (pack [bit1 0 s.planner.pause, (8, 8, s.planner.rail.toNat)]), reg1 0x34 .ro s.rProbeStat,
  regN 0x200 .ro 8 4 (fun k => bits32 (32 * k) (fun i => (s.rail (rn i)).faulted)),
  regN 0x220 .ro 8 4 (fun k => bits32 (32 * k) (fun i => match (s.rail (rn i)).st with | .up | .margin => true | _ => false)),
  regN 0x400 .ro 64 4 (fun g => (s.seq.groups[Fin.ofNat 64 g]).word),
  regN 0x800 .ro 128 4 (fun k => (s.seq.react[Fin.ofNat 128 k]).word),
  regN 0x1000 .ro 256 16 (fun n => (s.rail (rn n)).word), regN 0x1004 .cmd 256 16 (fun _ => 0),
  regN 0x1008 .ro 256 16 (fun n => (s.nv.cur.rail[rn n]).causeWord), regN 0x100C .ro 256 16 (fun n => s.rRailInfo (rn n)),
  regN 0x2000 .cmd 256 8 (fun _ => 0), regN 0x2004 .ro 256 8 (fun n => (s.rail (rn n)).marginWord),
  regN 0x2800 .ro 256 8 (fun n => (s.nv.cur.rail[rn n]).probeWord), regN 0x2804 .ro 256 8 (fun n => s.rProbeHealth (rn n))]

/-! ### SCN and TRP (R200-R245) -/

/-- STATE of SCN_CONV_STAT. -/
def ConvState.code : ConvState → Nat
  | .scanning => 0 | .calibrating => 1 | .rejoining => 2 | .out => 3 | .failed => 4 | .builtIn => 5
/-- A converter number from an index. -/
def cn (i : Nat) : ConvN := Fin.ofNat 16 i
/-- The snapshot that SCN_SNAP_SEL selects. -/
def State.snapSel (s : State) : Snap :=
  if s.scan.selBuf.val < 2 then (s.scan.buf[Fin.ofNat 2 s.scan.selBuf.val]).snaps[s.scan.selConv] else s.scan.probeBuf[s.scan.selConv]
/-- SCN_STAT. -/
def State.rScnStat (s : State) : Word :=
  let a := s.scan
  pack [bit1 0 a.burst, (1, 1, a.lastBuf.val), bit1 2 a.heldBuf.isSome, (3, 1, match a.heldBuf with | some b => b.val | none => 0),
    (8, 8, sat 255 a.lateTriggers), (16, 16, a.bursts)]
/-- SCN_CONV_STAT. -/
def State.rConvStat (s : State) (c : ConvN) : Word :=
  let x := s.scan.conv[c]
  pack [(0, 4, x.st.code), bit1 4 x.covering, bit1 5 x.lowPower,
    bit1 6 (s.metering && decide (14 ≤ c.val) && x.st == .scanning), bit1 7 x.probe.isSome, (8, 7, (s.listOf c).length),
    bit1 15 x.overdue, (16, 16, sat16 x.scanTime)]
/-- Minutes of operating time since an operating minute. -/
def State.minutesSince (s : State) (m : Nat) : Nat := s.nv.cur.opNs / 60000000000 - m
/-- The window in force of result register `r`, as result codes that it takes inside (R214): none is no limit. -/
def State.winLimits (s : State) (r : Fin 1024) : Option Int × Option Int :=
  let c := cn (r.val / 64)
  match (s.listOf c)[r.val % 64]? with
  | none => (none, none)
  | some e =>
    let n : RailN := rn (e.input.toNat % 256)
    if e.input.toNat < 512 then
      match s.railCfg n with
      | none => (none, none)
      | some k =>
        let x := s.rail n
        if e.input.toNat < 256 then
          if x.st = .up then
            let step := k.fs * 256 / 32768
            (some (-((-(256 * x.effLo)) / step)), some (256 * x.effHi / step))
          else if x.st = .margin then
            match s.cfg.module with
            | some m =>
              let step := k.fs * 256 / 32768 * 1000
              (some (-((-(marginLo m k)) / step)), some (marginHi m k / step))
            | none => (none, none)
          else (none, none)
        else
          match ocLimit k x.st with
          | some lim => if k.ocUsed && k.imonFs != 0 then (none, some ((lim : Int) * 32768 / k.imonFs)) else (none, none)
          | none => (none, none)
    else if e.winEn then (some e.winLo, some e.winHi)
    else (none, none)
/-- A limit's field; where no limit is in force the spec does not say what it reads. -/
def State.limitCode (s : State) (r k : Nat) (x : Option Int) : Nat :=
  match x with | some v => scode 16 v | none => freeNat (s.free + 2 * r + k)
/-- SCN_WIN. Before LOAD completes it reads 0 (R12). -/
def State.rScnWin (s : State) (r : Fin 1024) : Word :=
  if !s.g.loadOk then 0
  else
    let w := s.winLimits r
    pack [(0, 16, s.limitCode r.val 0 w.1), (16, 16, s.limitCode r.val 1 w.2)]
/-- SCN_ENTRY. -/
def State.rScnEntry (s : State) (r : Fin 1024) : Word :=
  match s.cfg.scan[cn (r.val / 64)] with
  | some l => (match l.entries[r.val % 64]? with
    | some e => pack [(0, 10, e.input.toNat), bit1 10 e.winEn, bit1 11 e.currentMode, bit1 12 true]
    | none => 0)
  | none => 0
/-- The SCN window. -/
def State.scnMap (s : State) : List RegE := [
  reg1 0x0 .ro s.rScnStat,
  reg1 0x10 .rw (pack [(0, 4, s.scan.selConv.val), (4, 2, min 2 s.scan.selBuf.val)]),
  reg1 0x14 .ro s.snapSel.word, reg1 0x18 .ro (lo32 (dw s.snapSel.time)), reg1 0x1C .ro (hi32 (dw s.snapSel.time)),
  reg1 0x20 .cmd (pack [(4, 2, ansAt [.accepted, .refusedBusy] s.scan.snapAns)]),
  regN 0x100 .ro 16 16 (fun c => s.rConvStat (cn c)),
  regN 0x104 .cmd 16 16 (fun c => pack [(4, 3, ansAt [.accepted, .noChange, .refusedPartner, .refusedBusy, .refusedState]
    (s.scan.conv[cn c]).cmdAns)]),
  regN 0x108 .ro 16 16 (fun c => pack [(0, 16, scode 16 (s.nv.cur.cal[cn c]).offset), (16, 16, scode 16 (s.nv.cur.cal[cn c]).gain)]),
  regN 0x10C .cmd 16 16 (fun c => pack [(0, 16, (s.scan.conv[cn c]).calCount),
    (16, 11, sat 2047 (s.minutesSince (s.nv.cur.cal[cn c]).at_)), bit1 27 (s.scan.conv[cn c]).failSeen]),
  regN 0x1000 .ro 1024 8 (fun r => (s.scan.res[Fin.ofNat 1024 r]).res.word),
  regN 0x1004 .ro 1024 8 (fun r => ((s.scan.res[Fin.ofNat 1024 r]).age).setWidth 32),
  regN 0x3000 .ro 1024 4 (fun r => s.rScnWin (Fin.ofNat 1024 r)), regN 0x4000 .ro 1024 4 (fun r => s.rScnEntry (Fin.ofNat 1024 r)),
  regN 0x8000 .ro 2048 4 (fun k => pack [(0, 16, scode 16 (s.snapSel.samples.getD (2 * k) 0)),
    (16, 16, scode 16 (s.snapSel.samples.getD (2 * k + 1) 0))])]
/-- THRESH and COUNT of Sj (R239-R241); key fields, which read 0 until LOAD completes (R12). -/
def State.rSmpThr (s : State) (j : Fin 16) : Word :=
  if s.cfg.module.isNone then 0
  else match j.val with
  | 0 => pack [(0, 16, 1440), (16, 4, 1)]
  | 1 => pack [(0, 16, s.nv.cur.reserveMv / 10), (16, 4, 1)]
  | 2 => pack [(0, 16, s.fac.girdleMv / 10), (16, 4, 1)]
  | 3 => pack [(0, 16, 260), (16, 4, 1)]
  | 4 => pack [(0, 16, 150), (16, 4, 1)]
  | 5 => pack [(0, 16, 1000), (16, 4, 1)]
  | _ => match s.smpRec j with | some r => pack [(0, 16, r.thresh), (16, 4, r.count)] | none => 0
/-- TRP_THR of comparator `i`. -/
def State.rThr (s : State) (i : Fin 320) : Word :=
  let t := s.thr i
  let code (x : Option Int) : Nat := match x with | some v => scode 10 v | none => 0
  pack [(0, 10, code t.1), bit1 10 t.1.isSome, (16, 10, code t.2), bit1 26 t.2.isSome]
/-- The TRP window. -/
def State.trpMap (s : State) : List RegE := [
  reg1 0x0 .ro (pack [(0, 10, match s.cfg.trip with | some t => t.smpPeriod | none => 0), bit1 10 s.trip.selftestFail,
    (16, 9, s.trip.failedCmp)]),
  regN 0x20 .ro 10 4 (fun k => bits32 (32 * k) (fun i => (s.trip.cmp[Fin.ofNat 320 i]).loEdge || (s.trip.cmp[Fin.ofNat 320 i]).hiEdge)),
  regN 0x100 .cmd 16 8 (fun j => s.wSmp (Fin.ofNat 16 j)), regN 0x104 .ro 16 8 (fun j => s.rSmpThr (Fin.ofNat 16 j)),
  regN 0x1000 .cmd 320 8 (fun i => s.wCmp (Fin.ofNat 320 i)), regN 0x1004 .ro 320 8 (fun i => s.rThr (Fin.ofNat 320 i))]

/-! ### EVT and WDG (R246-R261, R459-R464) -/

/-- Whether source `n` is PENDING, or SERVED. -/
def State.srcIs (s : State) (served : Bool) (n : Nat) : Bool := match s.evt.find n with | some x => x.served == served | none => false
/-- EVT_STAT. -/
def State.rEvtStat (s : State) : Word :=
  pack [(0, 8, (List.finRange 8).foldl (fun a i => a + (s.evt.alert[i]).level.toNat * 2 ^ i.val) 0), (8, 8, s.evt.latched.toNat),
    (16, 7, (s.evt.tgt.toList.filter (fun t => t.source.isSome)).length)]
/-- EVT_ALERT. -/
def State.rAlert (s : State) (i : Fin 8) : Word :=
  let k : List (Nat × Nat × Nat) := match s.cfg.event with
    | some e => (match e.alert[i.val]? with
      | some a => [(0, 12, a.filter), bit1 12 a.pol, bit1 13 a.rise, bit1 14 a.fall, bit1 15 a.wake, bit1 16 a.used]
      | none => [])
    | none => []
  pack (k ++ [bit1 17 (match s.alertRec i with | some a => alertAsserts a (s.evt.alert[i]).raw | none => false)])
/-- EVT_TGT_CLAIM as it reads. -/
def Tgt.claimWord (t : Tgt) : Word := match t.source with | some n => natWord (n % 1024) | none => 0x80000000
/-- EVT_TGT_STAT. -/
def State.rTgtStat (s : State) (t : TgtN) : Word :=
  let x := s.evt.tgt[t]
  pack [(0, 2, if x.source.isNone then 0 else if x.claimed then 2 else 1), bit1 2 (s.evt.eligible t), bit1 3 x.completeErr,
    (16, 10, x.source.getD 0)]
/-- A target number from an index. -/
def tn (i : Nat) : TgtN := Fin.ofNat 64 i
/-- The EVT window. -/
def State.evtMap (s : State) : List RegE := [
  reg1 0x0 .cmd s.rEvtStat, reg1 0x8 .cmd s.evt.lost,
  regN 0x100 .rw 32 4 (fun g => bits32 (32 * g) (s.srcIs false)), regN 0x180 .rw 32 4 (fun g => s.evt.mask[Fin.ofNat 32 g]),
  regN 0x200 .ro 32 4 (fun g => bits32 (32 * g) (s.srcIs true)),
  regN 0x280 .ro 32 4 (fun g => pack [(0, 16, s.evt.lostCount[Fin.ofNat 32 g])]),
  regN 0x300 .rw 32 4 (fun g => pack [(0, 16, (s.evt.holdoff[Fin.ofNat 32 g]).toNat), bit1 16 (s.evt.barred.getLsbD g)]),
  regN 0x400 .ro 8 4 (fun i => s.rAlert (Fin.ofNat 8 i)),
  regN 0x1000 .rw 64 32 (fun t => ((s.evt.tgt[tn t]).prio).setWidth 32), regN 0x1004 .ro 64 32 (fun t => (s.evt.tgt[tn t]).claimWord),
  regN 0x1008 .cmd 64 32 (fun _ => 0), regN 0x100C .cmd 64 32 (fun t => s.rTgtStat (tn t)),
  regN 0x1010 .ro 64 32 (fun t => lo32 (s.evt.tgt[tn t]).time), regN 0x1014 .ro 64 32 (fun t => hi32 (s.evt.tgt[tn t]).time),
  regN 0x2000 .rw 1024 8 (fun n => lo32 (s.evt.route[Fin.ofNat 1024 n])),
  regN 0x2004 .rw 1024 8 (fun n => hi32 (s.evt.route[Fin.ofNat 1024 n]))]
/-- STATE of WDG_HOST_STAT. -/
def WdgSt.code : WdgSt → Nat
  | .disabled => 0 | .first => 1 | .window => 2 | .stopped => 3
/-- WDG_HOST_STAT: OPEN and LEFT_MS are those of the present window. -/
def State.rWdgStat (s : State) : Word :=
  let c := s.wdgCfg
  let live : Bool := match s.wdg.st with | .first => s.wdg.started | .window => true | _ => false
  let close := if s.wdg.st = .first then c.firstS * 1000000000 else c.closeMs * 1000000
  pack [(0, 2, s.wdg.st.code),
    bit1 2 (live && (s.wdg.st == .first || decide (s.wdg.since + c.openMs * 1000000 ≤ s.now))), bit1 3 s.wdg.expiredSeen,
    (4, 2, match s.wdg.late with | none => 0 | some false => 1 | some true => 2), (8, 8, s.wdg.expiries),
    (16, 16, if live then sat16 ((s.wdg.since + close - s.now + 999999) / 1000000) else 0)]
/-- WDG_HOST_CFG: the key's settings; LOCK as it stands in the store (R459). -/
def State.rWdgCfg (s : State) : Word :=
  let k : List (Nat × Nat × Nat) := match s.cfg.watchdog with
    | some c => [(0, 16, c.closeMs), (16, 2, c.action), (18, 4, c.domain.val)]
    | none => []
  pack (k ++ [bit1 22 s.nv.cur.wdgLock])
/-- A physical pair from an index. -/
def qn (i : Nat) : PPairN := Fin.ofNat 9 i
/-- The WDG window. -/
def State.wdgMap (s : State) : List RegE := [
  reg1 0x0 .cmd s.rWdgStat, reg1 0x4 .cmd 0, reg1 0x8 .ro s.wdg.last, reg1 0xC .ro (lo32 s.wdg.time), reg1 0x10 .ro (hi32 s.wdg.time),
  reg1 0x14 .ro s.rWdgCfg, reg1 0x18 .cmd (pack [(18, 3, ansAt [.accepted, .refusedLock, .refusedState] s.wdg.ans)]),
  regN 0x100 .cmd 9 16 (fun q => pack [bit1 0 (s.wdg.spn[qn q]).enabled, bit1 1 (s.wdg.spn[qn q]).expiredSeen,
    (16, 16, (s.wdg.spn[qn q]).expiries)]),
  regN 0x104 .ro 9 16 (fun q => pack [(0, 16, sat16 (s.wdg.spn[qn q]).word), (16, 8, (s.wdg.spn[qn q]).prog),
    (24, 8, (s.wdg.spn[qn q]).bead)]),
  regN 0x108 .ro 9 16 (fun q => lo32 (s.wdg.spn[qn q]).time), regN 0x10C .ro 9 16 (fun q => hi32 (s.wdg.spn[qn q]).time)]

/-! ### SPN (R288-R331) -/

/-- STATE of SPN_PROG_STAT. -/
def PSt.code : PSt → Nat
  | .inactive => 0 | .running => 1 | .waiting => 2 | .done => 3 | .stopped => 4 | .dropped => 5 | .absent => 6
/-- A logical pair and a program from an index. -/
def ln (i : Nat) : LPairN := Fin.ofNat 8 i
def gn (i : Nat) : ProgN := Fin.ofNat 256 i
/-- SPN_CYCLE_STAT. -/
def State.rCycleStat (s : State) : Word :=
  let c := s.cyc
  pack [(0, 16, sat16 c.stretch), bit1 16 c.stretchSeen, bit1 17 c.overrun, bit1 18 (s.spn.budgetDropped.any (fun n => decide (s.spn.prog[n].st = .dropped))), (19, 2, c.phase),
    (24, 8, sat 255 c.skips)]
/-- SPN_CYCLE_CFG. -/
def State.rCycleCfg (s : State) : Word :=
  match s.cfg.module with | some m => pack [(0, 17, m.cycleUs), (17, 8, m.faultLimit)] | none => 0
/-- The programs bound to logical pair `l` (R309). -/
def State.bound (s : State) (l : LPairN) : List ProgN :=
  (List.finRange 256).filter (fun n => match s.cfg.prog[n] with | some p => p.pair == l | none => false)
/-- SPN_LPAIR_STAT. -/
def State.rLpairStat (s : State) (l : LPairN) : Word :=
  let x := s.spn.lpair[l]
  pack [(0, 4, match x.phys with | some q => q.val | none => 15), bit1 4 x.bank, bit1 5 x.bankLoaded, bit1 6 (s.otherPair l).isSome,
    (8, 8, sat 255 (s.bound l).length), (16, 8, sat 255 ((s.bound l).filter (fun n => decide ((s.spn.prog[n]).st = .dropped))).length)]
/-- A pair number's field; 0xF for none. -/
def pairField {n : Nat} (x : Option (Fin n)) : Nat := match x with | some l => l.val | none => 15
/-- A mismatch kind's field; 0 for none. -/
def kindField (k : Option MKind) : Nat := match k with | some x => x.code | none => 0
/-- SPN_REPL_STAT. -/
def Repl.word (r : Repl) : Word :=
  pack [(0, 4, pairField r.retired), (4, 4, pairField r.taker), (8, 3, r.lpair.val), bit1 11 r.shared, (12, 3, kindField r.kind),
    bit1 15 r.diverged, (16, 8, sat 255 r.count), bit1 24 r.lostCk]
/-- SPN_PHYS_STAT. -/
def PPair.word (p : PPair) : Word :=
  pack [(0, 3, p.st.code), (4, 4, pairField p.lpA), (8, 4, pairField p.lpB), (12, 3, kindField p.lastKind), (16, 2, sat 3 p.retires)]
/-- LAST_FAULT of SPN_PROG_STAT. -/
def faultField (f : Option PFault) : Nat := match f with | some x => x.code | none => 0
/-- SPN_PROG_STAT. -/
def State.rProgStat (s : State) (n : ProgN) : Word :=
  let x := s.spn.prog[n]
  let k : Nat × Nat := match s.cfg.prog[n] with | some p => (p.pair.val, p.crit) | none => (0, 0)
  pack [(0, 3, x.st.code), bit1 3 x.initDue, (4, 4, faultField x.lastFault), (8, 8, sat 255 x.consecutive), (16, 3, k.1), (24, 8, k.2)]
/-- The SPN window. -/
def State.spnMap (s : State) : List RegE := [
  reg1 0x0 .ro (lo32 s.cyc.num), reg1 0x4 .ro s.cyc.numHi, reg1 0x8 .cmd s.rCycleStat, reg1 0xC .ro s.rCycleCfg,
  reg1 0x10 .ro s.spn.repl.word,
  reg1 0x14 .ro (pack [(0, 16, s.spn.repl.bead), (16, 8, s.spn.repl.prog), (24, 8, sat 255 s.spn.repl.duration)]),
  reg1 0x18 .ro (lo32 s.spn.repl.time), reg1 0x1C .ro (hi32 s.spn.repl.time),
  regN 0x100 .ro 8 16 (fun l => s.rLpairStat (ln l)),
  regN 0x104 .ro 8 16 (fun l => pack [(0, 16, sat16 (s.spn.lpair[ln l]).execLast), (16, 16, sat16 (s.spn.lpair[ln l]).execMax)]),
  regN 0x108 .ro 8 16 (fun l => pack [(0, 16, sat16 (s.spn.lpair[ln l]).wcetUs),
    (16, 16, match s.cfg.module with | some m => sat16 (m.cycleUs - 7) | none => 0)]),
  regN 0x200 .ro 9 16 (fun q => (s.spn.phys[qn q]).word),
  regN 0x204 .cmd 9 16 (fun q => pack [(4, 3, ansAt [.accepted, .noChange, .refusedState, .refusedMoving, .refusedNoSpare]
    (s.spn.phys[qn q]).cmdAns)]),
  regN 0x208 .ro 9 16 (fun q => pack [(0, 16, s.nv.cur.physRetirements[qn q]), (16, 16, s.nv.cur.physSelfFails[qn q])]),
  regN 0x1000 .ro 256 16 (fun n => s.rProgStat (gn n)),
  regN 0x1004 .ro 256 16 (fun n => pack [(0, 16, (s.spn.prog[gn n]).faultBead), (16, 16, sat16 (s.spn.prog[gn n]).faultWord)]),
  regN 0x1008 .cmd 256 16 (fun n => pack [(4, 3, ansAt [.accepted, .noChange, .refusedState] (s.spn.prog[gn n]).cmdAns)]),
  regN 0x100C .ro 256 16 (fun n => pack [(0, 16, sat16 (s.spn.prog[gn n]).lastUs), (16, 16, sat16 (s.spn.prog[gn n]).faults)])]

/-! ### HDS (R332-R358) -/

/-- HDS_STAT. -/
def State.rHdsStat (s : State) : Word :=
  let h := s.hds
  let left : Nat := match h.holdSince, s.cfg.hds with
    | some t, some c => sat16 ((t + c.upHold * 1000000 - s.now + 999999) / 1000000)
    | _, _ => 0
  pack [(0, 3, s.g.level.code), (4, 3, h.target.code), bit1 8 h.line, bit1 9 h.fans, bit1 10 h.supplyOk, bit1 11 h.battValid,
    bit1 12 h.battStale, bit1 13 h.unbounded, bit1 14 h.reserving.isSome, (16, 16, left)]
/-- STATE of HDS_DOM_STAT. -/
def DomSt.code : DomSt → Nat
  | .off => 0 | .reqUp => 1 | .on => 2 | .reqDown => 3 | .unused => 4
/-- DENY of HDS_Q_STAT. -/
def Deny.code : Deny → Nat
  | .none => 0 | .targetBusy => 1 | .unpowered => 2 | .tokens => 3 | .heat => 4
/-- HDS_Q_CFG of the selected queue. -/
def State.rQCfg (s : State) : Word :=
  match s.queueCfg s.hds.qSel with
  | none => 0
  | some c => pack [(0, 4, c.prio), (4, 3, c.therm.val), bit1 7 c.used, (8, 4, match c.dom with | some d => d.val | none => 0),
      bit1 12 c.dom.isSome, (13, 5, match c.notify with | some n => n.val | none => 0), bit1 18 c.notify.isSome]
/-- The head item of the selected queue has just reached its latency bound (R348). -/
def State.missesNow (s : State) : Bool :=
  match s.queueCfg s.hds.qSel, (s.hds.queue[s.hds.qSel]).headItem with
  | some c, some x => x.misses c s.now
  | _, _ => false
/-- HDS_Q_STAT of the selected queue. -/
def State.rQStat (s : State) : Word :=
  let u := s.hds.queue[s.hds.qSel]
  let p : Nat := match s.queueCfg s.hds.qSel with
    | some c => (match u.headItem with | some x => s.pEff c x | none => c.prio)
    | none => 0
  pack [(0, 16, sat16 u.queued), (16, 4, p), (20, 3, u.deny.code), bit1 23 (u.missed || s.missesNow), (24, 8, sat 255 u.inflight)]
/-- HDS_Q_CTL of the selected queue. -/
def Queue.ctlWord (u : Queue) : Word := pack [bit1 0 u.enable, (8, 5, u.ringLog2.toNat), (16, 5, u.cplLog2.toNat)]
/-- HDS_DOM_STAT. -/
def State.rDomStat (s : State) (d : Fin 16) : Word :=
  let x := s.hds.dom[d]
  pack [(0, 3, x.st.code), bit1 3 (match s.domCfg d with | some c => c.alwaysOn | none => false), (8, 8, sat 255 x.inflight),
    (16, 16, sat16 x.wakes)]
/-- A domain from an index. -/
def dn (i : Nat) : Fin 16 := Fin.ofNat 16 i
/-- HDS_DOM_GRANT_CTL. -/
def Dom.ctlWord (x : Dom) : Word := pack [(0, 5, x.sizeLog2.toNat), bit1 5 x.enable, (16, 16, x.next)]
/-- The HDS window. -/
def State.hdsMap (s : State) : List RegE :=
  let u := s.hds.queue[s.hds.qSel]
  let k := s.queueCfg s.hds.qSel
  let host : Bool := match k with | some c => c.dom.isSome | none => false
  [reg1 0x0 .cmd s.rHdsStat, reg1 0x4 .ro s.hds.horizon, reg1 0x8 .ro (natWord s.hds.eAvail), reg1 0xC .ro (natWord s.hds.pMw),
  reg1 0x10 .ro (natWord (scode 32 s.hds.tokens)), reg1 0x14 .rw s.hds.alloc,
  reg1 0x18 .ro (pack [(0, 16, s.nv.cur.estCorr), (16, 16, s.hds.pMod / 1000)]),
  regN 0x100 .ro 8 8 (fun h => s.wTherm (Fin.ofNat 8 h)),
  regN 0x104 .ro 8 8 (fun h => natWord (min 0xFFFFFFFF (s.hds.therm[Fin.ofNat 8 h]).allow.toNat)),
  regN 0x200 .ro 16 16 (fun d => s.rDomStat (dn d)), regN 0x204 .rw 16 16 (fun d => lo32 (s.hds.dom[dn d]).base),
  regN 0x208 .rw 16 16 (fun d => hi32 (s.hds.dom[dn d]).base), regN 0x20C .rw 16 16 (fun d => (s.hds.dom[dn d]).ctlWord),
  reg1 0x1000 .rw (natWord s.hds.qSel.val), reg1 0x1004 .ro s.rQCfg, reg1 0x1008 .cmd s.rQStat, reg1 0x100C .cmd u.ctlWord,
  reg1 0x1010 .rw (lo32 u.ring), reg1 0x1014 .rw (hi32 u.ring), reg1 0x1018 .rw (lo32 u.cpl), reg1 0x101C .rw (hi32 u.cpl),
  reg1 0x1020 .ro (natWord u.est), reg1 0x1024 .ro (match k with | some c => natWord c.latency | none => 0),
  reg1 0x1028 .ro (pack [(0, 16, u.headIndex), (16, 16, u.tail)]), reg1 0x102C .ro (pack [(0, 16, if host then 0 else u.full)])]

/-! ### NVS (R262-R287) -/

/-- STATE of NVS_STAT. -/
def NvState.code : NvState → Nat
  | .recovering => 0 | .idle => 1 | .gathering => 2 | .committing => 3 | .deferred => 4
/-- STATE of NVS_INC_STAT. -/
def IncState.code : IncState → Nat
  | .armed => 0 | .capturing => 1 | .commitA => 2 | .commitB => 3 | .frozen => 4 | .clearing => 5
/-- ANSWER of NVS_STAT, in order. -/
def nvAnswers : List Ans := [.accepted, .refusedPassword, .wrongPassword, .lockedOut, .noSecret, .bufferFull, .refusedRange,
  .refusedState, .notExported, .stale, .uncommitted, .damaged]
/-- Seconds of lockout left on password `i`: 2^(n − 4) s from the n-th failure in a row, at most 65,536 s (R275). -/
def State.lockLeft (s : State) (i : Fin 35) : Nat :=
  let p := s.nv.cur.pwd[i]
  match p.lockedSince with
  | none => 0
  | some t => (2 ^ (min 20 p.fails - 4) * 1000000000 - (s.nv.cur.opNs - t) + 999999999) / 1000000000
/-- NVS_PWD_STAT: index 16 is the clear password, on the WRITE fields. -/
def State.rPwdStat (s : State) (m : Nat) : Word :=
  let w : Fin 35 := Fin.ofNat 35 (16 + m)
  let r : Fin 35 := Fin.ofNat 35 m
  if m = 16 then pack [(8, 8, (s.nv.cur.pwd[w]).fails), (16, 16, sat16 (s.lockLeft w))]
  else pack [(0, 8, (s.nv.cur.pwd[r]).fails), (8, 8, (s.nv.cur.pwd[w]).fails), (16, 16, sat16 (max (s.lockLeft r) (s.lockLeft w)))]
/-- NVS_REGION. -/
def State.rRegion (s : State) (m : Fin 16) : Word :=
  let k : List (Nat × Nat × Nat) := match s.cfg.security with
    | some c => (match c.regions[m.val]? with
      | some r => [bit1 0 r.trace, bit1 1 r.readProt, bit1 2 r.writeProt, (16, 16, r.pages)]
      | none => [])
    | none => []
  pack (k ++ [bit1 3 (s.unlocked .host m.castSucc false), bit1 4 (s.unlocked .host m.castSucc true)])
/-- NVS_STAT. -/
def State.rNvsStat (s : State) : Word :=
  let busy := s.nv.waitWr.any (fun w => w.owner == Owner.host) || s.nv.wrongDue.any (fun w => w.owner == Owner.host)
  pack [(0, 3, s.nv.st.code), bit1 3 busy, (4, 4, ansAt nvAnswers s.nv.ans), (8, 8, (s.nv.gathered + 1023) / 1024)]
/-- NVS_INC_STAT. -/
def State.rIncStat (s : State) : Word :=
  let cls : Nat := if s.inc.st = .armed then 255
    else match s.inc.cap, s.inc.copyA, s.inc.copyB with
    | some r, _, _ => r.cls
    | none, some r, _ => r.cls
    | none, none, some r => r.cls
    | none, none, none => 255
  pack [(0, 3, s.inc.st.code), bit1 3 s.inc.exported, bit1 4 s.inc.copyA.isSome, bit1 5 s.inc.copyB.isSome, (8, 8, cls),
    (16, 16, s.inc.recordNo)]
/-- The NVS window. -/
def State.nvsMap (s : State) : List RegE := [
  reg1 0x0 .ro s.rNvsStat, reg1 0x4 .ro s.nv.gatherSeq, reg1 0x8 .ro s.nv.durableSeq,
  reg1 0xC .ro (pack [(0, 10, s.nv.retired), (16, 8, sat 255 s.nv.wearPct), (24, 8, s.nv.ampl)]),
  reg1 0x10 .cmd (pack [(0, 16, sat16 s.nv.corrBits), (16, 8, sat 255 s.nv.uncorr), bit1 24 s.nv.uncorrSeen]),
  reg1 0x20 .rw (pack [(0, 16, s.nv.addrPage.toNat), (16, 8, s.nv.addrOff.toNat), (24, 4, s.nv.addrRegion.val)]),
  reg1 0x24 .cmd 0, regN 0x30 .cmd 8 4 (fun _ => 0), regN 0x100 .ro 16 4 (fun m => s.rRegion (Fin.ofNat 16 m)),
  regN 0x140 .ro 17 4 s.rPwdStat, reg1 0x200 .ro s.rIncStat, reg1 0x204 .rw (pack [(0, 10, s.nv.incPage.toNat), bit1 10 s.nv.incCopy]),
  reg1 0x210 .ro (pack [(0, 8, sat 255 s.nv.cur.lfl.length), (16, 16, sat16 s.nv.cur.lflOverflow)]),
  reg1 0x214 .rw (s.nv.lflSel.setWidth 32), regN 0x400 .rw 64 4 (fun k => s.nv.data[Fin.ofNat 64 k])]

/-! ### REC (R425-R442) -/

/-- STATE of REC_UNIT_STAT. -/
def UnitSt.code : UnitSt → Nat
  | .absent => 0 | .training => 1 | .verifying => 2 | .inService => 3 | .releasing => 4 | .removable => 5 | .blank => 6 | .foreign => 7
  | .failed => 8
/-- FAIL_CAUSE of REC_UNIT_STAT. -/
def FailCause.code : FailCause → Nat
  | .noLink => 1 | .unsupported => 2 | .indexBad => 3 | .writeError => 4 | .linkLost => 5
/-- REC_UNIT_STAT. -/
def StUnit.word (u : StUnit) : Word :=
  pack [(0, 4, u.st.code), bit1 4 u.present, bit1 5 u.surpriseSeen, bit1 6 u.recoveredSeen,
    (8, 3, match u.failCause with | some c => c.code | none => 0), (16, 8, u.wearPct)]
/-- Bytes of MiB. -/
def mib : Nat := 1048576
/-- A stream is FULL: no unit yields it a chunk, or none of its units is IN_SERVICE while the engine records (R434, R439). -/
def State.strFull (s : State) (i : Fin 64) : Bool :=
  s.reng.stream[i].full || (decide (s.recState = 1) && (s.streamCfg i).isSome && (s.unitsOf i).isEmpty)
/-- A COPIES 2 stream runs on one copy: only one of its units is IN_SERVICE (R433). -/
def State.strSingle (s : State) (i : Fin 64) : Bool :=
  match s.streamCfg i with | some c => decide (c.copies = 2) && decide ((s.unitsOf i).length = 1) | none => false
/-- REC_STR_STAT. -/
def State.rStrStat (s : State) (i : Fin 64) : Word :=
  let x := s.reng.stream[i]
  let k : List (Nat × Nat × Nat) := match s.streamCfg i with
    | some c => [bit1 2 c.used, bit1 3 c.prot, bit1 4 (decide (c.copies = 2)), (8, 8, c.units.toNat)]
    | none => []
  pack (k ++ [(0, 2, min 3 i.val), bit1 5 (s.strFull i), bit1 6 (s.strSingle i), (16, 16, s.roundOpen x.held mib)])
/-- A stream from an index. -/
def sn (i : Nat) : Fin 64 := Fin.ofNat 64 i
/-- The REC window. -/
def State.recMap (s : State) : List RegE :=
  let e := s.reng
  let str (k : Nat) : Stream := e.stream[sn k]
  let u (k : Nat) : StUnit := e.unit[Fin.ofNat 8 k]
  let used := e.stream.toList.foldl (fun a x => a + x.held) 0
  [reg1 0x0 .cmd (pack [(0, 2, s.recState), bit1 2 s.g.hot, bit1 3 e.lostSeen,
    (8, 4, (e.unit.toList.filter (fun x => decide (x.st = .inService))).length)]),
  reg1 0x4 .ro (pack [(0, 13, s.roundOpen used mib), (16, 7, s.roundOpen (str 0).held mib)]),
  reg1 0x8 .ro (pack [(0, 16, e.writeMbs), (16, 16, e.inMbs)]),
  reg1 0x10 .rw (lo32 e.rdAddr), reg1 0x14 .rw (hi32 e.rdAddr), reg1 0x18 .rw e.rdLen, reg1 0x20 .rw (lo32 e.rdSeq),
  reg1 0x24 .rw (hi32 e.rdSeq), reg1 0x28 .cmd 0,
  reg1 0x2C .ro (pack [(0, 2, e.rdState), (2, 3, ansAt [.found, .notFound, .truncated, .refusedBusy, .hostWriteError] e.rdAns),
    (8, 24, e.rdKib)]),
  reg1 0x30 .ro (lo32 e.rdNext), reg1 0x34 .ro (hi32 e.rdNext),
  regN 0x100 .cmd 8 16 (fun k => (u k).word),
  regN 0x104 .cmd 8 16 (fun k => pack [(8, 3, ansAt [.accepted, .noChange, .refusedState, .refusedJuridical] (u k).cmdAns)]),
  regN 0x108 .ro 8 16 (fun k => natWord (u k).capChunks), regN 0x10C .ro 8 16 (fun k => natWord ((u k).capChunks - (u k).chunks.length)),
  regN 0x1000 .ro 64 64 (fun k => s.rStrStat (sn k)), regN 0x1004 .ro 64 64 (fun k => natWord (str k).dropped),
  regN 0x1008 .ro 64 64 (fun k => lo32 (dw (str k).accepted)), regN 0x100C .ro 64 64 (fun k => hi32 (dw (str k).accepted)),
  regN 0x1010 .ro 64 64 (fun k => lo32 (dw (str k).durable)), regN 0x1014 .ro 64 64 (fun k => hi32 (dw (str k).durable)),
  regN 0x1018 .rw 64 64 (fun k => lo32 (str k).ring), regN 0x101C .rw 64 64 (fun k => hi32 (str k).ring),
  regN 0x1020 .rw 64 64 (fun k => pack [bit1 0 (str k).enable, (1, 5, (str k).ringLog2.toNat)]),
  regN 0x1024 .rw 64 64 (fun k => (str k).tail.setWidth 32), regN 0x1028 .ro 64 64 (fun k => (str k).head.setWidth 32),
  regN 0x102C .ro 64 64 (fun k => match s.streamCfg (sn k) with | some c => natWord c.retainH | none => 0)]

/-! ### MTR and FIO (R392-R424) -/

/-- A measurement set from an index. -/
def mn (i : Nat) : Fin 4 := Fin.ofNat 4 i
/-- MTR_SET_STAT. -/
def State.rSetStat (s : State) (m : Fin 4) : Word :=
  let k : Bool × Bool := match s.cfg.meter with
    | some c => (match c.sets[m.val]? with | some x => (x.used, x.lineSense) | none => (false, false))
    | none => (false, false)
  pack [(0, 16, (s.mtr.sets[m]).freq), (16, 4, s.systemOf m), bit1 20 k.1, bit1 21 k.2]
/-- The MTR window. -/
def State.mtrMap (s : State) : List RegE := [
  reg1 0x0 .cmd (pack [bit1 0 s.meterLine, bit1 1 s.metering, bit1 2 s.mtr.disagree, bit1 3 s.mtr.lossSeen, bit1 4 s.mtr.changeSeen,
    (8, 4, s.mtr.system)]),
  reg1 0x4 .ro s.nv.cur.periodSeq, reg1 0x8 .ro s.nv.cur.dsSeq, reg1 0x10 .ro (lo32 s.mtr.label), reg1 0x14 .ro (hi32 s.mtr.label),
  reg1 0x18 .ro (pack [(0, 14, s.nv.cur.dataSets.length), (16, 16, sat16 s.nv.cur.overwritten)]),
  regN 0x100 .ro 4 32 (fun m => natWord (s.mtr.sets[mn m]).vRms), regN 0x104 .ro 4 32 (fun m => natWord (s.mtr.sets[mn m]).iRms),
  regN 0x108 .ro 4 32 (fun m => natWord (scode 32 (s.mtr.sets[mn m]).p)), regN 0x10C .ro 4 32 (fun m => natWord (scode 32 (s.mtr.sets[mn m]).q)),
  regN 0x110 .ro 4 32 (fun m => s.rSetStat (mn m)), reg1 0x200 .rw s.mtr.dsSel,
  reg1 0x204 .ro (pack [(0, 2, ansAt [.found, .notFound] s.mtr.dsAns)]), regN 0x400 .ro 64 4 (listWord s.mtr.dsData)]
/-- FIO_GROUP_STAT. -/
def State.rGroupStat (s : State) (g : Fin 8) : Word :=
  let x := s.fio.group[g]
  pack [bit1 0 (match s.cfg.field[g] with | some c => c.used | none => false), bit1 1 x.supplyOk, bit1 2 x.latched, bit1 3 x.lostSeen,
    bit1 4 x.overSeen, (8, 8, sat 255 x.current), (16, 16, sat16 x.overloads)]
/-- FIO_GROUP_PTS. -/
def State.rGroupPts (s : State) (g : Fin 8) : Word :=
  bits32 0 (fun i => if i < 16 then (s.fio.point[groupPoint g i]).inSafe else (s.fio.point[groupPoint g (i - 16)]).ovl)
/-- A field group and a field point from an index. -/
def fg (i : Nat) : Fin 8 := Fin.ofNat 8 i
def pn (i : Nat) : PointN := Fin.ofNat 128 i
/-- The FIO window. -/
def State.fioMap (s : State) : List RegE := [
  regN 0x0 .cmd 8 16 (fun g => s.rGroupStat (fg g)),
  regN 0x4 .ro 8 16 (fun g => match s.cfg.field[fg g] with | some c => pack [(0, 10, c.sampleUs), (10, 10, c.timeoutMs)] | none => 0),
  regN 0x8 .cmd 8 16 (fun g => pack [(4, 3, ansAt [.accepted, .noChange, .refusedSupply, .refusedState] (s.fio.group[fg g]).cmdAns)]),
  regN 0xC .ro 8 16 (fun g => s.rGroupPts (fg g)),
  regN 0x100 .ro 4 4 (fun k => bits32 (32 * k) (fun i => (s.fio.point[pn i]).debounced)),
  regN 0x110 .ro 4 4 (fun k => bits32 (32 * k) (fun i => s.switched (pn i))),
  regN 0x1000 .cmd 128 4 (fun p => s.wPoint (pn p))]

/-! ### AGE (R28, R443-R458) -/

/-- Operating hours left until the next 500-hour re-plan (R444), which counts from the re-plan of the last CHECK. -/
def State.nextReplanH (s : State) : Nat := if !s.g.loadOk then 0 else (s.nv.cur.lastReplanNs + 1800000000000000 - s.nv.cur.opNs + 3599999999999) / 3600000000000
/-- The AGE window. -/
def State.ageMap (s : State) : List RegE := [
  reg1 0x0 .cmd (pack [(0, 2, s.age.state), bit1 2 s.age.refDisagree, bit1 3 s.age.refOutSeen, (4, 3, s.age.outvoted.toNat),
    (16, 16, sat16 s.nv.cur.replans)]),
  reg1 0x4 .ro (natWord s.opHours), reg1 0x8 .ro (pack [(0, 16, s.nextReplanH)]),
  reg1 0x10 .ro (pack [(0, 16, s.nv.cur.factor.toNat), (16, 8, s.nv.cur.coreOffset), bit1 24 s.nv.cur.beyond]),
  reg1 0x14 .ro (pack [(0, 8, s.age.changed.toNat), (8, 8, sat 255 s.age.trimLimit), (16, 16, s.age.narrowed)]),
  reg1 0x18 .ro (pack [(0, 16, scode 16 s.age.dAb), (16, 16, scode 16 s.age.dBc)]), reg1 0x1C .ro (pack [(0, 16, scode 16 s.age.dCa)]),
  reg1 0x20 .ro (pack [(0, 16, s.nv.cur.capUf / 10), (16, 16, s.nv.cur.esr)]),
  reg1 0x24 .ro (pack [(0, 16, sat16 ((s.nv.cur.opNs - s.nv.cur.holdupTestNs) / 3600000000000)), bit1 16 s.nv.cur.esrHigh]),
  reg1 0x28 .ro (pack [(0, 16, s.nv.cur.cellMv)]),
  reg1 0x30 .cmd (pack [(4, 3, ansAt [.accepted, .refusedBusy, .refusedState] s.age.cmdAns)]),
  reg1 0x40 .rw (s.age.histSel.setWidth 32),
  reg1 0x44 .ro (pack [(0, 13, s.nv.cur.ring.length), (16, 11, s.nv.cur.perm.length), (28, 2, ansAt [.found, .notFound] s.age.histAns)]),
  regN 0x80 .ro 6 4 (fun u => pack [(0, 16, (s.nv.cur.forecast[Fin.ofNat 6 u]).years), bit1 16 (s.nv.cur.forecast[Fin.ofNat 6 u]).warn,
    (24, 8, (s.nv.cur.forecast[Fin.ofNat 6 u]).detail)]),
  regN 0x400 .ro 64 4 (listWord s.age.histData),
  regN 0x1000 .ro 256 8 (fun n => natWord (scode 32 (s.rail (rn n)).effLo)),
  regN 0x1004 .ro 256 8 (fun n => natWord (scode 32 (s.rail (rn n)).effHi))]

/-! ### LNK (R36, R465-R482) -/

/-- TOP_LEVEL of LNK_EDIVO_STAT. -/
def SLevel.code : SLevel → Nat
  | .view => 0 | .maintenance => 1 | .provisioning => 2
/-- LNK_UTC_STAT. -/
def State.rUtcStat (s : State) : Word :=
  pack [(0, 2, s.time.utcQual), bit1 2 (s.time.slewLeft != 0), bit1 3 s.time.stepped, bit1 4 s.time.leapLast,
    (16, 16, if s.time.utcQual = 2 then sat16 ((s.now - s.time.holdSince) / 1000000000) else 0)]
/-- A value held within 32 signed bits. -/
def sat32 (x : Int) : Int := max (-2147483648) (min 2147483647 x)
/-- LNK_NET_STAT. -/
def State.rNetStat (s : State) (n : Fin 4) : Word :=
  let x := s.lnk.net[n]
  let k : List (Nat × Nat × Nat) := match s.cfg.links with
    | some l => [(2, 2, l.roles.toNat / 4 ^ n.val), bit1 4 (l.ptpEn.getLsbD n.val), bit1 5 (l.wakeEn.getLsbD n.val)]
    | none => []
  pack (k ++ [bit1 0 x.link, bit1 1 x.g1000, bit1 6 (s.lnk.ptpMaster && decide (s.lnk.ptpPort = n)), (16, 16, sat16 x.rxErr)])
/-- LNK_EDIVO_STAT. -/
def State.rEdivoStat (s : State) : Word :=
  let l := s.lnk.sessions.toList.filterMap id
  pack [(0, 3, l.length), (3, 2, l.foldl (fun a x => max a x.level.code) 0), bit1 5 s.inTestMode, bit1 6 s.lnk.edivoLink,
    (16, 16, sat16 s.lnk.opened)]
/-- The LNK window. -/
def State.lnkMap (s : State) : List RegE :=
  let k := s.lnk
  [reg1 0x0 .cmd (pack [(0, 4, k.width), (4, 3, k.rate), bit1 7 k.up, bit1 8 (s.evt.msixEn && !s.evt.fnMask), bit1 9 k.refLost,
    bit1 10 k.downSeen, (16, 16, sat16 k.retrains)]),
  reg1 0x4 .ro (lo32 k.downAt), reg1 0x8 .ro (hi32 k.downAt), reg1 0xC .ro (lo32 k.upAt), reg1 0x10 .ro (hi32 k.upAt),
  reg1 0x20 .ro (s.fac.mac.extractLsb' 0 32), reg1 0x24 .ro ((s.fac.mac.extractLsb' 32 16).setWidth 32),
  regN 0x40 .ro 2 16 (fun i => pack [bit1 0 (s.hsb.up.getLsbD i), bit1 1 (s.hsb.linkNo.getLsbD i), bit1 2 s.hsb.miswired,
    (16, 16, sat16 s.hsb.crcErr[Fin.ofNat 2 i])]),
  regN 0x44 .ro 2 16 (fun i => lo32 s.hsb.linkSerial[Fin.ofNat 2 i]), regN 0x48 .ro 2 16 (fun i => hi32 s.hsb.linkSerial[Fin.ofNat 2 i]),
  regN 0x80 .ro 4 8 (fun n => s.rNetStat (mn n)),
  regN 0x84 .ro 4 8 (fun n => match s.cfg.links with | some l => l.addrs.getD n 0 | none => 0),
  reg1 0x100 .ro (lo32 s.time.utc), reg1 0x104 .ro s.time.utcHi, reg1 0x108 .cmd s.rUtcStat,
  reg1 0x110 .ro (pack [(0, 2, k.ptpPort.val), bit1 2 k.ptpMaster, (8, 8, match s.cfg.links with | some l => l.ptpDomain | none => 0),
    (16, 8, k.ptpClass), (24, 8, sat 255 k.goodSyncs)]),
  reg1 0x114 .ro (natWord (scode 32 (sat32 k.ptpOffset))), reg1 0x118 .ro (natWord k.ptpDelay),
  reg1 0x120 .ro (natWord (scode 32 k.lat)), reg1 0x124 .ro (natWord (scode 32 k.lon)),
  reg1 0x128 .ro (match k.locAt with | some t => natWord (sat16 ((s.now - t) / 1000000000)) | none => 0xFFFF),
  reg1 0x200 .ro s.rEdivoStat]

/-! ### SEC (R92-R112, R483-R496) -/

/-- BANK0 and BANK1 of SEC_KEY_STAT. -/
def BankSt.code : BankSt → Nat
  | .invalid => 0 | .written => 1 | .verified => 2 | .active => 3
/-- STATE of SEC_STG_STAT. -/
def StgState.code : StgState → Nat
  | .idle => 0 | .writing => 1 | .verifying => 2 | .staged => 3 | .failed => 4
/-- STATE of SEC_TAKE_STAT. -/
def TakeState.code : TakeState → Nat
  | .idle => 0 | .preparing => 1 | .ready => 2 | .done => 3 | .refused => 4 | .abandoned => 5
/-- *Take answers*, in order. -/
def takeAnswers : List Ans := [.taken, .pending, .unchanged, .refusedState, .refusedBusy, .refusedClass, .refusedDependency, .refusedKey,
  .refusedAbsent, .refusedLate, .refusedSet, .abandoned]
/-- *AUTH answers* in order from 1 (R489); ACCEPTED is 0. -/
def authAnswers : List Ans := [.wrongPassword, .lockedOut, .noSecret, .refusedState, .refusedLevel, .tooShort, .badSignature, .notStreamed,
  .noPresence]
/-- SEC_KEY_STAT. -/
def State.rKeyStat (s : State) : Word :=
  let k := s.key
  pack [bit1 0 k.present.isSome, bit1 1 k.mismatch, bit1 2 k.activeBank, bit1 3 k.selCopy, (4, 2, k.bank0.code), (6, 2, k.bank1.code),
    bit1 8 k.pendingRestart, (16, 16, k.selGen.toNat)]
/-- SEC_STG_STAT. -/
def State.rStgStat (s : State) : Word :=
  pack [(0, 4, s.stg.st.code), (4, 2, match s.stg.owner with | none => 0 | some .host => 1 | some (.session _) => 2),
    (8, 8, s.stg.result.toNat), (16, 8, s.stg.writtenMib)]
/-- SEC_TAKE_PART. -/
def TakePart.word (p : TakePart) : Word := pack [(0, 8, p.typ.toNat), (8, 8, p.inst.toNat), (16, 4, ansAt takeAnswers p.ans)]
/-- CUSTOMER_KEY_ID of the key held (R490). -/
def State.custId (s : State) : DWord := if s.hasKey then customerKeyId s.sec.custKey else 0
/-- The SEC window. -/
def State.secMap (s : State) : List RegE := [
  reg1 0x0 .ro (pack [bit1 0 s.hasKey, bit1 1 s.sec.factory, bit1 2 s.sec.released, bit1 3 s.sec.cellLow,
    (4, 4, ansAt authAnswers s.sec.ans), (8, 8, (s.nv.cur.pwd[(33 : Fin 35)]).fails), (16, 8, (s.nv.cur.pwd[(34 : Fin 35)]).fails)]),
  reg1 0x4 .cmd 0, regN 0x10 .cmd 8 4 (fun _ => 0),
  reg1 0x30 .ro (pack [bit1 0 s.sec.breached, (1, 3, s.sec.cause), bit1 4 s.sec.supplyLow, (16, 16, sat16 s.sec.breaches)]),
  reg1 0x38 .ro (pack [(0, 16, s.sec.releases)]), reg1 0x40 .ro (lo32 s.sec.releaseTime), reg1 0x44 .ro (hi32 s.sec.releaseTime),
  reg1 0x48 .ro (lo32 s.custId), reg1 0x4C .ro (hi32 s.custId),
  reg1 0x100 .ro s.rKeyStat, reg1 0x104 .ro (lo32 s.key.keySerial), reg1 0x108 .ro (hi32 s.key.keySerial),
  reg1 0x10C .ro (pack [(0, 8, s.key.loadCode.toNat), (8, 8, s.key.loadType.toNat), (16, 8, s.key.loadInst.toNat)]),
  reg1 0x110 .ro (lo32 s.key.runSerial), reg1 0x114 .ro (hi32 s.key.runSerial),
  reg1 0x120 .rw (lo32 s.stg.addr), reg1 0x124 .rw (hi32 s.stg.addr), reg1 0x128 .rw s.stg.len, reg1 0x12C .cmd 0,
  reg1 0x130 .ro s.rStgStat,
  reg1 0x134 .ro (pack [(0, 16, s.stg.diffs.length), (16, 16, (s.stg.diffs.filter (·.taken)).length)]),
  reg1 0x140 .rw (lo32 s.take.cycle), reg1 0x144 .rw (hi32 s.take.cycle), reg1 0x148 .cmd 0,
  reg1 0x14C .ro (pack [(0, 4, s.take.st.code), (16, 16, s.take.seq)]),
  regN 0x180 .rw 32 4 (fun n => (s.take.parts[Fin.ofNat 32 n]).word),
  regN 0x200 .ro 25 4 (listWord s.sec.meterPub)]

/-! ### HSB and LCK (R368-R391) -/

/-- ANSWER of LCK_TGT_RES, in order; WAITING is held as `pending`. -/
def lckAnswers : List Ans := [.accepted, .busy, .notOwner, .pending, .signalled, .deadlock, .cancelled, .notSignaller, .refusedRange,
  .refusedBusy]
/-- The HSB window. -/
def State.hsbMap (s : State) : List RegE :=
  let h := s.hsb
  [reg1 0x0 .ro (pack [(0, 3, h.st.code), bit1 3 (h.up.getLsbD 0), bit1 4 (h.up.getLsbD 1), bit1 5 h.eligible, bit1 6 h.aligned,
    bit1 7 h.unsynced, (8, 4, match h.partner with | some b => b.mod | none => 0), (16, 8, sat 255 h.readyCount)]),
  reg1 0x4 .ro h.epoch,
  reg1 0x8 .cmd (pack [bit1 0 h.lostSeen, bit1 1 h.takeoverSeen, bit1 2 h.dualSeen, bit1 3 h.pairMismatch, bit1 4 h.bankDiffer,
    (8, 8, sat 255 h.discarded), (16, 16, sat16 h.takeovers)]),
  reg1 0xC .ro (pack [(0, 16, sat16 h.late), (16, 10, match s.cfg.links with | some l => l.mirrorLen / 1024 | none => 0)]),
  reg1 0x10 .ro (lo32 h.takeTime), reg1 0x14 .ro (hi32 h.takeTime),
  reg1 0x18 .cmd (pack [(4, 3, ansAt [.accepted, .refusedState] h.cmdAns)]),
  reg1 0x20 .cmd (pack [(12, 4, ansAt [.queued, .refusedState, .refusedBusy] h.pcmdAns), (16, 16, h.queue.length)])]
/-- LCK_LOCK. -/
def LockSt.word (k : LockSt) : Word :=
  pack [(0, 2, match k.st with | .free => 0 | .held => 1 | .orphaned => 2), bit1 2 k.poisoned,
    bit1 3 (match k.owner with | .host _ => true | .pair _ => false), (4, 6, match k.owner with | .host t => t.val | .pair l => l.val),
    (16, 16, k.epoch)]
/-- LCK_SYNC. -/
def State.rSync (s : State) (o : Fin 1024) : Word :=
  let x := s.lck.sync[o]
  let k : List (Nat × Nat × Nat) := match s.cfg.module with
    | some m => (match m.syncs[o.val]? with
      | some c => [bit1 24 c.used, bit1 25 c.timer, bit1 26 c.external]
      | none => [])
    | none => []
  pack (k ++ [(0, 16, x.count), (16, 8, sat 255 x.waits.length)])
/-- LCK_TGT_RES. -/
def LckTgt.word (x : LckTgt) : Word :=
  pack [bit1 0 x.done, bit1 1 x.acquired, bit1 2 x.poisoned, bit1 3 x.heldOwn, (4, 4, ansAt lckAnswers x.answer), (16, 16, x.opSeq.toNat)]
/-- The LCK window. Offset 0x200C + 16 × t is reserved: no register stands there. -/
def State.lckMap (s : State) : List RegE :=
  let k := s.lck
  [regN 0x0 .ro 256 4 (fun i => (k.lock[Fin.ofNat 256 i]).word), regN 0x400 .ro 1024 4 (fun o => s.rSync (Fin.ofNat 1024 o)),
  regN 0x2000 .cmd 64 16 (fun _ => 0), regN 0x2004 .ro 64 16 (fun t => (k.tgt[tn t]).word),
  regN 0x2008 .ro 64 16 (fun t => pack [(0, 16, (k.tgt[tn t]).epoch)]),
  regN 0x3000 .ro 8 4 (fun l => pack [(0, 16, k.pairEpoch[ln l])]),
  reg1 0x3100 .ro (pack [(0, 10, k.dlObject.val), bit1 10 k.dlVictimHost, (12, 8, k.dlVictim), (20, 12, sat 4095 k.dlCount)]),
  reg1 0x3104 .ro (pack [(0, 16, sat16 k.orphans)])]

/-! ### BAR0 as a whole (R466, R497) -/

/-- The register map of a block window. -/
def State.window (s : State) : Nat → List RegE
  | 0 => s.glbMap | 1 => s.rsqMap | 2 => s.scnMap | 3 => s.trpMap | 4 => s.evtMap | 5 => s.wdgMap | 6 => s.spnMap | 7 => s.hdsMap
  | 8 => s.nvsMap | 9 => s.recMap | 10 => s.mtrMap | 11 => s.fioMap | 12 => s.ageMap | 13 => s.lnkMap | 14 => s.secMap | 15 => s.hsbMap
  | 16 => s.lckMap | _ => []
/-- The register that stands at a BAR0 offset: its kind and the word it reads as; none where the offset is unmapped. -/
def State.bar0 (s : State) (a : Nat) : Option (RegKind × Word) := findReg (s.window (a / 65536)) (a % 65536)
/-- The word at a BAR0 offset; an unmapped offset reads 0 (R362). -/
def State.bar0Word (s : State) (a : Nat) : Word := match s.bar0 a with | some x => x.2 | none => 0
/-- A byte of BAR2 (R296): the image memory, the program memories, the local memories; the rest reads 0. -/
def State.bar2Byte (s : State) (a : Nat) : Byte :=
  if a < 0x34000 then Memory.get s.mem a
  else if a < 0x40000 then 0
  else if a < 0x400000 then Memory.get s.mem a
  else if a < 0xC00000 then progMemByte s.free a
  else if a < 0xC80000 then Memory.get s.mem a
  else 0

end Sys2Proof.Machine
end

