-- ==== Sys2Proof/Machine/Registers.lean ====
section
/-!
DEFINITION. Accesses of host software to the BARs (R359-R362, R497-R499): what a write of a register does, which accesses are
access errors, and what a read does beside returning its word.
-/
namespace Sys2Proof.Machine
open Sys2Proof

/-! ### Shared parts of writes -/

/-- One command after another: the second acts on the state that the first leaves. -/
def andThen (o : Out) (f : State → Out) : Out :=
  match o with
  | .next s => f s
  | .fault r => .fault r
  | .refused r => .refused r
/-- A command that only some writes carry. -/
def onlyIf (c : Bool) (f : State → Out) (s : State) : Out := if c then f s else .next s
/-- The number in bits `lo + len - 1` to `lo` of a word. -/
def bitsOf (w : Word) (lo len : Nat) : Nat := (w.extractLsb' lo len).toNat
/-- A 64-bit value with its low or its high word written. -/
def setLo (x : DWord) (w : Word) : DWord := hi32 x ++ w
def setHi (x : DWord) (w : Word) : DWord := w ++ lo32 x
/-- The instance of an array of registers that stands at offset `o`. -/
def slot (base count stride o : Nat) : Option Nat :=
  if base ≤ o && (o - base) % stride == 0 && decide ((o - base) / stride < count) then some ((o - base) / stride) else none
/-- A write of an array's instance, or of what follows in the map. -/
def atSlot (base count stride o : Nat) (f : Nat → Out) (rest : Out) : Out :=
  match slot base count stride o with
  | some i => f i
  | none => rest
/-- A seen bit after a write: bit `i` of the word written 1 clears it. -/
def w1c (x : Bool) (w : Word) (i : Nat) : Bool := x && !w.getLsbD i

/-! ### The commands that carry an operation code -/

/-- NVS_CMD of an owner (R274-R286). -/
def nvsCommand (o : Owner) (w : Word) (s : State) : Out :=
  match bitsOf w 0 4 with
  | 1 => execNvsRead o s
  | 2 => execNvsWrite o (w.extractLsb' 4 9) s
  | 3 => execNvsCommitNow o s
  | 4 => execNvsUnlockRead o s
  | 5 => execNvsUnlockWrite o s
  | 6 => execNvsUnlockClear o s
  | 7 => execNvsLock o s
  | 8 => execNvsReadInc o s
  | 9 => execNvsReadLfl o s
  | 10 => execNvsClear o (w.extractLsb' 13 3) (w.getLsbD 16) (rn (bitsOf w 24 8)) s
  | _ => .next s
/-- SEC_STG_CMD of an owner (R103-R107). -/
def stgCommand (o : Owner) (w : Word) (s : State) : Out :=
  match bitsOf w 0 4 with
  | 1 => execStage o (w.getLsbD 4) s
  | 2 => execVerify o s
  | 3 => execStageAbort o s
  | 4 => execSwitch o s
  | _ => .next s
/-- WDG_DISABLE of an owner (R463). -/
def wdgDisable (o : Owner) (w : Word) (s : State) : Out :=
  match bitsOf w 0 16 with
  | 0x1ACF => execWdgDisableArm o s
  | 0xE532 => execWdgDisableConfirm o (w.extractLsb' 16 2) s
  | _ => .next s
/-- LCK_TGT_CMD of target `t` (R368-R376). -/
def lckCommand (t : TgtN) (w : Word) (s : State) : Out :=
  let o : Fin 1024 := Fin.ofNat 1024 (bitsOf w 4 10)
  match bitsOf w 0 4 with
  | 1 => execLckAcquire t o s
  | 2 => execLckRelease t o s
  | 3 => execLckReleaseClearPoison t o s
  | 4 => execSyncSignal t o s
  | 5 => execSyncWait t o (Fin.ofNat 32 (bitsOf w 14 5)) (w.extractLsb' 19 8) s
  | 6 => execSyncCancelWait t s
  | 7 => execResetEpoch t s
  | _ => .next s
/-- REC_UNIT_CMD of unit `k` (R438-R442). -/
def unitCommand (k : Fin 8) (w : Word) (s : State) : Out :=
  match bitsOf w 0 4 with
  | 1 => execUnitRelease k (w.getLsbD 4) s
  | 2 => execUnitAdmit k s
  | 3 => execUnitFormat k (w.getLsbD 4) s
  | _ => .next s

/-! ### Writes, window by window -/

/-- A write of a GLB register (R34, R59, R83, R85, R168, R362). -/
def glbWrite (o : Nat) (w : Word) (s : State) : Out :=
  if o = 0x28 then .next { s with time := { s.time with tbSeen := w1c s.time.tbSeen w 1 } }
  else if o = 0x34 then onlyIf (bitsOf w 0 16 == 0xA5C3) execHostRestart s
  else if o = 0x40 then .next { s with sup := { s.sup with
    lossSeen := w1c s.sup.lossSeen w 18, interruptionSeen := w1c s.sup.interruptionSeen w 19 } }
  else if o = 0x50 then .next { s with g := { s.g with timerMin := w.extractLsb' 16 16 } }
  else if o = 0x64 then
    match bitsOf w 0 16 with
    | 0x4F46 => execHostOffRequest s
    | 0x4F4E => execHostOnRequest s
    | _ => .next s
  else if o = 0x70 then .next { s with touch := { s.touch with
    stuckSeen := w1c s.touch.stuckSeen w 4, heldSeen := w1c s.touch.heldSeen w 5 } }
  else if o = 0x78 then .next { s with mrst := { s.mrst with stuckSeen := w1c s.mrst.stuckSeen w 3 } }
  else if o = 0x80 then .next { s with acc := { s.acc with err := w1c s.acc.err w 0 } }
  else .next s
/-- RSQ_PROBE_CTL (R190, R191): the RW fields first, then ABORT_ALL, then REQUEST. -/
def probeControl (w : Word) (s : State) : Out :=
  let s1 : State := { s with planner := { s.planner with pause := w.getLsbD 0, rail := w.extractLsb' 8 8 } }
  andThen (onlyIf (w.getLsbD 1) execProbeAbortAll s1) (onlyIf (w.getLsbD 16) (execProbeRequest (rn (bitsOf w 8 8))))
/-- RSQ_RAIL_CMD of rail `n` (R131). -/
def railWrite (n : RailN) (w : Word) (s : State) : Out :=
  match railCodeOf (bitsOf w 0 4) with
  | some c => .next (s.hostRailCmd n c)
  | none => .next s
/-- RSQ_MARGIN_CMD of rail `n` (R186). -/
def marginWrite (n : RailN) (w : Word) (s : State) : Out :=
  match bitsOf w 0 4 with
  | 1 => execMarginHold n (w.extractLsb' 8 8) s
  | 2 => execMarginEnd n s
  | _ => .next s
/-- A write of an RSQ register. -/
def rsqWrite (o : Nat) (w : Word) (s : State) : Out :=
  if o = 0xC then onlyIf (bitsOf w 0 4 == 1) execRerun s
  else if o = 0x30 then probeControl w s
  else atSlot 0x1004 256 16 o (fun n => railWrite (rn n) w s) (atSlot 0x2000 256 8 o (fun n => marginWrite (rn n) w s) (.next s))
/-- SCN_CONV_CMD of converter `c` (R217-R221). -/
def convWrite (c : ConvN) (w : Word) (s : State) : Out :=
  match bitsOf w 0 4 with
  | 1 => execConverterOut c s
  | 2 => execConverterIn c s
  | 3 => execConverterCalibrate c s
  | _ => .next s
/-- A write of an SCN register. BUF 0x3 reads as 0x2. -/
def scnWrite (o : Nat) (w : Word) (s : State) : Out :=
  if o = 0x10 then .next { s with scan := { s.scan with
    selConv := cn (bitsOf w 0 4), selBuf := Fin.ofNat 4 (min 2 (bitsOf w 4 2)) } }
  else if o = 0x20 then onlyIf (bitsOf w 0 4 == 1) execSnapshotTriggerCmd s
  else atSlot 0x104 16 16 o (fun c => convWrite (cn c) w s)
    (atSlot 0x10C 16 16 o (fun c => .next { s with scan := { s.scan with
      conv := tmod s.scan.conv (cn c) (fun x => { x with failSeen := w1c x.failSeen w 27 }) } }) (.next s))
/-- A write of a TRP register: the seen bits of R237 and R239. -/
def trpWrite (o : Nat) (w : Word) (s : State) : Out :=
  atSlot 0x100 16 8 o (fun j => .next { s with trip := { s.trip with
    smp := tmod s.trip.smp (Fin.ofNat 16 j) (fun x => { x with edge := w1c x.edge w 1 }) } })
    (atSlot 0x1000 320 8 o (fun i => .next { s with trip := { s.trip with
      cmp := tmod s.trip.cmp (Fin.ofNat 320 i) (fun x => { x with loEdge := w1c x.loEdge w 2, hiEdge := w1c x.hiEdge w 3 }) } })
      (.next s))
/-- A write of an EVT register (R249-R257). -/
def evtWrite (o : Nat) (w : Word) (s : State) : Out :=
  if o = 0x0 then .next (s.modEvt (fun e => { e with latched := e.latched &&& ~~~(w.extractLsb' 8 8) }))
  else if o = 0x8 then .next (s.modEvt (fun e => { e with lost := e.lost &&& ~~~w }))
  else
    atSlot 0x100 32 4 o (fun g => execEvtPendWrite (Fin.ofNat 32 g) w s)
    (atSlot 0x180 32 4 o (fun g => execEvtMaskWrite (Fin.ofNat 32 g) w s)
    (atSlot 0x300 32 4 o (fun g => .next (s.modEvt (fun e => { e with
      holdoff := tset e.holdoff (Fin.ofNat 32 g) (w.extractLsb' 0 16) })))
    (atSlot 0x1000 64 32 o (fun t => execEvtPrioWrite (tn t) (w.extractLsb' 0 8) s)
    (atSlot 0x1008 64 32 o (fun t => execEvtComplete (tn t) (w.extractLsb' 0 10) s)
    (atSlot 0x100C 64 32 o (fun t => .next (s.modEvt (fun e => { e with
      tgt := tmod e.tgt (tn t) (fun x => { x with completeErr := w1c x.completeErr w 3 }) })))
    (atSlot 0x2000 1024 8 o (fun n => .next (s.modEvt (fun e =>
      e.setRoute (Fin.ofNat 1024 n) (setLo e.route[Fin.ofNat 1024 n] w))))
    (atSlot 0x2004 1024 8 o (fun n => .next (s.modEvt (fun e =>
      e.setRoute (Fin.ofNat 1024 n) (setHi e.route[Fin.ofNat 1024 n] w))))
    (.next s))))))))
/-- A write of a WDG register (R460-R463). -/
def wdgWrite (o : Nat) (w : Word) (s : State) : Out :=
  if o = 0x0 then .next { s with wdg := { s.wdg with expiredSeen := w1c s.wdg.expiredSeen w 3 } }
  else if o = 0x4 then execHostWdgService w s
  else if o = 0x18 then wdgDisable .host w s
  else atSlot 0x100 9 16 o (fun q => .next { s with wdg := { s.wdg with
    spn := tmod s.wdg.spn (qn q) (fun x => { x with expiredSeen := w1c x.expiredSeen w 1 }) } }) (.next s)
/-- SPN_PROG_CMD of program `n` (R312, R313). -/
def progWrite (n : ProgN) (w : Word) (s : State) : Out :=
  match bitsOf w 0 4 with
  | 1 => execProgramRestart n s
  | 2 => execProgramStop n s
  | _ => .next s
/-- SPN_PHYS_CMD of physical pair `q` (R328, R331). -/
def physWrite (q : PPairN) (w : Word) (s : State) : Out :=
  match bitsOf w 0 4 with
  | 1 => execPairSelftest q s
  | 2 => execPairInject q s
  | _ => .next s
/-- A write of an SPN register. -/
def spnWrite (o : Nat) (w : Word) (s : State) : Out :=
  if o = 0x8 then .next { s with cyc := { s.cyc with
    stretchSeen := w1c s.cyc.stretchSeen w 16, overrun := w1c s.cyc.overrun w 17 } }
  else atSlot 0x204 9 16 o (fun q => physWrite (qn q) w s) (atSlot 0x1008 256 16 o (fun n => progWrite (gn n) w s) (.next s))
/-- HDS_DOM_GRANT_CTL: address and size are ignored while ENABLE is 1 (R354). -/
def Dom.control (x : Dom) (w : Word) : Dom :=
  { x with sizeLog2 := if x.enable then x.sizeLog2 else w.extractLsb' 0 5, enable := w.getLsbD 5 }
/-- ENABLE, RING_LOG2 and CPL_LOG2 of HDS_Q_CTL: the sizes are ignored while ENABLE is 1, a host queue enables only with a ring
size of 4 to 16, and the pushes of a spindle task queue count from its enabling (R344). -/
def Queue.control (u : Queue) (host : Bool) (w : Word) : Queue :=
  let r := if u.enable then u.ringLog2 else w.extractLsb' 8 5
  let c := if u.enable then u.cplLog2 else w.extractLsb' 16 5
  let en := w.getLsbD 0 && (!host || (decide (4 ≤ r.toNat) && decide (r.toNat ≤ 16)))
  { u with enable := en, ringLog2 := r, cplLog2 := c, tail := if en && !u.enable && !host then 0 else u.tail }
/-- HDS_Q_CTL of the selected queue: its RW fields, then FLUSH (R345). -/
def queueWrite (w : Word) (s : State) : Out :=
  let host : Bool := match s.queueCfg s.hds.qSel with | some c => c.dom.isSome | none => false
  onlyIf (w.getLsbD 1) execQueueFlush (s.modQueue s.hds.qSel (fun u => u.control host w))
/-- A write of an HDS register. -/
def hdsWrite (o : Nat) (w : Word) (s : State) : Out :=
  let sel (f : Queue → Queue) : Out := .next (s.modQueue s.hds.qSel (fun u => if u.enable then u else f u))
  let dom (d : Nat) (f : Dom → Dom) : Out := .next { s with hds := { s.hds with dom := tmod s.hds.dom (dn d) f } }
  if o = 0x0 then .next { s with hds := { s.hds with battStale := w1c s.hds.battStale w 12 } }
  else if o = 0x14 then execBatteryWrite w s
  else if o = 0x1000 then .next { s with hds := { s.hds with qSel := Fin.ofNat 4096 (bitsOf w 0 12) } }
  else if o = 0x1008 then
    let t : State := match s.queueCfg s.hds.qSel with | some c => s.noteMissed [(s.hds.qSel, c)] | none => s
    .next (t.modQueue s.hds.qSel (fun u => { u with missed := w1c u.missed w 23 }))
  else if o = 0x100C then queueWrite w s
  else if o = 0x1010 then sel (fun u => { u with ring := setLo u.ring w })
  else if o = 0x1014 then sel (fun u => { u with ring := setHi u.ring w })
  else if o = 0x1018 then sel (fun u => { u with cpl := setLo u.cpl w })
  else if o = 0x101C then sel (fun u => { u with cpl := setHi u.cpl w })
  else
    atSlot 0x204 16 16 o (fun d => dom d (fun x => if x.enable then x else { x with base := setLo x.base w }))
    (atSlot 0x208 16 16 o (fun d => dom d (fun x => if x.enable then x else { x with base := setHi x.base w }))
    (atSlot 0x20C 16 16 o (fun d => dom d (fun x => x.control w)) (.next s)))
/-- A write of an NVS register (R274-R286). -/
def nvsWrite (o : Nat) (w : Word) (s : State) : Out :=
  if o = 0x10 then .next { s with nv := { s.nv with uncorrSeen := w1c s.nv.uncorrSeen w 24 } }
  else if o = 0x20 then .next { s with nv := { s.nv with
    addrPage := w.extractLsb' 0 16, addrOff := w.extractLsb' 16 8, addrRegion := Fin.ofNat 16 (bitsOf w 24 4) } }
  else if o = 0x24 then nvsCommand .host w s
  else if o = 0x204 then .next { s with nv := { s.nv with incPage := w.extractLsb' 0 10, incCopy := w.getLsbD 10 } }
  else if o = 0x214 then .next { s with nv := { s.nv with lflSel := w.extractLsb' 0 8 } }
  else
    atSlot 0x30 8 4 o (fun k => .next { s with nv := { s.nv with pwd := tset s.nv.pwd (Fin.ofNat 8 k) w } })
    (atSlot 0x400 64 4 o (fun k => .next { s with nv := { s.nv with data := tset s.nv.data (Fin.ofNat 64 k) w } }) (.next s))
/-- REC_STR_CTL (R437): the size is ignored while ENABLE is 1, as the ring address is. -/
def Stream.control (x : Stream) (w : Word) : Stream :=
  { x with enable := w.getLsbD 0, ringLog2 := if x.enable then x.ringLog2 else w.extractLsb' 1 5 }
/-- A write of an REC register (R431-R442). -/
def recWrite (o : Nat) (w : Word) (s : State) : Out :=
  let str (k : Nat) (f : Stream → Stream) : Out := .next { s with reng := { s.reng with stream := tmod s.reng.stream (sn k) f } }
  if o = 0x0 then .next { s with reng := { s.reng with lostSeen := w1c s.reng.lostSeen w 3 } }
  else if o = 0x10 then .next { s with reng := { s.reng with rdAddr := setLo s.reng.rdAddr w } }
  else if o = 0x14 then .next { s with reng := { s.reng with rdAddr := setHi s.reng.rdAddr w } }
  else if o = 0x18 then .next { s with reng := { s.reng with rdLen := w } }
  else if o = 0x20 then .next { s with reng := { s.reng with rdSeq := setLo s.reng.rdSeq w } }
  else if o = 0x24 then .next { s with reng := { s.reng with rdSeq := setHi s.reng.rdSeq w } }
  else if o = 0x28 then
    match bitsOf w 0 4 with
    | 1 => execRecordRead (sn (bitsOf w 4 6)) s
    | 2 => execRecordReadAbort s
    | _ => .next s
  else
    atSlot 0x100 8 16 o (fun k => .next { s with reng := { s.reng with unit := tmod s.reng.unit (Fin.ofNat 8 k) (fun u =>
      { u with surpriseSeen := w1c u.surpriseSeen w 5, recoveredSeen := w1c u.recoveredSeen w 6 }) } })
    (atSlot 0x104 8 16 o (fun k => unitCommand (Fin.ofNat 8 k) w s)
    (atSlot 0x1018 64 64 o (fun k => str k (fun x => if x.enable then x else { x with ring := setLo x.ring w }))
    (atSlot 0x101C 64 64 o (fun k => str k (fun x => if x.enable then x else { x with ring := setHi x.ring w }))
    (atSlot 0x1020 64 64 o (fun k => str k (fun x => x.control w))
    (atSlot 0x1024 64 64 o (fun k => execStreamTailWrite (sn k) (w.extractLsb' 0 16) s) (.next s))))))
/-- A write of an MTR register (R405, R415). -/
def mtrWrite (o : Nat) (w : Word) (s : State) : Out :=
  if o = 0x0 then .next { s with mtr := { s.mtr with
    lossSeen := w1c s.mtr.lossSeen w 3, changeSeen := w1c s.mtr.changeSeen w 4 } }
  else if o = 0x200 then execMeterDsSelect w s
  else .next s
/-- A write of an FIO register (R398-R401). -/
def fioWrite (o : Nat) (w : Word) (s : State) : Out :=
  atSlot 0x0 8 16 o (fun g => .next { s with fio := { s.fio with group := tmod s.fio.group (fg g) (fun x =>
    { x with lostSeen := w1c x.lostSeen w 3, overSeen := w1c x.overSeen w 4 }) } })
  (atSlot 0x8 8 16 o (fun g => onlyIf (bitsOf w 0 4 == 1) (execFieldGroupReset (fg g)) s)
  (atSlot 0x1000 128 4 o (fun p => .next { s with fio := { s.fio with point := tmod s.fio.point (pn p) (fun x =>
    { x with ovlSeen := w1c x.ovlSeen w 6 }) } }) (.next s)))
/-- A write of an AGE register (R443, R458). -/
def ageWrite (o : Nat) (w : Word) (s : State) : Out :=
  if o = 0x0 then .next { s with age := { s.age with refOutSeen := w1c s.age.refOutSeen w 3 } }
  else if o = 0x30 then onlyIf (bitsOf w 0 4 == 1) execReplan s
  else if o = 0x40 then execAgeHistSelect (w.extractLsb' 0 13) s
  else .next s
/-- A write of an LNK register (R36-R40, R465). -/
def lnkWrite (o : Nat) (w : Word) (s : State) : Out :=
  if o = 0x0 then .next { s with lnk := { s.lnk with downSeen := w1c s.lnk.downSeen w 10 } }
  else if o = 0x108 then .next { s with time := { s.time with
    stepped := w1c s.time.stepped w 3, leapLast := w1c s.time.leapLast w 4 } }
  else .next s
/-- SEC_CMD (R492): every write clears SEC_PWD. -/
def secCommand (w : Word) (s : State) : Out :=
  andThen (onlyIf (bitsOf w 0 4 == 5) (execReleaseForReturn .host (w.getLsbD 4)) s)
    (fun s => .next { s with sec := { s.sec with pwd := Vector.replicate 8 0 } })
/-- A write of an SEC register (R103-R112, R492). -/
def secWrite (o : Nat) (w : Word) (s : State) : Out :=
  if o = 0x4 then secCommand w s
  else if o = 0x120 then .next { s with stg := { s.stg with addr := setLo s.stg.addr w } }
  else if o = 0x124 then .next { s with stg := { s.stg with addr := setHi s.stg.addr w } }
  else if o = 0x128 then .next { s with stg := { s.stg with len := w } }
  else if o = 0x12C then stgCommand .host w s
  else if o = 0x140 then .next { s with take := { s.take with cycle := setLo s.take.cycle w } }
  else if o = 0x144 then .next { s with take := { s.take with cycle := setHi s.take.cycle w } }
  else if o = 0x148 then onlyIf (bitsOf w 0 4 == 1) (execTake (w.extractLsb' 4 6)) s
  else
    atSlot 0x10 8 4 o (fun k => .next { s with sec := { s.sec with pwd := tset s.sec.pwd (Fin.ofNat 8 k) w } })
    (atSlot 0x180 32 4 o (fun n => .next { s with take := { s.take with parts := tmod s.take.parts (Fin.ofNat 32 n) (fun p =>
      { p with typ := w.extractLsb' 0 8, inst := w.extractLsb' 8 8 }) } }) (.next s))
/-- A write of an HSB register (R386-R391). -/
def hsbWrite (o : Nat) (w : Word) (s : State) : Out :=
  if o = 0x8 then .next { s with hsb := { s.hsb with
    lostSeen := w1c s.hsb.lostSeen w 0, takeoverSeen := w1c s.hsb.takeoverSeen w 1, dualSeen := w1c s.hsb.dualSeen w 2 } }
  else if o = 0x18 then onlyIf (bitsOf w 0 4 == 1) execHandover s
  else if o = 0x20 then execPartnerCommand (rn (bitsOf w 0 8)) (w.extractLsb' 8 4) s
  else .next s
/-- A write of an LCK register (R368-R376). -/
def lckWrite (o : Nat) (w : Word) (s : State) : Out := atSlot 0x2000 64 16 o (fun t => lckCommand (tn t) w s) (.next s)
/-- A whole 32-bit write of the BAR0 register at offset `a` (R497). -/
def State.regWrite (s : State) (a : Nat) (w : Word) : Out :=
  let o := a % 65536
  match a / 65536 with
  | 0 => glbWrite o w s | 1 => rsqWrite o w s | 2 => scnWrite o w s | 3 => trpWrite o w s | 4 => evtWrite o w s | 5 => wdgWrite o w s
  | 6 => spnWrite o w s | 7 => hdsWrite o w s | 8 => nvsWrite o w s | 9 => recWrite o w s | 10 => mtrWrite o w s | 11 => fioWrite o w s
  | 12 => ageWrite o w s | 13 => lnkWrite o w s | 14 => secWrite o w s | 15 => hsbWrite o w s | 16 => lckWrite o w s | _ => .next s

/-! ### A write and an access error (R359-R362) -/

/-- A word with the byte lanes written replaced (R360). -/
def mergeLanes (lanes : BitVec 4) (old new : Word) : Word :=
  let byte (i : Nat) : Byte := if lanes.getLsbD i then new.extractLsb' (8 * i) 8 else old.extractLsb' (8 * i) 8
  byte 3 ++ byte 2 ++ byte 1 ++ byte 0
/-- Whether a BAR2 offset lies in the host mailbox (R296). -/
def inMailbox (a : Nat) : Bool := decide (0x30000 ≤ a) && decide (a < 0x34000)
/-- A write of a host mailbox word: taken whole, with its byte lanes merged (R297, R360). -/
def State.mailboxWrite (s : State) (a : Nat) (lanes : BitVec 4) (w : Word) : State :=
  { s with mem := Memory.putWord s.mem a (mergeLanes lanes (Memory.word s.mem a) w), ecc := s.ecc.filter (· != a) }
/-- REGISTER_WRITE (R296, R359, R360, R362, R498): one 32-bit word of a host write, to BAR2 or BAR0, with its byte lanes. -/
def execRegisterWrite (bar2 : Bool) (offset : Nat) (lanes : BitVec 4) (data : Word) (s : State) : Out :=
  if lanes = 0 || !s.linksPowered then .next s
  else if offset % 4 ≠ 0 then .next (s.accessErr 1 (if bar2 then 1 else 0) offset)
  else if bar2 then
    if inMailbox offset then .next (s.mailboxWrite offset lanes data) else .next (s.accessErr 5 1 offset)
  else match s.bar0 offset with
    | none => .next (s.accessErr 3 0 offset)
    | some (.ro, _) => .next s
    | some (.cmd, _) => if lanes = 0xF then s.regWrite offset data else .next (s.accessErr 2 0 offset)
    | some (.rw, old) => s.regWrite offset (mergeLanes lanes old data)
/-- The first 32-bit half of an aligned BAR0 access, whole or narrow, where no register stands (R361, R362). -/
def State.unmappedHalf (s : State) (offset bytes : Nat) : Option Nat :=
  let half := offset - offset % 4
  ((List.range (if bytes = 8 then 2 else 1)).map (fun k => half + 4 * k)).find? (fun a => (s.bar0 a).isNone)
/-- The cause of the access error of an access, and the offset it names; none where the access is no error (R296, R359-R362). -/
def State.accessCause (s : State) (bar offset bytes : Nat) (write : Bool) : Option (Nat × Nat) :=
  if bar ≠ 1 && decide (8 < bytes) then some (4, offset)
  else if bytes ≠ 0 && offset % bytes ≠ 0 && (bar ≠ 1 || decide (bytes ≤ 8)) then some (1, offset)
  else if bar = 0 then
    match s.unmappedHalf offset bytes with
    | some a => some (3, a)
    | none =>
      if write && decide (bytes < 4) then
        match s.bar0 (offset - offset % 4) with
        | some (.cmd, _) => some (2, offset)
        | _ => none
      else none
  else if bar = 1 then if write && !inMailbox offset then some (5, offset) else none
  else if write && decide (bytes < 4) && decide (offset < 0x10000) then some (6, offset) else none
/-- BAR_ACCESS_ERROR (R359-R362): an access of host software that is an error changes nothing but GLB_ACCESS_ERR. -/
def execBarAccessError (bar : Fin 3) (offset bytes : Nat) (write : Bool) (s : State) : Out :=
  match (if s.linksPowered then s.accessCause bar.val offset bytes write else none) with
  | some (c, a) => .next (s.accessErr c bar.val a)
  | none => .next s

/-! ### Reads with a side effect (R33, R38, R211, R253, R288, R359, R366) -/

/-- What a read of the register at BAR0 offset `a` does beside returning its word; an unmapped offset is an access error. -/
def State.readEffect (s : State) (a : Nat) : Out :=
  let o := a % 65536
  if (s.bar0 a).isNone then .next (s.accessErr 3 0 a)
  else match a / 65536 with
    | 0 => if o = 0x20 then execMtimeLoRead s
      else atSlot 0x100 64 16 o (fun k => execCmdSeqLoRead (sn k) false s) (atSlot 0x108 64 16 o (fun k => execCmdSeqLoRead (sn k) true s) (.next s))
    | 2 => atSlot 0x1000 1024 8 o (fun r => execScnResRead (Fin.ofNat 1024 r) s) (.next s)
    | 4 => atSlot 0x1004 64 32 o (fun t => execEvtClaim (tn t) s) (.next s)
    | 6 => if o = 0 then execCycleLoRead s else .next s
    | 13 => if o = 0x100 then execUtcLoRead s else .next s
    | _ => .next s
/-- Words read one after another from BAR0 offset `a` on, each with its side effect. -/
def State.readWords (s : State) (a : Nat) : Nat → State × List Word
  | 0 => (s, [])
  | k + 1 =>
    let w := s.bar0Word a
    let s1 : State := match s.readEffect a with
      | .next t => t
      | _ => s
    let r := s1.readWords (a + 4) k
    (r.1, w :: r.2)

end Sys2Proof.Machine
end

