-- ==== Sys2Proof/Machine/Edivo.lean ====
section
/-!
DEFINITION. Meanings: Edivo sessions and their messages (R477-R480), but for AUTH, which Machine/Security.lean has.
-/
namespace Sys2Proof.Machine
open Sys2Proof

/-! ### Sessions (R477, R478) -/

/-- EDIVO_SESSION_OPEN (R80, R471, R477): a TCP connection takes a free session, at level VIEW; with four open, or without the
maintenance port running, none opens. -/
def execEdivoSessionOpen (s : State) : Out :=
  if !s.linksPowered || !s.portEn then .next s
  else
    match (List.finRange 4).find? (fun n => (s.lnk.sessions[n]).isNone) with
    | none => .next s
    | some n => .next { s with lnk := { s.lnk with
        sessions := tset s.lnk.sessions n (some { lastAt := s.now }), opened := s.lnk.opened + 1 } }
/-- Whether a presence proof that waits belongs to session `n`. -/
def Presence.of (p : Presence) (n : Fin 4) : Bool :=
  match p with
  | .provision m _ _ => m == n
  | .release o _ => o == some n
/-- Session `n` ends (R104, R274, R477, R479, R480): its unlocks, its staging, its test mode and its open requests end with it. -/
def State.endSession (s : State) (n : Fin 4) : State :=
  match s.lnk.sessions[n] with
  | none => s
  | some x =>
    let own : Owner := .session n
    let s1 : State := if x.testMode then s.endTestMode else s
    let s2 : State := if s1.stg.owner = some own && s1.stg.st != StgState.idle && !s1.stg.switching then s1.stageAbort else s1
    { s2 with
      lnk := { s2.lnk with sessions := tset s2.lnk.sessions n none }
      nv := { s2.nv with
        unlocks := s2.nv.unlocks.filter (fun u => u.owner != own)
        wrongDue := s2.nv.wrongDue.filter (fun u => u.owner != own)
        waitWr := s2.nv.waitWr.filter (fun u => u.owner != own) }
      sec := { s2.sec with waiting := s2.sec.waiting.filter (fun w => !w.1.of n) } }
/-- EDIVO_SESSION_CLOSE (R477): TCP close. -/
def execEdivoSessionClose (n : Fin 4) (s : State) : Out := .next (s.endSession n)
/-- EDIVO_SESSION_TIMEOUT (R477): SESSION_TIMEOUT_S have passed without a message. -/
def execEdivoSessionTimeout (n : Fin 4) (s : State) : Out := .next (s.endSession n)
/-- EDIVO_BYE (R479). -/
def execEdivoBye (n : Fin 4) (s : State) : Out := .next (s.onSession n (fun _ s => (s.reply n 0 .none).endSession n))
/-- EDIVO_BAD_FRAME (R478): answered, and otherwise ignored. -/
def execEdivoBadFrame (n : Fin 4) (s : State) : Out :=
  .next (if (s.lnk.sessions[n]).isSome then s.reply n 2 .none else s)
/-- EDIVO_HELLO (R479). -/
def execEdivoHello (n : Fin 4) (s : State) : Out :=
  .next (s.onSession n (fun x s => s.reply n 0 .none
    [lo32 s.fac.serial, hi32 s.fac.serial, natWord s.fac.hwRev, lo32 s.key.runSerial, hi32 s.key.runSerial, natWord x.level.code]))
/-- A request whose answer the spec does not give: the STATUS of the reply is open. -/
def State.openReply (s : State) (n : Fin 4) : State := (s.reply n (freeNat s.free) .none).tickFree

/-! ### READ (R359, R479) -/

/-- EDIVO_READ (R479): up to 256 registers of BAR0 from `offset` on, or up to 1 KiB of BAR2. -/
def execEdivoRead (n : Fin 4) (bar2 : Bool) (offset count : Nat) (s : State) : Out :=
  .next (s.onSession n (fun _ s =>
    if bar2 then
      if 1024 < count then s.openReply n
      else
        let bytes := (List.range count).map (fun i => s.bar2Byte (offset + i))
        s.reply n 0 .none (bytesToWords ((count + 3) / 4) bytes)
    else if 256 < count || offset % 4 ≠ 0 then s.openReply n
    else
      let r := s.readWords offset count
      r.1.reply n 0 .none r.2))

/-! ### COMMAND (R365, R479) -/

/-- A rail command of Edivo: for the COMMIT, in place of an earlier one to the same register of the session's copy; where no
cycle runs it is judged at once, as the host's (R126, R131, R365). -/
def State.edivoRail (s : State) (rail : RailN) (code : RailCode) : State :=
  if s.g.st.cycleRuns then
    { s with railReqs := s.railReqs.filter (fun q => !(q.src == Src.edivo && q.rail == rail)) ++ [{ src := .edivo, rail := rail, code := code }] }
  else
    let atOnce := s.g.st = .safeHold && s.g.loadOk && (code = .park || code = .unpark || code = .release)
    if atOnce then (s.railCommand { src := .edivo, rail := rail, code := code }).settle else s.answer .edivo rail .refusedState
/-- A margin request of Edivo (R186, R365). -/
def State.edivoMargin (s : State) (rail : RailN) (target : Option Int) : State :=
  if s.g.st.cycleRuns then
    { s with marginReqs := s.marginReqs.filter (fun q => !(q.src == Src.edivo && q.rail == rail)) ++
      [{ src := .edivo, rail := rail, target := target }] }
  else s.marginAnswer .edivo rail .refusedState
/-- A module off or on request of Edivo (R168, R365). -/
def State.edivoModule (s : State) (off : Bool) : State :=
  if s.g.st.cycleRuns then
    { s with cmd := { s.cmd with modReqs := (s.cmd.modReqs.filter (fun q => q.src != Src.edivo)) ++ [{ src := .edivo, off := off }] } }
  else if off then s.offRequest .edivo
  else s.onRequest .edivo
/-- RERUN of Edivo (R158, R365). -/
def State.edivoRerun (s : State) : State :=
  if s.g.st.cycleRuns then { s with seq := { s.seq with rerunEdivo := true } } else s.modAnswer .edivo .refusedState
/-- A command answered at once (R479). -/
def State.answered (s : State) (n : Fin 4) (a : Ans) (ws : List Word := []) : State := s.reply n 4 a ws
/-- REC_UNIT_CMD of a session: the answer goes to the reply and not to the host's register (R438, R479). -/
def edivoUnit (n : Fin 4) (k : Fin 8) (w : Word) (s : State) : Out :=
  let old := s.reng.unit[k].cmdAns
  andThen (unitCommand k w (s.unitAnswer k .none)) (fun s => .next ((s.unitAnswer k old).answered n s.reng.unit[k].cmdAns))
/-- The session's copies of the store's registers, and its unlocks' commands (R274, R479). -/
def edivoStore (n : Fin 4) (o : Nat) (w : Word) (s : State) : Out :=
  if o = 0x20 then
    .next ((s.modSession n (fun x => { x with
      addrPage := w.extractLsb' 0 16, addrOff := w.extractLsb' 16 8, addrRegion := Fin.ofNat 16 (bitsOf w 24 4) })).answered n .none)
  else if o = 0x24 then nvsCommand (.session n) w s
  else
    atSlot 0x30 8 4 o (fun k => .next ((s.modSession n (fun x => { x with pwd := tset x.pwd (Fin.ofNat 8 k) w })).answered n .none))
    (atSlot 0x400 64 4 o (fun k =>
      .next ((s.modSession n (fun x => { x with data := tset x.data (Fin.ofNat 64 k) w })).answered n .none)) (.next (s.openReply n)))
/-- A COMMAND to one of the rail sequencer's registers: answered after the COMMIT, or at once where nothing is commanded. -/
def edivoSequencer (n : Fin 4) (o : Nat) (w : Word) (s : State) : Out :=
  if o = 0xC then .next (if bitsOf w 0 4 = 1 then s.edivoRerun else s.answered n .none)
  else
    atSlot 0x1004 256 16 o (fun i => match railCodeOf (bitsOf w 0 4) with
      | some c => .next (s.edivoRail (rn i) c)
      | none => .next (s.answered n .none))
    (atSlot 0x2000 256 8 o (fun i => match bitsOf w 0 4 with
      | 1 => .next (s.edivoMargin (rn i) (some (w.extractLsb' 8 8).toInt))
      | 2 => .next (s.edivoMargin (rn i) none)
      | _ => .next (s.answered n .none)) (.next (s.openReply n)))
/-- GLB_OFF_CMD and GLB_RESTART of a session (R83, R168). -/
def edivoGlobal (n : Fin 4) (o : Nat) (w : Word) (s : State) : Out :=
  if o = 0x64 then
    match bitsOf w 0 16 with
    | 0x4F46 => .next (s.edivoModule true)
    | 0x4F4E => .next (s.edivoModule false)
    | _ => .next (s.answered n .none)
  else if o = 0x34 then .next (if bitsOf w 0 16 = 0xA5C3 then s.restartRequest .edivo else s.answered n .none)
  else .next (s.openReply n)
/-- One write to a register that COMMAND can name (R479); the spec gives no answer for another register. -/
def edivoWrite (n : Fin 4) (a : Nat) (w : Word) (s : State) : Out :=
  let o := a % 65536
  match a / 65536 with
  | 0 => edivoGlobal n o w s
  | 1 => edivoSequencer n o w s
  | 5 => if o = 0x18 then wdgDisable (.session n) w s else .next (s.openReply n)
  | 8 => edivoStore n o w s
  | 9 => atSlot 0x104 8 16 o (fun k => edivoUnit n (Fin.ofNat 8 k) w s) (.next (s.openReply n))
  | 11 => atSlot 0x8 8 16 o (fun g =>
      if bitsOf w 0 4 = 1 then let r := s.fieldReset (fg g); .next (r.1.answered n r.2) else .next (s.answered n .none))
      (.next (s.openReply n))
  | 14 => if o = 0x12C then andThen (stgCommand (.session n) w s) (fun s => .next (s.answered n .none [s.stg.result.setWidth 32]))
      else .next (s.openReply n)
  | _ => .next (s.openReply n)
/-- EDIVO_COMMAND (R479): one write, at level MAINTENANCE; it never touches the host's registers. -/
def execEdivoCommand (n : Fin 4) (offset : Nat) (data : Word) (s : State) : Out :=
  match s.lnk.sessions[n] with
  | none => .next s
  | some x =>
    let s1 : State := s.modSession n (fun y => { y with lastAt := s.now })
    if x.level = .view then .next (s1.reply n 1 .none) else edivoWrite n offset data s1

/-! ### STAGE_DATA, RECORD_READ and EXPORT (R105, R441, R479) -/

/-- EDIVO_STAGE_DATA (R105, R479): the next part of the image that the session stages. -/
def execEdivoStageData (n : Fin 4) (data : List Byte) (s : State) : Out :=
  if 65536 < data.length then .refused .illFormed
  else .next (s.onSession n (fun x s =>
    if x.level = .view then s.reply n 1 .none
    else if s.stg.st = .writing && s.stg.owner = some (.session n) then
      let b := bankFits (s.key.bankBytes s.target ++ data)
      ({ s with
        key := s.key.program s.target b
        stg := { s.stg with writtenMib := (b.length + 1048575) / 1048576 } }).reply n 0 .none
    else s.openReply n))
/-- EDIVO_RECORD_READ (R441, R479): records of a stream, as many as one message holds; a FOREIGN unit's bytes are what stands on
the medium. -/
def execEdivoRecordRead (n : Fin 4) (what : EdivoRecords) (s : State) : Out :=
  .next (s.onSession n (fun _ s =>
    match what with
    | .stream i seq len =>
      let l := (s.readRecs i seq.toNat (min len 65536) none).1
      let bytes := l.flatMap recBytes
      s.reply n 4 (if l.isEmpty then .notFound else .found) (bytesToWords ((bytes.length + 3) / 4) bytes)
    | .foreign k _ len =>
      if s.reng.unit[k].st = .foreign && decide (len ≤ 65536) then
        let m := (len + 3) / 4
        { (s.reply n 0 .none (s.freeWords m)) with free := s.free + m }
      else s.openReply n))
/-- EDIVO_EXPORT (R285, R419, R457, R479). -/
def execEdivoExport (n : Fin 4) (what : Export) (s : State) : Out :=
  .next (s.onSession n (fun _ s =>
    match what with
    | .inclusion copyB page =>
      if 768 ≤ page then s.reply n 4 .refusedRange
      else
        let r := s.incRead copyB page
        r.1.reply n 4 (if r.2.2 then .damaged else .accepted) r.2.1
    | .laterFault k =>
      if 255 ≤ k then s.reply n 4 .refusedRange
      else match s.nv.cur.lfl[k]? with
      | some e => s.reply n 4 .accepted (bytesToWords 16 e.bytes)
      | none => { (s.reply n 4 .accepted (s.freeWords 16)) with free := s.free + 16 }
    | .history perm k =>
      match (if perm then s.nv.cur.perm else s.nv.cur.ring)[k]? with
      | some r => s.reply n 4 .found (bytesToWords 64 r.bytes)
      | none => s.reply n 4 .notFound
    | .dataSet ds =>
      match s.nv.cur.dataSets.find? (fun d => d.dsSeq == ds) with
      | some d => s.reply n 4 .found (bytesToWords 64 (d.bytes s.fac.serial))
      | none => s.reply n 4 .notFound))

/-! ### TEST_MODE (R480) -/

/-- The states in which TEST_MODE is accepted. -/
def ModSt.tests : ModSt → Bool
  | .sequence | .run | .safeHold => true
  | _ => false
/-- EDIVO_TEST_MODE (R480): entry at standstill, or the end. -/
def execEdivoTestMode (n : Fin 4) (enter : Bool) (s : State) : Out :=
  .next (s.onSession n (fun x s =>
    if x.level = .view then s.reply n 1 .none
    else if !enter then (s.endTestMode).reply n 0 .none
    else if !s.g.st.tests || s.motion.moving then s.reply n 1 .refusedState
    else if x.testMode then s.reply n 0 .none
    else ((s.modSession n (fun y => { y with testMode := true })).juridical "TEST_MODE").reply n 0 .none))

end Sys2Proof.Machine
end

