-- ==== Sys2Proof/Machine/Dispatch.lean ====
section
/-!
DEFINITION. The meaning of each command: one arm for every row of the opcode table.
-/
namespace Sys2Proof.Machine
open Sys2Proof

/-- The effect of a command on everything but the queue. -/
def exec (i : Instr) (s : State) : Host.Outcome State Fault Refusal :=
  match i with
  | .supplyStartThreshold => Sys2Proof.Machine.execSupplyStartThreshold s
  | .vinAbsenceBegin => Sys2Proof.Machine.execVinAbsenceBegin s
  | .supplyLossDeclared => Sys2Proof.Machine.execSupplyLossDeclared s
  | .fluctuationExpiry => Sys2Proof.Machine.execFluctuationExpiry s
  | .vinReturn => Sys2Proof.Machine.execVinReturn s
  | .pfwAssert asserted => Sys2Proof.Machine.execPfwAssert asserted s
  | .internalRailFault => Sys2Proof.Machine.execInternalRailFault s
  | .internalTempMeasure temps => Sys2Proof.Machine.execInternalTempMeasure temps s
  | .holdupEnergyUpdate vinMv bankMv railsGood => Sys2Proof.Machine.execHoldupEnergyUpdate vinMv bankMv railsGood s
  | .holdupChargeStalled => Sys2Proof.Machine.execHoldupChargeStalled s
  | .keyLoadComplete ended => Sys2Proof.Machine.execKeyLoadComplete ended s
  | .selftestComplete test m => Sys2Proof.Machine.execSelftestComplete test m s
  | .slowdownMeasure factor => Sys2Proof.Machine.execSlowdownMeasure factor s
  | .timeBaseCheck ppm => Sys2Proof.Machine.execTimeBaseCheck ppm s
  | .mtimeLoRead => Sys2Proof.Machine.execMtimeLoRead s
  | .utcLoRead => Sys2Proof.Machine.execUtcLoRead s
  | .cycleLoRead => Sys2Proof.Machine.execCycleLoRead s
  | .cmdSeqLoRead src issued => Sys2Proof.Machine.execCmdSeqLoRead src issued s
  | .ptpAnnounceRx port a => Sys2Proof.Machine.execPtpAnnounceRx port a s
  | .ptpSyncRx port offset delay utc => Sys2Proof.Machine.execPtpSyncRx port offset delay utc s
  | .utcHoldover => Sys2Proof.Machine.execUtcHoldover s
  | .leapSecond positive => Sys2Proof.Machine.execLeapSecond positive s
  | .keyRemoved => Sys2Proof.Machine.execKeyRemoved s
  | .keyInserted key => Sys2Proof.Machine.execKeyInserted key s
  | .stage owner downgrade => Sys2Proof.Machine.execStage owner downgrade s
  | .stageWriteDone r => Sys2Proof.Machine.execStageWriteDone r s
  | .stageVerifyDone ended => Sys2Proof.Machine.execStageVerifyDone ended s
  | .verify owner => Sys2Proof.Machine.execVerify owner s
  | .stageAbort owner => Sys2Proof.Machine.execStageAbort owner s
  | .switch owner => Sys2Proof.Machine.execSwitch owner s
  | .selectorWriteDone => Sys2Proof.Machine.execSelectorWriteDone s
  | .take count => Sys2Proof.Machine.execTake count s
  | .takePrepared ended => Sys2Proof.Machine.execTakePrepared ended s
  | .railCmdOn n => Sys2Proof.Machine.execRailCmdOn n s
  | .railCmdOff n => Sys2Proof.Machine.execRailCmdOff n s
  | .railCmdClear n => Sys2Proof.Machine.execRailCmdClear n s
  | .railCmdRelease n => Sys2Proof.Machine.execRailCmdRelease n s
  | .railCmdPark n => Sys2Proof.Machine.execRailCmdPark n s
  | .railCmdUnpark n => Sys2Proof.Machine.execRailCmdUnpark n s
  | .comparatorCrossing k0 level => Sys2Proof.Machine.execComparatorCrossing k0 level s
  | .rampDelayEnd n => Sys2Proof.Machine.execRampDelayEnd n s
  | .rampDeadline n => Sys2Proof.Machine.execRampDeadline n s
  | .pgChange n good => Sys2Proof.Machine.execPgChange n good s
  | .pgDelayExpiry n => Sys2Proof.Machine.execPgDelayExpiry n s
  | .pgFilterExpiry n => Sys2Proof.Machine.execPgFilterExpiry n s
  | .dischargeTimeout n => Sys2Proof.Machine.execDischargeTimeout n s
  | .scanSlotEnd c x => Sys2Proof.Machine.execScanSlotEnd c x s
  | .trimClipped n clipped => Sys2Proof.Machine.execTrimClipped n clipped s
  | .stepDelayExpiry g k => Sys2Proof.Machine.execStepDelayExpiry g k s
  | .stepTimeout g k => Sys2Proof.Machine.execStepTimeout g k s
  | .casInAccepted c high => Sys2Proof.Machine.execCasInAccepted c high s
  | .allowanceExpiry g => Sys2Proof.Machine.execAllowanceExpiry g s
  | .retryPauseEnd => Sys2Proof.Machine.execRetryPauseEnd s
  | .rerun => Sys2Proof.Machine.execRerun s
  | .hostOffRequest => Sys2Proof.Machine.execHostOffRequest s
  | .hostOnRequest => Sys2Proof.Machine.execHostOnRequest s
  | .hostRestart => Sys2Proof.Machine.execHostRestart s
  | .standstillInputChange asserted => Sys2Proof.Machine.execStandstillInputChange asserted s
  | .motionJudgement => Sys2Proof.Machine.execMotionJudgement s
  | .standstillConfirmed => Sys2Proof.Machine.execStandstillConfirmed s
  | .stabledFlushEnd => Sys2Proof.Machine.execStabledFlushEnd s
  | .touchSample count => Sys2Proof.Machine.execTouchSample count s
  | .touchForceOff => Sys2Proof.Machine.execTouchForceOff s
  | .touchRundownOff => Sys2Proof.Machine.execTouchRundownOff s
  | .touchStuck => Sys2Proof.Machine.execTouchStuck s
  | .touchPowerupRelease => Sys2Proof.Machine.execTouchPowerupRelease s
  | .displayPageTimeout => Sys2Proof.Machine.execDisplayPageTimeout s
  | .mrstPress => Sys2Proof.Machine.execMrstPress s
  | .mrstRelease => Sys2Proof.Machine.execMrstRelease s
  | .mrstRestartPress => Sys2Proof.Machine.execMrstRestartPress s
  | .mrstStuck => Sys2Proof.Machine.execMrstStuck s
  | .mrstHeldEnd => Sys2Proof.Machine.execMrstHeldEnd s
  | .hostResetEnd => Sys2Proof.Machine.execHostResetEnd s
  | .marginHold n target => Sys2Proof.Machine.execMarginHold n target s
  | .marginEnd n => Sys2Proof.Machine.execMarginEnd n s
  | .marginSlewStep n => Sys2Proof.Machine.execMarginSlewStep n s
  | .holdExpired n => Sys2Proof.Machine.execHoldExpired n s
  | .probeAbortAll => Sys2Proof.Machine.execProbeAbortAll s
  | .probeRequest n => Sys2Proof.Machine.execProbeRequest n s
  | .probeStepApply n => Sys2Proof.Machine.execProbeStepApply n s
  | .probeSnapshotEnd n samples => Sys2Proof.Machine.execProbeSnapshotEnd n samples s
  | .probeHoldEnd n => Sys2Proof.Machine.execProbeHoldEnd n s
  | .meterBurst samples wins => Sys2Proof.Machine.execMeterBurst samples wins s
  | .calibrationDue c => Sys2Proof.Machine.execCalibrationDue c s
  | .calibrationDone c gain offset agree => Sys2Proof.Machine.execCalibrationDone c gain offset agree s
  | .converterOut c => Sys2Proof.Machine.execConverterOut c s
  | .converterIn c => Sys2Proof.Machine.execConverterIn c s
  | .converterCalibrate c => Sys2Proof.Machine.execConverterCalibrate c s
  | .snapshotTriggerCmd => Sys2Proof.Machine.execSnapshotTriggerCmd s
  | .snapshotBurstEnd samples => Sys2Proof.Machine.execSnapshotBurstEnd samples s
  | .scnResRead r => Sys2Proof.Machine.execScnResRead r s
  | .sampledSampling levels => Sys2Proof.Machine.execSampledSampling levels s
  | .alertAccepted k0 high => Sys2Proof.Machine.execAlertAccepted k0 high s
  | .holdoffEnd g => Sys2Proof.Machine.execHoldoffEnd g s
  | .evtClaim t => Sys2Proof.Machine.execEvtClaim t s
  | .evtComplete t src => Sys2Proof.Machine.execEvtComplete t src s
  | .evtPendWrite g w => Sys2Proof.Machine.execEvtPendWrite g w s
  | .evtMaskWrite g w => Sys2Proof.Machine.execEvtMaskWrite g w s
  | .evtPrioWrite t prio => Sys2Proof.Machine.execEvtPrioWrite t prio s
  | .gatherTimeout => Sys2Proof.Machine.execGatherTimeout s
  | .commitGroupDone => Sys2Proof.Machine.execCommitGroupDone s
  | .nvScrub r => Sys2Proof.Machine.execNvScrub r s
  | .nvsRead owner => Sys2Proof.Machine.execNvsRead owner s
  | .nvsWrite owner len => Sys2Proof.Machine.execNvsWrite owner len s
  | .nvsCommitNow owner => Sys2Proof.Machine.execNvsCommitNow owner s
  | .nvsUnlockRead owner => Sys2Proof.Machine.execNvsUnlockRead owner s
  | .nvsUnlockWrite owner => Sys2Proof.Machine.execNvsUnlockWrite owner s
  | .nvsUnlockClear owner => Sys2Proof.Machine.execNvsUnlockClear owner s
  | .nvsLock owner => Sys2Proof.Machine.execNvsLock owner s
  | .nvsReadInc owner => Sys2Proof.Machine.execNvsReadInc owner s
  | .nvsReadLfl owner => Sys2Proof.Machine.execNvsReadLfl owner s
  | .nvsClear owner scope force n => Sys2Proof.Machine.execNvsClear owner scope force n s
  | .passwordLockoutExpiry k0 => Sys2Proof.Machine.execPasswordLockoutExpiry k0 s
  | .inclusionCopyADone => Sys2Proof.Machine.execInclusionCopyADone s
  | .inclusionCopyBDone => Sys2Proof.Machine.execInclusionCopyBDone s
  | .inclusionClearDone => Sys2Proof.Machine.execInclusionClearDone s
  | .sealDone => Sys2Proof.Machine.execSealDone s
  | .lastGaspFlushEnd => Sys2Proof.Machine.execLastGaspFlushEnd s
  | .lastGaspDropStep => Sys2Proof.Machine.execLastGaspDropStep s
  | .wakeTimerExpiry => Sys2Proof.Machine.execWakeTimerExpiry s
  | .closingTick => Sys2Proof.Machine.execClosingTick s
  | .inputFreeze => Sys2Proof.Machine.execInputFreeze s
  | .iLd l => Sys2Proof.Machine.execLd l s
  | .iLdn l => Sys2Proof.Machine.execLdn l s
  | .iAnd l => Sys2Proof.Machine.execAnd l s
  | .iAndn l => Sys2Proof.Machine.execAndn l s
  | .iOr l => Sys2Proof.Machine.execOr l s
  | .iOrn l => Sys2Proof.Machine.execOrn l s
  | .iXor l => Sys2Proof.Machine.execXor l s
  | .iSt l => Sys2Proof.Machine.execSt l s
  | .iSet l => Sys2Proof.Machine.execSet l s
  | .iRst l => Sys2Proof.Machine.execRst l s
  | .iNot l => Sys2Proof.Machine.execNot l s
  | .iBpush l => Sys2Proof.Machine.execBpush l s
  | .iBpopand l => Sys2Proof.Machine.execBpopand l s
  | .iBpopor l => Sys2Proof.Machine.execBpopor l s
  | .iRe l => Sys2Proof.Machine.execRe l s
  | .iFe l => Sys2Proof.Machine.execFe l s
  | .iTon l => Sys2Proof.Machine.execTon l s
  | .iTof l => Sys2Proof.Machine.execTof l s
  | .iTp l => Sys2Proof.Machine.execTp l s
  | .iCtu l => Sys2Proof.Machine.execCtu l s
  | .iCtd l => Sys2Proof.Machine.execCtd l s
  | .iCrst l => Sys2Proof.Machine.execCrst l s
  | .iLdw l => Sys2Proof.Machine.execLdw l s
  | .iLdi l => Sys2Proof.Machine.execLdi l s
  | .iLdih l => Sys2Proof.Machine.execLdih l s
  | .iStw l => Sys2Proof.Machine.execStw l s
  | .iAdd l => Sys2Proof.Machine.execAdd l s
  | .iSub l => Sys2Proof.Machine.execSub l s
  | .iMul l => Sys2Proof.Machine.execMul l s
  | .iDiv l => Sys2Proof.Machine.execDiv l s
  | .iAndw l => Sys2Proof.Machine.execAndw l s
  | .iOrw l => Sys2Proof.Machine.execOrw l s
  | .iXorw l => Sys2Proof.Machine.execXorw l s
  | .iShl l => Sys2Proof.Machine.execShl l s
  | .iShr l => Sys2Proof.Machine.execShr l s
  | .iMova l => Sys2Proof.Machine.execMova l s
  | .iMovw l => Sys2Proof.Machine.execMovw l s
  | .iAddi l => Sys2Proof.Machine.execAddi l s
  | .iCmpeq l => Sys2Proof.Machine.execCmpeq l s
  | .iCmpne l => Sys2Proof.Machine.execCmpne l s
  | .iCmpgt l => Sys2Proof.Machine.execCmpgt l s
  | .iCmplt l => Sys2Proof.Machine.execCmplt l s
  | .iLim l => Sys2Proof.Machine.execLim l s
  | .iScale l => Sys2Proof.Machine.execScale l s
  | .iAbs l => Sys2Proof.Machine.execAbs l s
  | .iResc l => Sys2Proof.Machine.execResc l s
  | .iRail l => Sys2Proof.Machine.execRail l s
  | .iMrg l => Sys2Proof.Machine.execMrg l s
  | .iEvt l => Sys2Proof.Machine.execEvt l s
  | .iSigsync l => Sys2Proof.Machine.execSigsync l s
  | .iWaitsync l => Sys2Proof.Machine.execWaitsync l s
  | .iLock l => Sys2Proof.Machine.execLock l s
  | .iUnlock l => Sys2Proof.Machine.execUnlock l s
  | .iJmp l => Sys2Proof.Machine.execJmp l s
  | .iJc l => Sys2Proof.Machine.execJc l s
  | .iJnc l => Sys2Proof.Machine.execJnc l s
  | .iLoop l => Sys2Proof.Machine.execLoop l s
  | .iCall l => Sys2Proof.Machine.execCall l s
  | .iRet l => Sys2Proof.Machine.execRet l s
  | .iBend l => Sys2Proof.Machine.execBend l s
  | .iPend l => Sys2Proof.Machine.execPend l s
  | .iNop l => Sys2Proof.Machine.execNop l s
  | .programRestart n => Sys2Proof.Machine.execProgramRestart n s
  | .programStop n => Sys2Proof.Machine.execProgramStop n s
  | .mismatch q kind ckOk => Sys2Proof.Machine.execMismatch q kind ckOk s
  | .replayEnd l => Sys2Proof.Machine.execReplayEnd l s
  | .pairSelftest q => Sys2Proof.Machine.execPairSelftest q s
  | .pairInject q => Sys2Proof.Machine.execPairInject q s
  | .pairSelftestStart q => Sys2Proof.Machine.execPairSelftestStart q s
  | .pairSelftestDone q pass => Sys2Proof.Machine.execPairSelftestDone q pass s
  | .pairShadowDone q agree => Sys2Proof.Machine.execPairShadowDone q agree s
  | .spareSelfcheckFail q => Sys2Proof.Machine.execSpareSelfcheckFail q s
  | .levelRecompute due pMod => Sys2Proof.Machine.execLevelRecompute due pMod s
  | .batteryWrite joules => Sys2Proof.Machine.execBatteryWrite joules s
  | .batteryTimeout => Sys2Proof.Machine.execBatteryTimeout s
  | .queuePush q w => Sys2Proof.Machine.execQueuePush q w s
  | .queueComplete q index aborted => Sys2Proof.Machine.execQueueComplete q index aborted s
  | .queueCancel q index => Sys2Proof.Machine.execQueueCancel q index s
  | .queueFlush => Sys2Proof.Machine.execQueueFlush s
  | .descriptorReadDone q est => Sys2Proof.Machine.execDescriptorReadDone q est s
  | .dispatchRound => Sys2Proof.Machine.execDispatchRound s
  | .domainIdleTimeout d => Sys2Proof.Machine.execDomainIdleTimeout d s
  | .lckAcquire t o => Sys2Proof.Machine.execLckAcquire t o s
  | .lckRelease t o => Sys2Proof.Machine.execLckRelease t o s
  | .lckReleaseClearPoison t o => Sys2Proof.Machine.execLckReleaseClearPoison t o s
  | .syncSignal t o => Sys2Proof.Machine.execSyncSignal t o s
  | .syncWait t o notify prio => Sys2Proof.Machine.execSyncWait t o notify prio s
  | .syncCancelWait t => Sys2Proof.Machine.execSyncCancelWait t s
  | .resetEpoch t => Sys2Proof.Machine.execResetEpoch t s
  | .syncTimerSignal o => Sys2Proof.Machine.execSyncTimerSignal o s
  | .barAccessError bar offset bytes write => Sys2Proof.Machine.execBarAccessError bar offset bytes write s
  | .registerWrite bar2 offset lanes data => Sys2Proof.Machine.execRegisterWrite bar2 offset lanes data s
  | .heartbeatSend => Sys2Proof.Machine.execHeartbeatSend s
  | .heartbeatRx link b => Sys2Proof.Machine.execHeartbeatRx link b s
  | .partnerLoss => Sys2Proof.Machine.execPartnerLoss s
  | .tailstockLinkLoss link => Sys2Proof.Machine.execTailstockLinkLoss link s
  | .seekTimeout => Sys2Proof.Machine.execSeekTimeout s
  | .mirrorRx m => Sys2Proof.Machine.execMirrorRx m s
  | .handover => Sys2Proof.Machine.execHandover s
  | .partnerCommand n code => Sys2Proof.Machine.execPartnerCommand n code s
  | .fieldSample g contacts current => Sys2Proof.Machine.execFieldSample g contacts current s
  | .silentLogicExpiry p => Sys2Proof.Machine.execSilentLogicExpiry p s
  | .groupSupplyLost g => Sys2Proof.Machine.execGroupSupplyLost g s
  | .groupSupplyReturned g => Sys2Proof.Machine.execGroupSupplyReturned g s
  | .groupOverload g => Sys2Proof.Machine.execGroupOverload g s
  | .pointOverload p thermal => Sys2Proof.Machine.execPointOverload p thermal s
  | .pointOverloadClear p => Sys2Proof.Machine.execPointOverloadClear p s
  | .fieldGroupReset g => Sys2Proof.Machine.execFieldGroupReset g s
  | .lineJudgement levels => Sys2Proof.Machine.execLineJudgement levels s
  | .systemClassify wins => Sys2Proof.Machine.execSystemClassify wins s
  | .dataSetSigned => Sys2Proof.Machine.execDataSetSigned s
  | .meterDsSelect ds => Sys2Proof.Machine.execMeterDsSelect ds s
  | .streamTailWrite k0 tail => Sys2Proof.Machine.execStreamTailWrite k0 tail s
  | .blockWrite k0 => Sys2Proof.Machine.execBlockWrite k0 s
  | .unitFlush writeMbs inMbs => Sys2Proof.Machine.execUnitFlush writeMbs inMbs s
  | .unitWriteDone k flush => Sys2Proof.Machine.execUnitWriteDone k flush s
  | .unitPresent k => Sys2Proof.Machine.execUnitPresent k s
  | .unitControllerReady k met chunks wearPct => Sys2Proof.Machine.execUnitControllerReady k met chunks wearPct s
  | .unitTrainingTimeout k => Sys2Proof.Machine.execUnitTrainingTimeout k s
  | .unitVerifyDone k r => Sys2Proof.Machine.execUnitVerifyDone k r s
  | .unitShutdownDone k => Sys2Proof.Machine.execUnitShutdownDone k s
  | .unitRemoved k => Sys2Proof.Machine.execUnitRemoved k s
  | .storageLinkDown k => Sys2Proof.Machine.execStorageLinkDown k s
  | .unitWriteError k linkLost => Sys2Proof.Machine.execUnitWriteError k linkLost s
  | .unitRelease k force => Sys2Proof.Machine.execUnitRelease k force s
  | .unitAdmit k => Sys2Proof.Machine.execUnitAdmit k s
  | .unitFormat k force => Sys2Proof.Machine.execUnitFormat k force s
  | .recordRead k0 => Sys2Proof.Machine.execRecordRead k0 s
  | .recordReadAbort => Sys2Proof.Machine.execRecordReadAbort s
  | .recordReadDone hostError damaged => Sys2Proof.Machine.execRecordReadDone hostError damaged s
  | .replanDue => Sys2Proof.Machine.execReplanDue s
  | .replan => Sys2Proof.Machine.execReplan s
  | .replanEnd m => Sys2Proof.Machine.execReplanEnd m s
  | .coreOffsetStep => Sys2Proof.Machine.execCoreOffsetStep s
  | .holdupTestStart => Sys2Proof.Machine.execHoldupTestStart s
  | .holdupTestEnd dv step => Sys2Proof.Machine.execHoldupTestEnd dv step s
  | .referenceCheck ab bc ca => Sys2Proof.Machine.execReferenceCheck ab bc ca s
  | .cellCheck mv => Sys2Proof.Machine.execCellCheck mv s
  | .loadEstimateSample due => Sys2Proof.Machine.execLoadEstimateSample due s
  | .ageHistSelect sel => Sys2Proof.Machine.execAgeHistSelect sel s
  | .hostWdgService w => Sys2Proof.Machine.execHostWdgService w s
  | .hostWdgExpiry => Sys2Proof.Machine.execHostWdgExpiry s
  | .spindleWdgExpiry q => Sys2Proof.Machine.execSpindleWdgExpiry q s
  | .wdgDisableArm owner => Sys2Proof.Machine.execWdgDisableArm owner s
  | .wdgDisableConfirm owner which => Sys2Proof.Machine.execWdgDisableConfirm owner which s
  | .perstAssert => Sys2Proof.Machine.execPerstAssert s
  | .hostFunctionReset => Sys2Proof.Machine.execHostFunctionReset s
  | .hostLinkDown => Sys2Proof.Machine.execHostLinkDown s
  | .hostLinkUp width rate => Sys2Proof.Machine.execHostLinkUp width rate s
  | .netOffRequest => Sys2Proof.Machine.execNetOffRequest s
  | .netOnRequest => Sys2Proof.Machine.execNetOnRequest s
  | .netRailCommand n code => Sys2Proof.Machine.execNetRailCommand n code s
  | .speedReportRx port data => Sys2Proof.Machine.execSpeedReportRx port data s
  | .locationRx port data => Sys2Proof.Machine.execLocationRx port data s
  | .statusTelegram => Sys2Proof.Machine.execStatusTelegram s
  | .wakeFrameRx port payload => Sys2Proof.Machine.execWakeFrameRx port payload s
  | .edivoHello n => Sys2Proof.Machine.execEdivoHello n s
  | .edivoRead n bar2 offset count => Sys2Proof.Machine.execEdivoRead n bar2 offset count s
  | .edivoCommand n offset data => Sys2Proof.Machine.execEdivoCommand n offset data s
  | .edivoStageData n data => Sys2Proof.Machine.execEdivoStageData n data s
  | .edivoRecordRead n what => Sys2Proof.Machine.execEdivoRecordRead n what s
  | .edivoExport n what => Sys2Proof.Machine.execEdivoExport n what s
  | .edivoTestMode n enter => Sys2Proof.Machine.execEdivoTestMode n enter s
  | .edivoBye n => Sys2Proof.Machine.execEdivoBye n s
  | .edivoSessionClose n => Sys2Proof.Machine.execEdivoSessionClose n s
  | .edivoSessionTimeout n => Sys2Proof.Machine.execEdivoSessionTimeout n s
  | .challenge n index => Sys2Proof.Machine.execChallenge n index s
  | .login n index proof => Sys2Proof.Machine.execLogin n index proof s
  | .setPassword n p => Sys2Proof.Machine.execSetPassword n p s
  | .provision n key p => Sys2Proof.Machine.execProvision n key p s
  | .presenceTimeout => Sys2Proof.Machine.execPresenceTimeout s
  | .rekey n key sig => Sys2Proof.Machine.execRekey n key sig s
  | .releaseForReturn owner force => Sys2Proof.Machine.execReleaseForReturn owner force s
  | .releaseDone => Sys2Proof.Machine.execReleaseDone s
  | .logout n => Sys2Proof.Machine.execLogout n s
  | .maker n token => Sys2Proof.Machine.execMaker n token s
  | .girdleBreach cause => Sys2Proof.Machine.execGirdleBreach cause s
  | .calOverdue c => Sys2Proof.Machine.execCalOverdue c s
  | .msixMaskChange en fnMask vecMask => Sys2Proof.Machine.execMsixMaskChange en fnMask vecMask s
  | .storageLinkRecovered k => Sys2Proof.Machine.execStorageLinkRecovered k s
  | .streamPayloadAdmitted k0 len typ sync payload => Sys2Proof.Machine.execStreamPayloadAdmitted k0 len typ sync payload s
  | .ptpMasterLoss port => Sys2Proof.Machine.execPtpMasterLoss port s
  | .netLinkChange port isUp g1000 => Sys2Proof.Machine.execNetLinkChange port isUp g1000 s
  | .edivoSessionOpen => Sys2Proof.Machine.execEdivoSessionOpen s
  | .edivoBadFrame n => Sys2Proof.Machine.execEdivoBadFrame n s
end Sys2Proof.Machine
end

