-- ==== Sys2Proof/Machine/Tick.lean ====
section
/-!
DEFINITION. The fine tick (R5, R30-R39): what 10 ns of time do, whatever is commanded. A step on an empty queue is one fine tick.
-/
namespace Sys2Proof.Machine
open Sys2Proof

/-- A leap second that acts at this tick is reported, and the open meter period carries LEAP (R39, R415). -/
def State.leapActs (s : State) : State :=
  if s.time.utcQual = 0 || 0 < s.time.leapLeft || s.time.leapHere.isNone then s
  else
    let leap : BitVec 32 := if s.mtr.open_ then 1#32 <<< 6 else 0
    ({ s with mtr := { s.mtr with flags := s.mtr.flags ||| leap } }).raise 29
/-- A step of UTC that waits takes place at a coarse tick (R37). -/
def State.stepActs (s : State) : State :=
  match s.time.stepDue with
  | none => s
  | some d => if s.now % 1000 = 0 then ({ s with time := { s.time with stepDue := none } }).stepUtc d else s
/-- Operating time over one fine tick (R264). -/
def NvData.tick (d : NvData) : NvData := { d with opNs := d.opNs + 10 }
/-- One fine tick (R31): module time and UTC run in every state but OFF, with a due leap second or step of UTC (R37, R39); operating
time outside STABLED as well; offset trims move toward their targets (R238); and each store buffer drains one store (R308). -/
def State.fineTick (s : State) : State :=
  if s.g.st = .off then s
  else
    let s0 : State := s.leapActs
    let s1 : State := ({ s0 with time := s.time.tick }).stepActs
    let s2 : State := if s.g.st.operating then
      { s1 with nv := { s1.nv with cur := s1.nv.cur.tick, durable := s1.nv.durable.tick, committing := s1.nv.committing.map NvData.tick } }
      else s1
    (List.finRange 8).foldl State.drainOne s2.slewTrims

end Sys2Proof.Machine
end

