-- ==== Sys2Proof/Machine/Step.lean ====
section
/-!
DEFINITION. One step of the block: the command at the front of the queue runs; with nothing waiting, one fine tick passes.
-/
namespace Sys2Proof.Machine
open Sys2Proof

/-- The state that a command meets: the queue without it. -/
def State.dequeue (s : State) : State := { s with pending := s.pending.tail }
/-- The state with a command put at the front of the queue. -/
def State.enqueueFront (s : State) (c : Instr) : State := { s with pending := c :: s.pending }
/-- One step: the first waiting command, or one fine tick (R30). -/
def step (s : State) : Host.Outcome State Fault Refusal :=
  match s.pending with
  | [] => .next s.fineTick
  | c :: _ => exec c s.dequeue
/-- `s` with the command that a word spells at the front of the queue; no word spells one. -/
def State.withFetchWord (s : State) (nbits w : Nat) : State :=
  match decodeTableWord nbits w with
  | some c => s.enqueueFront c
  | none => s

end Sys2Proof.Machine
end

