-- ==== Sys2Proof/WellFormed.lean ====
section
/-!
DEFINITION. Well-formed commands: the operand lists have the lengths that the spec gives the happening. An ill-formed command
is one that no hardware could send, and its meaning refuses it by name.
-/
namespace Sys2Proof

/-- The measurements of a re-plan (R28, R29, R447, R448): 13 path factors, 320 comparator offsets, 8 energy fits of each kind. -/
def ReplanIn.wellFormed (m : ReplanIn) : Bool :=
  m.factors.length == 13 && m.offsets.length == 320 && m.kR.length == 8 && m.kC.length == 8

/-- Whether a command's operands have the shape that the spec gives them. -/
def Instr.wellFormed (i : Instr) : Bool :=
  match i with
  | .internalTempMeasure temps => temps.length == 6
  | .selftestComplete _ m => m.wellFormed
  | .replanEnd m => m.wellFormed
  | .probeSnapshotEnd _ samples => samples.length == 4096
  | .meterBurst samples wins => samples.length == 4 && wins.length == 4
  | .snapshotBurstEnd samples => samples.length == 16
  | .sampledSampling levels => levels.length == 16
  | .lineJudgement levels => levels.length == 4
  | .systemClassify wins => wins.length == 4
  | .streamPayloadAdmitted _ len typ _ payload =>
    !(decide (1 ≤ len.toNat) && decide (len.toNat ≤ 1048512) && decide (16 ≤ typ.toNat)) || payload.length == len.toNat
  | .edivoStageData _ data => decide (data.length ≤ 65536)
  | _ => true

end Sys2Proof
end

