-- ==== Sys2Proof/Safety.lean ====
section
/-!
DEFINITION. What the claims call safe: the invariant of every state, and a run that meets no fault and no refusal.
-/
namespace Sys2Proof.Safety
open Sys2Proof Sys2Proof.Machine

/-- The invariant that every step keeps: the memory is in its canonical form (Machine/Memory.lean). -/
def Inv (s : State) : Prop := Memory.wf s.mem = true
/-- The commands whose effect can reach the image memory: those that store, freeze, close or restart a cycle, and those that a
module state entered or left stands behind; every other command leaves it alone. -/
def mayWriteImage : Instr → Bool
  | .supplyStartThreshold .. | .pfwAssert .. | .internalRailFault .. | .keyLoadComplete .. | .selftestComplete ..
  | .timeBaseCheck .. | .keyRemoved .. | .railCmdOn .. | .railCmdOff .. | .railCmdClear .. | .railCmdRelease ..
  | .railCmdPark .. | .railCmdUnpark .. | .comparatorCrossing .. | .rampDelayEnd .. | .rampDeadline ..
  | .pgDelayExpiry .. | .pgFilterExpiry .. | .dischargeTimeout .. | .scanSlotEnd .. | .stepDelayExpiry ..
  | .stepTimeout .. | .casInAccepted .. | .allowanceExpiry .. | .retryPauseEnd .. | .hostOffRequest ..
  | .hostOnRequest .. | .hostRestart .. | .standstillConfirmed .. | .touchSample .. | .touchForceOff ..
  | .touchRundownOff .. | .mrstRestartPress .. | .sampledSampling .. | .alertAccepted .. | .commitGroupDone ..
  | .inclusionCopyBDone .. | .sealDone .. | .lastGaspDropStep .. | .wakeTimerExpiry .. | .closingTick ..
  | .inputFreeze .. | .iLd .. | .iLdn .. | .iAnd .. | .iAndn .. | .iOr .. | .iOrn .. | .iXor .. | .iSt .. | .iSet ..
  | .iRst .. | .iNot .. | .iBpush .. | .iBpopand .. | .iBpopor .. | .iRe .. | .iFe .. | .iTon .. | .iTof .. | .iTp ..
  | .iCtu .. | .iCtd .. | .iCrst .. | .iLdw .. | .iLdi .. | .iLdih .. | .iStw .. | .iAdd .. | .iSub .. | .iMul ..
  | .iDiv .. | .iAndw .. | .iOrw .. | .iXorw .. | .iShl .. | .iShr .. | .iMova .. | .iMovw .. | .iAddi ..
  | .iCmpeq .. | .iCmpne .. | .iCmpgt .. | .iCmplt .. | .iLim .. | .iScale .. | .iAbs .. | .iResc .. | .iRail ..
  | .iMrg .. | .iEvt .. | .iSigsync .. | .iWaitsync .. | .iLock .. | .iUnlock .. | .iJmp .. | .iJc .. | .iJnc ..
  | .iLoop .. | .iCall .. | .iRet .. | .iBend .. | .iPend .. | .iNop .. | .mismatch .. | .replayEnd ..
  | .barAccessError .. | .registerWrite .. | .fieldSample .. | .groupSupplyLost .. | .groupSupplyReturned ..
  | .replanEnd .. | .hostWdgService .. | .hostWdgExpiry .. | .spindleWdgExpiry .. | .netOffRequest ..
  | .netOnRequest .. | .wakeFrameRx .. | .edivoCommand .. | .edivoStageData .. | .edivoRecordRead ..
  | .edivoExport .. | .edivoTestMode .. | .edivoBye .. | .edivoSessionClose .. | .edivoSessionTimeout ..
  | .releaseDone .. | .edivoBadFrame .. => true
  | _ => false
/-- A command that completes from a state. -/
def Completes (c : Instr) (s : State) : Prop := ∃ t, exec c s = .next t
/-- A run of `k` steps that meets no fault and no refusal. -/
def SafeRun (k : Nat) (s : State) : Prop := ∃ t, Host.Core.run core k s = .next t

end Sys2Proof.Safety
end

