-- ==== Sys2Proof/Certificates/Slice0/Obligations.lean ====
section
/-!
DEFINITION. The statements for the provers.
-/
open Sys2Proof Sys2Proof.Machine

/-- A step with a command at the front of the queue is that command on the state with the queue's rest. The queue is the model's own (log entry 1). -/
def Obligations.StepRunsFrontCommand : Prop :=
  ∀ (c : Instr) (s : State),
    step (s.enqueueFront c) = exec c s

/-- A step on an empty queue: the fine tick (DESIGN CHOICE, log entry 1). -/
def Obligations.EmptyQueueIsOneFineTick : Prop :=
  (∀ (s : State),
    s.pending = [] →
    step s = .next s.fineTick) ∧
  (∀ (s : State),
    s.g.st ≠ .off →
    s.fineTick.time.mtime = s.time.mtime + 10 ∧ s.fineTick.g = s.g ∧ s.fineTick.pending = s.pending) ∧
  (∀ (s : State),
    s.g.st = .off →
    s.fineTick = s)

/-- State.reset meets Safety.Inv: its memory is in canonical form; its queue is empty. -/
def Obligations.ResetMeetsInvariant : Prop :=
  Safety.Inv State.reset ∧ State.reset.pending = []

/-- From every state whose image memory is in canonical form (addresses strictly rising, no listed byte 0), whatever the rest of the state holds and whatever command waits at the front of the queue, a step that answers a next state answers one whose memory is in canonical form. -/
def Obligations.StepKeepsInvariant : Prop :=
  ∀ (s t : State),
    Safety.Inv s →
    step s = .next t →
    Safety.Inv t

/-- The queue frame, over all commands. The queue is the model's own (log entry 1). -/
def Obligations.ExecKeepsQueue : Prop :=
  ∀ (c : Instr) (s t : State),
    exec c s = .next t →
    t.pending = s.pending

/-- Completion of every well-formed command, over all states. What well-formed means is the model's choice (log entry 36). -/
def Obligations.WellFormedCommandsComplete : Prop :=
  ∀ (c : Instr) (s : State),
    c.wellFormed = true →
    Safety.Completes c s

/-- What is refused: the ill-formed commands, and nothing else (log entry 36, DESIGN CHOICE); no command faults. -/
def Obligations.IllFormedCommandsAreRefused : Prop :=
  (∀ (c : Instr) (s : State),
    c.wellFormed = false →
    exec c s = .refused .illFormed) ∧
  (∀ (c : Instr) (s : State) (r : Refusal),
    exec c s = .refused r →
    c.wellFormed = false ∧ r = .illFormed) ∧
  (∀ (c : Instr) (s : State) (f : Fault),
    exec c s ≠ .fault f)

/-- SUPPLY_START_THRESHOLD takes the module from OFF to START. VIN_ABSENCE_BEGIN and FLUCTUATION_EXPIRY mark a present VIN absent, and leave an absence that has begun as it is. SUPPLY_LOSS_DECLARED with VIN absent records the loss, abandons a hold-up test and raises source 10; from START, LOAD and CHECK it enters LAST_GASP, from STABLED, and from the START of a wake in the same microsecond, OFF. VIN_RETURN marks VIN present; an absence that was not declared a loss is an interruption, and a deferred commit is tried again. -/
def Obligations.SupplyCommandsAct : Prop :=
  (∀ (s : State),
    s.g.st = .off →
    exec .supplyStartThreshold s = .next ({ s with sup := { s.sup with present := true, lossDeclared := false } }.startEntry 0 0)) ∧
  (∀ (s : State),
    s.sup.present = true →
    exec .vinAbsenceBegin s = .next { s with sup := { s.sup with present := false, lossDeclared := false } }) ∧
  (∀ (s : State),
    s.sup.present = true →
    exec .fluctuationExpiry s = .next { s with sup := { s.sup with present := false, lossDeclared := false } }) ∧
  (∀ (s : State),
    s.sup.present = false →
    exec .vinAbsenceBegin s = .next s ∧ exec .fluctuationExpiry s = .next s) ∧
  (∀ (s : State),
    s.sup.present = false →
    s.g.st ∈ [ModSt.unprovisioned, .sequence, .run, .runDown, .safeHold, .lastGasp] →
    exec .supplyLossDeclared s = .next (({ s with sup := { s.sup with lossDeclared := true, lossSeen := true } }.abandonTest).raise 10)) ∧
  (∀ (s : State),
    s.sup.present = false →
    s.g.st ∈ [ModSt.load, .check] ∨ (s.g.st = .start ∧ s.g.wokeAt ≠ some (s.now / 1000)) →
    exec .supplyLossDeclared s = .next (({ s with sup := { s.sup with lossDeclared := true, lossSeen := true } }.abandonTest).raise 10).enterLastGasp) ∧
  (∀ (s : State),
    s.sup.present = false →
    s.g.st = .start →
    s.g.wokeAt = some (s.now / 1000) →
    exec .supplyLossDeclared s = .next ({ s with sup := { s.sup with lossDeclared := true, lossSeen := true } }.abandonTest).enterOff) ∧
  (∀ (s : State),
    s.sup.present = false →
    s.g.st = .stabled →
    exec .supplyLossDeclared s = .next ({ s with sup := { s.sup with lossDeclared := true, lossSeen := true } }.abandonTest).enterOff) ∧
  (∀ (s : State),
    s.sup.present = false →
    s.sup.lossDeclared = false →
    exec .vinReturn s = .next ({ s with sup := { s.sup with present := true, lossDeclared := false, interruptionSeen := true } }.raise 10).deferredRetry) ∧
  (∀ (s : State),
    s.sup.present = false →
    s.sup.lossDeclared = true →
    exec .vinReturn s = .next ({ s with sup := { s.sup with present := true, lossDeclared := false } }).deferredRetry)

/-- PFW_N asserted where the configuration uses it, outside STABLED, abandons a hold-up test, shows the pin and raises source 10; its release raises source 10; in STABLED an assertion is logged and the release after it is wake source 5. A fault of an internal rail outside OFF passes the module through START with reset cause 6, and its time joins the times of the last hour. -/
def Obligations.PfwAndInternalRail : Prop :=
  (∀ (s : State) (m : CModule),
    s.modCfg = some m →
    m.pfwUsed = true →
    s.sup.pfwPin = false →
    s.g.st ≠ .stabled →
    exec (.pfwAssert true) s = .next (({ s.abandonTest with sup := { s.sup with pfwPin := true } }).raise 10).deferredRetry) ∧
  (∀ (s : State) (m : CModule),
    s.modCfg = some m →
    m.pfwUsed = true →
    s.sup.pfwPin = true →
    s.g.st ≠ .stabled →
    exec (.pfwAssert false) s = .next (({ s with sup := { s.sup with pfwPin := false } }).raise 10).deferredRetry) ∧
  (∀ (s : State) (m : CModule),
    s.modCfg = some m →
    m.pfwUsed = true →
    s.sup.pfwPin = true →
    s.sup.pfwAssertedInStabled = true →
    s.g.st = .stabled →
    exec (.pfwAssert false) s = .next (({ s with sup := { s.sup with pfwPin := false } }.raise 10).wakeUp 5)) ∧
  (∀ (s t : State),
    s.g.st ≠ .off →
    t = s.startEntry 6 0 →
    exec .internalRailFault s = .next { t with g := { t.g with railResets := t.now :: t.g.railResets.filter (fun x => decide (t.now ≤ x + 3600000000000)) } })

/-- INTERNAL_TEMP_MEASURE outside OFF and STABLED shows the highest of the six measurements; HOT is set above 85 and cleared at 80 or below, OVERTEMP above 100 and at 95 or below, and between they keep their value; a rise of HOT or OVERTEMP raises source 12, a rise of OVERTEMP is also the internal-overtemperature fault event. The command completes for every six measurements in every state, and in OFF and STABLED changes nothing. -/
def Obligations.InternalTemperature : Prop :=
  (∀ (s : State) (a b c d e f t : Int),
    s.g.st ≠ .off →
    s.g.st ≠ .stabled →
    t = max a (max b (max c (max d (max e f)))) →
    t ≤ 80 →
    exec (.internalTempMeasure [a, b, c, d, e, f]) s = .next { s with g := { s.g with dieTemp := t, temps := [a, b, c, d, e, f], hot := false, overtemp := false } }.updFault) ∧
  (∀ (s : State) (a b c d e f t : Int),
    s.g.st ≠ .off →
    s.g.st ≠ .stabled →
    t = max a (max b (max c (max d (max e f)))) →
    80 < t →
    t ≤ 85 →
    s.g.overtemp = false →
    exec (.internalTempMeasure [a, b, c, d, e, f]) s = .next { s with g := { s.g with dieTemp := t, temps := [a, b, c, d, e, f] } }.updFault) ∧
  (∀ (s : State) (a b c d e f t : Int),
    s.g.st ≠ .off →
    s.g.st ≠ .stabled →
    t = max a (max b (max c (max d (max e f)))) →
    85 < t →
    t ≤ 95 →
    s.g.hot = false →
    s.g.overtemp = false →
    exec (.internalTempMeasure [a, b, c, d, e, f]) s = .next (({ s with g := { s.g with dieTemp := t, temps := [a, b, c, d, e, f], hot := true } }).raise 12 0).updFault) ∧
  (∀ (s : State) (a b c d e f t : Int),
    s.g.st ≠ .off →
    s.g.st ≠ .stabled →
    t = max a (max b (max c (max d (max e f)))) →
    100 < t →
    s.g.hot = true →
    s.g.overtemp = false →
    exec (.internalTempMeasure [a, b, c, d, e, f]) s = .next ((({ s with g := { s.g with dieTemp := t, temps := [a, b, c, d, e, f], overtemp := true } }).raise 12 1).faultEvent 8 12 "INTERNAL_OVERTEMP").updFault) ∧
  (∀ (s : State) (a b c d e f t : Int) (hot ov : Bool),
    s.g.st ≠ .off →
    s.g.st ≠ .stabled →
    t = max a (max b (max c (max d (max e f)))) →
    hot = (decide (85 < t) || (s.g.hot && decide (80 < t))) →
    ov = (decide (100 < t) || (s.g.overtemp && decide (95 < t))) →
    exec (.internalTempMeasure [a, b, c, d, e, f]) s = .next (let x : State := { s with g := { s.g with dieTemp := t, temps := [a, b, c, d, e, f], hot := hot, overtemp := ov } }
    let y : State := if hot && !s.g.hot then x.raise 12 0 else x
    (if ov && !s.g.overtemp then (y.raise 12 1).faultEvent 8 12 "INTERNAL_OVERTEMP" else y).updFault)) ∧
  (∀ (s : State) (temps : List Int),
    s.g.st ∈ [ModSt.off, .stabled] →
    temps.length = 6 →
    exec (.internalTempMeasure temps) s = .next s)

/-- HOLDUP_ENERGY_UPDATE takes VIN, the bank voltage and the internal rails as measured, with the usable energy of the bank above its 12.0 V floor; outside OFF it may end the store's recovery, start a deferred commit and end START. START ends in LOAD with a customer key, else in UNPROVISIONED, once the rails are good, 5 J are stored and no release is pending. HOLDUP_CHARGE_STALLED in START below 5 J with VIN present is noted once and raises source 11; the note ends when 5 J are stored. -/
def Obligations.HoldupStoreAndStart : Prop :=
  (∀ (v b : Nat) (g : Bool) (s : State),
    s.g.st = .off →
    exec (.holdupEnergyUpdate v b g) s = .next { s with sup := { s.sup with vinMv := v, bankMv := b, usableMj := usableMj s.nv.cur.capUf b, railsGood := g, stalled := s.sup.stalled && decide (usableMj s.nv.cur.capUf b < 5000) } }) ∧
  (∀ (v b : Nat) (g : Bool) (s : State),
    s.g.st ≠ .off →
    exec (.holdupEnergyUpdate v b g) s = .next ({ s with sup := { s.sup with vinMv := v, bankMv := b, usableMj := usableMj s.nv.cur.capUf b, railsGood := g, stalled := s.sup.stalled && decide (usableMj s.nv.cur.capUf b < 5000) } }.recovered.deferredRetry).startComplete) ∧
  (∀ (s : State),
    s.g.st = .start →
    s.sup.railsGood = true →
    5000 ≤ s.sup.usableMj →
    s.nv.cur.releasing = 0 →
    s.hasKey = false →
    s.startComplete = (s.setMod .unprovisioned).wdgFromStart) ∧
  (∀ (s : State),
    s.g.st = .start →
    s.sup.railsGood = true →
    5000 ≤ s.sup.usableMj →
    s.nv.cur.releasing = 0 →
    s.hasKey = true →
    s.startComplete = (s.setMod .load).wdgFromStart) ∧
  (∀ (s : State),
    s.g.st = .start →
    s.sup.present = true →
    s.sup.usableMj < 5000 →
    s.sup.stalled = false →
    exec .holdupChargeStalled s = .next ({ s with sup := { s.sup with stalled := true } }.raise 11))

/-- TIME_BASE_CHECK outside OFF with a deviation of at most 1000 ppm clears the fault and the loss of the reference. A larger one, first found, sets the fault, shows it, and raises source 2; in START, LOAD and CHECK the module goes to SAFE_HOLD, in SEQUENCE, RUN and RUN_DOWN the fault event is recorded and the finding kept and committed, elsewhere only the fault flag follows (log entry 118). -/
def Obligations.TimeBaseCheckActs : Prop :=
  (∀ (s : State) (p : Int),
    s.g.st ≠ .off →
    p.natAbs ≤ 1000 →
    exec (.timeBaseCheck p) s = .next ({ s with time := { s.time with tbFault := false }, lnk := { s.lnk with refLost := false } }.updFault)) ∧
  (∀ (s : State) (p : Int),
    s.g.st ∈ [ModSt.start, .load, .check] →
    1000 < p.natAbs →
    s.time.tbFault = false →
    exec (.timeBaseCheck p) s = .next ((({ s with time := { s.time with tbFault := true, tbSeen := true } }).raise 2).enterSafeHold "TIME_BASE_FAULT").updFault) ∧
  (∀ (s : State) (p : Int),
    s.g.st ∈ [ModSt.sequence, .run, .runDown] →
    1000 < p.natAbs →
    s.time.tbFault = false →
    exec (.timeBaseCheck p) s = .next ((((({ s with time := { s.time with tbFault := true, tbSeen := true } }).raise 2).faultEvent 7 2 "TIME_BASE_FAULT").setFinding true).nvWrite 16 id).commitStart.updFault) ∧
  (∀ (s : State) (p : Int),
    s.g.st ∈ [ModSt.stabled, .unprovisioned, .safeHold, .lastGasp] →
    1000 < p.natAbs →
    s.time.tbFault = false →
    exec (.timeBaseCheck p) s = .next (({ s with time := { s.time with tbFault := true, tbSeen := true } }).raise 2).updFault)

/-- MTIME_LO_READ, UTC_LO_READ, CYCLE_LO_READ and CMD_SEQ_LO_READ of sources 0 to 4 put bits 63:32 of the value read into its capture register and change nothing else; sources 5 to 63 capture nothing. -/
def Obligations.LowWordReadsCaptureHighWord : Prop :=
  (∀ (s : State),
    exec .mtimeLoRead s = .next { s with time := { s.time with mtimeHi := s.time.mtime.extractLsb' 32 32 } }) ∧
  (∀ (s : State),
    exec .utcLoRead s = .next { s with time := { s.time with utcHi := s.time.utc.extractLsb' 32 32 } }) ∧
  (∀ (s : State),
    exec .cycleLoRead s = .next { s with cyc := { s.cyc with numHi := s.cyc.num.extractLsb' 32 32 } }) ∧
  (∀ (s : State) (src : Fin 64) (i : Fin 5),
    src.val = i.val →
    exec (.cmdSeqLoRead src true) s = .next { s with cmd := { s.cmd with issuedHi := tset s.cmd.issuedHi i ((s.issued i).extractLsb' 32 32) } }) ∧
  (∀ (s : State) (src : Fin 64) (i : Fin 5),
    src.val = i.val →
    exec (.cmdSeqLoRead src false) s = .next { s with cmd := { s.cmd with appliedHi := tset s.cmd.appliedHi i (s.cmd.applied[i].extractLsb' 32 32) } }) ∧
  (∀ (s : State) (src : Fin 64) (issued : Bool),
    5 ≤ src.val →
    exec (.cmdSeqLoRead src issued) s = .next s)

/-- UTC_HOLDOVER in quality 1 goes to quality 2, notes the time, forgets the good messages and raises source 29. LEAP_SECOND in quality 1 or 2, where such a leap second was announced, makes it due. A fine tick at the end of the last-but-one 10 ns of 23:59:59 stops UTC for the 10^9 ns of a positive one; one at the same place of 23:59:58 moves it over the second of a negative one; both set LEAP_LAST. WAKE_TIMER_EXPIRY in STABLED with a timer and a loaded configuration is wake source 6; an enabled wake source in STABLED starts the module. -/
def Obligations.UtcQualityAndLeap : Prop :=
  (∀ (s : State),
    s.time.utcQual = 1 →
    exec .utcHoldover s = .next ({ s with time := { s.time with utcQual := 2, holdSince := s.tickUs }, lnk := { s.lnk with goodSyncs := 0 } }.raise 29)) ∧
  (∀ (s : State) (p : Bool),
    s.time.utcQual ≠ 0 →
    s.lnk.leap = some p →
    exec (.leapSecond p) s = .next { s with time := { s.time with leapDue := some p }, lnk := { s.lnk with leap := none } }) ∧
  (∀ (s : State) (p : Bool),
    s.time.utcQual = 0 ∨ s.lnk.leap ≠ some p →
    exec (.leapSecond p) s = .next s) ∧
  (∀ (t : TimeSt),
    t.utcQual ≠ 0 →
    t.leapLeft = 0 →
    t.leapDue = some true →
    86399999999990 ≤ t.utc.toNat % 86400000000000 →
    t.tick = { t with mtime := t.mtime + 10, leapDue := none, leapLast := true, leapLeft := 1000000000 }) ∧
  (∀ (t : TimeSt),
    t.utcQual ≠ 0 →
    t.leapLeft = 0 →
    t.leapDue = some false →
    86398999999990 ≤ t.utc.toNat % 86400000000000 →
    t.tick = { t with mtime := t.mtime + 10, leapDue := none, leapLast := true, utc := t.utc + 1000000010 }) ∧
  (∀ (t : TimeSt),
    t.utcQual ≠ 0 →
    10 < t.leapLeft →
    t.tick = { t with mtime := t.mtime + 10, leapLeft := t.leapLeft - 10 }) ∧
  (∀ (s u : State),
    s.g.st = .stabled →
    s.g.timerMin ≠ 0 →
    s.modCfg.isSome = true →
    s.wakeEnabled 6 = true →
    u = s.startEntry 1 6 →
    exec .wakeTimerExpiry s = .next { u with g := { u.g with wokeAt := some (s.now / 1000) } })

/-- HOST_OFF_REQUEST and HOST_ON_REQUEST number the command; while the cycle runs they wait for the COMMIT in place of an earlier request of the host, else they are applied and judged at once. HOST_RESTART is judged as a restart request of the host. -/
def Obligations.HostModuleRequests : Prop :=
  (∀ (s : State) (off : Bool),
    s.g.st.cycleRuns = true →
    exec (if off then .hostOffRequest else .hostOnRequest) s = .next { s with cmd := { s.cmd with issuedHost := s.cmd.issuedHost + 1, modReqs := (s.cmd.modReqs.filter (fun q => q.src != Src.host)) ++ [{ src := .host, off := off }] } }) ∧
  (∀ (s : State),
    s.g.st.cycleRuns = false →
    exec .hostOffRequest s = .next (({ s with cmd := { s.cmd with issuedHost := s.cmd.issuedHost + 1, applied := tset s.cmd.applied 2 (s.cmd.issuedHost + 1) } }).offRequest .host)) ∧
  (∀ (s : State),
    s.g.st.cycleRuns = false →
    exec .hostOnRequest s = .next (({ s with cmd := { s.cmd with issuedHost := s.cmd.issuedHost + 1, applied := tset s.cmd.applied 2 (s.cmd.issuedHost + 1) } }).onRequest .host)) ∧
  (∀ (s : State),
    exec .hostRestart s = .next (s.restartRequest .host))

/-- STANDSTILL_INPUT_CHANGE outside OFF and STABLED takes the filtered input, and its release is wake source 4 for a module on its way to STABLED. MOTION_JUDGEMENT outside OFF, STABLED and LAST_GASP judges motion: MOVING follows the judgement, standstill is dated from its first judgement, confirmation is lost on motion, a change raises source 17 and motion ends an Edivo test mode. STANDSTILL_CONFIRMED once at standstill confirms it and raises source 17. STABLED_FLUSH_END ends the flush of a module on its way to STABLED and drops what was not streamed. -/
def Obligations.MotionCommands : Prop :=
  (∀ (s : State),
    s.g.st ≠ .off →
    s.g.st ≠ .stabled →
    s.motion.standstillIn = true →
    exec (.standstillInputChange false) s = .next ({ s with motion := { s.motion with standstillIn := false } }.wakeUp 4)) ∧
  (∀ (s : State) (a : Bool),
    s.g.st ≠ .off →
    s.g.st ≠ .stabled →
    a = true ∨ s.motion.standstillIn = false →
    exec (.standstillInputChange a) s = .next { s with motion := { s.motion with standstillIn := a } }) ∧
  (∀ (s : State),
    s.g.st ∉ [ModSt.off, .stabled, .lastGasp] →
    s.judgeMoving = s.motion.moving →
    s.motion.moving = true →
    exec .motionJudgement s = .next ({ s with motion := { s.motion with confirmed := false, stillSince := none } }).endTestMode) ∧
  (∀ (s : State),
    s.g.st ∉ [ModSt.off, .stabled, .lastGasp] →
    s.judgeMoving = false →
    s.motion.moving = true →
    exec .motionJudgement s = .next (({ s with motion := { s.motion with moving := false, stillSince := match s.motion.stillSince with | some t => some t | none => some s.tickUs } }).raise 17)) ∧
  (∀ (s : State),
    s.motion.stillSince.isSome = true →
    s.motion.confirmed = false →
    s.g.st ≠ .runDown →
    exec .standstillConfirmed s = .next (({ s with motion := { s.motion with confirmed := true } }).raise 17)) ∧
  (∀ (s : State),
    s.shut.kind = 1 →
    s.shut.phase = 3 →
    s.shut.flushed = false →
    exec .stabledFlushEnd s = .next (s.flushEnd (mibUp s.jurWaiting)))

/-- KEY_INSERTED takes the key's contents; outside OFF a key that is not shorted and whose identity is valid raises source 18 with 1, MISMATCH is judged against what is loaded, and 18 with 2 is raised where a mismatch is new; any other key counts as missing and does nothing more. KEY_REMOVED takes the key away: in OFF, or where the key counted as missing, nothing else happens; in LOAD the load fails with code 2; elsewhere source 18 is raised with 0, a running staging session fails with result 2 and a take in preparation is abandoned. -/
def Obligations.KeyPresenceActs : Prop :=
  (∀ (s : State) (k : Key),
    s.g.st = .off →
    exec (.keyInserted k) s = .next { s with key := { s.key with key := some k } }) ∧
  (∀ (s : State) (k : Key),
    k.vkeyShort = true ∨ k.identityOk = false →
    exec (.keyInserted k) s = .next { s with key := { s.key with key := some k } }) ∧
  (∀ (s t : State) (k : Key),
    s.g.st ≠ .off →
    k.vkeyShort = false →
    k.identityOk = true →
    t = { s with key := { s.key with key := some k } }.raise 18 1 →
    t.key.differs = true →
    s.key.mismatch = false →
    exec (.keyInserted k) s = .next ({ t with key := { t.key with mismatch := true } }.raise 18 2)) ∧
  (∀ (s t : State) (k : Key),
    s.g.st ≠ .off →
    k.vkeyShort = false →
    k.identityOk = true →
    t = { s with key := { s.key with key := some k } }.raise 18 1 →
    t.key.differs = false →
    t.key.wasRead = true →
    t.key.selValid = true →
    k.selector.isSome = true →
    exec (.keyInserted k) s = .next { t with key := { t.key with mismatch := false } }) ∧
  (∀ (s : State),
    s.key.present.isSome = true →
    s.g.st = .off →
    exec .keyRemoved s = .next { s with key := { s.key with key := none } }) ∧
  (∀ (s : State),
    s.key.present = none →
    exec .keyRemoved s = .next { s with key := { s.key with key := none } }) ∧
  (∀ (s : State),
    s.key.present.isSome = true →
    s.g.st = .load →
    exec .keyRemoved s = .next ({ s with key := { s.key with key := none } }.loadFail ⟨2, 0, 0⟩)) ∧
  (∀ (s t : State),
    s.key.present.isSome = true →
    s.g.st ≠ .off →
    s.g.st ≠ .load →
    t = { s with key := { s.key with key := none } }.raise 18 0 →
    exec .keyRemoved s = .next t.keyGone) ∧
  (∀ (t : State),
    t.stg.st ∈ [StgState.writing, .verifying] →
    t.take.st ≠ .preparing →
    t.keyGone.stg.st = .failed ∧ t.keyGone.stg.result = 2)

/-- KEY_LOAD_COMPLETE in LOAD with no key fails with code 1, as does a key that is shorted or whose identity is not valid; with no valid selector copy it fails with code 3; else the bank that the selector names is checked, and the configuration is applied, or the load fails with the check's code. -/
def Obligations.KeyLoadEndsLoad : Prop :=
  (∀ (s : State),
    s.g.st = .load →
    s.key.key = none →
    exec (.keyLoadComplete ()) s = .next (s.loadFail ⟨1, 0, 0⟩)) ∧
  (∀ (s : State) (k : Key),
    s.g.st = .load →
    s.key.key = some k →
    (k.vkeyShort || !k.identityOk) = true →
    exec (.keyLoadComplete ()) s = .next (s.loadFail ⟨1, 0, 0⟩)) ∧
  (∀ (s : State) (k : Key),
    s.g.st = .load →
    s.key.present = some k →
    k.selector = none →
    exec (.keyLoadComplete ()) s = .next ({ s with key := { s.key with wasRead := true, keySerial := k.serial, loadedSerial := k.serial, selValid := false, activeBank := false, selCopy := false, selGen := 0, bank0 := bankSeen k.bank0, bank1 := bankSeen k.bank1 } }.loadFail ⟨3, 0, 0⟩)) ∧
  (∀ (s t : State) (k : Key) (sel : Selector) (copyB : Bool),
    s.g.st = .load →
    s.key.present = some k →
    k.selector = some (sel, copyB, false) →
    t = { s with key := ({ s.key with wasRead := true, keySerial := k.serial, loadedSerial := k.serial, activeBank := sel.bank, selCopy := copyB, selValid := true, selGen := sel.gen }.setBank sel.bank .active).setBank (!sel.bank) (bankSeen (k.bank !sel.bank)) } →
    exec (.keyLoadComplete ()) s = .next (match checkImage (k.bank sel.bank) (some sel.digest) s.sec.custKey k.position s.fac.hwRev with | .inl r => t.loadFail r | .inr img => t.applyLoad img sel))

/-- SELFTEST_COMPLETE in CHECK, with the re-plan of the start, marks what the test found, and goes to SAFE_HOLD with a finding of the time base that is kept, or with the failing unit; with no failure it parks what failed, starts the cycle's grid and enters SEQUENCE, or, when an off request was held back, enters SEQUENCE with its plan and takes that request. Outside CHECK it does nothing. -/
def Obligations.SelftestEndsCheck : Prop :=
  (∀ (s t u v w : State) (x : SelfTest) (m : ReplanIn),
    m.wellFormed = true →
    s.g.st = .check →
    t = (s.replanEnd 1 m).markFailed x →
    u = { t with age := { t.age with refFail := false } } →
    v = (u.parkFailed x).fieldCheckEnd →
    w = { v with cyc := { v.cyc with phase := 3, closeAt := v.now, first := true, late := false } } →
    exec (.selftestComplete x m) s = .next (if t.nv.cur.tbFinding then ((u.setFinding false).nvWrite 16 id).enterSafeHold "TIME_BASE_FAULT" else match t.checkFails x with | some n => u.enterSafeHold "SELFTEST_FAILED" [n] | none => match w.g.heldOff with | none => w.enterSequence | some src => ((((({ w with g := { w.g with heldOff := none }, seq := { w.seq with held := w.planOf w.g.level, level := w.g.level, levelPlan := w.planOf w.g.level } } : State).admitKept.enableWdgs).convModes).setMod .sequence).offRequest src).settle)) ∧
  (∀ (s : State) (x : SelfTest) (m : ReplanIn),
    m.wellFormed = true →
    s.g.st ≠ .check →
    exec (.selftestComplete x m) s = .next s)

/-- STAGE and VERIFY that nothing refuses open a session of their owner: STAGE takes the source's address and length as they stand, marks the inactive bank INVALID, erases it and writes, VERIFY checks it. A refused STAGE shows the result and enters the juridical record like a staged one. STAGE_WRITE_DONE programs the bank with the image (for Edivo the bytes it has transferred, for host software the source's length of at most 30 MiB) and goes on to verification, or fails with 0x10 or 0x11. STAGE_VERIFY_DONE fails with the check's code, or with 0x14 for an older serial, or ends STAGED with the image's serial and sections and its differences from the running configuration. STAGE_ABORT of the session's owner ends the session. -/
def Obligations.StagingCommandsAct : Prop :=
  (∀ (s : State) (o : Owner) (d : Bool),
    s.stageRefusal = none →
    exec (.stage o d) s = .next ({ s with key := (s.key.setBank s.target .invalid).program s.target [], stg := { s.stg with st := .writing, owner := some o, result := 0, writtenMib := 0, downgrade := d, verifyOnly := false, source := (s.stg.addr, s.stg.len), stagedSerial := 0, stagedDigest := [], stagedSecs := [], diffs := [], copyErased := false } }.stageEntry "STAGE" d.toNat)) ∧
  (∀ (s : State) (o : Owner),
    s.stageRefusal = none →
    exec (.verify o) s = .next { s with stg := { s.stg with st := .verifying, owner := some o, result := 0, downgrade := false, verifyOnly := true, stagedSerial := 0, stagedDigest := [], stagedSecs := [], diffs := [], copyErased := false } }) ∧
  (∀ (s : State) (o : Owner) (d : Bool) (c : BitVec 8),
    s.stageRefusal = some c →
    exec (.stage o d) s = .next (((s.stageEntry "STAGE" d.toNat).stgResult c).stageEntry "STAGE_RESULT" c.toNat) ∧ exec (.verify o) s = .next { s with stg := { s.stg with result := c } }) ∧
  (∀ (s : State) (given image : List Byte),
    s.stg.st = .writing →
    s.stg.owner = some .host →
    image = (padTo s.stg.source.2.toNat given).take 31457280 →
    exec (.stageWriteDone (.ok given)) s = .next { s with key := (s.key.setBank s.target .written).program s.target image, stg := { s.stg with st := .verifying, writtenMib := (image.length + 1048575) / 1048576 } }) ∧
  (∀ (s : State) (image : List Byte) (n : Fin 4),
    s.stg.st = .writing →
    s.stg.owner = some (.session n) →
    exec (.stageWriteDone (.ok image)) s = .next { s with key := (s.key.setBank s.target .written).program s.target (s.key.bankBytes s.target), stg := { s.stg with st := .verifying, writtenMib := ((s.key.bankBytes s.target).length + 1048575) / 1048576 } }) ∧
  (∀ (s : State),
    s.stg.st = .writing →
    exec (.stageWriteDone .keyWriteError) s = .next (s.stageFail 0x10 .invalid) ∧ exec (.stageWriteDone .hostReadError) s = .next (s.stageFail 0x11 .invalid)) ∧
  (∀ (s t u : State) (k : Key),
    s.stg.st = .verifying →
    s.key.present = some k →
    t = { s with stg := { s.stg with stagedSerial := serialOf (k.bank s.target) } } →
    u = { t with key := s.key.setBank s.target .verified } →
    exec (.stageVerifyDone ()) s = .next (match checkImage (k.bank s.target) none s.sec.custKey k.position s.fac.hwRev with | .inl r => t.stageFail (BitVec.ofNat 8 r.code) .written | .inr img => if img.hdr.serial < s.key.runSerial && !s.stg.downgrade then u.stageFail 0x14 .verified else ({ u with key := { u.key with key := u.key.key.map (fun (k : Key) => if s.key.selValid && !s.key.selCopy then { k with selB := [] } else { k with selA := [] }) }, stg := { u.stg with st := .staged, result := 0, stagedSecs := img.secs, diffs := diffsOf s.run img.secs, copyErased := true, stagedDigest := sha384 (manifestOf (k.bank s.target) img.hdr) } }.stageResult 0).raise 19)) ∧
  (∀ (s : State),
    s.stg.st = .verifying →
    s.key.present = none →
    exec (.stageVerifyDone ()) s = .next (s.stageFail 2 .invalid)) ∧
  (∀ (s : State) (o : Owner),
    s.stg.owner = some o →
    s.stg.st ≠ .idle →
    s.stg.switching = false →
    exec (.stageAbort o) s = .next s.stageAbort)

/-- SWITCH of the session's owner with a staged image, the key present without mismatch and every difference taken or restart-class, or in SAFE_HOLD, begins the selector write; else its result is 0x15. SELECTOR_WRITE_DONE then writes the copy not in use with the next generation, makes the staged bank ACTIVE and the running bank VERIFIED, takes over the staged digest and serial, notes a pending restart, ends the session and raises source 19; with the key gone the session fails with 0x10. -/
def Obligations.SwitchActivatesStagedBank : Prop :=
  (∀ (s : State) (o : Owner),
    s.switchOk o = true →
    exec (.switch o) s = .next { s with stg := { s.stg with switching := true } }) ∧
  (∀ (s : State) (o : Owner),
    s.switchOk o = false →
    exec (.switch o) s = .next { s with stg := { s.stg with result := 0x15 } }) ∧
  (∀ (s t : State) (k : Key),
    s.stg.switching = true →
    s.key.present = some k →
    s.key.selValid = true →
    t = { s with key := { ((s.key.setBank s.key.activeBank .verified).setBank s.target .active) with key := some (if s.key.selCopy then { k with selA := selectorPage (s.key.selGen + 1) s.target s.stg.stagedDigest } else { k with selB := selectorPage (s.key.selGen + 1) s.target s.stg.stagedDigest }), activeBank := s.target, selCopy := !s.key.selCopy, selValid := true, selGen := s.key.selGen + 1, loadedDigest := s.stg.stagedDigest, runSerial := s.stg.stagedSerial, pendingRestart := s.key.pendingRestart || s.stg.diffs.any (fun d => restartClass d.typ) }, stg := { s.stg with st := .idle, owner := none, result := 0, switching := false, stagedSecs := [], diffs := [] } } →
    exec .selectorWriteDone s = .next ((t.nvWrite 8 (fun d => { d with takenSecs := [] })).raise 19)) ∧
  (∀ (s t : State),
    s.stg.switching = true →
    s.key.present = none →
    s.stg.st = .staged →
    t = { s with stg := { s.stg with st := .failed, owner := none, result := 0x10, switching := false } }.raise 19 →
    exec .selectorWriteDone s = .next (if t.take.st = .preparing then t.abandonSet else t))

/-- TAKE of 1 to 32 parts in SEQUENCE or RUN with a staged image, the key present without mismatch, no breach, no set in hand and every part allowed, on a module that is neither a standby nor paired with a ready standby, begins the preparation of the set for the named cycle. A second TAKE while a set is in hand answers its parts REFUSED_BUSY. TAKE_PREPARED refuses a set of which a part's digest is wrong with REFUSED_KEY at that part, and one of which a part's references or limits do not hold in the configuration with the set with REFUSED_DEPENDENCY at that part; the rest of such a set reads REFUSED_SET. Else the set is READY. -/
def Obligations.TakePreparesASet : Prop :=
  (∀ (s : State) (count : BitVec 6),
    0 < count.toNat →
    count.toNat ≤ 32 →
    s.standby = false →
    s.hsb.st ≠ .primary →
    s.take.st ≠ .preparing →
    s.take.st ≠ .ready →
    s.g.st ∈ [ModSt.sequence, .run] →
    s.stg.st = .staged →
    s.stg.switching = false →
    s.key.present.isSome = true →
    s.key.mismatch = false →
    s.sec.breachSinceStart = false →
    (s.take.parts.toList.take count.toNat).all (fun p => (s.partRefusal p).isNone) = true →
    exec (.take count) s = .next ({ s with take := { s.take with count := count.toNat } }.prepare count.toNat s.take.cycle)) ∧
  (∀ (s : State) (count : BitVec 6),
    0 < count.toNat →
    count.toNat ≤ 32 →
    s.standby = false →
    s.hsb.st ≠ .primary →
    s.take.st ∈ [TakeState.preparing, .ready] →
    exec (.take count) s = .next (s.partAnswers count.toNat (fun _ => .refusedBusy))) ∧
  (∀ (s : State),
    s.take.st = .preparing →
    exec (.takePrepared ()) s = .next (match s.badDigest, unresolved s.cfg s.run s.take.prepared with | some k, _ => s.takeRefused (fun i => if i = k then .refusedKey else .refusedSet) | none, some k => s.takeRefused (fun i => if i = k then .refusedDependency else .refusedSet) | none, none => { s with take := { s.take with st := .ready } })) ∧
  (∀ (s : State),
    s.take.st = .preparing →
    s.take.prepared = [] →
    exec (.takePrepared ()) s = .next { s with take := { s.take with st := .ready } })

/-- RAIL_CMD_ON, OFF, CLEAR, RELEASE, PARK and UNPARK number the command in ISSUED of host software. While the cycle runs the request waits for the COMMIT in place of an earlier one of the host to the same rail; requests to other rails and of other sources stay. In SAFE_HOLD with a loaded configuration PARK, UNPARK and RELEASE are applied at once; elsewhere the command is applied and answered REFUSED_STATE. -/
def Obligations.HostRailCommands : Prop :=
  (∀ (s : State) (n : RailN) (code : RailCode),
    s.g.st.cycleRuns = true →
    exec (match code with | .on => .railCmdOn n | .off => .railCmdOff n | .clear => .railCmdClear n | .release => .railCmdRelease n | .park => .railCmdPark n | .unpark => .railCmdUnpark n) s = .next { s with cmd := { s.cmd with issuedHost := s.cmd.issuedHost + 1 }, railReqs := s.railReqs.filter (fun q => !(q.src == Src.host && q.rail == n)) ++ [{ src := .host, rail := n, code := code }] }) ∧
  (∀ (s : State) (n : RailN) (code : RailCode),
    s.g.st = .safeHold →
    s.g.loadOk = true →
    code ∈ [RailCode.park, .unpark, .release] →
    exec (match code with | .on => .railCmdOn n | .off => .railCmdOff n | .clear => .railCmdClear n | .release => .railCmdRelease n | .park => .railCmdPark n | .unpark => .railCmdUnpark n) s = .next (({ s with cmd := { s.cmd with issuedHost := s.cmd.issuedHost + 1, applied := tset s.cmd.applied 2 (s.cmd.issuedHost + 1) } }).railCommand { src := .host, rail := n, code := code }).settle) ∧
  (∀ (s : State) (n : RailN),
    s.g.st.cycleRuns = false →
    exec (.railCmdOn n) s = .next (({ s with cmd := { s.cmd with issuedHost := s.cmd.issuedHost + 1, applied := tset s.cmd.applied 2 (s.cmd.issuedHost + 1) } }).answer .host n .refusedState) ∧ exec (.railCmdOff n) s = .next (({ s with cmd := { s.cmd with issuedHost := s.cmd.issuedHost + 1, applied := tset s.cmd.applied 2 (s.cmd.issuedHost + 1) } }).answer .host n .refusedState) ∧ exec (.railCmdClear n) s = .next (({ s with cmd := { s.cmd with issuedHost := s.cmd.issuedHost + 1, applied := tset s.cmd.applied 2 (s.cmd.issuedHost + 1) } }).answer .host n .refusedState))

/-- COMPARATOR_CROSSING with the comparators powered judges the level and acts on a crossing, and unpowered only takes the input. RAMP_DELAY_END of a rail in RAMP dates the end of its delay. A rail that a set dropped in this fine tick is judged by the state it was in. RAMP_DEADLINE of a rail in RAMP is the fault SLOW_RISE. PG_CHANGE takes the PG input. PG_DELAY_EXPIRY in RAMP and PG_FILTER_EXPIRY in UP or MARGIN without a good PG are the fault PG_MISMATCH; a PG that stays good in OFF and DRAINED is noted as stuck once and raises the rail's source. DISCHARGE_TIMEOUT of a running discharge in DRAIN, or in FAULT before DRAINED, ends in NO_DRAIN. -/
def Obligations.RailInputsAndDeadlines : Prop :=
  (∀ (s : State) (i : Fin 320) (level : Int),
    s.cmpPowered = false →
    exec (.comparatorCrossing i level) s = .next (s.setInput i level)) ∧
  (∀ (s : State) (i : Fin 320) (level : Int),
    s.cmpPowered = true →
    exec (.comparatorCrossing i level) s = .next ((s.cmpTo i (s.judgeCmp i level) level).cmpSync i).settle) ∧
  (∀ (s : State) (n : RailN),
    (s.rail n).st = .ramp →
    (s.rail n).delayEndAt = none →
    exec (.rampDelayEnd n) s = .next ((s.modRail n (fun r => { r with delayEndAt := some s.now })).railSync n).settle) ∧
  (∀ (s : State) (n : RailN),
    (s.rail n).judged s.now = .ramp →
    exec (.rampDeadline n) s = .next (s.establish n [.slowRise]).settle) ∧
  (∀ (s : State) (n : RailN) (good : Bool),
    exec (.pgChange n good) s = .next (s.modRail n (fun r => { r with pg := good }))) ∧
  (∀ (s : State) (n : RailN),
    (s.rail n).judged s.now = .ramp →
    (s.rail n).upSeen = true →
    (s.rail n).pg = false →
    s.pgUsed n = true →
    exec (.pgDelayExpiry n) s = .next (s.establish n [.pgMismatch]).settle) ∧
  (∀ (s : State) (n : RailN),
    (s.rail n).judged s.now ∈ [RailSt.up, .margin] →
    (s.rail n).pg = false →
    s.pgUsed n = true →
    exec (.pgFilterExpiry n) s = .next (s.establish n [.pgMismatch]).settle) ∧
  (∀ (s : State) (n : RailN),
    (s.rail n).judged s.now = .off →
    (s.rail n).pg = true →
    (s.rail n).drained = true →
    (s.rail n).pgStuck = false →
    s.pgUsed n = true →
    exec (.pgFilterExpiry n) s = .next ((s.modRail n (fun r => { r with pgStuck := true })).raise (32 + n) 18)) ∧
  (∀ (s : State) (n : RailN),
    (s.rail n).discharge = .running →
    (s.rail n).st = .drain ∨ ((s.rail n).st = .fault ∧ (s.rail n).drained = false) →
    exec (.dischargeTimeout n) s = .next (s.noDrain n).settle)

/-- STEP_DELAY_EXPIRY of an eligible step that has not started ends its DELAY. STEP_TIMEOUT of an eligible step that is not done, outside RUN, notes the failure of its first rail that is waited for, else of its first rail, and its rails in WAIT go to OFF; in RUN the failure is judged first and a rail in RAMP is turned off. CAS_IN_ACCEPTED while the cycle runs takes the chain; a fall shuts down the running and UP groups of the held plan behind it, in the pause between attempts marks them and the groups that wait on them DOWN, and raises source 15 value 5 once. ALLOWANCE_EXPIRY takes the steps of a group that waits its allowance down. RETRY_PAUSE_END ends the pause between attempts. RERUN is numbered and waits for the COMMIT, or is applied and refused where no cycle runs. -/
def Obligations.SequencerEventsAct : Prop :=
  (∀ (g : GroupN) (k : Fin 32) (s : State) (x : StepSt),
    (s.group g).steps[k.val]? = some x →
    x.eligible = true →
    x.started = false →
    exec (.stepDelayExpiry g k) s = .next (s.modStep g k (fun y => { y with delayDone := true })).settle) ∧
  (∀ (g : GroupN) (k : Fin 32) (s : State) (p : CPlan) (x : StepSt) (c : CGroup) (y : CStep) (n : RailN),
    s.g.st ≠ .run →
    s.heldPlan = some p →
    (s.group g).steps[k.val]? = some x →
    p.groups[g.val]? = some c →
    c.steps[k.val]? = some y →
    (s.group g).st = .running →
    x.eligible = true →
    x.done = false →
    (y.rails.filter (fun n => !(s.rail n).st.isUp && !x.skipped.contains n) ++ y.rails).headD 0 = n →
    exec (.stepTimeout g k) s = .next (y.rails.foldl (fun (s : State) n => match (s.rail n).st with | .wait => s.enterRail n .off (fun r => r) | .ramp => if s.g.st = .run then (s.toDrain n).railSync n else s | _ => s) { s with seq := { s.seq with fails := s.seq.fails ++ [(FailReason.stepTimeout, n)] } }).settle) ∧
  (∀ (g : GroupN) (k : Fin 32) (s t : State) (p : CPlan) (x : StepSt) (c : CGroup) (y : CStep) (n : RailN),
    s.g.st = .run →
    s.heldPlan = some p →
    (s.group g).steps[k.val]? = some x →
    p.groups[g.val]? = some c →
    c.steps[k.val]? = some y →
    (s.group g).st = .running →
    x.eligible = true →
    x.done = false →
    y.rails = [n] →
    t = ({ s with seq := { s.seq with fails := s.seq.fails ++ [(FailReason.stepTimeout, n)] } }).evalFails →
    t.g.st = .run →
    (t.rail n).st = .ramp →
    exec (.stepTimeout g k) s = .next ((t.toDrain n).railSync n).settle) ∧
  (∀ (c : ChainN) (s : State),
    s.g.st.cycleRuns = true →
    exec (.casInAccepted c true) s = .next ({ s with seq := { s.seq with casIn := s.seq.casIn ||| (1#16 <<< c.val) } }).settle) ∧
  (∀ (c : ChainN) (s : State) (p : CPlan) (hit : List (Nat × CGroup)),
    s.g.st.cycleRuns = true →
    s.heldPlan = some p →
    s.seq.casIn.getLsbD c.val = true →
    s.seq.st ≠ .retryPause →
    hit = ((List.range p.groups.length).zip p.groups).filter (fun x => x.2.inChain == some c && (match (s.group x.1).st with | .running | .up => true | _ => false)) →
    hit ≠ [] →
    exec (.casInAccepted c false) s = .next ((hit.foldl (fun (s : State) x => s.shutGroup x.1 .casInLost) { s with seq := { s.seq with casIn := s.seq.casIn &&& ~~~ (1#16 <<< c.val) } }).raise 15 5).settle) ∧
  (∀ (c : ChainN) (s : State) (p : CPlan) (hit : List (Nat × CGroup)),
    s.g.st.cycleRuns = true →
    s.heldPlan = some p →
    s.seq.casIn.getLsbD c.val = true →
    s.seq.st = .retryPause →
    hit = ((List.range p.groups.length).zip p.groups).filter (fun x => x.2.inChain == some c && (match (s.group x.1).st with | .running | .up | .idle => true | _ => false)) →
    hit ≠ [] →
    exec (.casInAccepted c false) s = .next ((hit.foldl (fun (s : State) x => (p.dependents x.1).foldl (fun (s : State) k => s.modGroup k (fun y => if y.st = .idle then { y with st := .down, reason := .casInLost, steps := [] } else y)) s) { s with seq := { s.seq with casIn := s.seq.casIn &&& ~~~ (1#16 <<< c.val) } }).raise 15 5).settle) ∧
  (∀ (g : GroupN) (s t : State) (j : Shut) (p : CPlan) (c : CGroup) (q : State × GroupProg × Bool),
    s.shut.jobs = [j] →
    j.groups.any (fun x => x.1 == g.val && x.2 == .allowance) = true →
    s.cfg.plan[j.plan] = some p →
    p.groups[g.val]? = some c →
    q = s.downFrom j.scope c.steps c.steps.length →
    t = { q.1 with shut := { q.1.shut with jobs := q.1.shut.jobs.map (fun y => if y = j then { j with groups := j.groups.map (fun z => if z.1 = g.val then (z.1, q.2.1) else z) } else y) } } →
    q.2.1 ≠ .finished →
    j.kind ≠ .toStabled →
    exec (.allowanceExpiry g) s = .next t.settle) ∧
  (∀ (s : State),
    s.seq.st = .retryPause →
    exec .retryPauseEnd s = .next ({ s with seq := { s.seq with pauseOver := true } }).settle) ∧
  (∀ (s : State),
    s.g.st.cycleRuns = true →
    exec .rerun s = .next { s with cmd := { s.cmd with issuedHost := s.cmd.issuedHost + 1 }, seq := { s.seq with rerun := some .host } }) ∧
  (∀ (s : State),
    s.g.st.cycleRuns = false →
    exec .rerun s = .next { s with cmd := { s.cmd with issuedHost := s.cmd.issuedHost + 1, applied := tset s.cmd.applied 2 (s.cmd.issuedHost + 1) }, seq := { s.seq with cmdAns := .refusedState } })

/-- TOUCH_SAMPLE outside OFF judges the count as touched above baseline plus DELTA and holds the last 20 counts; a first sample after START found touched in IDLE is the touch held at power-up, every other one is a step of the touch rule. TOUCH_FORCE_OFF once per touch is action 2 and an off request at level 1; TOUCH_RUNDOWN_OFF is action 3 in RUN_DOWN, ends shedding by force and otherwise waits for the release. TOUCH_STUCK makes the present count the baseline, raises source 20 with 3 and records TOUCH_STUCK. TOUCH_POWERUP_RELEASE takes the baseline anew. DISPLAY_PAGE_TIMEOUT shows page 0. -/
def Obligations.TouchKeyActs : Prop :=
  (∀ (count : Int) (s : State),
    s.g.st ≠ .off →
    s.touch.first ≠ 0 →
    exec (.touchSample count) s = .next ((s.modTouch (fun t => { t with raw := s.touched count, samples := (count :: t.samples).take 20, first := if t.first < 20 then t.first + 1 else t.first })).touchStep count)) ∧
  (∀ (count : Int) (s : State),
    s.g.st ≠ .off →
    s.touch.first = 0 →
    s.touch.st = .idle →
    s.touched count = true →
    exec (.touchSample count) s = .next ((s.modTouch (fun t => { t with raw := s.touched count, samples := (count :: t.samples).take 20, first := if t.first < 20 then t.first + 1 else t.first })).touchFirst count)) ∧
  (∀ (s t : State),
    s.touch.st = .touched →
    s.touch.forced = false →
    s.g.st ∉ [ModSt.off, .stabled, .lastGasp] →
    t = (s.modTouch (fun t => { t with forced := true })).touchAct 2 "TOUCH_FORCE_OFF" →
    exec .touchForceOff s = .next (({ t with cmd := { t.cmd with forceOff := t.cmd.forceOff || t.g.st.cycleRuns } }).offRequest .touch)) ∧
  (∀ (s : State),
    s.touch.st = .touched →
    s.g.st ≠ .runDown →
    exec .touchRundownOff s = .next (s.modTouch (fun t => { t with st := .waitRelease }))) ∧
  (∀ (s t : State),
    s.touch.st = .touched →
    s.g.st = .runDown →
    s.stabling = false →
    t = (s.modTouch (fun t => { t with st := .waitRelease })).touchAct 3 "TOUCH_RUNDOWN_OFF" →
    t.shut.kind ≠ 3 →
    exec .touchRundownOff s = .next { t with shut := { t.shut with rundownForced := true } }) ∧
  (∀ (s : State),
    s.touch.st ∈ [TouchState.touched, .waitRelease, .heldAtPowerup] →
    exec .touchStuck s = .next (((s.modTouch (fun t => { t with st := .stuck, stuckSeen := true, base := (s.touch.samples.head?).getD s.touch.base, stuckBase := (s.touch.samples.head?).getD s.touch.base, held := 0, drift := 0, forced := false })).raise 20 3).laterFault (some 20) none "TOUCH_STUCK")) ∧
  (∀ (s : State),
    s.touch.st = .heldAtPowerup →
    exec .touchPowerupRelease s = .next (s.modTouch (fun t => { t with st := .idle, base := t.mean t.base, first := 21, held := 0, relRun := 0, drift := 0 }))) ∧
  (∀ (s : State),
    exec .displayPageTimeout s = .next (s.modTouch (fun t => { t with page := 0 })))

/-- MRST_PRESS in IDLE dates the press. MRST_RELEASE ends it: the press lasted from its first asserted read to 9 coarse ticks before, and one of 20 ms to below 8 s that has not fired is a host reset, counted. At 8 s the press is a restart request of MRST, once. Held beyond 60 s the input is ignored, noted and raises source 21; MRST_HELD_END takes it again. HOST_RESET_END ends the reset and, where the watchdog runs, opens a first window. -/
def Obligations.ManualResetActs : Prop :=
  (∀ (s : State),
    s.g.st.readsMrst = true →
    s.mrst.st = 0 →
    exec .mrstPress s = .next { s with mrst := { s.mrst with level := true, st := 1, pressAt := s.tickUs, fired := false } }) ∧
  (∀ (s : State),
    s.g.st.readsMrst = true →
    s.mrst.st = 1 →
    s.mrst.fired = false →
    20000000 ≤ s.now - 9000 - s.mrst.pressAt →
    s.now - 9000 - s.mrst.pressAt < 8000000000 →
    exec .mrstRelease s = .next ({ s with mrst := { s.mrst with level := false, st := 0, hostResets := satInc 65535 s.mrst.hostResets } }).hostReset) ∧
  (∀ (s : State),
    s.mrst.st = 1 →
    s.mrst.fired = false →
    s.g.st.readsMrst = true →
    exec .mrstRestartPress s = .next (({ s with mrst := { s.mrst with fired := true } }).restartRequest .mrst)) ∧
  (∀ (s : State),
    s.mrst.st = 1 →
    exec .mrstStuck s = .next (({ s with mrst := { s.mrst with st := 2, stuckSeen := true } }).raise 21 1)) ∧
  (∀ (s : State),
    s.mrst.st = 2 →
    exec .mrstHeldEnd s = .next { s with mrst := { s.mrst with st := 0, level := false } }) ∧
  (∀ (s : State),
    s.mrst.hostRst = true →
    s.wdg.st ∈ [WdgSt.first, .window] →
    exec .hostResetEnd s = .next ({ s with mrst := { s.mrst with hostRst := false } }).wdgFirst) ∧
  (∀ (s : State),
    s.mrst.hostRst = true →
    s.wdg.st ∈ [WdgSt.disabled, .stopped] →
    exec .hostResetEnd s = .next { s with mrst := { s.mrst with hostRst := false } })

/-- A service keeps the word and the time; in the first window once it has started and at or after the open time of a later one it opens a new window and clears the count of consecutive expiries; before the open time it is an early expiry. Without a service the close time, in a window or in a first window that has started, is a late expiry. 0x1ACF arms, and 0xE532 within 1 ms, without the lock and in START, CHECK, SAFE_HOLD or a test mode, disables the watchdogs it names; with the lock the answer is REFUSED_LOCK, elsewhere REFUSED_STATE. -/
def Obligations.HostWatchdogActs : Prop :=
  (∀ (w : Word) (s : State),
    s.wdg.st = .first →
    s.wdg.started = true →
    exec (.hostWdgService w) s = .next { s with wdg := { s.wdg with last := w, time := s.time.mtime, st := .window, since := s.tickUs, started := true, expiries := 0 } }) ∧
  (∀ (w : Word) (s : State),
    s.wdg.st ∈ [WdgSt.disabled, .stopped] ∨ (s.wdg.st = .first ∧ s.wdg.started = false) →
    exec (.hostWdgService w) s = .next { s with wdg := { s.wdg with last := w, time := s.time.mtime } }) ∧
  (∀ (w : Word) (s : State),
    s.wdg.st = .window →
    s.wdg.since + s.wdgCfg.openMs * 1000000 ≤ s.now →
    exec (.hostWdgService w) s = .next { s with wdg := { s.wdg with last := w, time := s.time.mtime, st := .window, since := s.tickUs, started := true, expiries := 0 } }) ∧
  (∀ (w : Word) (s : State),
    s.wdg.st = .window →
    s.now < s.wdg.since + s.wdgCfg.openMs * 1000000 →
    exec (.hostWdgService w) s = .next (({ s with wdg := { s.wdg with last := w, time := s.time.mtime } }).wdgExpire false)) ∧
  (∀ (s : State),
    s.wdg.st = .window →
    exec .hostWdgExpiry s = .next (s.wdgExpire true)) ∧
  (∀ (s : State),
    s.wdg.st = .first →
    s.wdg.started = true →
    exec .hostWdgExpiry s = .next (s.wdgExpire true)) ∧
  (∀ (s : State),
    exec (.wdgDisableArm .host) s = .next { s with wdg := { s.wdg with armed := some s.tickUs } }) ∧
  (∀ (s : State) (which : BitVec 2) (t : Ns),
    s.wdg.armed = some t →
    s.now ≤ t + 1000000 →
    s.nv.cur.wdgLock = false →
    s.wdgMayDisable = true →
    exec (.wdgDisableConfirm .host which) s = .next (({ s with wdg := { s.wdg with armed := none, st := if which.getLsbD 0 && s.wdg.st != WdgSt.stopped then .disabled else s.wdg.st, spn := tmap (fun (w : SpnWdg) => if which.getLsbD 1 then { w with enabled := false } else w) s.wdg.spn } }).wdgAnswer .host .accepted)) ∧
  (∀ (s : State) (which : BitVec 2) (t : Ns),
    s.wdg.armed = some t →
    s.now ≤ t + 1000000 →
    s.nv.cur.wdgLock = true →
    exec (.wdgDisableConfirm .host which) s = .next (({ s with wdg := { s.wdg with armed := none } }).wdgAnswer .host .refusedLock)) ∧
  (∀ (s : State) (which : BitVec 2) (t : Ns),
    s.wdg.armed = some t →
    s.now ≤ t + 1000000 →
    s.nv.cur.wdgLock = false →
    s.wdgMayDisable = false →
    exec (.wdgDisableConfirm .host which) s = .next (({ s with wdg := { s.wdg with armed := none } }).wdgAnswer .host .refusedState))

/-- MARGIN_HOLD, MARGIN_END and PROBE_REQUEST carry the host's wish: a margin request is numbered and waits for the COMMIT, or is refused where no cycle runs. While a hold or its return is under way each MARGIN_SLEW_STEP moves the code. HOLD_EXPIRED sends the code back to 0 and raises source 24. TRIM_CLIPPED shows whether the output is saturated; during a hold a saturation answers the hold's source CLIPPED, and it ends a probe. PROBE_ABORT_ALL ends every probe. A probe takes its step in one fine tick, keeps its 4,096 samples as a wave record, and ends with its result due, and its request met, when PROBE_HOLD has passed. -/
def Obligations.MarginsAndProbesAct : Prop :=
  (∀ (n : RailN) (target : BitVec 8) (s : State),
    s.g.st.cycleRuns = true →
    exec (.marginHold n target) s = .next { s with cmd := { s.cmd with issuedHost := s.cmd.issuedHost + 1 }, marginReqs := s.marginReqs.filter (fun q => !(q.src == Src.host && q.rail == n)) ++ [{ src := .host, rail := n, target := some target.toInt }] } ∧ exec (.marginEnd n) s = .next { s with cmd := { s.cmd with issuedHost := s.cmd.issuedHost + 1 }, marginReqs := s.marginReqs.filter (fun q => !(q.src == Src.host && q.rail == n)) ++ [{ src := .host, rail := n, target := none }] }) ∧
  (∀ (n : RailN) (target : BitVec 8) (s : State),
    s.g.st.cycleRuns = false →
    exec (.marginHold n target) s = .next (({ s with cmd := { s.cmd with issuedHost := s.cmd.issuedHost + 1, applied := tset s.cmd.applied 2 (s.cmd.issuedHost + 1) } }).marginAnswer .host n .refusedState)) ∧
  (∀ (n : RailN) (s : State),
    (s.rail n).mg.mode ∈ [MarginMode.hold, .ret] →
    (s.rail n).mg.code ≠ (s.rail n).mg.target →
    exec (.marginSlewStep n) s = .next (s.slew n)) ∧
  (∀ (n : RailN) (s : State),
    (s.rail n).mg.mode = .hold →
    exec (.holdExpired n) s = .next ((s.modRail n (fun r => { r with mg := { r.mg with mode := .ret, target := 0, endReason := .holdExpired, skip := if r.mg.code = 0 then s.measuring n else false } })).raise 24 n)) ∧
  (∀ (n : RailN) (s : State),
    exec (.trimClipped n false) s = .next (s.modRail n (fun r => { r with mg := { r.mg with clipped := false } }))) ∧
  (∀ (n : RailN) (s : State) (src : Src),
    (s.rail n).mg.mode = .hold →
    (s.rail n).mg.holder = some src →
    exec (.trimClipped n true) s = .next (((s.modRail n (fun r => { r with mg := { r.mg with clipped := true } })).raise 24 n).marginAnswer src n .clipped)) ∧
  (∀ (n : RailN) (s : State),
    (s.rail n).mg.mode = .probe →
    exec (.trimClipped n true) s = .next (((s.modRail n (fun r => { r with mg := { r.mg with clipped := true } })).raise 24 n).endMargin n .clipped)) ∧
  (∀ (s : State),
    exec .probeAbortAll s = .next (((List.finRange 256).filter (fun n => decide ((s.rail n).mg.mode = .probe))).foldl (fun (s : State) n => s.endMargin n .abortedHost) s)) ∧
  (∀ (n : RailN) (s : State),
    exec (.probeRequest n) s = .next { s with planner := { s.planner with rail := BitVec.ofNat 8 n.val, requested := some n } }) ∧
  (∀ (n : RailN) (s : State),
    (s.rail n).mg.mode = .probe →
    (s.rail n).mg.snapping = true →
    (s.rail n).mg.stepped = false →
    exec (.probeStepApply n) s = .next (s.modRail n (fun r => { r with mg := { r.mg with code := r.mg.probeCode, target := r.mg.probeCode, stepped := true, stepAt := s.now } }))) ∧
  (∀ (n : RailN) (s t : State) (samples : List (Option Int)) (cv : ConvN) (b : Snap),
    samples.length = 4096 →
    (s.rail n).mg.mode = .probe →
    (s.rail n).mg.snapping = true →
    s.homeConv n = some cv →
    b = (s.scan.probeBuf[cv]).fill samples →
    t = s.modRail n (fun r => { r with mg := { r.mg with snapping := false, samples := b.samples } }) →
    exec (.probeSnapshotEnd n samples) s = .next (((({ t with scan := { t.scan with probeBuf := tset t.scan.probeBuf cv b } }).modConv cv (fun c => { c with probe := if c.probe = some n then none else c.probe })).reRun cv).waveRecord 0x04 (sampleBytes b.samples))) ∧
  (∀ (n : RailN) (s t : State),
    (s.rail n).mg.mode = .probe →
    (s.rail n).mg.stepped = true →
    (s.rail n).mg.snapping = false →
    t = (s.endMargin n .probeDone).modRail n (fun r => { r with mg := { r.mg with resultDue := true } }) →
    t.planner.requested ≠ some n →
    exec (.probeHoldEnd n) s = .next t) ∧
  (∀ (n : RailN) (s t : State),
    (s.rail n).mg.mode = .probe →
    (s.rail n).mg.stepped = true →
    (s.rail n).mg.snapping = false →
    t = (s.endMargin n .probeDone).modRail n (fun r => { r with mg := { r.mg with resultDue := true } }) →
    t.planner.requested = some n →
    exec (.probeHoldEnd n) s = .next { t with planner := { t.planner with requested := none } })

/-- METER_BURST while metering closes and opens a period where one is due, integrates the four sets, keeps a window's results, and raises the period's flags. LINE_JUDGEMENT and SYSTEM_CLASSIFY take every LINE_SENSE set's level or window. DATA_SET_SIGNED numbers, signs and stores the oldest unsigned set and raises source 28. METER_DS_SELECT loads a stored data set, or answers NOT_FOUND and keeps MTR_DS_DATA. -/
def Obligations.MeterCommandsAct : Prop :=
  (∀ (samples : List MeterSample) (wins : List (Option MeterWin)) (s t u : State),
    samples.length = 4 →
    wins.length = 4 →
    s.metering = true →
    t = (if !s.mtr.open_ then s.openPeriod 1 else if !s.mtr.untimed && s.mtr.slotEnd.toNat ≤ s.time.utc.toNat then (s.closePeriod 0).openPeriod 0 else s) →
    u = (List.finRange 4).foldl (fun (s : State) (m : Fin 4) => match s.setCfg m, samples[m.val]? with | some c, some a => (match (wins[m.val]?).getD none with | some w => (s.modSet m (fun x => x.integrate c a)).modSet m (fun x => x.window w (match nominal (s.systemOf m) with | some n => n.2 | none => false)) | none => s.modSet m (fun x => x.integrate c a)) | _, _ => s) t →
    exec (.meterBurst samples wins) s = .next { u with mtr := { u.mtr with flags := u.mtr.flags ||| u.burstFlags samples, shadowRole := u.standby, sysTime := tmod u.mtr.sysTime (Fin.ofNat 16 u.mtr.system) (· + 1) } }) ∧
  (∀ (levels : List Nat) (s : State) (c : CMeter),
    levels.length = 4 →
    s.cfg.meter = some c →
    s.judgesLine = true →
    exec (.lineJudgement levels) s = .next ((s.senseSets.foldl (fun (s : State) (m : Fin 4) => if lost c.lossPct s.mtr.sets[m].system ((levels[m.val]?).getD 0) then s.modSet m (fun x => { x with system := 0 }) else s) s).lineSync)) ∧
  (∀ (wins : List LineWin) (s t : State) (c : CMeter),
    wins.length = 4 →
    s.cfg.meter = some c →
    s.judgesLine = true →
    t = s.senseSets.foldl (fun (s : State) (m : Fin 4) => match wins[m.val]? with | some w => s.classify c.lossPct m w | none => s) s →
    exec (.systemClassify wins) s = .next ({ t with mtr := { t.mtr with classified := true } }.lineSync)) ∧
  (∀ (s : State),
    exec .dataSetSigned s = .next s.signOne) ∧
  (∀ (s : State) (d : DataSet) (l : List DataSet),
    s.mtr.unsigned_ = d :: l →
    s.canSign = true →
    s.nv.cur.dataSets.length < 9216 →
    (s.streamCfg 1).isSome = true →
    ∃ x : DataSet, x.dsSeq = s.nv.cur.dsSeq + 1 ∧ x.label = d.label ∧ x.flags = d.flags ∧ s.signOne = ((({ s with mtr := { s.mtr with unsigned_ := l } }).nvWrite 256 (fun k => if k.dataSets.length < 9216 then { k with dsSeq := s.nv.cur.dsSeq + 1, dataSets := k.dataSets ++ [x] } else { k with dsSeq := s.nv.cur.dsSeq + 1, dataSets := k.dataSets.drop 1 ++ [x], overwritten := satInc 65535 k.overwritten })).raise 28).streamSets) ∧
  (∀ (ds : Word) (s : State) (d : DataSet),
    s.nv.cur.dataSets.find? (fun d => d.dsSeq == ds) = some d →
    exec (.meterDsSelect ds) s = .next { s with mtr := { s.mtr with dsSel := ds, dsAns := .found, dsData := d.bytes s.fac.serial } }) ∧
  (∀ (ds : Word) (s : State),
    s.nv.cur.dataSets.find? (fun d => d.dsSeq == ds) = none →
    exec (.meterDsSelect ds) s = .next { s with mtr := { s.mtr with dsSel := ds, dsAns := .notFound } })

/-- SCAN_SLOT_END of a powered converter that scans its own list writes the entry's result with its stamp, raises the window's source when a clean result leaves the window, hands the result to its rail and moves on; one without a slot does nothing. A calibration is due, is overdue once, and ends in REJOINING with the corrections stored, or in failure; its converter takes up its list at once, or at its partner's slot boundary while that covers it. CONVERTER_OUT, IN and CALIBRATE are answered by the converter's state and its partner's, and a converter that is to leave its list leaves it at its slot boundary. A snapshot command triggers all converters, or is REFUSED_BUSY during a burst. SCN_RES_READ captures the age stamp. SAMPLED_SAMPLING judges the sixteen sampled inputs, the supply's first with its effect. -/
def Obligations.ScanCommandsAct : Prop :=
  (∀ (c : ConvN) (x : Int) (s t : State) (k : Slot) (g : ResReg),
    s.noSlot c = false →
    s.slotNow c = some k →
    k.own = true →
    g = s.scan.res[resIndex c k.pos].write k.entry x s.scan.conv[c].overPrev false (s.outside k.entry x) (s.ageStamp s.scan.conv[c].lowPower) →
    t = { s with scan := { s.scan with res := tset s.scan.res (resIndex c k.pos) g } } →
    t.winSource k.entry = none →
    exec (.scanSlotEnd c x) s = .next ((((t.railResult k.entry g.res s.scan.conv[c].pass).advance c c g.res.ovr).boundary c).settle)) ∧
  (∀ (c : ConvN) (x : Int) (s : State),
    s.noSlot c = true →
    exec (.scanSlotEnd c x) s = .next s) ∧
  (∀ (c : ConvN) (s : State),
    exec (.calibrationDue c) s = .next (s.modConv c (fun x => { x with calDue := true }))) ∧
  (∀ (c : ConvN) (s : State),
    s.scan.conv[c].calDue = true →
    s.scan.conv[c].overdue = false →
    exec (.calOverdue c) s = .next ((s.modConv c (fun x => { x with overdue := true })).raise 23 c.val)) ∧
  (∀ (c : ConvN) (gain offset : Int) (s t : State),
    s.scan.conv[c].st = .calibrating →
    gain.natAbs ≤ 2000 →
    offset.natAbs ≤ 256 →
    s.age.refDisagree = false →
    t = s.modConv c (fun x => { x with st := .rejoining, joinDue := true, calCount := satInc 65535 x.calCount, overdue := false, calDue := false }) →
    exec (.calibrationDone c gain offset true) s = .next ((if t.scan.conv[partner c].covering then t else t.join c).nvWrite 8 (fun d => { d with cal := tset d.cal c { offset := offset, gain := gain, at_ := d.opNs / 60000000000 } }))) ∧
  (∀ (c : ConvN) (gain offset : Int) (agree : Bool) (s : State),
    s.scan.conv[c].st = .calibrating →
    2000 < gain.natAbs ∨ 256 < offset.natAbs ∨ agree = false ∨ s.age.refDisagree = true →
    exec (.calibrationDone c gain offset agree) s = .next (s.convFail c)) ∧
  (∀ (c : ConvN) (s : State),
    s.g.st.calibrates = true →
    s.scan.conv[c].st = .scanning →
    s.partnerAway c = false →
    s.scan.conv[c].burst = false →
    exec (.converterOut c) s = .next ((s.convAnswer c .accepted).modConv c (fun y => { y with leaveDue := some .out })) ∧ exec (.converterCalibrate c) s = .next ((s.convAnswer c .accepted).modConv c (fun y => { y with leaveDue := some .calibrating })) ∧ exec (.converterIn c) s = .next (s.convAnswer c .noChange)) ∧
  (∀ (c : ConvN) (s : State),
    s.g.st.calibrates = true →
    s.scan.conv[c].st = .scanning →
    s.partnerAway c = true →
    exec (.converterOut c) s = .next (s.convAnswer c .refusedPartner) ∧ exec (.converterCalibrate c) s = .next (s.convAnswer c .refusedPartner)) ∧
  (∀ (c : ConvN) (s : State) (x : ConvState),
    s.scan.conv[c].st = .scanning →
    s.scan.conv[partner c].st = .scanning →
    s.scan.conv[c].leaveDue = some x →
    s.leaveNow c = s.leaveList c x) ∧
  (∀ (c : ConvN) (s : State),
    s.g.st.calibrates = true →
    s.scan.conv[c].st = .out →
    exec (.converterIn c) s = .next ((s.convAnswer c .accepted).modConv c (fun x => { x with st := .calibrating })) ∧ exec (.converterOut c) s = .next (s.convAnswer c .noChange)) ∧
  (∀ (c : ConvN) (s : State),
    s.g.st.calibrates = false →
    exec (.converterIn c) s = .next (s.convAnswer c .refusedState) ∧ exec (.converterOut c) s = .next (s.convAnswer c .refusedState) ∧ exec (.converterCalibrate c) s = .next (s.convAnswer c .refusedState)) ∧
  (∀ (s : State),
    s.scan.burst = true →
    exec .snapshotTriggerCmd s = .next { s with scan := { s.scan with snapAns := .refusedBusy } }) ∧
  (∀ (s : State),
    s.scan.burst = false →
    s.scanPowered = true →
    exec .snapshotTriggerCmd s = .next ({ s with scan := { s.scan with snapAns := .accepted } }.snapTrigger)) ∧
  (∀ (samples : List (List (Option Int))) (s t : State) (b : Vector SnapBuf 2),
    samples.length = 16 →
    s.scan.burst = true →
    b = tmod s.scan.buf s.scan.cur (fun b => { b with snaps := Vector.ofFn (fun c : Fin 16 => b.snaps[c].fill (samples.getD c.val [])) }) →
    t = (((List.finRange 16).filter (fun c : ConvN => s.scan.conv[c].burst)).foldl State.reRun { s with scan := { s.scan with burst := false, lastBuf := s.scan.cur, buf := b, conv := tmap (fun c : Conv => { c with burst := false }) s.scan.conv } }).raise 22 →
    t.inc.st ≠ .capturing →
    exec (.snapshotBurstEnd samples) s = .next (t.waveRecord 0x03 ((b[s.scan.cur]).snaps.toList.flatMap (fun (b : Snap) => sampleBytes b.samples)))) ∧
  (∀ (r : Fin 1024) (s : State),
    exec (.scnResRead r) s = .next { s with scan := { s.scan with res := tmod s.scan.res r (fun g => { g with age := g.res.stamp }) } }) ∧
  (∀ (levels : List Int) (s t : State),
    levels.length = 16 →
    s.g.st ≠ .off →
    t = ((((List.finRange 16).zip levels).take 1).foldl (fun (s : State) (p : Fin 16 × Int) => if s.g.st = .off then s else s.sampleOne p.1 p.2) s).s0Effect →
    exec (.sampledSampling levels) s = .next ((((List.finRange 16).zip levels).drop 1).foldl (fun (s : State) (p : Fin 16 × Int) => if s.g.st = .off then s else s.sampleOne p.1 p.2) t))

/-- EVT_CLAIM of an assigned target marks the assignment claimed and moves its stamp to the time pair; with nothing assigned it changes nothing. EVT_COMPLETE of the assigned source ends its service, frees the target and arbitrates; another number is only noted. EVT_PEND_WRITE discards the PENDING sources whose bit is 0, then raises the IDLE ones whose bit is 1, reserved ones excepted. Masks, priorities, MSI-X masks and the end of a hold-off take effect with an arbitration pass where they let something through that waited. ALERT_ACCEPTED takes the pin, and a used input asserts by its polarity: a change raises source 352 plus the input for the directions configured, is latched where the router does not judge, and may wake the module from STABLED. -/
def Obligations.EventRouterCommandsAct : Prop :=
  (∀ (t : TgtN) (s : State) (n : Nat),
    s.evt.tgt[t].source = some n →
    exec (.evtClaim t) s = .next (s.modEvt (fun e => { e with tgt := tmod e.tgt t (fun x => { x with claimed := true, time := dw x.stamp }) }))) ∧
  (∀ (t : TgtN) (s : State),
    s.evt.tgt[t].source = none →
    exec (.evtClaim t) s = .next s) ∧
  (∀ (t : TgtN) (src : BitVec 10) (s : State),
    s.evt.tgt[t].source = some src.toNat →
    exec (.evtComplete t src) s = .next (s.modEvt (fun e => let e1 : Evt := { e.completed src.toNat s.stamp with tgt := tmod e.tgt t (fun x => { x with source := none, claimed := false }) }
    e1.passIf (e1.gained e || (e1.find src.toNat).isSome)))) ∧
  (∀ (t : TgtN) (src : BitVec 10) (s : State),
    s.evt.tgt[t].source ≠ some src.toNat →
    exec (.evtComplete t src) s = .next (s.modEvt (fun e => { e with tgt := tmod e.tgt t (fun x => { x with completeErr := true }) }))) ∧
  (∀ (g : Fin 32) (w : Word) (s : State),
    exec (.evtPendWrite g w) s = .next ((List.finRange 32).foldl (fun (s : State) (i : Fin 32) => if w.getLsbD i.val && (s.evt.find (32 * g.val + i.val)).isNone && !reservedSource (32 * g.val + i.val) then s.raise (32 * g.val + i.val) else s) (s.modEvt (fun e => (List.finRange 32).foldl (fun (e : Evt) (i : Fin 32) => match e.find (32 * g.val + i.val) with | some ⟨false, _⟩ => if w.getLsbD i.val then e else { e with srcs := srcsDrop (32 * g.val + i.val) e.srcs } | _ => e) e)))) ∧
  (∀ (g : Fin 32) (w : Word) (s : State),
    exec (.evtMaskWrite g w) s = .next (s.modEvt (fun e => ({ e with mask := tset e.mask g w }).passIf (e.mask[g] &&& ~~~w != 0))) ∧ exec (.holdoffEnd g) s = .next (s.modEvt (fun e => ({ e with barred := e.barred &&& ~~~(1#32 <<< g.val) }).passIf (e.barred.getLsbD g.val)))) ∧
  (∀ (t : TgtN) (prio : BitVec 8) (s : State),
    exec (.evtPrioWrite t prio) s = .next (s.modEvt (fun e => let e1 : Evt := { e with tgt := tmod e.tgt t (fun x => { x with prio := prio }) }
    e1.passIf (e1.gained e)))) ∧
  (∀ (en fnMask : Bool) (vecMask : BitVec 64) (s : State),
    exec (.msixMaskChange en fnMask vecMask) s = .next (s.modEvt (fun e => let e1 : Evt := { e with msixEn := en, fnMask := fnMask, vecMask := vecMask }
    e1.passIf (e1.gained e)))) ∧
  (∀ (i : Fin 8) (high : Bool) (s t : State) (a : CAlert),
    s.g.st ≠ .off →
    s.evt.alert[i].level ≠ alertAsserts a high →
    s.judgesAlerts = true →
    s.alertRec i = some a →
    t = (if (if alertAsserts a high then a.rise else a.fall) then (s.modAlert i (fun x => { x with level := alertAsserts a high, raw := high })).raise (352 + i.val) else s.modAlert i (fun x => { x with level := alertAsserts a high, raw := high })) →
    exec (.alertAccepted i high) s = .next (if a.wake then t.wakeUp 3 else t)) ∧
  (∀ (i : Fin 8) (high : Bool) (s : State),
    s.g.st ≠ .off →
    s.alertRec i = none →
    s.alertCfg.isNone = false →
    exec (.alertAccepted i high) s = .next (s.modAlert i (fun x => { x with raw := high }))) ∧
  (∀ (i : Fin 8) (high : Bool) (s : State) (a : CAlert),
    s.g.st = .stabled →
    s.evt.alert[i].raw ≠ high →
    s.alertRec i = some a →
    a.wake = true →
    exec (.alertAccepted i high) s = .next ((s.modAlert i (fun x => { x.latch high s.stamp with level := alertAsserts a high })).wakeUp 3))

/-- NVS_READ of a page of a used region, unlocked where the region is read-protected, gives the page and ACCEPTED, UNCOMMITTED or STALE. NVS_WRITE of 1 to 256 bytes within a used region, unlocked where it is write-protected, is carried out; else it answers REFUSED_STATE, REFUSED_RANGE or REFUSED_PASSWORD. NVS_COMMIT_NOW and GATHER_TIMEOUT start the commit of what is gathered. The unlocks check a password, NVS_LOCK ends the owner's. NVS_CLEAR is judged, recorded, and carried by a commit that starts at once. While the store recovers the reads and NVS_CLEAR answer REFUSED_STATE. NV_SCRUB records what the scrub finds. -/
def Obligations.NvStoreCommandsAct : Prop :=
  (∀ (s : State),
    s.nv.gathered ≠ 0 →
    exec .gatherTimeout s = .next s.commitStart) ∧
  (∀ (o : Owner) (s : State),
    s.nv.gathered ≠ 0 →
    exec (.nvsCommitNow o) s = .next (s.commitStart.nvAnswer o .accepted)) ∧
  (∀ (o : Owner) (s : State) (p f : Nat) (m : Fin 16) (r : CRegion),
    s.nvBarred = false →
    s.nvAddr o = (p, f, m) →
    s.region m = some r →
    p < r.pages →
    r.readProt = false ∨ s.unlocked o m.castSucc false = true →
    exec (.nvsRead o) s = .next ((s.setNvData o (bytesToWords 64 (s.nv.cur.page m p))).nvAnswer o (if s.nv.stalePages.contains (m, p) then .stale else if s.nv.dirty.contains (m, p) || s.nv.dirtyC.contains (m, p) then .uncommitted else .accepted))) ∧
  (∀ (o : Owner) (s : State) (p f : Nat) (m : Fin 16) (r : CRegion),
    s.nvBarred = false →
    s.nvAddr o = (p, f, m) →
    s.region m = some r →
    p < r.pages →
    r.readProt = true →
    s.unlocked o m.castSucc false = false →
    exec (.nvsRead o) s = .next (s.nvAnswer o .refusedPassword)) ∧
  (∀ (o : Owner) (len : BitVec 9) (s : State) (p f : Nat) (m : Fin 16) (r : CRegion),
    s.g.st.noNvWrite = false →
    s.nvAddr o = (p, f, m) →
    s.region m = some r →
    0 < len.toNat →
    len.toNat ≤ 256 →
    p < r.pages →
    f + len.toNat ≤ 256 ∨ p + 1 < r.pages ∨ r.trace = true →
    r.writeProt = false ∨ s.unlocked o m.castSucc true = true →
    exec (.nvsWrite o len) s = .next (s.nvWriteGo ⟨o, m, p, f, (s.nvData o).take len.toNat⟩ r)) ∧
  (∀ (o : Owner) (s : State) (r : CRegion),
    s.region (s.nvAddr o).2.2 = some r →
    exec (.nvsUnlockRead o) s = .next (s.unlock o ⟨(s.nvAddr o).2.2.val, by omega⟩ (s.nvAddr o).2.2.castSucc false) ∧ exec (.nvsUnlockWrite o) s = .next (s.unlock o ⟨16 + (s.nvAddr o).2.2.val, by omega⟩ (s.nvAddr o).2.2.castSucc true)) ∧
  (∀ (o : Owner) (s : State),
    exec (.nvsUnlockClear o) s = .next (s.unlock o 32 16 true) ∧ exec (.nvsLock o) s = .next ({ s with nv := { s.nv with unlocks := s.nv.unlocks.filter (fun u => u.owner != o) } }.nvAnswer o .accepted)) ∧
  (∀ (o : Owner) (s : State),
    s.nv.incPage.toNat < 768 →
    exec (.nvsReadInc o) s = .next (((s.incRead s.nv.incCopy s.nv.incPage.toNat).1.setNvData o (s.incRead s.nv.incCopy s.nv.incPage.toNat).2.1).nvAnswer o (if (s.incRead s.nv.incCopy s.nv.incPage.toNat).2.2 then .damaged else .accepted))) ∧
  (∀ (o : Owner) (s : State) (e : Lfl),
    s.nvBarred = false →
    s.nv.lflSel ≠ 255 →
    s.nv.cur.lfl[s.nv.lflSel.toNat]? = some e →
    exec (.nvsReadLfl o) s = .next ((s.setNvData o (bytesToWords 16 e.bytes)).nvAnswer o .accepted)) ∧
  (∀ (o : Owner) (scope : BitVec 3) (force : Bool) (n : RailN) (s : State),
    s.nvBarred = false →
    s.clearAuth o = true →
    scope = 2 ∨ scope = 3 ∨ (scope = 4 ∧ s.railUsed n = true) ∨ (scope = 1 ∧ s.inc.st = .frozen ∧ s.nv.cur.clears = [] ∧ (s.inc.exported = true ∨ force = true)) →
    exec (.nvsClear o scope force n) s = .next ((((s.nvAnswer o .accepted).juridical "CLEAR" [scope.toNat, force.toNat, if scope = 4 then n.val else 0]).nvWrite 16 (fun d => { d with clears := d.clears ++ [⟨scope.toNat, n⟩] })).commitStart)) ∧
  (∀ (o : Owner) (scope : BitVec 3) (force : Bool) (n : RailN) (s : State),
    s.nvBarred = false →
    s.clearAuth o = false →
    exec (.nvsClear o scope force n) s = .next (s.nvAnswer o .refusedPassword)) ∧
  (∀ (o : Owner) (scope : BitVec 3) (force : Bool) (n : RailN) (s : State),
    s.nvBarred = true →
    exec (.nvsClear o scope force n) s = .next (s.nvAnswer o .refusedState) ∧ exec (.nvsRead o) s = .next (s.nvAnswer o .refusedState) ∧ exec (.nvsReadLfl o) s = .next (s.nvAnswer o .refusedState)) ∧
  (∀ (i : Fin 35) (s : State),
    exec (.passwordLockoutExpiry i) s = .next { s with nv := { s.nv with cur := { s.nv.cur with pwd := tmod s.nv.cur.pwd i (fun p => { p with lockedSince := none }) } } }) ∧
  (∀ (r : ScrubResult) (s : State),
    r.retired = 0 →
    r.bad = [] →
    r.badSys = 0 →
    r.badCal = [] →
    r.badA = [] →
    r.badB = [] →
    exec (.nvScrub r) s = .next { s with nv := { s.nv with corrBits := min 65535 r.corrected, retired := s.nv.retired + r.retired, wearPct := r.wearPct } }) ∧
  (∀ (r : ScrubResult) (s : State) (m : Fin 16) (p : Nat) (l : Option (List Byte)),
    r.retired ≠ 0 →
    r.bad = [(m, p, l)] →
    r.badSys = 0 →
    r.badCal = [] →
    r.badA = [] →
    r.badB = [] →
    exec (.nvScrub r) s = .next (((({ s with nv := { s.nv with corrBits := min 65535 r.corrected, retired := s.nv.retired + r.retired, wearPct := r.wearPct } }).raise 26).uncorrectable (m, p, l)).eccEvent [m.val, p]))

/-- COMMIT_GROUP_DONE makes the group durable; it ends step 2 of LAST_GASP and, on the way to STABLED, begins the run-down set. INCLUSION_COPY_A_DONE and INCLUSION_COPY_B_DONE take the record to COMMIT_B and to FROZEN, release its buffer, and in step 5 of LAST_GASP end it; INCLUSION_CLEAR_DONE starts an empty record. SEAL_DONE programs the seal, with the cause histories that no commit carried, and step 4 begins with every CAS_OUT low and every field output off; each LAST_GASP_DROP_STEP drops the next rail; LAST_GASP_FLUSH_END commits the amount not flushed and drops it. -/
def Obligations.CommitAndLastGaspAct : Prop :=
  (∀ (s : State) (d : NvData),
    s.nv.committing = some d →
    (s.groupDurable d).nv.committing = none →
    (s.groupDurable d).g.st = .lastGasp →
    (s.groupDurable d).g.lgStep = 2 →
    exec .commitGroupDone s = .next { s.groupDurable d with g := { (s.groupDurable d).g with lgStep := 3, lgCommitOk := true } }) ∧
  (∀ (s : State) (d : NvData),
    s.nv.committing = some d →
    (s.groupDurable d).nv.committing = none →
    (s.groupDurable d).g.st = .run →
    (s.groupDurable d).shut.kind ≠ 1 →
    exec .commitGroupDone s = .next (s.groupDurable d)) ∧
  (∀ (s : State) (d : NvData),
    s.nv.committing = some d →
    (s.groupDurable d).nv.committing = none →
    (s.groupDurable d).g.st = .run →
    (s.groupDurable d).shut.kind = 1 →
    (s.groupDurable d).shut.phase = 3 →
    (s.groupDurable d).shut.flushed = true →
    exec .commitGroupDone s = .next (s.groupDurable d).beginSet.settle) ∧
  (∀ (s : State),
    s.inc.st = .commitA →
    exec .inclusionCopyADone s = .next ({ s with inc := { s.inc with st := .commitB, copyA := s.inc.cap } }.raise 26)) ∧
  (∀ (s : State),
    s.inc.st = .commitB →
    s.g.st = .run →
    exec .inclusionCopyBDone s = .next { s with inc := { s.inc with st := .frozen, copyB := s.inc.copyA, cap := none }, scan := { s.scan with heldBuf := none } }) ∧
  (∀ (s : State),
    s.inc.st = .clearing →
    exec .inclusionClearDone s = .next ({ s with inc := { recordNo := s.inc.recordNo } }.nvWrite 8 (fun d => { d with clearIncDue := false }))) ∧
  (∀ (s : State) (p : Seal),
    s.g.st = .lastGasp →
    s.g.lgStep = 3 →
    p = { valid := true, time := s.time.mtime, utc := s.utcNow, poweron := s.nv.cur.poweron, flushDone := s.g.lgFlushOk, commitDone := s.g.lgCommitOk, unflushedMib := s.g.lgUnflushed, incState := s.inc.st, pendingInc := s.inc.st.copying, recordNo := s.inc.recordNo, kept := s.nv.sealPending, further := s.nv.sealOverflow, no := s.sealPg.no + 1, history := (List.finRange 256).filterMap (fun n => if s.nv.cur.rail[n].seen = s.nv.durable.rail[n].seen && s.nv.cur.rail[n].count = s.nv.durable.rail[n].count then none else some (n, s.nv.cur.rail[n].seen, s.nv.cur.rail[n].count)) } →
    exec .sealDone s = .next ({ s with sealPg := p, g := { s.g with lgStep := 4 }, seq := { s.seq with casOut := 0 }, fio := { s.fio with outputsOff := true } }.dropNext)) ∧
  (∀ (s : State),
    s.g.st = .lastGasp →
    s.g.lgStep = 4 →
    exec .lastGaspDropStep s = .next s.dropNext) ∧
  (∀ (s : State),
    s.g.st = .lastGasp →
    s.g.lgStep = 1 →
    exec .lastGaspFlushEnd s = .next (s.lastGaspCommit (mibUp s.jurWaiting)))

/-- INPUT_FREEZE while the cycle runs, before its first cycle or after a COMMIT (whose next closing tick it then takes), replaces what is due, counts the cycle, dates it, takes the input image, arms the logical pairs and starts the first beads. CLOSING_TICK in EXECUTE or HOUSEKEEP notes the waits that expire, cuts short the beads that still run, closes the pair times, and is the COMMIT; it is late where a bead cannot be cut. PROGRAM_RESTART from STOPPED makes the program INACTIVE with its init bead due; PROGRAM_STOP is answered by the program's state and acts at its next INACTIVE or DONE. -/
def Obligations.CycleAndProgramsAct : Prop :=
  (∀ (s t u : State),
    s.g.st.cycleRuns = true →
    s.cyc.phase = 0 →
    t = ({ s with cyc := { s.cyc with closeAt := s.now + s.cycleNs } }).replaceAtFreeze →
    u = { t with cyc := { t.cyc with num := t.cyc.num + 1, first := decide (t.cyc.num = 0), freezeAt := t.now, phase := 1 } } →
    exec .inputFreeze s = .next ((List.finRange 8).foldl State.pick ((List.finRange 8).foldl State.armPair u.takeImage)).afterEnd) ∧
  (∀ (s t u : State),
    s.g.st.cycleRuns = true →
    s.cyc.phase = 3 →
    t = s.nextTick.replaceAtFreeze →
    u = { t with cyc := { t.cyc with num := t.cyc.num + 1, first := decide (t.cyc.num = 0), freezeAt := t.now, phase := 1 } } →
    exec .inputFreeze s = .next ((List.finRange 8).foldl State.pick ((List.finRange 8).foldl State.armPair u.takeImage)).afterEnd) ∧
  (∀ (s : State),
    s.g.st.cycleRuns = false ∨ s.cyc.phase = 1 ∨ s.cyc.phase = 2 →
    exec .inputFreeze s = .next s) ∧
  (∀ (s t u v : State),
    s.g.st.cycleRuns = true →
    s.cyc.late = false →
    s.cyc.phase = 1 ∨ s.cyc.phase = 2 →
    t = { s with cyc := { s.cyc with closeAt := s.now } } →
    u = ((((List.finRange 256).filter (fun n => t.waitsOpen n && (match t.cfg.prog[n] with | some p => !t.pairsLanding.contains p.pair | none => false))).foldl State.waitExpired t)) →
    v = (u.cutPairs.foldl State.cutShort u).timePairs →
    exec .closingTick s = .next (if v.executeDone then v.commit else { v with cyc := { v.cyc with late := true } })) ∧
  (∀ (n : ProgN) (s : State),
    s.spn.prog[n].st = .stopped →
    exec (.programRestart n) s = .next (s.modProg n (fun p => { p with st := .inactive, initDue := true, consecutive := 0, cmdAns := .accepted })) ∧ exec (.programStop n) s = .next (s.modProg n (fun p => { p with cmdAns := .noChange }))) ∧
  (∀ (n : ProgN) (s : State),
    s.spn.prog[n].st ≠ .stopped →
    exec (.programRestart n) s = .next (s.modProg n (fun p => { p with cmdAns := .refusedState }))) ∧
  (∀ (n : ProgN) (s : State),
    s.spn.prog[n].st ∉ [PSt.stopped, .absent, .dropped] →
    exec (.programStop n) s = .next ((s.modProg n (fun p => { p with cmdAns := .accepted, stopDue := true })).stopNow n))

/-- MISMATCH of an ACTIVE pair is judged by its kind and its checkpoint. REPLAY_END reconciles a journal that diverged, records the duration and goes on. PAIR_SELFTEST from RETIRED, and PAIR_SELFTEST_START in HOUSEKEEP, start a self-test; a pass leads to SHADOWING, a failure back to RETIRED with its count. PAIR_SHADOW_DONE makes the pair SPARE, with code 32 of its source, or retires it as SHADOW. PAIR_INJECT is answered in the order moving, no spare, state, no change. A failing self-check retires a SPARE pair. SPINDLE_WDG_EXPIRY records the bead and retires its pair as a TIMEOUT mismatch. -/
def Obligations.PhysicalPairCommandsAct : Prop :=
  (∀ (q : PPairN) (kind : MKind) (ok : Bool) (s : State),
    s.spn.phys[q].st = .active →
    s.g.st.operating = true →
    exec (.mismatch q kind ok) s = .next (s.mismatchFirst q kind ok).afterEnd) ∧
  (∀ (l : LPairN) (s : State) (r : Replay),
    s.spn.lpair[l].replay = some r →
    s.spn.lpair[l].cur = none →
    r.diverged = false →
    r.rest = [] →
    exec (.replayEnd l) s = .next ((((s.modPair l (fun x => { x with replay := none })).modRepl (fun x => { x with duration := min 255 ((s.now - r.since) / 1000) })).pickNext l).afterEnd)) ∧
  (∀ (l : LPairN) (s : State) (r : Replay),
    s.spn.lpair[l].replay = some r →
    s.spn.lpair[l].cur = none →
    r.diverged = true →
    exec (.replayEnd l) s = .next (((((s.reconcile l r).modPair l (fun x => { x with replay := none })).modRepl (fun x => { x with duration := min 255 ((s.now - r.since) / 1000) })).pickNext l).afterEnd)) ∧
  (∀ (q : PPairN) (s : State),
    s.spn.phys[q].st = .retired →
    exec (.pairSelftest q) s = .next ((s.modPhys q (fun x => { x with cmdAns := .accepted, st := .selftest })).updDegraded)) ∧
  (∀ (q : PPairN) (s : State),
    s.spn.phys[q].st ≠ .retired →
    s.spn.phys[q].st ≠ .selftest →
    exec (.pairSelftest q) s = .next (s.modPhys q (fun x => { x with cmdAns := .refusedState }))) ∧
  (∀ (q : PPairN) (s : State),
    s.motion.moving = false →
    s.spn.phys.toList.any (fun x => decide (x.st = .spare)) = true →
    s.spn.phys[q].st = .active →
    s.spn.phys[q].inject = false →
    exec (.pairInject q) s = .next (s.modPhys q (fun x => { x with cmdAns := .accepted, inject := x.inject || true }))) ∧
  (∀ (q : PPairN) (s : State),
    s.motion.moving = true →
    exec (.pairInject q) s = .next (s.modPhys q (fun x => { x with cmdAns := .refusedMoving, inject := x.inject || false }))) ∧
  (∀ (q : PPairN) (s : State),
    s.spn.phys[q].st = .retired →
    s.g.st.cycleRuns = true →
    s.cyc.phase = 2 →
    exec (.pairSelftestStart q) s = .next (s.modPhys q (fun x => { x with st := .selftest }))) ∧
  (∀ (q : PPairN) (s : State),
    s.spn.phys[q].st = .selftest →
    s.g.st.cycleRuns = true →
    s.cyc.phase = 2 →
    exec (.pairSelftestDone q true) s = .next (s.modPhys q (fun x => { x with st := .shadowing })) ∧ exec (.pairSelftestDone q false) s = .next ((s.modPhys q (fun x => { x with st := .retired })).nvWrite 4 (fun d => { d with physSelfFails := tmod d.physSelfFails q (satInc 65535) }))) ∧
  (∀ (q : PPairN) (s : State),
    s.spn.phys[q].st = .shadowing →
    s.g.st.cycleRuns = true →
    exec (.pairShadowDone q true) s = .next (((s.modPhys q (fun x => { x with st := .spare })).raise (608 + q.val) 32).updDegraded) ∧ exec (.pairShadowDone q false) s = .next ((s.retire q (some .shadow)).noteRetired q .shadow)) ∧
  (∀ (q : PPairN) (s : State),
    s.spn.phys[q].st = .spare →
    s.g.st.operating = true →
    s.g.st ≠ .lastGasp →
    exec (.spareSelfcheckFail q) s = .next (s.retire q none)) ∧
  (∀ (q : PPairN) (s t : State) (l : LPairN) (n : ProgN),
    s.spn.phys[q].serves.find? (fun l => s.spn.lpair[l].cur.isSome) = some l →
    s.wdg.spn[q].enabled = true →
    s.spn.phys[q].st = .active →
    s.g.st.cycleRuns = true →
    s.spn.lpair[l].cur = some n →
    t = { s with wdg := { s.wdg with spn := tmod s.wdg.spn q (fun w => { w with expiredSeen := true, expiries := satInc 65535 w.expiries, word := min 65535 s.spn.lpair[l].regs.pc, prog := n.val, bead := s.spn.lpair[l].bead }) } } →
    exec (.spindleWdgExpiry q) s = .next ((((t.raise (617 + q.val)).faultLogged 13 (617 + q.val) "SPINDLE_WATCHDOG" [n.val, s.spn.lpair[l].bead, s.spn.lpair[l].regs.pc]).mismatch q .timeout true).afterEnd))

/-- ACQUIRE of lock 0 to 255 takes a free lock, or answers BUSY; RELEASE and RELEASE_CLEAR_POISON free a lock of the target's own, or answer NOT_OWNER; other objects answer REFUSED_RANGE. SIGNAL by a target of the object's set is ACCEPTED and signals the object, else NOT_SIGNALLER. WAIT takes a signal that is counted and raises its notification source, else it is PENDING and registered; with a wait registered it is REFUSED_BUSY. CANCEL_WAIT cancels the wait. RESET_EPOCH is ACCEPTED and raises the epoch. The timer of a TIMER object signals it. -/
def Obligations.LocksAndSyncsAct : Prop :=
  (∀ (t : TgtN) (o : Fin 1024) (s : State) (k : Fin 256),
    lockOf o = some k →
    exec (.lckAcquire t o) s = .next ((s.acquire k (.host t)).1.lckDone t (if (s.acquire k (.host t)).2.acquired then .accepted else .busy) (s.acquire k (.host t)).2) ∧ exec (.lckRelease t o) s = .next ((s.release k (.host t) false).1.lckDone t (if (s.release k (.host t) false).2 then .accepted else .notOwner)) ∧ exec (.lckReleaseClearPoison t o) s = .next ((s.release k (.host t) true).1.lckDone t (if (s.release k (.host t) true).2 then .accepted else .notOwner))) ∧
  (∀ (t : TgtN) (o : Fin 1024) (s : State),
    256 ≤ o.val →
    exec (.lckAcquire t o) s = .next (s.lckDone t .refusedRange) ∧ exec (.lckRelease t o) s = .next (s.lckDone t .refusedRange) ∧ exec (.lckReleaseClearPoison t o) s = .next (s.lckDone t .refusedRange)) ∧
  (∀ (t : TgtN) (o : Fin 1024) (s : State) (r : CSync),
    s.syncRec o = some r →
    r.hosts.getLsbD t.val = true →
    exec (.syncSignal t o) s = .next ((s.lckDone t .accepted).signal o)) ∧
  (∀ (t : TgtN) (o : Fin 1024) (s : State),
    s.syncRec o = none →
    exec (.syncSignal t o) s = .next (s.lckDone t .notSignaller)) ∧
  (∀ (t : TgtN) (o : Fin 1024) (i : Fin 32) (p : BitVec 8) (s : State),
    s.lck.tgt[t].wait = none →
    0 < s.lck.sync[o].count →
    exec (.syncWait t o i p) s = .next (((s.modSync o (fun x => { x with count := x.count - 1 })).lckDone t .signalled).raise (736 + i.val))) ∧
  (∀ (t : TgtN) (o : Fin 1024) (i : Fin 32) (p : BitVec 8) (s : State),
    s.lck.tgt[t].wait = none →
    s.lck.sync[o].count = 0 →
    exec (.syncWait t o i p) s = .next (((s.lckDone t .pending).register o (.host t)).modLckTgt t (fun x => { x with wait := some (o, p.toNat, i) }))) ∧
  (∀ (t : TgtN) (s : State),
    s.lck.tgt[t].wait.isSome = true →
    exec (.syncCancelWait t) s = .next ((s.lckDone t .cancelled).cancelWait t)) ∧
  (∀ (t : TgtN) (s : State),
    exec (.resetEpoch t) s = .next ((s.lckDone t .accepted).riseHost t)) ∧
  (∀ (o : Fin 1024) (s : State) (r : CSync),
    s.syncRec o = some r →
    r.timer = true →
    exec (.syncTimerSignal o) s = .next (s.signal o))

/-- A host write with no lane, or while the host link is unpowered, changes nothing. One whose offset is not a multiple of 4 is access error 1. A write to BAR2 reaches a mailbox or is error 5. A write to BAR0 outside the registers is error 3, to a read-only register has no effect, to a command register acts with all four lanes and is error 2 otherwise; to any other register it acts with the lanes not enabled keeping the bytes held. An access that is an error changes nothing but GLB_ACCESS_ERR. -/
def Obligations.HostWritesAct : Prop :=
  (∀ (b : Bool) (a : Nat) (l : BitVec 4) (d : Word) (bar : Fin 3) (n : Nat) (w : Bool) (s : State),
    s.linksPowered = false →
    exec (.registerWrite b a l d) s = .next s ∧ exec (.barAccessError bar a n w) s = .next s) ∧
  (∀ (b : Bool) (a : Nat) (d : Word) (s : State),
    exec (.registerWrite b a 0 d) s = .next s) ∧
  (∀ (b : Bool) (a : Nat) (l : BitVec 4) (d : Word) (s : State),
    s.linksPowered = true →
    l ≠ 0#4 →
    a % 4 ≠ 0 →
    exec (.registerWrite b a l d) s = .next (s.accessErr 1 (if b then 1 else 0) a)) ∧
  (∀ (a : Nat) (l : BitVec 4) (d : Word) (s : State),
    s.linksPowered = true →
    l ≠ 0#4 →
    a % 4 = 0 →
    inMailbox a = true →
    exec (.registerWrite true a l d) s = .next (s.mailboxWrite a l d)) ∧
  (∀ (a : Nat) (l : BitVec 4) (d : Word) (s : State),
    s.linksPowered = true →
    l ≠ 0#4 →
    a % 4 = 0 →
    inMailbox a = false →
    exec (.registerWrite true a l d) s = .next (s.accessErr 5 1 a)) ∧
  (∀ (a : Nat) (l : BitVec 4) (d : Word) (s : State),
    s.linksPowered = true →
    l ≠ 0#4 →
    a % 4 = 0 →
    s.bar0 a = none →
    exec (.registerWrite false a l d) s = .next (s.accessErr 3 0 a)) ∧
  (∀ (a : Nat) (l : BitVec 4) (d w : Word) (s : State),
    a % 4 = 0 →
    s.bar0 a = some (.ro, w) →
    exec (.registerWrite false a l d) s = .next s) ∧
  (∀ (a : Nat) (l : BitVec 4) (d w : Word) (s : State),
    s.linksPowered = true →
    l ≠ 0#4 →
    l ≠ 15#4 →
    a % 4 = 0 →
    s.bar0 a = some (.cmd, w) →
    exec (.registerWrite false a l d) s = .next (s.accessErr 2 0 a)) ∧
  (∀ (a : Nat) (d w : Word) (s : State),
    s.linksPowered = true →
    a % 4 = 0 →
    s.bar0 a = some (.cmd, w) →
    exec (.registerWrite false a 15 d) s = s.regWrite a d) ∧
  (∀ (a : Nat) (l : BitVec 4) (d w : Word) (s : State),
    s.linksPowered = true →
    l ≠ 0#4 →
    a % 4 = 0 →
    s.bar0 a = some (.rw, w) →
    exec (.registerWrite false a l d) s = s.regWrite a (mergeLanes l w d)) ∧
  (∀ (bar : Fin 3) (a n : Nat) (w : Bool) (s : State) (c k : Nat),
    s.linksPowered = true →
    s.accessCause bar.val a n w = some (c, k) →
    exec (.barAccessError bar a n w) s = .next (s.accessErr c bar.val k)) ∧
  (∀ (c b a : Nat) (s : State),
    s.accessErr c b a = if s.acc.err then s else { s with acc := { err := true, cause := c, bar := b, offset := a % 16777216 } })

/-- LEVEL_RECOMPUTE outside OFF and STABLED judges supply, line and fans and takes the loads into the mean of the last second, then the level with and without hysteresis, and with a HEADSTOCK section shows the horizon, refills the token store, steps the eight thermal domains and shares the energy. BATTERY_WRITE dates the allocation; BATTERY_TIMEOUT makes a valid one stale, once. A doorbell of an enabled queue pushes, completes or cancels an item; FLUSH cancels every queued item of the selected queue. DESCRIPTOR_READ_DONE gives the head item its estimate. DISPATCH_ROUND while the cycle runs dispatches at most one item, judges the domains and tests the waits; every round is counted for the waits' age. DOMAIN_IDLE_TIMEOUT requests an idle domain down. -/
def Obligations.HeadstockCommandsAct : Prop :=
  (∀ (p : Nat) (s t u : State),
    s.g.st.computes = true →
    t = { s with hds := { s.hds with supplyOk := s.supplyCounts, line := s.lineCounts, fans := s.fansRun } }.sampleLoad →
    t.cfg.hds = none →
    s.cfg.hds = none →
    u = t.judgeLevel (t.targetLevel t.pMeas p 0) (t.targetLevel t.pMeas p 0) 0 →
    u.cfg.hds = none →
    exec (.levelRecompute () p) s = .next { u with hds := { u.hds with pMod := p } }) ∧
  (∀ (p : Nat) (s t u : State) (h k : CHds),
    s.g.st.computes = true →
    s.cfg.hds = some h →
    t = { s with hds := { s.hds with supplyOk := s.supplyCounts, line := s.lineCounts, fans := s.fansRun } }.sampleLoad →
    u = t.judgeLevel (t.targetLevel t.pMeas p 0) (t.targetLevel t.pMeas p h.hyst) h.upHold →
    u.cfg.hds = some k →
    exec (.levelRecompute () p) s = .next ((List.finRange 16).foldl State.shareEnergy ((List.finRange 8).foldl State.thermStep (u.showHorizon k t.pMeas p).refill))) ∧
  (∀ (j : Word) (s : State),
    exec (.batteryWrite j) s = .next { s with hds := { s.hds with alloc := j, battValid := true, battAt := s.tickUs } }) ∧
  (∀ (s : State),
    s.hds.battValid = true →
    exec .batteryTimeout s = .next (({ s with hds := { s.hds with battValid := false, battStale := true } }).laterFault none none "BATTERY_STALE")) ∧
  (∀ (q : QueueN) (w : Word) (s : State) (c : CQueue),
    s.queueCfg q = some c →
    s.hds.queue[q].enable = true →
    exec (.queuePush q w) s = .next (if c.dom.isNone then s.pushTask q c w else s.pushHost q w)) ∧
  (∀ (q : QueueN) (i : BitVec 16) (a : Bool) (s : State) (c : CQueue) (x : Item),
    s.queueCfg q = some c →
    s.hds.queue[q].enable = true →
    c.dom.isSome = true →
    s.hds.queue[q].items.find? (fun x => x.index == i.toNat && decide (x.st ≠ ItemSt.queued)) = some x →
    exec (.queueComplete q i a) s = .next (s.complete q x (if a then 3 else 1) x.measHost)) ∧
  (∀ (q : QueueN) (i : BitVec 16) (s : State),
    (s.queueCfg q).isSome = true →
    s.hds.queue[q].enable = true →
    exec (.queueCancel q i) s = .next (s.modQueue q (fun u => { u with cancels := u.cancels ++ [i.toNat] }))) ∧
  (∀ (s : State),
    exec .queueFlush s = .next ((s.hds.queue[s.hds.qSel].items.filter (fun x => decide (x.st = ItemSt.queued))).foldl (fun (s' : State) x => s'.complete s.hds.qSel x 2 none) s)) ∧
  (∀ (q : QueueN) (est : Word) (s : State) (c : CQueue) (x : Item),
    s.queueCfg q = some c →
    s.hds.queue[q].headItem = some x →
    c.dom.isSome = true →
    x.desc = none →
    exec (.descriptorReadDone q est) s = .next ((s.modQueue q (fun u => u.modItem x.index (fun y => { y with desc := some est.toNat }))).withdrawDown q)) ∧
  (∀ (s : State),
    s.cfg.hds = none →
    s.g.st.cycleRuns = true →
    exec .dispatchRound s = .next s.detect.endRound) ∧
  (∀ (s : State),
    s.g.st.cycleRuns = false →
    exec .dispatchRound s = .next { s with lck := { s.lck with regNo := s.lck.regNo + 1 } }) ∧
  (∀ (s t u v : State) (h : CHds),
    s.cfg.hds = some h →
    s.g.st.cycleRuns = true →
    t = (s.applyCancels h.queues).noteMissed h.queues →
    u = t.noteDenials (t.judgeQueues h.queues) →
    v = { u with hds := { u.hds with reserving := u.reservation (t.judgeQueues h.queues) } } →
    exec .dispatchRound s = .next ((List.finRange 16).foldl State.domWake (match ((t.judgeQueues h.queues).filter (fun j => j.deny.isNone)).foldl Judged.better none with | some j => v.dispatch j | none => v)).detect.endRound) ∧
  (∀ (d : Fin 16) (s t : State) (k : CDom),
    s.domCfg d = some k →
    s.hds.dom[d].st = .on →
    k.alwaysOn = false →
    s.hds.dom[d].inflight = 0 →
    (s.domQueues d).any (fun y => s.hds.queue[y.1].enable && (s.hds.queue[y.1].readyItem y.2).isSome) = false →
    s.g.st.cycleRuns = true →
    t = s.modDom d (fun y => { y with st := .reqDown }) →
    exec (.domainIdleTimeout d) s = .next (({ t with seq := { t.seq with domReqs := t.seq.domReqs ++ [DomReq.mk d false] } }).raise (576 + d.val) 2))

/-- While the tailstock runs: a heartbeat on a link that was lost under TB_FAULT, which is not retrained, is nothing; one with a wrong CRC is counted; a valid one notes its link's serial and number, and is miswired where the other link's serial differs, else it brings the link up and is judged. HEARTBEAT_SEND of a module that is eligible or seeking sends one on each enabled link. TAILSTOCK_LINK_LOSS takes a link down, PARTNER_LOSS both. SEEK_TIMEOUT without an eligible partner makes the module PRIMARY with source 5. HANDOVER is ACCEPTED by a PRIMARY whose partner is STANDBY_READY. HSB_PCMD queues a partner command. A STANDBY keeps the first complete copy of a mirror and counts one that comes too late. -/
def Obligations.TailstockCommandsAct : Prop :=
  (∀ (k : Fin 2) (b : Heartbeat) (s : State),
    s.hsbRuns = true →
    s.tailEn k = true →
    s.noRetrain (716 + k.val) = false →
    b.crcOk = false →
    exec (.heartbeatRx k b) s = .next (s.modHsb (fun h => { h with crcErr := tmod h.crcErr k (satInc 65535) }))) ∧
  (∀ (k : Fin 2) (b : Heartbeat) (s t : State),
    s.hsbRuns = true →
    s.tailEn k = true →
    s.noRetrain (716 + k.val) = false →
    b.crcOk = true →
    t = s.modHsb (fun h => { h with linkSerial := tset h.linkSerial k b.serial, linkNo := if b.link = 0 then h.linkNo &&& ~~~ (1#2 <<< k.val) else h.linkNo ||| (1#2 <<< k.val) }) →
    exec (.heartbeatRx k b) s = .next (if s.hsb.linkSerial[1 - k] != 0 && s.hsb.linkSerial[1 - k] != b.serial then t.miswire else ((t.linkFound (716 + k.val)).modHsb (fun h => { h with miswired := false, up := h.up ||| (1#2 <<< k.val) })).beatValid b)) ∧
  (∀ (k : Fin 2) (b : Heartbeat) (s : State),
    s.noRetrain (716 + k.val) = true →
    exec (.heartbeatRx k b) s = .next s) ∧
  (∀ (s : State),
    s.hsbRuns = true →
    s.g.st.cycleRuns = true ∨ s.hsb.st = .seeking →
    exec .heartbeatSend s = .next ((s.modHsb (fun h => { h with beats := h.beats + 1, sentBeats := Vector.ofFn (fun k : Fin 2 => if s.tailEn k then some (s.beatOut k) else h.sentBeats[k]) })).tickFree)) ∧
  (∀ (k : Fin 2) (s : State),
    s.hsbRuns = true →
    exec (.tailstockLinkLoss k) s = .next (s.tailDown k)) ∧
  (∀ (s : State),
    s.hsbRuns = true →
    exec .partnerLoss s = .next ((if s.hsb.eligible || ((s.tailDown 0).tailDown 1).standby then ((s.tailDown 0).tailDown 1).partnerLost else (s.tailDown 0).tailDown 1).modHsb (fun h => { h with partner := none, eligible := false }))) ∧
  (∀ (s : State),
    s.hsbRuns = true →
    s.hsb.st = .seeking →
    s.g.st.cycleRuns = true →
    s.hsb.eligible = false →
    exec .seekTimeout s = .next ((s.modHsb (fun h => { h with st := .primary, arbitrated := true })).raise 5 0)) ∧
  (∀ (s : State),
    s.hsb.st = .primary →
    s.partnerIn .standbyReady = true →
    exec .handover s = .next (s.modHsb (fun h => { h with cmdAns := .accepted, handover := true }))) ∧
  (∀ (s : State),
    s.hsb.st ≠ .primary →
    exec .handover s = .next (s.modHsb (fun h => { h with cmdAns := .refusedState }))) ∧
  (∀ (n : RailN) (s : State),
    s.hsb.st = .primary →
    s.hsb.eligible = true →
    s.hsb.arbitrated = true →
    s.hsb.queue = [] →
    exec (.partnerCommand n 0xF) s = .next (s.modHsb (fun h => { h with pcmdAns := .queued, queue := h.queue ++ [.on] })) ∧ exec (.partnerCommand n 1) s = .next (s.modHsb (fun h => { h with pcmdAns := .queued, queue := h.queue ++ [.rail n .on] })) ∧ exec (.partnerCommand n 2) s = .next (s.modHsb (fun h => { h with pcmdAns := .queued, queue := h.queue ++ [.rail n .off] }))) ∧
  (∀ (m : Mirror) (s : State),
    s.standby = true →
    s.hsb.arbitrated = true →
    s.hsb.got = none →
    s.hsb.lastApplied = 0 →
    s.hsb.aligned = false ∨ s.cyc.num ≤ m.cycle + 1 →
    exec (.mirrorRx m) s = .next (s.modHsb (fun h => { h with got := some m }))) ∧
  (∀ (m : Mirror) (s : State),
    s.standby = true →
    s.hsb.arbitrated = true →
    s.hsb.got = none →
    s.hsb.lastApplied = 0 →
    s.hsb.aligned = true →
    m.cycle + 1 < s.cyc.num →
    exec (.mirrorRx m) s = .next (s.modHsb (fun h => { h with late := satInc 65535 h.late })))

/-- FIELD_SAMPLE of a used group takes its current, and with its supply samples the contacts of its input points. SILENT_LOGIC_EXPIRY of an output point whose timer runs puts it in SAFE, holding what it switched, with event code 3 and a later fault. The loss of a group's supply clears its inputs, with code 0; its return debounces afresh and makes the outputs wait for a COMMIT, with code 1 but for the first after START. GROUP_OVERLOAD latches the group off, code 4; POINT_OVERLOAD shows it, code 2 once, and POINT_OVERLOAD_CLEAR ends it. FIELD_GROUP_RESET answers NO_CHANGE, REFUSED_SUPPLY, REFUSED_STATE, or unlatches the group. -/
def Obligations.FieldCommandsAct : Prop :=
  (∀ (g : Fin 8) (x : BitVec 16) (i : Nat) (s : State) (c : CField),
    s.fieldCfg g = some c →
    s.cmpPowered = true →
    s.fio.group[g].supplyOk = true →
    exec (.fieldSample g x i) s = .next ((List.range 16).foldl (fun (s : State) (i : Nat) => match c.points[i]? with | some k => if isInput k.mode then s.modPoint (groupPoint g i) (fun y => y.sample (x.getLsbD i) k.debounceUs s.now) else s | none => s) (s.modFGroup g (fun y => { y with current := i }))).settle) ∧
  (∀ (g : Fin 8) (x : BitVec 16) (i : Nat) (s : State) (c : CField),
    s.fieldCfg g = some c →
    s.cmpPowered = true →
    s.fio.group[g].supplyOk = false →
    exec (.fieldSample g x i) s = .next (s.modFGroup g (fun y => { y with current := i }))) ∧
  (∀ (p : PointN) (s : State),
    s.isOutput p = true →
    s.fio.point[p].timerAt.isSome = true →
    s.fio.outputsOff = false →
    s.fio.point[p].inSafe = false →
    exec (.silentLogicExpiry p) s = .next (((s.modPoint p (fun x => { x with timerAt := none, inSafe := true, hold := if x.inSafe then x.hold else s.switched p })).raise (376 + p.val / 16) 3).laterFault (some (376 + p.val / 16)) none "SILENT_LOGIC" [p.val])) ∧
  (∀ (g : Fin 8) (s : State),
    (s.fieldCfg g).isSome = true →
    s.cmpPowered = true →
    s.fio.group[g].supplyOk = true →
    exec (.groupSupplyLost g) s = .next ((((s.modFGroup g (fun x => { x with supplyOk := false, lostSeen := true })).clearInputs g).raise (376 + g.val) 0).settle)) ∧
  (∀ (g : Fin 8) (s : State),
    (s.fieldCfg g).isSome = true →
    s.cmpPowered = true →
    s.fio.group[g].supplyOk = false →
    exec (.groupSupplyReturned g) s = .next ((if s.fio.group[g].everOk then ((s.modFGroup g (fun x => { x with supplyOk := true, waiting := true, everOk := true })).clearInputs g).raise (376 + g.val) 1 else (s.modFGroup g (fun x => { x with supplyOk := true, waiting := true, everOk := true })).clearInputs g).settle)) ∧
  (∀ (g : Fin 8) (s : State),
    s.cmpPowered = true →
    (s.fieldCfg g).isSome = true →
    exec (.groupOverload g) s = .next ((s.modFGroup g (fun x => { x with latched := true, overSeen := true, overloads := satInc 65535 x.overloads })).raise (376 + g.val) 4)) ∧
  (∀ (p : PointN) (t : Bool) (s : State),
    s.cmpPowered = true →
    s.isOutput p = true →
    s.fio.point[p].ovl = false →
    exec (.pointOverload p t) s = .next ((s.modPoint p (fun x => { x with ovl := true, ovlSeen := true, thermal := t })).raise (376 + p.val / 16) 2)) ∧
  (∀ (p : PointN) (s : State),
    exec (.pointOverloadClear p) s = .next (s.modPoint p (fun x => { x with ovl := false, thermal := false }))) ∧
  (∀ (g : Fin 8) (s : State),
    s.fio.group[g].latched = true →
    s.fio.group[g].supplyOk = true →
    s.g.st.cycleRuns = true →
    exec (.fieldGroupReset g) s = .next ((s.modFGroup g (fun x => { x with latched := false, waiting := true })).modFGroup g (fun x => { x with cmdAns := .accepted }))) ∧
  (∀ (g : Fin 8) (s : State),
    s.fio.group[g].latched = true →
    s.fio.group[g].supplyOk = false →
    exec (.fieldGroupReset g) s = .next (s.modFGroup g (fun x => { x with cmdAns := .refusedSupply })))

/-- REC_STR_TAIL of a host stream within its ring takes the tail; beyond it the write is access error 7. The descriptor at HEAD of an enabled host stream in RECORDING becomes a record and HEAD passes it; one with a bad length or type is dropped, counted and reported with code 2. BLOCK_WRITE with data waiting writes the next block to an open chunk of each copy. UNIT_FLUSH flushes what is written; UNIT_WRITE_DONE makes writes durable and advances DURABLE. RECORD_READ starts a read, or answers REFUSED_BUSY; RECORD_READ_ABORT ends it; RECORD_READ_DONE stores the records in host memory and answers FOUND, TRUNCATED or NOT_FOUND. -/
def Obligations.RecordStreamsAct : Prop :=
  (∀ (i : Fin 64) (t : BitVec 16) (s : State),
    3 ≤ i.val →
    (t - s.reng.stream[i].head).toNat ≤ 2 ^ s.reng.stream[i].ringLog2.toNat →
    exec (.streamTailWrite i t) s = .next (s.modStream i (fun y => { y with tail := t }))) ∧
  (∀ (i : Fin 64) (t : BitVec 16) (s : State),
    3 ≤ i.val →
    2 ^ s.reng.stream[i].ringLog2.toNat < (t - s.reng.stream[i].head).toNat →
    exec (.streamTailWrite i t) s = .next (s.accessErr 7 0 (0x091024 + 64 * i.val))) ∧
  (∀ (i : Fin 64) (len : Word) (typ : Byte) (sync : Bool) (b : List Byte) (s : State),
    b.length = len.toNat →
    1 ≤ len.toNat →
    len.toNat ≤ 1048512 →
    16 ≤ typ.toNat →
    3 ≤ i.val →
    (s.streamCfg i).isSome = true →
    s.reng.stream[i].enable = true →
    s.reng.stream[i].head ≠ s.reng.stream[i].tail →
    s.reng.hostStopped = false →
    s.recState = 1 →
    s.hasRoom i (64 + (len.toNat + 15) / 16 * 16) = true →
    exec (.streamPayloadAdmitted i len typ sync b) s = .next ((s.putEntry i typ b len.toNat s.edge.mtime s.stampUtc s.time.utcQual s.nv.cur.poweron sync).modStream i (fun y => { y with head := y.head + 1 }))) ∧
  (∀ (i : Fin 64) (len : Word) (typ : Byte) (sync : Bool) (b : List Byte) (s : State),
    len.toNat = 0 ∨ 1048512 < len.toNat ∨ typ.toNat < 16 →
    3 ≤ i.val →
    (s.streamCfg i).isSome = true →
    s.reng.stream[i].enable = true →
    s.reng.stream[i].head ≠ s.reng.stream[i].tail →
    s.reng.hostStopped = false →
    s.recState = 1 →
    exec (.streamPayloadAdmitted i len typ sync b) s = .next ((s.modStream i (fun y => { y with head := y.head + 1, dropped := satInc 0xFFFFFFFF y.dropped })).raise (640 + i.val) 2)) ∧
  (∀ (i : Fin 64) (s t : State),
    s.writesUnits = true →
    s.reng.stream[i].buf.any (fun r => decide (0 < r.left)) = true →
    (s.ensureChunks i).2 = false →
    t = (s.ensureChunks i).1 →
    exec (.blockWrite i) s = .next t) ∧
  (∀ (i : Fin 64) (s t u : State) (b : List BufRec × List Rec),
    s.writesUnits = true →
    s.reng.stream[i].buf.any (fun r => decide (0 < r.left)) = true →
    (s.ensureChunks i).2 = true →
    t = (s.ensureChunks i).1 →
    b = fillBlock 4096 (t.reng.stream[i].units.foldl (fun b k => b ||| (1#8 <<< k.val)) 0) t.reng.stream[i].buf →
    u = t.reng.stream[i].units.foldl (fun (s : State) k => s.modUnit k (fun u => { u with chunks := u.chunks.map (fun c => if c.stream = i && c.open_ then chunkBlock c b.2 else c) })) (t.modStream i (fun x => { x with buf := b.1 })) →
    exec (.blockWrite i) s = .next (u.modStream i (fun x => { x with units := x.units.filter (fun k => u.reng.unit[k].chunks.any (fun c => c.stream = i && c.open_)) }))) ∧
  (∀ (w n : Nat) (s : State),
    s.writesUnits = true →
    exec (.unitFlush w n) s = .next { s with reng := { s.reng with writeMbs := w, inMbs := n, stream := tmap (fun x : Stream => { x with buf := x.buf.map (fun r => { r with flushing := r.written }) }) s.reng.stream } }) ∧
  (∀ (k : Fin 8) (s : State),
    exec (.unitWriteDone k true) s = .next ({ s with reng := { s.reng with stream := tmap (fun x : Stream => { x with buf := x.buf.map (fun (r : BufRec) => { r with durable := r.durable ||| (r.flushing &&& (1#8 <<< k.val)), flushing := r.flushing &&& ~~~ (1#8 <<< k.val) }) }) s.reng.stream } }.advanceDurable) ∧ exec (.unitWriteDone k false) s = .next ({ s with reng := { s.reng with stream := tmap (fun x : Stream => { x with buf := x.buf.map (fun (r : BufRec) => if r.fua && r.left = 0 then { r with durable := r.durable ||| (r.written &&& (1#8 <<< k.val)) } else r) }) s.reng.stream } }.advanceDurable)) ∧
  (∀ (i : Fin 64) (s : State),
    s.reng.rdState ≠ 1 →
    exec (.recordRead i) s = .next { s with reng := { s.reng with rdState := 1, rdAns := .none, rdStream := i, rdKib := 0 } }) ∧
  (∀ (i : Fin 64) (s : State),
    s.reng.rdState = 1 →
    exec (.recordRead i) s = .next { s with reng := { s.reng with rdAns := .refusedBusy } } ∧ exec .recordReadAbort s = .next { s with reng := { s.reng with rdState := 0 } }) ∧
  (∀ (s : State),
    s.reng.rdState = 1 →
    s.readRecs s.reng.rdStream s.reng.rdSeq.toNat s.reng.rdLen.toNat none = ([], false) →
    exec (.recordReadDone false none) s = .next { s with reng := { s.reng with rdState := 2, rdAns := .notFound, rdKib := 0, rdNext := dw s.reng.rdNext.toNat } }) ∧
  (∀ (s : State) (l : List Rec) (r : Rec),
    s.reng.rdState = 1 →
    s.readRecs s.reng.rdStream s.reng.rdSeq.toNat s.reng.rdLen.toNat none = (l, false) →
    l.getLast? = some r →
    l.flatMap recBytes ≠ [] →
    exec (.recordReadDone false none) s = .next { s.toHost s.reng.rdAddr (l.flatMap recBytes) with reng := { s.reng with rdState := 2, rdAns := .found, rdKib := (l.flatMap recBytes).length / 1024, rdNext := dw (r.seq + 1) } }) ∧
  (∀ (s : State) (d : Option Nat),
    s.reng.rdState = 1 →
    exec (.recordReadDone true d) s = .next { s with reng := { s.reng with rdState := 2, rdAns := .hostWriteError } })

/-- A unit's presence trains an absent unit of an enabled port. Its controller ready leads from TRAINING to VERIFYING, or to FAILED as UNSUPPORTED; a time-out to FAILED as NO_LINK. The end of verification in a module that records leads to IN_SERVICE with its event, BLANK, FOREIGN or FAILED. RELEASE of an IN_SERVICE unit closes its open chunks, but not of the only unit of stream 0 without FORCE; its shutdown makes it REMOVABLE; its removal, a surprise unless REMOVABLE, makes it ABSENT with code 1. A link that drops is retrained, but is lost under TB_FAULT; a write error or a lost link fails the unit with code 2. A stream that has lost its last unit so reports it once. ADMIT retrains a FAILED unit; FORMAT makes a BLANK one IN_SERVICE. -/
def Obligations.StorageUnitsAct : Prop :=
  (∀ (k : Fin 8) (s : State),
    s.g.st ≠ .off →
    s.g.st ≠ .stabled →
    s.reng.unit[k].st = .absent →
    s.storageOn k = true →
    exec (.unitPresent k) s = .next (s.modUnit k (fun u => { u with st := .training, present := true, perst := false }))) ∧
  (∀ (k : Fin 8) (met : Bool) (c w : Nat) (s : State),
    s.reng.unit[k].st = .training →
    s.noRetrain (704 + k.val) = false →
    exec (.unitControllerReady k met c w) s = .next ((s.linkFound (704 + k.val)).modUnit k (fun u => { u with st := if met then .verifying else .failed, failCause := if met then u.failCause else some .unsupported, capChunks := c, wearPct := w })) ∧ exec (.unitTrainingTimeout k) s = .next (s.modUnit k (fun u => { u with st := .failed, failCause := some .noLink }))) ∧
  (∀ (k : Fin 8) (l : List Chunk) (s : State),
    s.reng.unit[k].st = .verifying →
    s.g.st ≠ .safeHold →
    s.g.st ≠ .unprovisioned →
    s.g.loadOk = true →
    exec (.unitVerifyDone k (.good l)) s = .next ((s.modUnit k (fun u => { u with st := .inService, chunks := s.takeChunks l })).raise (704 + k.val)) ∧ exec (.unitVerifyDone k .blank) s = .next (s.modUnit k (fun u => { u with st := .blank, chunks := [] })) ∧ exec (.unitVerifyDone k .foreign) s = .next (s.modUnit k (fun u => { u with st := .foreign })) ∧ exec (.unitVerifyDone k .badIndex) s = .next (s.modUnit k (fun u => { u with st := .failed, failCause := some .indexBad, chunks := [] }))) ∧
  (∀ (k : Fin 8) (l : List Chunk) (s : State),
    s.reng.unit[k].st = .verifying →
    s.g.st = .safeHold →
    exec (.unitVerifyDone k (.good l)) s = .next (s.modUnit k (fun u => { u with chunks := l })) ∧ exec (.unitVerifyDone k .blank) s = .next s ∧ exec (.unitVerifyDone k .badIndex) s = .next s) ∧
  (∀ (k : Fin 8) (s : State),
    s.reng.unit[k].st = .releasing →
    s.g.st ≠ .lastGasp →
    exec (.unitShutdownDone k) s = .next (s.modUnit k (fun u => { u with st := .removable, perst := true }))) ∧
  (∀ (k : Fin 8) (s t : State),
    s.reng.unit[k].st = .removable →
    t = s.modUnit k (fun u => { u with st := .absent, present := false, perst := true, failCause := none, linkDown := false, chunks := [], capChunks := 0 }) →
    exec (.unitRemoved k) s = .next ((t.raise (704 + k.val) 1).unitGone k)) ∧
  (∀ (k : Fin 8) (s t : State),
    s.reng.unit[k].st = .inService →
    t = (s.unwrite k).modUnit k (fun u => { u with st := .absent, present := false, perst := true, failCause := none, linkDown := false, chunks := [], capChunks := 0, surpriseSeen := true }) →
    exec (.unitRemoved k) s = .next ((t.raise (704 + k.val) 1).unitGone k)) ∧
  (∀ (k : Fin 8) (s : State),
    s.reng.unit[k].st = .inService →
    exec (.unitWriteError k false) s = .next ((((s.unwrite k).modUnit k (fun u => { u with st := .failed, failCause := some .writeError, linkDown := false })).raise (704 + k.val) 2).unitGone k) ∧ exec (.unitWriteError k true) s = .next ((((s.unwrite k).modUnit k (fun u => { u with st := .failed, failCause := some .linkLost, linkDown := false })).raise (704 + k.val) 2).unitGone k)) ∧
  (∀ (k : Fin 8) (s t : State),
    s.reng.unit[k].st = .inService →
    s.reng.unit[k].linkDown = false →
    t = s.modUnit k (fun u => { u with linkDown := true }) →
    exec (.storageLinkDown k) s = .next (if s.time.tbFault then t.linkLost (704 + k.val) else t.noteLost (704 + k.val))) ∧
  (∀ (k : Fin 8) (s : State),
    s.reng.unit[k].linkDown = true →
    s.time.tbFault = false →
    exec (.storageLinkRecovered k) s = .next ((s.linkFound (704 + k.val)).modUnit k (fun u => { u with linkDown := false, recoveredSeen := true }))) ∧
  (∀ (k : Fin 8) (f : Bool) (s t : State),
    s.reng.unit[k].st = .inService →
    s.unitsOf 0 ≠ [k] ∨ f = true →
    t = s.modUnit k (fun u => { u with st := .releasing, chunks := u.chunks.map (fun c => { c with open_ := false }) }) →
    exec (.unitRelease k f) s = .next ((({ t with reng := { t.reng with stream := tmap (fun x : Stream => { x with units := x.units.filter (· != k) }) t.reng.stream } }).unitAnswer k .accepted).unitGone k)) ∧
  (∀ (k : Fin 8) (s : State),
    s.reng.unit[k].st = .inService →
    s.unitsOf 0 = [k] →
    exec (.unitRelease k false) s = .next (s.unitAnswer k .refusedJuridical)) ∧
  (∀ (k : Fin 8) (s : State),
    s.reng.unit[k].st = .failed →
    exec (.unitAdmit k) s = .next ((s.modUnit k (fun u => { u with st := .training, failCause := none, perst := false })).unitAnswer k .accepted)) ∧
  (∀ (k : Fin 8) (f : Bool) (s : State),
    s.recState = 1 →
    s.reng.unit[k].st = .blank →
    exec (.unitFormat k f) s = .next (((s.modUnit k (fun u => { u with st := .inService, failCause := none, chunks := [] })).unitAnswer k .accepted).raise (704 + k.val)))

/-- SLOWDOWN_MEASURE keeps the factor; at the full offset a factor above 1.000 is beyond the model. CORE_OFFSET_STEP moves the offset 5 mV toward its target, at most 60. REFERENCE_CHECK outvotes the reference that disagrees with two that agree. CELL_CHECK keeps the cell's voltage. The hold-up test starts when the store allows it and ends with the capacitance 80,000,000,000 uF uV over the fall. A re-plan starts when due or asked for, answers REFUSED_STATE and REFUSED_BUSY, and its end applies what it measured. AGE_HIST_SEL loads the record selected. -/
def Obligations.AgeingCommandsAct : Prop :=
  (∀ (f : BitVec 16) (s : State),
    s.g.st.operating = true →
    s.nv.cur.coreOffset < 60 →
    s.nv.cur.beyond = false →
    (s.keep (fun d => { d with factor := f })).nv.cur.coreOffset < 60 →
    (s.keep (fun d => { d with factor := f })).nv.cur.beyond = false →
    exec (.slowdownMeasure f) s = .next (s.keep (fun d => { d with factor := f }))) ∧
  (∀ (s : State),
    s.g.st.operating = true →
    s.nv.cur.coreOffset < s.age.coreTarget →
    exec .coreOffsetStep s = .next (s.keep (fun d => { d with coreOffset := min 60 (d.coreOffset + 5) }))) ∧
  (∀ (ab bc ca : Int) (s : State),
    s.g.st.operating = true →
    ab.natAbs ≤ 200 →
    bc.natAbs ≤ 200 →
    ca.natAbs ≤ 200 →
    s.age.outvoted = 0 →
    exec (.referenceCheck ab bc ca) s = .next { s with age := { s.age with dAb := ab, dBc := bc, dCa := ca, refDisagree := false, outvoted := 0, rejoin := tset (tset (tset s.age.rejoin 0 none) 1 none) 2 none } }) ∧
  (∀ (ab bc ca : Int) (s : State),
    s.g.st.operating = true →
    200 < ab.natAbs →
    bc.natAbs ≤ 200 →
    200 < ca.natAbs →
    s.age.outvoted = 0 →
    exec (.referenceCheck ab bc ca) s = .next (({ s with age := { s.age with dAb := ab, dBc := bc, dCa := ca, refDisagree := false, outvoted := 1, refOutSeen := true, rejoin := tset (tset (tset s.age.rejoin 0 none) 1 none) 2 none } }).laterFault none none "REF_OUTVOTED" [1])) ∧
  (∀ (mv : Nat) (s : State),
    s.g.st ≠ .off →
    exec (.cellCheck mv) s = .next (s.keep (fun d => { d with cellMv := mv }))) ∧
  (∀ (s : State) (h : CHds),
    s.cfg.hds = some h →
    s.g.level = .normal →
    s.g.st.operating = true →
    s.countsRail = true →
    exec (.loadEstimateSample ()) s = .next { s with age := { s.age with load := (s.nv.cur.opNs, s.pMeas.headD 0, match h.levels[0]? with | some x => x.pKey | none => 0) :: s.age.load.filter (fun x => decide (s.nv.cur.opNs ≤ x.1 + estWindow)) } }) ∧
  (∀ (s : State),
    s.testOk = true →
    s.age.testing = false →
    s.age.state = 1 ∨ s.age.state = 2 →
    exec .holdupTestStart s = .next { s with age := { s.age with testing := true } }) ∧
  (∀ (dv x : Nat) (s : State),
    s.age.testing = true →
    dv ≠ 0 →
    s.age.state = 1 →
    exec (.holdupTestEnd dv x) s = .next { s with age := { s.age with testing := false, tested := some (80000000000 / dv, x) } }) ∧
  (∀ (dv x : Nat) (s : State),
    s.age.testing = true →
    dv ≠ 0 →
    s.age.state = 2 →
    exec (.holdupTestEnd dv x) s = .next (({ s with age := { s.age with testing := false, state := 0 } }).landStore (80000000000 / dv) x)) ∧
  (∀ (s : State),
    s.g.st.replans = true →
    s.age.state ≠ 1 →
    exec .replanDue s = .next (s.replanStart 2) ∧ exec .replan s = .next (({ s with age := { s.age with cmdAns := .accepted } }).replanStart 3)) ∧
  (∀ (s : State),
    s.g.st.replans = false →
    exec .replan s = .next { s with age := { s.age with cmdAns := .refusedState } }) ∧
  (∀ (m : ReplanIn) (s : State),
    m.wellFormed = true →
    s.age.state = 1 →
    s.g.st.replans = true →
    exec (.replanEnd m) s = .next (s.replanEnd s.age.kind m).settle) ∧
  (∀ (sel : BitVec 13) (s : State) (r : HistRec),
    (if sel.getLsbD 12 then s.nv.cur.perm else s.nv.cur.ring)[sel.toNat % 4096]? = some r →
    exec (.ageHistSelect sel) s = .next { s with age := { s.age with histSel := sel, histAns := .found, histData := r.bytes } }) ∧
  (∀ (sel : BitVec 13) (s : State),
    (if sel.getLsbD 12 then s.nv.cur.perm else s.nv.cur.ring)[sel.toNat % 4096]? = none →
    exec (.ageHistSelect sel) s = .next { s with age := { s.age with histSel := sel, histAns := .notFound } })

/-- HOST_LINK_UP trains the link where it may: a recovery is recorded with event 30, and the first training opens the watchdog's first window. PERST_ASSERT and a function reset outside OFF and STABLED reset the host-facing state. A port that the LINKS section enables shows and reports that it links, but is not retrained under TB_FAULT after a loss; the loss of its link is shown and reported. The second Announce of a master qualifies it, and what the selected master announces of a leap second is noted; a Sync of the selected master sets or corrects UTC. A speed report dates the last fast or slow speed, a location report is kept, a status telegram is sent, and a wake frame in STABLED is wake source 7. Network requests wait for the COMMIT. -/
def Obligations.LinksAct : Prop :=
  (∀ (w r : Nat) (s t : State),
    s.hostLinkMay = true →
    s.lnk.lostAt = none →
    s.lnk.trainedSinceStart = true →
    t = { s.linkFound 719 with lnk := { (s.linkFound 719).lnk with up := true, width := w, rate := r, perst := false, trainedSinceStart := true, lostAt := none } } →
    exec (.hostLinkUp w r) s = .next (t.raise 719 1)) ∧
  (∀ (s : State),
    s.g.st ≠ .off →
    s.g.st ≠ .stabled →
    exec .hostLinkDown s = .next s.hostLinkDown ∧ exec .perstAssert s = .next { s.hostFacingReset.hostLinkDown with lnk := { s.hostFacingReset.hostLinkDown.lnk with perst := true } } ∧ exec .hostFunctionReset s = .next s.hostFacingReset) ∧
  (∀ (n : Fin 4) (g : Bool) (s : State),
    s.g.st.operating = true →
    s.lnk.net[n].link = false →
    s.noRetrain (712 + n.val) = false →
    s.portBit CLinks.netEn n = true →
    exec (.netLinkChange ⟨n.val, by omega⟩ true g) s = .next (((s.linkFound (712 + n.val)).modNet n (fun x => { x with link := true, g1000 := g })).raise (712 + n.val) 1)) ∧
  (∀ (n : Fin 4) (g : Bool) (s : State),
    s.portBit CLinks.netEn n = false ∨ s.noRetrain (712 + n.val) = true →
    exec (.netLinkChange ⟨n.val, by omega⟩ true g) s = .next s) ∧
  (∀ (n : Fin 4) (g : Bool) (s : State),
    s.g.st.operating = true →
    s.lnk.net[n].link = true →
    exec (.netLinkChange ⟨n.val, by omega⟩ false g) s = .next (((s.modNet n (fun x => { x with link := false, g1000 := false, qualified := none, heard := none })).selectPort).linkLost (712 + n.val))) ∧
  (∀ (n : Fin 4) (a : Announce) (s : State),
    s.g.st.operating = true →
    s.portBit CLinks.ptpEn n = true →
    s.portBit CLinks.netEn n = true →
    s.lnk.net[n].link = true →
    s.lnk.net[n].qualified = none →
    s.lnk.net[n].heard = none →
    exec (.ptpAnnounceRx n a) s = .next (((s.modNet n (fun x => { x with heard := some a })).selectPort).noteLeap n)) ∧
  (∀ (n : Fin 4) (a b : Announce) (s : State),
    s.g.st.operating = true →
    s.portBit CLinks.ptpEn n = true →
    s.portBit CLinks.netEn n = true →
    s.lnk.net[n].link = true →
    s.lnk.net[n].qualified = none →
    s.lnk.net[n].heard = some b →
    (b.identity == a.identity) = true →
    exec (.ptpAnnounceRx n a) s = .next (((s.modNet n (fun x => { x with qualified := some a, heard := none })).selectPort).noteLeap n)) ∧
  (∀ (n : Fin 4) (s : State),
    exec (.ptpMasterLoss n) s = .next ((s.modNet n (fun x => { x with qualified := none, heard := none })).selectPort)) ∧
  (∀ (n : Fin 4) (o : Int) (d : Nat) (u : DWord) (s : State),
    s.g.st.operating = true →
    s.lnk.ptpMaster = true →
    n = s.lnk.ptpPort →
    s.lnk.net[n].link = true →
    s.lnk.goodSyncs = 0 →
    s.time.utcQual = 1 →
    exec (.ptpSyncRx n o d u) s = .next (({ s with lnk := { s.lnk with goodSyncs := 1, ptpOffset := o, ptpDelay := d, lastSync := some s.now } }).correctUtc o)) ∧
  (∀ (n : Fin 4) (o : Int) (d : Nat) (u : DWord) (s : State) (a : Announce),
    s.g.st.operating = true →
    s.lnk.ptpMaster = true →
    n = s.lnk.ptpPort →
    s.lnk.net[n].link = true →
    7 ≤ s.lnk.goodSyncs →
    s.lnk.goodSyncs < 255 →
    (o - s.lnk.ptpOffset).natAbs ≤ 1000 →
    s.lnk.net[n].qualified = some a →
    a.utcOffsetValid = true →
    s.time.tbFault = false →
    s.time.utcQual = 0 →
    exec (.ptpSyncRx n o d u) s = .next (({ s with lnk := { s.lnk with goodSyncs := s.lnk.goodSyncs + 1, ptpOffset := o, ptpDelay := d, lastSync := some s.now } }).setUtc u)) ∧
  (∀ (n : Fin 4) (b : List Byte) (s : State) (l : CLinks) (v : Nat),
    s.cfg.links = some l →
    s.portTakes n = true →
    l.speedComId ≠ 0#32 →
    beAt b l.speedOffset 2 = some v →
    beAt b (l.speedOffset + 2) 1 = some 1 →
    v ≠ 0xFFFF →
    exec (.speedReportRx n b) s = .next { s with motion := if 50 < v then { s.motion with netSpeed := v / 10, lastFast := some s.tickUs } else { s.motion with netSpeed := v / 10, lastSlow := some s.tickUs } }) ∧
  (∀ (n : Fin 4) (b : List Byte) (s : State) (l : CLinks) (x y : Int),
    s.cfg.links = some l →
    s.portTakes n = true →
    l.locComId ≠ 0#32 →
    beInt b l.locOffset = some x →
    beInt b (l.locOffset + 4) = some y →
    beAt b (l.locOffset + 8) 1 = some 1 →
    x.natAbs ≤ 900000000 →
    y.natAbs ≤ 1800000000 →
    exec (.locationRx n b) s = .next { s with lnk := { s.lnk with lat := x, lon := y, locAt := some s.now } }) ∧
  (∀ (s : State) (l : CLinks),
    s.cfg.links = some l →
    s.g.st.operating = true →
    s.primaryDuties = true →
    l.statusComId ≠ 0#32 →
    exec .statusTelegram s = .next { s with lnk := { s.lnk with telegrams := s.statusBytes :: s.lnk.telegrams } }) ∧
  (∀ (n : Fin 4) (b : List Byte) (s : State) (l : CLinks),
    s.cfg.links = some l →
    l.netEn.getLsbD n.val = true →
    l.wakeEn.getLsbD n.val = true →
    s.g.st = .stabled →
    holdsRun (s.wakePattern n) b = true →
    exec (.wakeFrameRx n b) s = .next (s.wakeUp 7)) ∧
  (∀ (s : State) (l : CLinks),
    s.cfg.links = some l →
    l.cmdComId ≠ 0#32 →
    s.g.st.cycleRuns = true →
    exec .netOffRequest s = .next { s with cmd := { s.cmd with modReqs := s.cmd.modReqs ++ [{ src := .network, off := true }] } } ∧ exec .netOnRequest s = .next { s with cmd := { s.cmd with modReqs := s.cmd.modReqs ++ [{ src := .network, off := false }] } }) ∧
  (∀ (n : RailN) (b : BitVec 8) (c : RailCode) (s : State) (l : CLinks),
    s.cfg.links = some l →
    railCodeOf b.toNat = some c →
    l.cmdComId ≠ 0#32 →
    s.g.st.cycleRuns = true →
    exec (.netRailCommand n b) s = .next { s with railReqs := s.railReqs ++ [{ src := .network, rail := n, code := c }] })

/-- EDIVO_SESSION_OPEN while the links are powered and the port is enabled takes the lowest free of four sessions at level VIEW; close, time-out and BYE end it. A message of an open session notes its time. A bad frame is answered with status 2; HELLO with serials, revision and level; READ with up to 256 words or 1,024 bytes; COMMAND at VIEW with status 1, else it is one write. STAGE_DATA of the owning session adds to the bank. RECORD_READ and EXPORT answer with the records, pages or entries named, or REFUSED_RANGE and NOT_FOUND. TEST_MODE is entered at standstill, and left. -/
def Obligations.EdivoSessionsAct : Prop :=
  (∀ (n : Fin 4) (s : State),
    s.linksPowered = true →
    s.portEn = true →
    (List.finRange 4).find? (fun n => (s.lnk.sessions[n]).isNone) = some n →
    exec .edivoSessionOpen s = .next { s with lnk := { s.lnk with sessions := tset s.lnk.sessions n (some { lastAt := s.now }), opened := s.lnk.opened + 1 } }) ∧
  (∀ (n : Fin 4) (s : State),
    exec (.edivoSessionClose n) s = .next (s.endSession n) ∧ exec (.edivoSessionTimeout n) s = .next (s.endSession n)) ∧
  (∀ (n : Fin 4) (s t : State) (x : Session),
    s.lnk.sessions[n] = some x →
    t = s.modSession n (fun y => { y with lastAt := s.now }) →
    exec (.edivoBye n) s = .next ((t.reply n 0 .none).endSession n) ∧ exec (.edivoBadFrame n) s = .next (s.reply n 2 .none) ∧ exec (.edivoHello n) s = .next (t.reply n 0 .none [lo32 t.fac.serial, hi32 t.fac.serial, natWord t.fac.hwRev, lo32 t.key.runSerial, hi32 t.key.runSerial, natWord x.level.code])) ∧
  (∀ (n : Fin 4) (a k : Nat) (s t : State) (x : Session),
    s.lnk.sessions[n] = some x →
    t = s.modSession n (fun y => { y with lastAt := s.now }) →
    k ≤ 256 →
    a % 4 = 0 →
    exec (.edivoRead n false a k) s = .next ((t.readWords a k).1.reply n 0 .none (t.readWords a k).2)) ∧
  (∀ (n : Fin 4) (a k : Nat) (s t : State) (x : Session),
    s.lnk.sessions[n] = some x →
    t = s.modSession n (fun y => { y with lastAt := s.now }) →
    k ≤ 1024 →
    exec (.edivoRead n true a k) s = .next (t.reply n 0 .none (bytesToWords ((k + 3) / 4) ((List.range k).map (fun i => t.bar2Byte (a + i)))))) ∧
  (∀ (n : Fin 4) (a : Nat) (w : Word) (s t : State) (x : Session),
    s.lnk.sessions[n] = some x →
    t = s.modSession n (fun y => { y with lastAt := s.now }) →
    x.level = .view →
    exec (.edivoCommand n a w) s = .next (t.reply n 1 .none)) ∧
  (∀ (n : Fin 4) (w : Word) (s t : State) (x : Session),
    s.lnk.sessions[n] = some x →
    t = s.modSession n (fun y => { y with lastAt := s.now }) →
    x.level ≠ .view →
    bitsOf w 0 16 = 0xA5C3 →
    exec (.edivoCommand n 0x34 w) s = .next (t.restartRequest .edivo)) ∧
  (∀ (n : Fin 4) (b : List Byte) (s t : State) (x : Session),
    s.lnk.sessions[n] = some x →
    t = s.modSession n (fun y => { y with lastAt := s.now }) →
    b.length ≤ 65536 →
    x.level ≠ .view →
    s.stg.st = .writing →
    s.stg.owner = some (.session n) →
    exec (.edivoStageData n b) s = .next (({ t with key := t.key.program t.target (bankFits (t.key.bankBytes t.target ++ b)), stg := { t.stg with writtenMib := ((bankFits (t.key.bankBytes t.target ++ b)).length + 1048575) / 1048576 } }).reply n 0 .none)) ∧
  (∀ (n : Fin 4) (i : Fin 64) (q : DWord) (len : Nat) (s t : State) (x : Session) (l : List Rec),
    s.lnk.sessions[n] = some x →
    t = s.modSession n (fun y => { y with lastAt := s.now }) →
    l = (t.readRecs i q.toNat (min len 65536) none).1 →
    exec (.edivoRecordRead n (.stream i q len)) s = .next (t.reply n 4 (if l.isEmpty then .notFound else .found) (bytesToWords (((l.flatMap recBytes).length + 3) / 4) (l.flatMap recBytes)))) ∧
  (∀ (n : Fin 4) (c : Bool) (k : Nat) (s t : State) (x : Session),
    s.lnk.sessions[n] = some x →
    t = s.modSession n (fun y => { y with lastAt := s.now }) →
    k < 768 →
    exec (.edivoExport n (.inclusion c k)) s = .next ((t.incRead c k).1.reply n 4 (if (t.incRead c k).2.2 then .damaged else .accepted) (t.incRead c k).2.1)) ∧
  (∀ (n : Fin 4) (k : Nat) (s t : State) (x : Session) (e : Lfl),
    s.lnk.sessions[n] = some x →
    t = s.modSession n (fun y => { y with lastAt := s.now }) →
    k < 255 →
    t.nv.cur.lfl[k]? = some e →
    exec (.edivoExport n (.laterFault k)) s = .next (t.reply n 4 .accepted (bytesToWords 16 e.bytes))) ∧
  (∀ (n : Fin 4) (s t : State) (x : Session),
    s.lnk.sessions[n] = some x →
    t = s.modSession n (fun y => { y with lastAt := s.now }) →
    x.level ≠ .view →
    s.g.st.tests = true →
    s.motion.moving = false →
    x.testMode = false →
    exec (.edivoTestMode n true) s = .next (((t.modSession n (fun y => { y with testMode := true })).juridical "TEST_MODE").reply n 0 .none)) ∧
  (∀ (n : Fin 4) (s t : State) (x : Session),
    s.lnk.sessions[n] = some x →
    t = s.modSession n (fun y => { y with lastAt := s.now }) →
    x.level ≠ .view →
    exec (.edivoTestMode n false) s = .next (t.endTestMode.reply n 0 .none))

/-- CHALLENGE gives the session a fresh nonce and the salt named. LOGIN with a proof over it gives MAINTENANCE or PROVISIONING and spends the nonce; LOGOUT gives VIEW. SET_PASSWORD at the level its index asks stores a verifier. PROVISION in UNPROVISIONED waits for a presence proof; PRESENCE_TIMEOUT ends the wait. REKEY in SAFE_HOLD under a signature of the present customer key over the serial and the new key replaces the customer key. RELEASE_FOR_RETURN is asked by an owner that may; RELEASE_DONE erases the secrets and restarts the module. MAKER in UNPROVISIONED spends the nonce; a good token opens FACTORY, any other is answered BAD_SIGNATURE. GIRDLE_BREACH erases the wrapping key in every state; a powered module erases the wrapped area, reports and records the breach. -/
def Obligations.SecurityCommandsAct : Prop :=
  (∀ (n : Fin 4) (i : Byte) (s t : State) (x : Session) (k : Fin 35) (v : Verifier),
    s.lnk.sessions[n] = some x →
    t = s.modSession n (fun y => { y with lastAt := s.now }) →
    pwdIndex i = some k →
    t.sec.verifiers[k] = some v →
    exec (.challenge n i) s = .next { ((t.modSession n (fun y => { y with nonce := some (nonce t.free, i.toNat, t.tickUs) })).auth n .accepted (bytesToWords 8 (nonce t.free) ++ bytesToWords 4 v.salt)) with free := t.free + 4 }) ∧
  (∀ (n : Fin 4) (i : Byte) (b : List Byte) (s t : State) (x : Session) (k : Fin 35),
    s.lnk.sessions[n] = some x →
    t = s.modSession n (fun y => { y with lastAt := s.now }) →
    pwdIndex i = some k →
    33 ≤ k.val →
    t.levelTaken n = false →
    t.pwdBarred k = none →
    t.proofOk x k b = true →
    exec (.login n i b) s = .next ((((t.modSession n (fun y => { y with nonce := none })).pwdPass k).modSession n (fun y => { y with level := if k = 33 then .maintenance else .provisioning })).auth n .accepted)) ∧
  (∀ (n : Fin 4) (s t : State) (x : Session),
    s.lnk.sessions[n] = some x →
    t = s.modSession n (fun y => { y with lastAt := s.now }) →
    exec (.logout n) s = .next ((t.modSession n (fun y => { y with level := .view })).auth n .accepted)) ∧
  (∀ (n : Fin 4) (f : PwdFields) (s t : State) (x : Session) (k : Fin 35),
    s.lnk.sessions[n] = some x →
    t = s.modSession n (fun y => { y with lastAt := s.now }) →
    pwdIndex f.index = some k →
    x.level = .provisioning →
    t.sec.wrapKey = true →
    t.sec.breachSinceStart = false →
    t.minLen ≤ f.len.toNat →
    exec (.setPassword n f) s = .next (({ t with sec := { t.sec with verifiers := tset t.sec.verifiers k (some ⟨f.salt, f.verifier⟩) } }).auth n .accepted)) ∧
  (∀ (n : Fin 4) (key : List Byte) (f : List PwdFields) (s t : State) (x : Session),
    s.lnk.sessions[n] = some x →
    t = s.modSession n (fun y => { y with lastAt := s.now }) →
    s.g.st = .unprovisioned →
    s.nv.cur.releasing = 0 →
    s.sec.waiting = none →
    f.map (fun x => x.index.toNat) = [32, 33, 34] →
    f.all (fun x => decide (t.minLen ≤ x.len.toNat)) = true →
    exec (.provision n key f) s = .next { t with sec := { t.sec with waiting := some (.provision n key (f.map (fun x => ⟨x.salt, x.verifier⟩)), t.tickUs) } }) ∧
  (∀ (s : State) (n : Fin 4) (key : List Byte) (v : List Verifier) (a : Ns),
    s.sec.waiting = some (.provision n key v, a) →
    exec .presenceTimeout s = .next (({ s with sec := { s.sec with waiting := none } }).auth n .noPresence)) ∧
  (∀ (n : Fin 4) (key sig : List Byte) (s t : State) (x : Session),
    s.lnk.sessions[n] = some x →
    t = s.modSession n (fun y => { y with lastAt := s.now }) →
    x.level = .provisioning →
    s.g.st = .safeHold →
    s.nv.cur.releasing = 0 →
    t.hasKey = true →
    s.sec.breachSinceStart = false →
    exec (.rekey n key sig) s = .next (if ecdsaP384 t.sec.custKey (t.serialBytes ++ key) sig then ({ t with sec := { t.sec with custKey := key } }).auth n .accepted else t.auth n .badSignature)) ∧
  (∀ (f : Bool) (s t : State),
    t = { s with sec := { s.sec with pwd := Vector.replicate 8 0 } } →
    exec (.releaseForReturn .host f) s = .next (if t.hostMayRelease then t.releaseAsk .host f (wordsToBytes s.sec.pwd.toList) else t.secAnswer .host .refusedLevel)) ∧
  (∀ (n : Fin 4) (f : Bool) (s t : State) (x : Session),
    s.lnk.sessions[n] = some x →
    t = s.modSession n (fun y => { y with lastAt := s.now }) →
    x.level ≠ .view ∨ s.g.st = .unprovisioned →
    exec (.releaseForReturn (.session n) f) s = .next (t.releaseAsk (.session n) f [])) ∧
  (∀ (s t : State),
    s.nv.cur.releasing ≠ 0 →
    s.g.st ∈ [ModSt.start, .safeHold, .unprovisioned] →
    t = s.eraseUser →
    exec .releaseDone s = .next (({ t with nv := { t.nv with cur := { t.nv.cur with releasing := 0 }, durable := { t.nv.durable with releasing := 0 }, committing := t.nv.committing.map (fun (d : NvData) => { d with releasing := 0 }) }, sec := { t.sec.eraseArea with wrapKey := false, releases := satInc 65535 s.sec.releases, releaseTime := s.time.mtime, releaseUtc := s.utcNow, released := true } }).startEntry s.nv.cur.releasing 0)) ∧
  (∀ (n : Fin 4) (k : List Byte) (s t u : State) (x : Session),
    s.lnk.sessions[n] = some x →
    t = s.modSession n (fun y => { y with lastAt := s.now }) →
    s.g.st = .unprovisioned →
    u = t.modSession n (fun y => { y with nonce := none }) →
    exec (.maker n k) s = .next (if t.tokenOk x k then (({ u with sec := { u.sec with factory := true } }).modSession n (fun y => { y with maker := true })).auth n .accepted else u.auth n .badSignature)) ∧
  (∀ (b : Breach) (s : State),
    s.g.st = .off →
    exec (.girdleBreach b) s = .next { s with sec := { s.sec with wrapKey := false, breached := true, cause := Breach.code b, breaches := satInc 65535 s.sec.breaches } }) ∧
  (∀ (b : Breach) (s t : State),
    s.g.st ≠ .off →
    s.sec.waiting = none →
    t = { s with sec := { (({ s.sec with wrapKey := false, breached := true, cause := Breach.code b, breaches := satInc 65535 s.sec.breaches } : Sec_).eraseArea) with breachSinceStart := true } } →
    t.sec.waiting = none →
    exec (.girdleBreach b) s = .next (((((t.raise 1 (Breach.code b)).faultLogged 16 1 "GIRDLE_BREACH" [Breach.code b]).juridical "GIRDLE_BREACH" [Breach.code b] (some 1)).abandonTake).relinquish false))

/-- LDW, ADD, SUB, MUL, DIV, ANDW, ORW, XORW, CMPEQ, CMPNE, CMPGT and CMPLT at the program counter of a logical pair: with the operand in a word register, the registers are combined with its value; in memory, with the value as the pair loads it through its store buffer; both go on to the next word and change nothing else. An operand outside its space is the program fault ADDRESS_RANGE, an uncorrectable word of the image is IMAGE_ECC. -/
def Obligations.WordOperandInstructions : Prop :=
  (∀ (op : BitVec 8) (i : LPairN → Instr) (f : Regs → Word → Regs) (l : LPairN) (n : ProgN) (w : Word) (s : State) (k : Fin 32),
    (op, i, f) ∈ ([(0x20#8, Instr.iLdw, fun r v => r.setAcc v), (0x24#8, Instr.iAdd, fun r v => r.setSat (r.acc.toInt + v.toInt)), (0x25#8, Instr.iSub, fun r v => r.setSat (r.acc.toInt - v.toInt)), (0x26#8, Instr.iMul, fun r v => r.setSat (r.acc.toInt * v.toInt)), (0x27#8, Instr.iDiv, fun r v => r.divide v), (0x28#8, Instr.iAndw, fun r v => r.setAcc (r.acc &&& v)), (0x29#8, Instr.iOrw, fun r v => r.setAcc (r.acc ||| v)), (0x2A#8, Instr.iXorw, fun r v => r.setAcc (r.acc ^^^ v)), (0x30#8, Instr.iCmpeq, fun r v => r.setBa (r.acc == v)), (0x31#8, Instr.iCmpne, fun r v => r.setBa (r.acc != v)), (0x32#8, Instr.iCmpgt, fun r v => r.setBa (decide (v.toInt < r.acc.toInt))), (0x33#8, Instr.iCmplt, fun r v => r.setBa (decide (r.acc.toInt < v.toInt)))] : List (BitVec 8 × (LPairN → Instr) × (Regs → Word → Regs))) →
    s.fetched l = some (n, w) →
    w.extractLsb' 24 8 = op →
    s.wordAt l (w.extractLsb' 0 24) 0 = some (.reg k) →
    exec (i l) s = .next ((s.modRegs l (fun r => f r (s.regs l).w[k])).modRegs l (fun r => ({ r with pc := r.pc + 1 }).prune))) ∧
  (∀ (op : BitVec 8) (i : LPairN → Instr) (f : Regs → Word → Regs) (l : LPairN) (n : ProgN) (w : Word) (s : State) (a : Nat) (u : State) (b : List Byte),
    (op, i, f) ∈ ([(0x20#8, Instr.iLdw, fun r v => r.setAcc v), (0x24#8, Instr.iAdd, fun r v => r.setSat (r.acc.toInt + v.toInt)), (0x25#8, Instr.iSub, fun r v => r.setSat (r.acc.toInt - v.toInt)), (0x26#8, Instr.iMul, fun r v => r.setSat (r.acc.toInt * v.toInt)), (0x27#8, Instr.iDiv, fun r v => r.divide v), (0x28#8, Instr.iAndw, fun r v => r.setAcc (r.acc &&& v)), (0x29#8, Instr.iOrw, fun r v => r.setAcc (r.acc ||| v)), (0x2A#8, Instr.iXorw, fun r v => r.setAcc (r.acc ^^^ v)), (0x30#8, Instr.iCmpeq, fun r v => r.setBa (r.acc == v)), (0x31#8, Instr.iCmpne, fun r v => r.setBa (r.acc != v)), (0x32#8, Instr.iCmpgt, fun r v => r.setBa (decide (v.toInt < r.acc.toInt))), (0x33#8, Instr.iCmplt, fun r v => r.setBa (decide (r.acc.toInt < v.toInt)))] : List (BitVec 8 × (LPairN → Instr) × (Regs → Word → Regs))) →
    s.fetched l = some (n, w) →
    w.extractLsb' 24 8 = op →
    s.wordAt l (w.extractLsb' 0 24) 0 = some (.mem a) →
    s.loadBytes l a 4 0xFF = (u, some b) →
    exec (i l) s = .next ((u.modRegs l (fun r => f r (BitVec.ofNat 32 (leNat b)))).modRegs l (fun r => ({ r with pc := r.pc + 1 }).prune))) ∧
  (∀ (op : BitVec 8) (i : LPairN → Instr) (f : Regs → Word → Regs) (l : LPairN) (n : ProgN) (w : Word) (s : State),
    (op, i, f) ∈ ([(0x20#8, Instr.iLdw, fun r v => r.setAcc v), (0x24#8, Instr.iAdd, fun r v => r.setSat (r.acc.toInt + v.toInt)), (0x25#8, Instr.iSub, fun r v => r.setSat (r.acc.toInt - v.toInt)), (0x26#8, Instr.iMul, fun r v => r.setSat (r.acc.toInt * v.toInt)), (0x27#8, Instr.iDiv, fun r v => r.divide v), (0x28#8, Instr.iAndw, fun r v => r.setAcc (r.acc &&& v)), (0x29#8, Instr.iOrw, fun r v => r.setAcc (r.acc ||| v)), (0x2A#8, Instr.iXorw, fun r v => r.setAcc (r.acc ^^^ v)), (0x30#8, Instr.iCmpeq, fun r v => r.setBa (r.acc == v)), (0x31#8, Instr.iCmpne, fun r v => r.setBa (r.acc != v)), (0x32#8, Instr.iCmpgt, fun r v => r.setBa (decide (v.toInt < r.acc.toInt))), (0x33#8, Instr.iCmplt, fun r v => r.setBa (decide (r.acc.toInt < v.toInt)))] : List (BitVec 8 × (LPairN → Instr) × (Regs → Word → Regs))) →
    s.fetched l = some (n, w) →
    w.extractLsb' 24 8 = op →
    s.wordAt l (w.extractLsb' 0 24) 0 = none →
    exec (i l) s = .next ((s).programFault l n .addressRange).afterEnd) ∧
  (∀ (op : BitVec 8) (i : LPairN → Instr) (f : Regs → Word → Regs) (l : LPairN) (n : ProgN) (w : Word) (s : State) (a : Nat) (u : State),
    (op, i, f) ∈ ([(0x20#8, Instr.iLdw, fun r v => r.setAcc v), (0x24#8, Instr.iAdd, fun r v => r.setSat (r.acc.toInt + v.toInt)), (0x25#8, Instr.iSub, fun r v => r.setSat (r.acc.toInt - v.toInt)), (0x26#8, Instr.iMul, fun r v => r.setSat (r.acc.toInt * v.toInt)), (0x27#8, Instr.iDiv, fun r v => r.divide v), (0x28#8, Instr.iAndw, fun r v => r.setAcc (r.acc &&& v)), (0x29#8, Instr.iOrw, fun r v => r.setAcc (r.acc ||| v)), (0x2A#8, Instr.iXorw, fun r v => r.setAcc (r.acc ^^^ v)), (0x30#8, Instr.iCmpeq, fun r v => r.setBa (r.acc == v)), (0x31#8, Instr.iCmpne, fun r v => r.setBa (r.acc != v)), (0x32#8, Instr.iCmpgt, fun r v => r.setBa (decide (v.toInt < r.acc.toInt))), (0x33#8, Instr.iCmplt, fun r v => r.setBa (decide (r.acc.toInt < v.toInt)))] : List (BitVec 8 × (LPairN → Instr) × (Regs → Word → Regs))) →
    s.fetched l = some (n, w) →
    w.extractLsb' 24 8 = op →
    s.wordAt l (w.extractLsb' 0 24) 0 = some (.mem a) →
    s.loadBytes l a 4 0xFF = (u, none) →
    exec (i l) s = .next ((u).programFault l n .imageEcc).afterEnd)

/-- NOT, LDI, LDIH, SHL, SHR, MOVA, MOVW, ADDI, LIM, SCALE, ABS and NOP at the program counter of a logical pair change its registers as R301 states from the operand bits, go on to the next word, and change nothing else: SHL brings zeros in, SHR keeps the sign, LDI and ADDI extend the sign of 24 bits, and ADDI, SCALE and ABS saturate. A word whose opcode R301 does not list is the program fault ILLEGAL_OPCODE, and a row whose opcode is not the fetched one does nothing. -/
def Obligations.RegisterInstructions : Prop :=
  (∀ (op : BitVec 8) (i : LPairN → Instr) (f : BitVec 24 → Regs → Regs) (l : LPairN) (n : ProgN) (w : Word) (s : State),
    (op, i, f) ∈ ([(0x0B#8, Instr.iNot, fun _ r => r.setBa (!r.ba)), (0x21#8, Instr.iLdi, fun o r => r.setAcc (o.signExtend 32)), (0x22#8, Instr.iLdih, fun o r => r.setAcc (o.extractLsb' 0 16 ++ r.acc.extractLsb' 0 16)), (0x2B#8, Instr.iShl, fun o r => r.setAcc (r.acc <<< field o 0 5)), (0x2C#8, Instr.iShr, fun o r => r.setAcc (r.acc.sshiftRight (field o 0 5))), (0x2D#8, Instr.iMova, fun o r => r.setW (regField o 0) r.acc), (0x2E#8, Instr.iMovw, fun o r => r.setAcc r.w[regField o 0]), (0x2F#8, Instr.iAddi, fun o r => r.setSat (r.acc.toInt + o.toInt)), (0x34#8, Instr.iLim, fun o r => r.limit (regField o 5) (regField o 0)), (0x35#8, Instr.iScale, fun o r => r.scale (regField o 10) (regField o 5) (regField o 0)), (0x36#8, Instr.iAbs, fun _ r => r.setSat r.acc.toInt.natAbs)] : List (BitVec 8 × (LPairN → Instr) × (BitVec 24 → Regs → Regs))) →
    s.fetched l = some (n, w) →
    w.extractLsb' 24 8 = op →
    exec (i l) s = .next ((s.modRegs l (f (w.extractLsb' 0 24))).modRegs l (fun r => ({ r with pc := r.pc + 1 }).prune))) ∧
  (∀ (l : LPairN) (n : ProgN) (w : Word) (s : State),
    s.fetched l = some (n, w) →
    w.extractLsb' 24 8 = 0x5F#8 →
    exec (.iNop l) s = .next ((s).modRegs l (fun r => ({ r with pc := r.pc + 1 }).prune))) ∧
  (∀ (l : LPairN) (n : ProgN) (w : Word) (s : State),
    s.fetched l = some (n, w) →
    listedOps.contains (w.extractLsb' 24 8).toNat = false →
    exec (.iNop l) s = .next ((s).programFault l n .illegalOpcode).afterEnd ∧ exec (.iAdd l) s = .next ((s).programFault l n .illegalOpcode).afterEnd) ∧
  (∀ (l : LPairN) (s : State),
    s.fetched l = none →
    exec (.iNop l) s = .next s ∧ exec (.iBend l) s = .next s)

/-- A result above 0x7FFF_FFFF or below 0x8000_0000 saturates at the bound and sets OVF; within, ACC takes it and OVF stays. Division truncates toward zero; by 0 it gives the bound of ACC's sign and OVF stays; the most negative number by -1 saturates. LIM gives the lower of Wb and the higher of ACC and Wa. SCALE multiplies the difference from Wa by Wb over 65,536, truncated toward zero, and adds Wc. LDIH replaces bits 31:16 of ACC. -/
def Obligations.ArithmeticOfTheSpindles : Prop :=
  (∀ (r : Regs) (x : Int),
    -2147483648 ≤ x →
    x ≤ 2147483647 →
    (r.setSat x).acc.toInt = x ∧ (r.setSat x).ovf = r.ovf ∧ (r.setSat x).ba = r.ba ∧ (r.setSat x).w = r.w) ∧
  (∀ (r : Regs) (x : Int),
    2147483647 < x →
    r.setSat x = { r with acc := 0x7FFFFFFF, ovf := true }) ∧
  (∀ (r : Regs) (x : Int),
    x < -2147483648 →
    r.setSat x = { r with acc := 0x80000000, ovf := true }) ∧
  (∀ (r : Regs),
    r.acc.toInt < 0 →
    r.divide 0 = { r with acc := 0x80000000 }) ∧
  (∀ (r : Regs),
    0 ≤ r.acc.toInt →
    r.divide 0 = { r with acc := 0x7FFFFFFF }) ∧
  (∀ (r : Regs) (v : Word),
    v ≠ 0#32 →
    r.divide v = r.setSat (r.acc.toInt.tdiv v.toInt)) ∧
  (∀ (r : Regs),
    r.acc = 0x80000000#32 →
    r.divide 0xFFFFFFFF = { r with acc := 0x7FFFFFFF, ovf := true }) ∧
  (∀ (r : Regs) (a b c : Fin 32),
    (r.limit a b).acc.toInt = min (max r.acc.toInt r.w[a].toInt) r.w[b].toInt ∧ r.scale a b c = r.setSat (((r.acc.toInt - r.w[a].toInt) * r.w[b].toInt).tdiv 65536 + r.w[c].toInt))

/-- LD, LDN, AND, ANDN, OR, ORN and XOR combine BA with the operand's bit, in a word register, OVF or memory, and go on; ADDRESS_RANGE and IMAGE_ECC as for words. ST stores BA, SET and RST store 1 and 0 if BA and do nothing else. RE and FE compute BA from BA and the memory bit, which takes the former BA. BPUSH pushes BA on a stack of up to seven entries, BPOPAND and BPOPOR combine BA with the popped bit; from an empty stack that bit is open. -/
def Obligations.BitInstructions : Prop :=
  (∀ (op : BitVec 8) (i : LPairN → Instr) (f : Bool → Bool → Bool) (l : LPairN) (n : ProgN) (w : Word) (s : State) (k b : Fin 32),
    (op, i, f) ∈ ([(0x01#8, Instr.iLd, fun _ b => b), (0x02#8, Instr.iLdn, fun _ b => !b), (0x03#8, Instr.iAnd, fun a b => a && b), (0x04#8, Instr.iAndn, fun a b => a && !b), (0x05#8, Instr.iOr, fun a b => a || b), (0x06#8, Instr.iOrn, fun a b => a || !b), (0x07#8, Instr.iXor, fun a b => a != b)] : List (BitVec 8 × (LPairN → Instr) × (Bool → Bool → Bool))) →
    s.fetched l = some (n, w) →
    w.extractLsb' 24 8 = op →
    s.bitAt l (w.extractLsb' 0 24) = some (.reg k b) →
    exec (i l) s = .next ((s.modRegs l (fun r => r.setBa (f r.ba (((s.regs l).w[k]).getLsbD b.val)))).modRegs l (fun r => ({ r with pc := r.pc + 1 }).prune))) ∧
  (∀ (op : BitVec 8) (i : LPairN → Instr) (f : Bool → Bool → Bool) (l : LPairN) (n : ProgN) (w : Word) (s : State),
    (op, i, f) ∈ ([(0x01#8, Instr.iLd, fun _ b => b), (0x02#8, Instr.iLdn, fun _ b => !b), (0x03#8, Instr.iAnd, fun a b => a && b), (0x04#8, Instr.iAndn, fun a b => a && !b), (0x05#8, Instr.iOr, fun a b => a || b), (0x06#8, Instr.iOrn, fun a b => a || !b), (0x07#8, Instr.iXor, fun a b => a != b)] : List (BitVec 8 × (LPairN → Instr) × (Bool → Bool → Bool))) →
    s.fetched l = some (n, w) →
    w.extractLsb' 24 8 = op →
    s.bitAt l (w.extractLsb' 0 24) = some .ovf →
    exec (i l) s = .next ((s.modRegs l (fun r => r.setBa (f r.ba (s.regs l).ovf))).modRegs l (fun r => ({ r with pc := r.pc + 1 }).prune))) ∧
  (∀ (op : BitVec 8) (i : LPairN → Instr) (f : Bool → Bool → Bool) (l : LPairN) (n : ProgN) (w : Word) (s : State) (a : Nat) (b : Fin 8) (u : State) (y : List Byte),
    (op, i, f) ∈ ([(0x01#8, Instr.iLd, fun _ b => b), (0x02#8, Instr.iLdn, fun _ b => !b), (0x03#8, Instr.iAnd, fun a b => a && b), (0x04#8, Instr.iAndn, fun a b => a && !b), (0x05#8, Instr.iOr, fun a b => a || b), (0x06#8, Instr.iOrn, fun a b => a || !b), (0x07#8, Instr.iXor, fun a b => a != b)] : List (BitVec 8 × (LPairN → Instr) × (Bool → Bool → Bool))) →
    s.fetched l = some (n, w) →
    w.extractLsb' 24 8 = op →
    s.bitAt l (w.extractLsb' 0 24) = some (.mem a b) →
    s.loadBytes l a 1 (1#8 <<< b.val) = (u, some y) →
    exec (i l) s = .next ((u.modRegs l (fun r => r.setBa (f r.ba ((y.headD 0).getLsbD b.val)))).modRegs l (fun r => ({ r with pc := r.pc + 1 }).prune))) ∧
  (∀ (op : BitVec 8) (i : LPairN → Instr) (f : Bool → Bool → Bool) (l : LPairN) (n : ProgN) (w : Word) (s : State),
    (op, i, f) ∈ ([(0x01#8, Instr.iLd, fun _ b => b), (0x02#8, Instr.iLdn, fun _ b => !b), (0x03#8, Instr.iAnd, fun a b => a && b), (0x04#8, Instr.iAndn, fun a b => a && !b), (0x05#8, Instr.iOr, fun a b => a || b), (0x06#8, Instr.iOrn, fun a b => a || !b), (0x07#8, Instr.iXor, fun a b => a != b)] : List (BitVec 8 × (LPairN → Instr) × (Bool → Bool → Bool))) →
    s.fetched l = some (n, w) →
    w.extractLsb' 24 8 = op →
    s.bitAt l (w.extractLsb' 0 24) = none →
    exec (i l) s = .next ((s).programFault l n .addressRange).afterEnd) ∧
  (∀ (l : LPairN) (n : ProgN) (w : Word) (s : State),
    s.fetched l = some (n, w) →
    w.extractLsb' 24 8 = 0x08#8 →
    exec (.iSt l) s = .next (State.finish l n (s.setBit l n (w.extractLsb' 0 24) (s.regs l).ba .next))) ∧
  (∀ (l : LPairN) (n : ProgN) (w : Word) (s : State),
    s.fetched l = some (n, w) →
    w.extractLsb' 24 8 = 0x09#8 →
    exec (.iSet l) s = .next (State.finish l n (if (s.regs l).ba then s.setBit l n (w.extractLsb' 0 24) true .next else .next s))) ∧
  (∀ (l : LPairN) (n : ProgN) (w : Word) (s : State),
    s.fetched l = some (n, w) →
    w.extractLsb' 24 8 = 0x0A#8 →
    exec (.iRst l) s = .next (State.finish l n (if (s.regs l).ba then s.setBit l n (w.extractLsb' 0 24) false .next else .next s))) ∧
  (∀ (l : LPairN) (n : ProgN) (w : Word) (s : State) (k b : Fin 32),
    s.fetched l = some (n, w) →
    s.bitAt l (w.extractLsb' 0 24) = some (.reg k b) →
    (w.extractLsb' 24 8 = 0x10#8 → exec (.iRe l) s = .next (((s.modRegs l (fun r => r.setW k (if (s.regs l).ba then r.w[k] ||| (1#32 <<< b.val) else r.w[k] &&& ~~~ (1#32 <<< b.val)))).modRegs l (fun r => r.setBa ((s.regs l).ba && !((s.regs l).w[k]).getLsbD b.val))).modRegs l (fun r => ({ r with pc := r.pc + 1 }).prune))) ∧ (w.extractLsb' 24 8 = 0x11#8 → exec (.iFe l) s = .next (((s.modRegs l (fun r => r.setW k (if (s.regs l).ba then r.w[k] ||| (1#32 <<< b.val) else r.w[k] &&& ~~~ (1#32 <<< b.val)))).modRegs l (fun r => r.setBa (!(s.regs l).ba && ((s.regs l).w[k]).getLsbD b.val))).modRegs l (fun r => ({ r with pc := r.pc + 1 }).prune)))) ∧
  (∀ (l : LPairN) (n : ProgN) (w : Word) (s : State),
    s.fetched l = some (n, w) →
    w.extractLsb' 24 8 = 0x0C#8 →
    (s.regs l).bits.length < 8 →
    exec (.iBpush l) s = .next ((s.modRegs l (fun r => { r with bits := r.ba :: r.bits })).modRegs l (fun r => ({ r with pc := r.pc + 1 }).prune))) ∧
  (∀ (l : LPairN) (n : ProgN) (w : Word) (s : State) (b : Bool) (z : List Bool),
    s.fetched l = some (n, w) →
    (s.regs l).bits = b :: z →
    (w.extractLsb' 24 8 = 0x0D#8 → exec (.iBpopand l) s = .next ((s.modRegs l (fun r => { r with ba := r.ba && b, bits := z })).modRegs l (fun r => ({ r with pc := r.pc + 1 }).prune))) ∧ (w.extractLsb' 24 8 = 0x0E#8 → exec (.iBpopor l) s = .next ((s.modRegs l (fun r => { r with ba := r.ba || b, bits := z })).modRegs l (fun r => ({ r with pc := r.pc + 1 }).prune)))) ∧
  (∀ (l : LPairN) (n : ProgN) (w : Word) (s : State),
    s.fetched l = some (n, w) →
    w.extractLsb' 24 8 = 0x0D#8 →
    (s.regs l).bits = [] →
    exec (.iBpopand l) s = .next ((s.tickFree.modRegs l (fun r => r.setBa (r.ba && (freeNat s.free).testBit 0))).modRegs l (fun r => ({ r with pc := r.pc + 1 }).prune)))

/-- STW completes: it stores ACC in a word register, or in memory where the program may store, through the bead journal and the store buffer. CRST completes: if BA it stores 0 in the count word, in a register or in memory, and without BA it only goes on. TON, TOF and TP complete, each with its block in word registers or in memory that the program may store to: they compute start, Q and the previous enable of R302 from the reference time, ACC and BA, store the start where it changed and the state word, put Q in BA and go on to the next word; a block that does not fit its space is ADDRESS_RANGE, and with a negative preset, for which R302 states no Q, Q is a free value (the model's choice, log entry 102). CTU and CTD count a rising edge of BA, store count and edge memory and put the comparison in BA. A store that the program may not make is STORE_PROTECTED. -/
def Obligations.TimerCounterAndStoreInstructions : Prop :=
  (∀ (l : LPairN) (n : ProgN) (w : Word) (s : State) (k : Fin 32),
    s.fetched l = some (n, w) →
    w.extractLsb' 24 8 = 0x23#8 →
    s.wordAt l (w.extractLsb' 0 24) 0 = some (.reg k) →
    exec (.iStw l) s = .next ((s.modRegs l (fun r => r.setW k (s.regs l).acc)).modRegs l (fun r => ({ r with pc := r.pc + 1 }).prune))) ∧
  (∀ (l : LPairN) (n : ProgN) (w : Word) (s : State) (a : Nat) (p : CProg),
    s.fetched l = some (n, w) →
    w.extractLsb' 24 8 = 0x23#8 →
    s.wordAt l (w.extractLsb' 0 24) 0 = some (.mem a) →
    s.cfg.prog[n] = some p →
    s.mayStore p a 0xFFFFFFFF = true →
    s.injected l = none →
    exec (.iStw l) s = .next ((s.doStore l (wordBytes a (s.regs l).acc)).modRegs l (fun r => ({ r with pc := r.pc + 1 }).prune))) ∧
  (∀ (l : LPairN) (n : ProgN) (w : Word) (s : State) (a : Nat) (p : CProg),
    s.fetched l = some (n, w) →
    w.extractLsb' 24 8 = 0x23#8 →
    s.wordAt l (w.extractLsb' 0 24) 0 = some (.mem a) →
    s.cfg.prog[n] = some p →
    s.mayStore p a 0xFFFFFFFF = false →
    exec (.iStw l) s = .next ((s).programFault l n .storeProtected).afterEnd) ∧
  (∀ (l : LPairN) (n : ProgN) (w : Word) (s : State) (k j : Fin 32),
    s.fetched l = some (n, w) →
    w.extractLsb' 24 8 = 0x1E#8 →
    (s.regs l).ba = true →
    s.wordAt l (w.extractLsb' 0 24) 0 = some (.reg k) →
    s.wordAt l (w.extractLsb' 0 24) 1 = some (.reg j) →
    exec (.iCrst l) s = .next ((s.modRegs l (fun r => r.setW k 0)).modRegs l (fun r => ({ r with pc := r.pc + 1 }).prune))) ∧
  (∀ (op : BitVec 8) (i : LPairN → Instr) (f : Timer → Bool → Word → Word → Timer) (l : LPairN) (n : ProgN) (w : Word) (s : State) (k j m : Fin 32) (y : Timer),
    (op, i, f) ∈ ([(0x18#8, Instr.iTon, Timer.ton), (0x19#8, Instr.iTof, Timer.tof), (0x1A#8, Instr.iTp, Timer.tp)] : List (BitVec 8 × (LPairN → Instr) × (Timer → Bool → Word → Word → Timer))) →
    s.fetched l = some (n, w) →
    w.extractLsb' 24 8 = op →
    s.wordAt l (w.extractLsb' 0 24) 0 = some (.reg k) →
    s.wordAt l (w.extractLsb' 0 24) 1 = some (.reg j) →
    s.wordAt l (w.extractLsb' 0 24) 3 = some (.reg m) →
    0 ≤ (s.regs l).acc.toInt →
    y = f { start := (s.regs l).w[k], q := ((s.regs l).w[j]).getLsbD 0, prev := ((s.regs l).w[j]).getLsbD 1 } (s.regs l).ba s.spn.lpair[l].t (s.regs l).acc →
    y.start = (s.regs l).w[k] →
    exec (i l) s = .next (((s.modRegs l (fun r => r.setW j y.word)).modRegs l (fun r => r.setBa y.q)).modRegs l (fun r => ({ r with pc := r.pc + 1 }).prune))) ∧
  (∀ (l : LPairN) (n : ProgN) (w : Word) (s : State) (k j : Fin 32) (c : Word),
    s.fetched l = some (n, w) →
    w.extractLsb' 24 8 = 0x1C#8 →
    s.wordAt l (w.extractLsb' 0 24) 0 = some (.reg k) →
    s.wordAt l (w.extractLsb' 0 24) 1 = some (.reg j) →
    c = countUp (s.regs l).w[k] (s.regs l).ba (((s.regs l).w[j]).getLsbD 0) →
    c = (s.regs l).w[k] →
    exec (.iCtu l) s = .next (((s.modRegs l (fun r => r.setW j (if (s.regs l).ba then (s.regs l).w[j] ||| 1#32 else (s.regs l).w[j] &&& ~~~ 1#32))).modRegs l (fun r => r.setBa (decide (r.acc.toInt ≤ c.toInt)))).modRegs l (fun r => ({ r with pc := r.pc + 1 }).prune))) ∧
  (∀ (l : LPairN) (n : ProgN) (w : Word) (s : State) (k j : Fin 32) (c : Word),
    s.fetched l = some (n, w) →
    w.extractLsb' 24 8 = 0x1D#8 →
    s.wordAt l (w.extractLsb' 0 24) 0 = some (.reg k) →
    s.wordAt l (w.extractLsb' 0 24) 1 = some (.reg j) →
    c = countDown (s.regs l).w[k] (s.regs l).ba (((s.regs l).w[j]).getLsbD 0) →
    c = (s.regs l).w[k] →
    exec (.iCtd l) s = .next (((s.modRegs l (fun r => r.setW j (if (s.regs l).ba then (s.regs l).w[j] ||| 1#32 else (s.regs l).w[j] &&& ~~~ 1#32))).modRegs l (fun r => r.setBa (decide (c.toInt ≤ 0)))).modRegs l (fun r => ({ r with pc := r.pc + 1 }).prune))) ∧
  (∀ (l : LPairN) (n : ProgN) (w : Word) (s : State) (k j m : Fin 32) (y z : Timer) (u v : State),
    s.fetched l = some (n, w) →
    w.extractLsb' 24 8 = 0x18#8 →
    s.wordAt l (w.extractLsb' 0 24) 0 = some (.reg k) →
    s.wordAt l (w.extractLsb' 0 24) 1 = some (.reg j) →
    s.wordAt l (w.extractLsb' 0 24) 3 = some (.reg m) →
    y = Timer.ton { start := (s.regs l).w[k], q := ((s.regs l).w[j]).getLsbD 0, prev := ((s.regs l).w[j]).getLsbD 1 } (s.regs l).ba s.spn.lpair[l].t (s.regs l).acc →
    z = (if (s.regs l).acc.toInt < 0 then { y with q := (freeNat s.free).testBit 0 } else y) →
    u = (if (s.regs l).acc.toInt < 0 then s.tickFree else s) →
    v = (if y.start = (s.regs l).w[k] then u else u.modRegs l (fun r => r.setW k y.start)) →
    exec (.iTon l) s = .next (((v.modRegs l (fun r => r.setW j z.word)).modRegs l (fun r => r.setBa z.q)).modRegs l (fun r => ({ r with pc := r.pc + 1 }).prune))) ∧
  (∀ (l : LPairN) (n : ProgN) (w : Word) (s : State) (a e d : Nat) (y : Timer) (u v x : State) (b c : List Byte) (p : CProg),
    s.fetched l = some (n, w) →
    w.extractLsb' 24 8 = 0x18#8 →
    s.wordAt l (w.extractLsb' 0 24) 0 = some (.mem a) →
    (s.wordAt l (w.extractLsb' 0 24) 3).isSome = true →
    s.loadBytes l a 4 0xFF = (u, some b) →
    u.wordAt l (w.extractLsb' 0 24) 1 = some (.mem e) →
    u.loadBytes l e 4 0xFF = (v, some c) →
    y = Timer.ton { start := BitVec.ofNat 32 (leNat b), q := (BitVec.ofNat 32 (leNat c)).getLsbD 0, prev := (BitVec.ofNat 32 (leNat c)).getLsbD 1 } (v.regs l).ba v.spn.lpair[l].t (v.regs l).acc →
    0 ≤ (v.regs l).acc.toInt →
    v.wordAt l (w.extractLsb' 0 24) 0 = some (.mem a) →
    v.cfg.prog[n] = some p →
    v.mayStore p a 0xFFFFFFFF = true →
    v.injected l = none →
    x = (if y.start = BitVec.ofNat 32 (leNat b) then v else v.doStore l (wordBytes a y.start)) →
    x.wordAt l (w.extractLsb' 0 24) 1 = some (.mem d) →
    x.cfg.prog[n] = some p →
    x.mayStore p d 0xFFFFFFFF = true →
    x.injected l = none →
    exec (.iTon l) s = .next (((x.doStore l (wordBytes d y.word)).modRegs l (fun r => r.setBa y.q)).modRegs l (fun r => ({ r with pc := r.pc + 1 }).prune))) ∧
  (∀ (l : LPairN) (n : ProgN) (w : Word) (s : State) (k j m : Fin 32) (y z : Timer) (u v : State),
    s.fetched l = some (n, w) →
    w.extractLsb' 24 8 = 0x19#8 →
    s.wordAt l (w.extractLsb' 0 24) 0 = some (.reg k) →
    s.wordAt l (w.extractLsb' 0 24) 1 = some (.reg j) →
    s.wordAt l (w.extractLsb' 0 24) 3 = some (.reg m) →
    y = Timer.tof { start := (s.regs l).w[k], q := ((s.regs l).w[j]).getLsbD 0, prev := ((s.regs l).w[j]).getLsbD 1 } (s.regs l).ba s.spn.lpair[l].t (s.regs l).acc →
    z = (if (s.regs l).acc.toInt < 0 then { y with q := (freeNat s.free).testBit 0 } else y) →
    u = (if (s.regs l).acc.toInt < 0 then s.tickFree else s) →
    v = (if y.start = (s.regs l).w[k] then u else u.modRegs l (fun r => r.setW k y.start)) →
    exec (.iTof l) s = .next (((v.modRegs l (fun r => r.setW j z.word)).modRegs l (fun r => r.setBa z.q)).modRegs l (fun r => ({ r with pc := r.pc + 1 }).prune))) ∧
  (∀ (l : LPairN) (n : ProgN) (w : Word) (s : State) (a e d : Nat) (y : Timer) (u v x : State) (b c : List Byte) (p : CProg),
    s.fetched l = some (n, w) →
    w.extractLsb' 24 8 = 0x19#8 →
    s.wordAt l (w.extractLsb' 0 24) 0 = some (.mem a) →
    (s.wordAt l (w.extractLsb' 0 24) 3).isSome = true →
    s.loadBytes l a 4 0xFF = (u, some b) →
    u.wordAt l (w.extractLsb' 0 24) 1 = some (.mem e) →
    u.loadBytes l e 4 0xFF = (v, some c) →
    y = Timer.tof { start := BitVec.ofNat 32 (leNat b), q := (BitVec.ofNat 32 (leNat c)).getLsbD 0, prev := (BitVec.ofNat 32 (leNat c)).getLsbD 1 } (v.regs l).ba v.spn.lpair[l].t (v.regs l).acc →
    0 ≤ (v.regs l).acc.toInt →
    v.wordAt l (w.extractLsb' 0 24) 0 = some (.mem a) →
    v.cfg.prog[n] = some p →
    v.mayStore p a 0xFFFFFFFF = true →
    v.injected l = none →
    x = (if y.start = BitVec.ofNat 32 (leNat b) then v else v.doStore l (wordBytes a y.start)) →
    x.wordAt l (w.extractLsb' 0 24) 1 = some (.mem d) →
    x.cfg.prog[n] = some p →
    x.mayStore p d 0xFFFFFFFF = true →
    x.injected l = none →
    exec (.iTof l) s = .next (((x.doStore l (wordBytes d y.word)).modRegs l (fun r => r.setBa y.q)).modRegs l (fun r => ({ r with pc := r.pc + 1 }).prune))) ∧
  (∀ (l : LPairN) (n : ProgN) (w : Word) (s : State) (k j m : Fin 32) (y z : Timer) (u v : State),
    s.fetched l = some (n, w) →
    w.extractLsb' 24 8 = 0x1A#8 →
    s.wordAt l (w.extractLsb' 0 24) 0 = some (.reg k) →
    s.wordAt l (w.extractLsb' 0 24) 1 = some (.reg j) →
    s.wordAt l (w.extractLsb' 0 24) 3 = some (.reg m) →
    y = Timer.tp { start := (s.regs l).w[k], q := ((s.regs l).w[j]).getLsbD 0, prev := ((s.regs l).w[j]).getLsbD 1 } (s.regs l).ba s.spn.lpair[l].t (s.regs l).acc →
    z = (if (s.regs l).acc.toInt < 0 then { y with q := (freeNat s.free).testBit 0 } else y) →
    u = (if (s.regs l).acc.toInt < 0 then s.tickFree else s) →
    v = (if y.start = (s.regs l).w[k] then u else u.modRegs l (fun r => r.setW k y.start)) →
    exec (.iTp l) s = .next (((v.modRegs l (fun r => r.setW j z.word)).modRegs l (fun r => r.setBa z.q)).modRegs l (fun r => ({ r with pc := r.pc + 1 }).prune))) ∧
  (∀ (l : LPairN) (n : ProgN) (w : Word) (s : State) (a e d : Nat) (y : Timer) (u v x : State) (b c : List Byte) (p : CProg),
    s.fetched l = some (n, w) →
    w.extractLsb' 24 8 = 0x1A#8 →
    s.wordAt l (w.extractLsb' 0 24) 0 = some (.mem a) →
    (s.wordAt l (w.extractLsb' 0 24) 3).isSome = true →
    s.loadBytes l a 4 0xFF = (u, some b) →
    u.wordAt l (w.extractLsb' 0 24) 1 = some (.mem e) →
    u.loadBytes l e 4 0xFF = (v, some c) →
    y = Timer.tp { start := BitVec.ofNat 32 (leNat b), q := (BitVec.ofNat 32 (leNat c)).getLsbD 0, prev := (BitVec.ofNat 32 (leNat c)).getLsbD 1 } (v.regs l).ba v.spn.lpair[l].t (v.regs l).acc →
    0 ≤ (v.regs l).acc.toInt →
    v.wordAt l (w.extractLsb' 0 24) 0 = some (.mem a) →
    v.cfg.prog[n] = some p →
    v.mayStore p a 0xFFFFFFFF = true →
    v.injected l = none →
    x = (if y.start = BitVec.ofNat 32 (leNat b) then v else v.doStore l (wordBytes a y.start)) →
    x.wordAt l (w.extractLsb' 0 24) 1 = some (.mem d) →
    x.cfg.prog[n] = some p →
    x.mayStore p d 0xFFFFFFFF = true →
    x.injected l = none →
    exec (.iTp l) s = .next (((x.doStore l (wordBytes d y.word)).modRegs l (fun r => r.setBa y.q)).modRegs l (fun r => ({ r with pc := r.pc + 1 }).prune))) ∧
  (∀ (l : LPairN) (n : ProgN) (w : Word) (s : State) (a : Nat) (p : CProg),
    s.fetched l = some (n, w) →
    w.extractLsb' 24 8 = 0x1E#8 →
    (s.regs l).ba = true →
    s.wordAt l (w.extractLsb' 0 24) 0 = some (.mem a) →
    (s.wordAt l (w.extractLsb' 0 24) 1).isSome = true →
    s.cfg.prog[n] = some p →
    s.mayStore p a 0xFFFFFFFF = true →
    s.injected l = none →
    exec (.iCrst l) s = .next ((s.doStore l (wordBytes a 0)).modRegs l (fun r => ({ r with pc := r.pc + 1 }).prune))) ∧
  (∀ (l : LPairN) (n : ProgN) (w : Word) (s : State),
    s.fetched l = some (n, w) →
    w.extractLsb' 24 8 = 0x1E#8 →
    (s.regs l).ba = false →
    exec (.iCrst l) s = .next ((s).modRegs l (fun r => ({ r with pc := r.pc + 1 }).prune))) ∧
  (∀ (l : LPairN) (n : ProgN) (w : Word) (s : State),
    w.extractLsb' 24 8 = 0x18#8 ∨ w.extractLsb' 24 8 = 0x19#8 ∨ w.extractLsb' 24 8 = 0x1A#8 →
    s.fetched l = some (n, w) →
    s.wordAt l (w.extractLsb' 0 24) 3 = none →
    (w.extractLsb' 24 8 = 0x18#8 → exec (.iTon l) s = .next ((s).programFault l n .addressRange).afterEnd) ∧ (w.extractLsb' 24 8 = 0x19#8 → exec (.iTof l) s = .next ((s).programFault l n .addressRange).afterEnd) ∧ (w.extractLsb' 24 8 = 0x1A#8 → exec (.iTp l) s = .next ((s).programFault l n .addressRange).afterEnd))

/-- RESC takes a scan result of IN with its validity. If BA, RAIL merges a command bit into the rail's slot, MRG a margin request, EVT marks an event that the program owns (else STORE_PROTECTED), SIGSYNC drains the store buffer and signals; without BA they only go on. LOCK acquires without waiting and puts the result in BA and ACC. UNLOCK drains the buffer and releases. Outside a replay each is recorded in the bead journal. WAITSYNC as the last word of its bead ends the bead, and the next one waits for the object. -/
def Obligations.SharedObjectInstructions : Prop :=
  (∀ (l : LPairN) (n : ProgN) (w : Word) (s : State) (u : State) (b : List Byte),
    s.fetched l = some (n, w) →
    w.extractLsb' 24 8 = 0x37#8 →
    s.loadBytes l (0x2000 + 4 * field (w.extractLsb' 0 24) 0 10) 4 0xFF = (u, some b) →
    exec (.iResc l) s = .next ((u.modRegs l (fun x => { x with acc := ((BitVec.ofNat 32 (leNat b)).extractLsb' 0 16).signExtend 32, ba := ((BitVec.ofNat 32 (leNat b)).extractLsb' 16 3) == 0#3 })).modRegs l (fun r => ({ r with pc := r.pc + 1 }).prune))) ∧
  (∀ (l : LPairN) (n : ProgN) (w : Word) (s : State),
    s.fetched l = some (n, w) →
    w.extractLsb' 24 8 = 0x40#8 →
    (s.regs l).ba = true →
    s.spn.lpair[l].replay = none →
    field (w.extractLsb' 0 24) 8 4 = 1 →
    exec (.iRail l) s = .next (((s.record l (.rail (Fin.ofNat 256 (field (w.extractLsb' 0 24) 0 8)) 1)).putStore l [(0x10000 + 4 * (Fin.ofNat 256 (field (w.extractLsb' 0 24) 0 8)).val, 1, 1)]).modRegs l (fun r => ({ r with pc := r.pc + 1 }).prune))) ∧
  (∀ (l : LPairN) (n : ProgN) (w : Word) (s : State),
    s.fetched l = some (n, w) →
    w.extractLsb' 24 8 = 0x41#8 →
    (s.regs l).ba = true →
    s.spn.lpair[l].replay = none →
    exec (.iMrg l) s = .next (({ s.record l (.mrg (Fin.ofNat 256 (field (w.extractLsb' 0 24) 0 8)) (BitVec.ofNat 9 (field (w.extractLsb' 0 24) 8 9))) with mem := Memory.putWord (s.record l (.mrg (Fin.ofNat 256 (field (w.extractLsb' 0 24) 0 8)) (BitVec.ofNat 9 (field (w.extractLsb' 0 24) 8 9)))).mem (0x10000 + 4 * (Fin.ofNat 256 (field (w.extractLsb' 0 24) 0 8)).val) (mergeMargin (Memory.word (s.record l (.mrg (Fin.ofNat 256 (field (w.extractLsb' 0 24) 0 8)) (BitVec.ofNat 9 (field (w.extractLsb' 0 24) 8 9)))).mem (0x10000 + 4 * (Fin.ofNat 256 (field (w.extractLsb' 0 24) 0 8)).val)) ((w.extractLsb' 0 24).getLsbD 16) ((w.extractLsb' 0 24).extractLsb' 8 8)) }).modRegs l (fun r => ({ r with pc := r.pc + 1 }).prune))) ∧
  (∀ (l : LPairN) (n : ProgN) (w : Word) (s : State) (e : Fin 256),
    s.fetched l = some (n, w) →
    w.extractLsb' 24 8 = 0x43#8 →
    (s.regs l).ba = true →
    s.spn.lpair[l].replay = none →
    e = Fin.ofNat 256 (field (w.extractLsb' 0 24) 0 8) →
    s.ownsEvent n e = true →
    exec (.iEvt l) s = .next (((s.record l (.evt e)).putStore l [(0x10420 + e.val / 8, 1#8 <<< (e.val % 8), 1#8 <<< (e.val % 8))]).modRegs l (fun r => ({ r with pc := r.pc + 1 }).prune))) ∧
  (∀ (l : LPairN) (n : ProgN) (w : Word) (s : State) (e : Fin 256),
    s.fetched l = some (n, w) →
    w.extractLsb' 24 8 = 0x43#8 →
    (s.regs l).ba = true →
    e = Fin.ofNat 256 (field (w.extractLsb' 0 24) 0 8) →
    s.ownsEvent n e = false →
    exec (.iEvt l) s = .next ((s).programFault l n .storeProtected).afterEnd) ∧
  (∀ (l : LPairN) (n : ProgN) (w : Word) (s : State),
    s.fetched l = some (n, w) →
    (s.regs l).ba = false →
    (w.extractLsb' 24 8 = 0x40#8 → exec (.iRail l) s = .next ((s).modRegs l (fun r => ({ r with pc := r.pc + 1 }).prune))) ∧ (w.extractLsb' 24 8 = 0x41#8 → exec (.iMrg l) s = .next ((s).modRegs l (fun r => ({ r with pc := r.pc + 1 }).prune))) ∧ (w.extractLsb' 24 8 = 0x43#8 → exec (.iEvt l) s = .next ((s).modRegs l (fun r => ({ r with pc := r.pc + 1 }).prune))) ∧ (w.extractLsb' 24 8 = 0x48#8 → exec (.iSigsync l) s = .next ((s).modRegs l (fun r => ({ r with pc := r.pc + 1 }).prune)))) ∧
  (∀ (l : LPairN) (n : ProgN) (w : Word) (s : State),
    s.fetched l = some (n, w) →
    w.extractLsb' 24 8 = 0x48#8 →
    (s.regs l).ba = true →
    (s.drain l).spn.lpair[l].replay = none →
    exec (.iSigsync l) s = .next ((((s.drain l).record l (.sigsync (Fin.ofNat 1024 (field (w.extractLsb' 0 24) 0 10)))).progSignal l n (Fin.ofNat 1024 (field (w.extractLsb' 0 24) 0 10))).modRegs l (fun r => ({ r with pc := r.pc + 1 }).prune))) ∧
  (∀ (l : LPairN) (n : ProgN) (w : Word) (s : State) (k : Fin 256),
    s.fetched l = some (n, w) →
    w.extractLsb' 24 8 = 0x4A#8 →
    s.spn.lpair[l].replay = none →
    k = Fin.ofNat 256 (field (w.extractLsb' 0 24) 0 8) →
    exec (.iLock l) s = .next ((((s.acquire k (.pair l)).1.record l (.lock k (s.acquire k (.pair l)).2.acquired (s.acquire k (.pair l)).2.word)).modRegs l (fun x => { x with ba := (s.acquire k (.pair l)).2.acquired, acc := (s.acquire k (.pair l)).2.word })).modRegs l (fun r => ({ r with pc := r.pc + 1 }).prune))) ∧
  (∀ (l : LPairN) (n : ProgN) (w : Word) (s : State) (k : Fin 256),
    s.fetched l = some (n, w) →
    w.extractLsb' 24 8 = 0x4B#8 →
    (s.drain l).spn.lpair[l].replay = none →
    k = Fin.ofNat 256 (field (w.extractLsb' 0 24) 0 8) →
    exec (.iUnlock l) s = .next (((s.drain l).liveUnlock l n k ((w.extractLsb' 0 24).getLsbD 12)).modRegs l (fun r => ({ r with pc := r.pc + 1 }).prune))) ∧
  (∀ (l : LPairN) (n : ProgN) (w : Word) (s : State),
    s.fetched l = some (n, w) →
    w.extractLsb' 24 8 = 0x49#8 →
    (s.regs l).calls = [] →
    (s.regs l).pc + 1 = (s.extent l n).2 →
    s.spn.lpair[l].bead + 1 < s.beadCount n →
    exec (.iWaitsync l) s = .next (s.endBead l n (s.spn.lpair[l].bead + 1) (some (Fin.ofNat 1024 (field (w.extractLsb' 0 24) 0 10)))).afterEnd)

/-- JMP, JC with BA and JNC without BA jump forward to a word within the running bead or subroutine, else JUMP_RANGE; JC without BA and JNC with BA go on. LOOP counts Wn down and jumps back while Wn is above 0 and the count of this entry is below its maximum, else it goes on. CALL pushes the next word and starts a subroutine, the ninth is STACK; RET returns, with nothing to return to it is STACK. BEND ends the bead with the next bead named, outside the program it is BEAD_RANGE, inside a subroutine STACK. PEND ends the run without fault. -/
def Obligations.FlowInstructions : Prop :=
  (∀ (l : LPairN) (n : ProgN) (w : Word) (s : State) (a : Nat),
    s.fetched l = some (n, w) →
    w.extractLsb' 24 8 = 0x50#8 →
    0 < field (w.extractLsb' 0 24) 0 16 →
    a = (s.regs l).pc + field (w.extractLsb' 0 24) 0 16 →
    (s.extent l n).1 ≤ a →
    a < (s.extent l n).2 →
    exec (.iJmp l) s = .next ((s.modRegs l (fun r => { r with pc := a })).modRegs l Regs.prune)) ∧
  (∀ (l : LPairN) (n : ProgN) (w : Word) (s : State),
    s.fetched l = some (n, w) →
    (w.extractLsb' 24 8 = 0x51#8 → exec (.iJc l) s = .next (State.finish l n (if (s.regs l).ba then s.jump l n (w.extractLsb' 0 24) else .next s))) ∧ (w.extractLsb' 24 8 = 0x52#8 → exec (.iJnc l) s = .next (State.finish l n (if (s.regs l).ba then .next s else s.jump l n (w.extractLsb' 0 24)))) ∧ (w.extractLsb' 24 8 = 0x50#8 → field (w.extractLsb' 0 24) 0 16 = 0 → exec (.iJmp l) s = .next ((s).programFault l n .jumpRange).afterEnd)) ∧
  (∀ (l : LPairN) (n : ProgN) (w : Word) (s : State) (k : Fin 32) (v : Word),
    s.fetched l = some (n, w) →
    w.extractLsb' 24 8 = 0x53#8 →
    k = regField (w.extractLsb' 0 24) 16 →
    v = (s.regs l).w[k] - 1 →
    v.toInt ≤ 0 →
    exec (.iLoop l) s = .next (((s.modRegs l (fun x => x.setW k v)).modRegs l (fun x => { x with loops := (s.regs l).loops.filter (fun e => !(e.1 == (s.regs l).pc && e.2.2.1 == (s.regs l).calls.length)) })).modRegs l (fun r => ({ r with pc := r.pc + 1 }).prune))) ∧
  (∀ (l : LPairN) (n : ProgN) (w : Word) (s : State) (k : Fin 32) (v : Word) (a : Nat),
    s.fetched l = some (n, w) →
    w.extractLsb' 24 8 = 0x53#8 →
    k = regField (w.extractLsb' 0 24) 16 →
    v = (s.regs l).w[k] - 1 →
    0 < v.toInt →
    (s.regs l).loops = [] →
    0 < field (w.extractLsb' 0 24) 8 8 →
    a + field (w.extractLsb' 0 24) 0 8 = (s.regs l).pc →
    exec (.iLoop l) s = .next (State.finish l n (((s.modRegs l (fun x => x.setW k v)).modRegs l (fun x => { x with loops := [((s.regs l).pc, a, (s.regs l).calls.length, 1)] })).jumpTo l n a))) ∧
  (∀ (l : LPairN) (n : ProgN) (w : Word) (s : State) (p : CProg) (e : Nat × Nat),
    s.fetched l = some (n, w) →
    w.extractLsb' 24 8 = 0x54#8 →
    (s.regs l).calls.length < 8 →
    s.cfg.prog[n] = some p →
    p.subs[field (w.extractLsb' 0 24) 0 16]? = some e →
    exec (.iCall l) s = .next ((s.modRegs l (fun r => { r with calls := (r.pc + 1) :: r.calls, pc := e.1 })).modRegs l Regs.prune)) ∧
  (∀ (l : LPairN) (n : ProgN) (w : Word) (s : State),
    s.fetched l = some (n, w) →
    w.extractLsb' 24 8 = 0x54#8 →
    8 ≤ (s.regs l).calls.length →
    exec (.iCall l) s = .next ((s).programFault l n .stack).afterEnd) ∧
  (∀ (l : LPairN) (n : ProgN) (w : Word) (s : State) (a : Nat) (z : List Nat),
    s.fetched l = some (n, w) →
    w.extractLsb' 24 8 = 0x55#8 →
    (s.regs l).calls = a :: z →
    exec (.iRet l) s = .next ((s.modRegs l (fun r => { r with calls := z, pc := a })).modRegs l Regs.prune)) ∧
  (∀ (l : LPairN) (n : ProgN) (w : Word) (s : State),
    s.fetched l = some (n, w) →
    w.extractLsb' 24 8 = 0x55#8 →
    (s.regs l).calls = [] →
    exec (.iRet l) s = .next ((s).programFault l n .stack).afterEnd) ∧
  (∀ (l : LPairN) (n : ProgN) (w : Word) (s : State) (k : Nat),
    s.fetched l = some (n, w) →
    w.extractLsb' 24 8 = 0x56#8 →
    (s.regs l).calls = [] →
    k = (if field (w.extractLsb' 0 24) 0 16 = 0xFFFF then s.spn.lpair[l].bead + 1 else field (w.extractLsb' 0 24) 0 16) →
    k < s.beadCount n →
    exec (.iBend l) s = .next (s.endBead l n k none).afterEnd) ∧
  (∀ (l : LPairN) (n : ProgN) (w : Word) (s : State) (k : Nat),
    s.fetched l = some (n, w) →
    w.extractLsb' 24 8 = 0x56#8 →
    (s.regs l).calls = [] →
    k = (if field (w.extractLsb' 0 24) 0 16 = 0xFFFF then s.spn.lpair[l].bead + 1 else field (w.extractLsb' 0 24) 0 16) →
    s.beadCount n ≤ k →
    exec (.iBend l) s = .next ((s).programFault l n .beadRange).afterEnd) ∧
  (∀ (l : LPairN) (n : ProgN) (w : Word) (s : State),
    s.fetched l = some (n, w) →
    w.extractLsb' 24 8 = 0x57#8 →
    (s.regs l).calls = [] →
    exec (.iPend l) s = .next ((s.modProg n (fun p => { p with consecutive := 0, refreshed := true })).endRun l n .done 1).afterEnd)

/-- The memory frame of the commands outside `Safety.mayWriteImage`: every byte reads as before. -/
def Obligations.ImageMemoryFrame : Prop :=
  ∀ (c : Instr) (s t : State) (a : Nat),
    Safety.mayWriteImage c = false →
    exec c s = .next t →
    Memory.get t.mem a = Memory.get s.mem a

/-- The memory laws: read after write, the frame of a write, and the canonical form. What an unlisted byte reads as is the model's choice (log entry 2). -/
def Obligations.MemoryReadAfterWrite : Prop :=
  (∀ (m : List Host.Cell) (a i : Nat) (l : List Byte),
    Memory.wf m = true →
    i < l.length →
    Memory.get (Memory.put m a l) (a + i) = l.getD i 0) ∧
  (∀ (m : List Host.Cell) (a x : Nat) (l : List Byte),
    Memory.wf m = true →
    x < a ∨ a + l.length ≤ x →
    Memory.get (Memory.put m a l) x = Memory.get m x) ∧
  (∀ (m : List Host.Cell) (a n : Nat) (l : List Byte),
    Memory.wf m = true →
    Memory.wf (Memory.put m a l) = true ∧ Memory.wf (Memory.clear m a n) = true) ∧
  (∀ (m : List Host.Cell) (a : Nat) (w : Word),
    Memory.wf m = true →
    Memory.word (Memory.putWord m a w) a = w) ∧
  (∀ (m : List Host.Cell) (a n x : Nat),
    Memory.get (Memory.clear m a n) x = if a ≤ x ∧ x < a + n then 0 else Memory.get m x) ∧
  (∀ (m : List Host.Cell) (src dst n x : Nat),
    Memory.wf m = true →
    Memory.get (Memory.copy m src dst n) x = if dst ≤ x ∧ x < dst + n then Memory.get m (x - dst + src) else Memory.get m x)

/-- CTU and CTD at the program counter of a logical pair, in every operand form of their block: word 0 is the count and bit 0 of word 1 the edge memory. On a rising BA, that is BA 1 with edge memory 0, CTU adds 1 and saturates at 2,147,483,647, and CTD subtracts 1 and saturates at -2,147,483,648; otherwise the count stays. A changed count is stored in word 0, BA in bit 0 of word 1; then BA is 1 when count >= ACC for CTU, when count <= 0 for CTD. A block that runs out of its space is ADDRESS_RANGE before anything is loaded. -/
def Obligations.CounterBlocks : Prop :=
  (∀ (count : Word),
    count.toInt < 2147483647 →
    (countUp count true false).toInt = count.toInt + 1) ∧
  (∀ (count : Word),
    count.toInt = 2147483647 →
    countUp count true false = count) ∧
  (∀ (count : Word),
    -2147483648 < count.toInt →
    (countDown count true false).toInt = count.toInt - 1) ∧
  (∀ (count : Word),
    count.toInt = -2147483648 →
    countDown count true false = count) ∧
  (∀ (count : Word) (ba edge : Bool),
    (ba && !edge) = false →
    countUp count ba edge = count ∧ countDown count ba edge = count) ∧
  (∀ (l : LPairN) (n : ProgN) (w : Word) (s : State),
    s.fetched l = some (n, w) →
    w.extractLsb' 24 8 = 0x1C#8 →
    (s.wordAt l (w.extractLsb' 0 24) 1).isNone = false →
    exec (.iCtu l) s = .next (State.finish l n (State.withWord s l (w.extractLsb' 0 24) 0 (fun s count => State.withWord s l (w.extractLsb' 0 24) 1 (fun s st => (if countUp count (s.regs l).ba (st.getLsbD 0) = count then State.setWord s l n (w.extractLsb' 0 24) 1 (if (s.regs l).ba then st ||| 1#32 else st &&& ~~~ 1#32) (fun y => y.go l (fun r => r.setBa (decide (r.acc.toInt ≤ (countUp count (s.regs l).ba (st.getLsbD 0)).toInt)))) else State.setWord s l n (w.extractLsb' 0 24) 0 (countUp count (s.regs l).ba (st.getLsbD 0)) (fun x => x.setWord l n (w.extractLsb' 0 24) 1 (if (s.regs l).ba then st ||| 1#32 else st &&& ~~~ 1#32) (fun y => y.go l (fun r => r.setBa (decide (r.acc.toInt ≤ (countUp count (s.regs l).ba (st.getLsbD 0)).toInt))))))))))) ∧
  (∀ (l : LPairN) (n : ProgN) (w : Word) (s : State),
    s.fetched l = some (n, w) →
    w.extractLsb' 24 8 = 0x1D#8 →
    (s.wordAt l (w.extractLsb' 0 24) 1).isNone = false →
    exec (.iCtd l) s = .next (State.finish l n (State.withWord s l (w.extractLsb' 0 24) 0 (fun s count => State.withWord s l (w.extractLsb' 0 24) 1 (fun s st => (if countDown count (s.regs l).ba (st.getLsbD 0) = count then State.setWord s l n (w.extractLsb' 0 24) 1 (if (s.regs l).ba then st ||| 1#32 else st &&& ~~~ 1#32) (fun y => y.go l (fun r => r.setBa (decide ((countDown count (s.regs l).ba (st.getLsbD 0)).toInt ≤ 0)))) else State.setWord s l n (w.extractLsb' 0 24) 0 (countDown count (s.regs l).ba (st.getLsbD 0)) (fun x => x.setWord l n (w.extractLsb' 0 24) 1 (if (s.regs l).ba then st ||| 1#32 else st &&& ~~~ 1#32) (fun y => y.go l (fun r => r.setBa (decide ((countDown count (s.regs l).ba (st.getLsbD 0)).toInt ≤ 0))))))))))) ∧
  (∀ (l : LPairN) (n : ProgN) (w : Word) (s : State) (k j : Fin 32) (c : Word),
    s.fetched l = some (n, w) →
    w.extractLsb' 24 8 = 0x1C#8 →
    s.wordAt l (w.extractLsb' 0 24) 0 = some (.reg k) →
    s.wordAt l (w.extractLsb' 0 24) 1 = some (.reg j) →
    c = countUp (s.regs l).w[k] (s.regs l).ba (((s.regs l).w[j]).getLsbD 0) →
    c ≠ (s.regs l).w[k] →
    exec (.iCtu l) s = .next (((((s.modRegs l (fun r => r.setW k c)).modRegs l (fun r => r.setW j (if (s.regs l).ba then (s.regs l).w[j] ||| 1#32 else (s.regs l).w[j] &&& ~~~ 1#32))).modRegs l (fun r => r.setBa (decide (r.acc.toInt ≤ c.toInt))))).modRegs l (fun r => ({ r with pc := r.pc + 1 }).prune))) ∧
  (∀ (l : LPairN) (n : ProgN) (w : Word) (s : State),
    s.fetched l = some (n, w) →
    w.extractLsb' 24 8 = 0x1C#8 →
    s.wordAt l (w.extractLsb' 0 24) 1 = none →
    exec (.iCtu l) s = .next ((s.programFault l n .addressRange).afterEnd)) ∧
  (∀ (l : LPairN) (n : ProgN) (w : Word) (s : State),
    s.fetched l = some (n, w) →
    w.extractLsb' 24 8 = 0x1D#8 →
    s.wordAt l (w.extractLsb' 0 24) 1 = none →
    exec (.iCtd l) s = .next ((s.programFault l n .addressRange).afterEnd))

/-- The later-fault list holds up to 255 entries, in slots 0 to 254. With room, an entry takes the next slot, and the others and OVERFLOW stay. When full, it overwrites slot 254, slots 0 to 253 stay, and OVERFLOW counts the displaced entry, saturating at 65,535. The list never grows beyond 255 entries. A short touch that acknowledges an alert changes nothing in the list, provided that the juridical entry it makes finds its place (one that does not is a later fault of its own, JURIDICAL_LOST) and no presence proof is awaited. -/
def Obligations.LaterFaultListKeepsItsPlaces : Prop :=
  (∀ (d : NvData) (e : Lfl),
    d.lfl.length < 255 →
    (d.addLfl e).lfl = d.lfl ++ [{ e with seq := d.lflSeq }] ∧ (d.addLfl e).lflOverflow = d.lflOverflow) ∧
  (∀ (d : NvData) (e : Lfl),
    d.lfl.length = 255 →
    (d.addLfl e).lfl.length = 255 ∧ (d.addLfl e).lfl[254]? = some { e with seq := d.lflSeq } ∧ (∀ i < 254, (d.addLfl e).lfl[i]? = d.lfl[i]?) ∧ (d.addLfl e).lflOverflow = min 65535 (d.lflOverflow + 1)) ∧
  (∀ (d : NvData) (e : Lfl),
    d.lfl.length ≤ 255 →
    (d.addLfl e).lfl.length ≤ 255) ∧
  (∀ (s : State) (src cls : Option Nat) (name : String) (detail : List Nat),
    s.g.st ≠ .lastGasp →
    (s.laterFault src cls name detail).nv.cur = s.nv.cur.addLfl (s.lflEntry src cls name detail)) ∧
  (∀ (s : State) (a : Nat) (rest : List Nat),
    s.touch.alerts = a :: rest →
    s.touch.page = 2 →
    s.sec.waiting = none →
    (s.jurOpen = true → s.hasRoom 0 128 = true) →
    s.shortTouch.nv.cur.lfl = s.nv.cur.lfl ∧ s.shortTouch.nv.cur.lflOverflow = s.nv.cur.lflOverflow)

/-- The word of EVT_TGT_CLAIM is the number of the source assigned to the target, or NONE. The read's claim marks the assignment claimed and moves the event's stamp to the time pair, leaving the source, so that a repeated claim answers the same, and every other target and source; with NONE it changes nothing. A source is assigned before its MSI-X message is sent. A completion of the assigned source takes it to IDLE and frees the target, with a pass if a target has become eligible; an event of that source lost in the same fine tick is taken after the completion, and the source goes to PENDING. A completion of another number only sets COMPLETE_ERR. -/
def Obligations.ClaimAndComplete : Prop :=
  (∀ (x : Tgt) (n : Nat),
    x.source = some n →
    n < 1024 →
    x.claimWord.toNat = n) ∧
  (∀ (x : Tgt),
    x.source = none →
    x.claimWord = 0x80000000#32) ∧
  (∀ (t : TgtN) (s : State) (n : Nat),
    s.evt.tgt[t].source = some n →
    ∃ u, exec (.evtClaim t) s = .next u ∧ u.evt.tgt[t] = { s.evt.tgt[t] with claimed := true, time := dw s.evt.tgt[t].stamp } ∧ u.evt.tgt[t].claimWord = s.evt.tgt[t].claimWord ∧ (∀ r : TgtN, r ≠ t → u.evt.tgt[r] = s.evt.tgt[r]) ∧ u = { s with evt := { s.evt with tgt := u.evt.tgt } } ∧ exec (.evtClaim t) u = .next u) ∧
  (∀ (t : TgtN) (s : State),
    s.evt.tgt[t].source = none →
    exec (.evtClaim t) s = .next s) ∧
  (∀ (e : Evt) (n : Nat) (t : TgtN) (stamp : Ns),
    e.find n = some ⟨false, stamp⟩ →
    e.masked n = false →
    e.barred.getLsbD (srcGroup n) = false →
    e.best e.route[Fin.ofNat 1024 n] = some t →
    (e.tryAssign n).tgt[t].source = some n ∧ (e.tryAssign n).tgt[t].claimed = false ∧ (e.tryAssign n).tgt[t].stamp = stamp ∧ (e.tryAssign n).msix = t :: e.msix) ∧
  (∀ (t : TgtN) (src : BitVec 10) (s : State),
    s.evt.tgt[t].source = some src.toNat →
    (∀ x ∈ s.evt.lostNow, x.stamp = s.stamp → x.src ≠ src.toNat) →
    ∃ e : Evt, e.find src.toNat = none ∧ (∀ m ≠ src.toNat, e.find m = s.evt.find m) ∧ e.tgt[t].source = none ∧ e.tgt[t].claimed = false ∧ (∀ r : TgtN, r ≠ t → e.tgt[r] = s.evt.tgt[r]) ∧ e = { s.evt with srcs := e.srcs, tgt := e.tgt } ∧ exec (.evtComplete t src) s = .next { s with evt := e.passIf (e.gained s.evt) }) ∧
  (∀ (t : TgtN) (src : BitVec 10) (s : State) (x : LostEv),
    s.evt.tgt[t].source = some src.toNat →
    x ∈ s.evt.lostNow →
    x.stamp = s.stamp →
    x.src = src.toNat →
    ∃ e : Evt, e.find src.toNat = some ⟨false, s.stamp⟩ ∧ (∀ m ≠ src.toNat, e.find m = s.evt.find m) ∧ e.tgt[t].source = none ∧ e.tgt[t].claimed = false ∧ (∀ r : TgtN, r ≠ t → e.tgt[r] = s.evt.tgt[r]) ∧ exec (.evtComplete t src) s = .next { s with evt := e.arbitrate }) ∧
  (∀ (t : TgtN) (src : BitVec 10) (s : State),
    s.evt.tgt[t].source ≠ some src.toNat →
    exec (.evtComplete t src) s = .next (s.modEvt (fun e => { e with tgt := tmod e.tgt t (fun x => { x with completeErr := true }) })))

/-- An acquire of a FREE lock records owner and epoch and reports POISONED as it stands; of one held by the same owner it answers ACQUIRED and HELD_BY_OWN and changes nothing; of one held by another it changes nothing and is not acquired; of an ORPHANED one it takes it, sets POISONED and reports it. A release by the owner frees the lock and keeps POISONED, or clears it with CLEAR_POISON; by anyone else, or of a lock not held, it changes nothing. At the rise of an owner's epoch its held locks, and no others, are ORPHANED, and are counted. -/
def Obligations.LockTableRows : Prop :=
  (∀ (s : State) (k : Fin 256) (w : LockOwner),
    s.lck.lock[k].st = .free →
    s.acquire k w = (s.modLock k (fun y => { y with st := .held, owner := w, epoch := s.epochOf w }), ⟨true, s.lck.lock[k].poisoned, false⟩)) ∧
  (∀ (s : State) (k : Fin 256) (w : LockOwner),
    s.lck.lock[k].st = .held →
    s.lck.lock[k].owner = w →
    s.acquire k w = (s, ⟨true, s.lck.lock[k].poisoned, true⟩)) ∧
  (∀ (s : State) (k : Fin 256) (w : LockOwner),
    s.lck.lock[k].st = .held →
    s.lck.lock[k].owner ≠ w →
    (s.acquire k w).1 = s ∧ (s.acquire k w).2.acquired = false) ∧
  (∀ (s : State) (k : Fin 256) (w : LockOwner),
    s.lck.lock[k].st = .orphaned →
    s.acquire k w = (s.modLock k (fun y => { y with st := .held, poisoned := true, owner := w, epoch := s.epochOf w }), ⟨true, true, false⟩)) ∧
  (∀ (s : State) (k : Fin 256) (w : LockOwner) (clear : Bool),
    s.lck.lock[k].st = .held →
    s.lck.lock[k].owner = w →
    s.release k w clear = (s.modLock k (fun y => { y with st := .free, poisoned := y.poisoned && !clear }), true)) ∧
  (∀ (s : State) (k : Fin 256) (w : LockOwner) (clear : Bool),
    s.lck.lock[k].st ≠ .held ∨ s.lck.lock[k].owner ≠ w →
    s.release k w clear = (s, false)) ∧
  (∀ (s : State) (w : LockOwner),
    (∀ k : Fin 256, s.lck.lock[k].st ≠ .held ∨ s.lck.lock[k].owner ≠ w) →
    s.orphan w = s) ∧
  (∀ (s : State) (w : LockOwner) (k : Fin 256),
    (s.orphan w).lck.lock[k] = (if s.lck.lock[k].st = .held ∧ s.lck.lock[k].owner = w then { s.lck.lock[k] with st := .orphaned } else s.lck.lock[k]))
end

