-- ==== Sys2Proof/Laws/Memory.lean ====
section
/-!
SUPPORT. The memory laws: every operation keeps the canonical form, a read after a write gives the byte written, and a write
leaves every other byte alone.
-/
namespace Sys2Proof.Machine

theorem Memory.wfFrom_mono {lo lo' : Nat} {m : List Host.Cell} (h : Memory.wfFrom lo m = true) (hl : lo' ≤ lo) :
    Memory.wfFrom lo' m = true := by
  cases m with
  | nil => rfl
  | cons c rest =>
    obtain ⟨a, b⟩ := c
    simp only [Memory.wfFrom, Bool.and_eq_true, decide_eq_true_eq] at h ⊢
    exact ⟨⟨le_trans hl h.1.1, h.1.2⟩, h.2⟩

theorem Memory.set_wfFrom {lo a : Nat} (b : Byte) {m : List Host.Cell} (h : Memory.wfFrom lo m = true) (ha : lo ≤ a) :
    Memory.wfFrom lo (Memory.set m a b) = true := by
  induction m generalizing lo with
  | nil =>
    unfold Memory.set
    split <;> simp_all [Memory.wfFrom]
  | cons c rest ih =>
    obtain ⟨x, y⟩ := c
    simp only [Memory.wfFrom, Bool.and_eq_true, decide_eq_true_eq] at h
    unfold Memory.set
    split
    · rename_i hax
      split
      · simp_all [Memory.wfFrom]
      · simp only [Memory.wfFrom, Bool.and_eq_true, decide_eq_true_eq]
        exact ⟨⟨ha, by simpa using ‹_›⟩, ⟨⟨by omega, h.1.2⟩, h.2⟩⟩
    · split
      · rename_i _ hax
        split
        · exact Memory.wfFrom_mono h.2 (by omega)
        · simp only [Memory.wfFrom, Bool.and_eq_true, decide_eq_true_eq]
          exact ⟨⟨ha, by simpa using ‹_›⟩, by simpa [hax] using h.2⟩
      · simp only [Memory.wfFrom, Bool.and_eq_true, decide_eq_true_eq]
        exact ⟨h.1, ih h.2 (by omega)⟩

/-- A byte write keeps the canonical form. -/
@[simp] theorem Memory.set_wf {m : List Host.Cell} (a : Nat) (b : Byte) (h : Memory.wf m = true) :
    Memory.wf (Memory.set m a b) = true := Memory.set_wfFrom b h (Nat.zero_le a)

/-- Writing bytes one by one keeps the canonical form. -/
@[simp] theorem Memory.put_wf {m : List Host.Cell} (a : Nat) (l : List Byte) (h : Memory.wf m = true) :
    Memory.wf (Memory.put m a l) = true := by
  induction l generalizing m a with
  | nil => exact h
  | cons b rest ih => exact ih (a + 1) (Memory.set_wf a b h)

/-- A word write keeps the canonical form. -/
@[simp] theorem Memory.putWord_wf {m : List Host.Cell} (a : Nat) (w : Word) (h : Memory.wf m = true) :
    Memory.wf (Memory.putWord m a w) = true := Memory.put_wf a _ h

theorem Memory.filter_wfFrom {lo : Nat} (p : Host.Cell → Bool) {m : List Host.Cell} (h : Memory.wfFrom lo m = true) :
    Memory.wfFrom lo (m.filter p) = true := by
  induction m generalizing lo with
  | nil => rfl
  | cons c rest ih =>
    obtain ⟨x, y⟩ := c
    simp only [Memory.wfFrom, Bool.and_eq_true, decide_eq_true_eq] at h
    rw [List.filter_cons]
    split
    · simp only [Memory.wfFrom, Bool.and_eq_true, decide_eq_true_eq]
      exact ⟨h.1, ih h.2⟩
    · exact Memory.wfFrom_mono (ih h.2) (by omega)

/-- Clearing an area keeps the canonical form. -/
@[simp] theorem Memory.clear_wf {m : List Host.Cell} (a n : Nat) (h : Memory.wf m = true) :
    Memory.wf (Memory.clear m a n) = true := Memory.filter_wfFrom _ h

theorem Memory.append_wfFrom {lo mid : Nat} {l m : List Host.Cell} (hl : Memory.wfFrom lo l = true)
    (hb : ∀ c ∈ l, c.1 < mid) (hm : Memory.wfFrom mid m = true) (hlo : lo ≤ mid) : Memory.wfFrom lo (l ++ m) = true := by
  induction l generalizing lo with
  | nil => exact Memory.wfFrom_mono hm hlo
  | cons c rest ih =>
    obtain ⟨x, y⟩ := c
    simp only [Memory.wfFrom, Bool.and_eq_true, decide_eq_true_eq] at hl
    simp only [List.cons_append, Memory.wfFrom, Bool.and_eq_true, decide_eq_true_eq]
    have hx := hb (x, y) (by simp)
    exact ⟨hl.1, ih hl.2 (fun c hc => hb c (by simp [hc])) (by omega)⟩

theorem Memory.ge_wfFrom {lo lo' : Nat} {m : List Host.Cell} (h : Memory.wfFrom lo m = true) (hb : ∀ c ∈ m, lo' ≤ c.1) :
    Memory.wfFrom lo' m = true := by
  cases m with
  | nil => rfl
  | cons c rest =>
    obtain ⟨x, y⟩ := c
    simp only [Memory.wfFrom, Bool.and_eq_true, decide_eq_true_eq] at h ⊢
    exact ⟨⟨hb (x, y) (by simp), h.1.2⟩, h.2⟩

theorem Memory.shift_wfFrom {lo src dst : Nat} {m : List Host.Cell} (h : Memory.wfFrom lo m = true)
    (hb : ∀ c ∈ m, src ≤ c.1) (hlo : src ≤ lo) :
    Memory.wfFrom (lo - src + dst) (m.map (fun c => (c.1 - src + dst, c.2))) = true := by
  induction m generalizing lo with
  | nil => rfl
  | cons c rest ih =>
    obtain ⟨x, y⟩ := c
    simp only [Memory.wfFrom, Bool.and_eq_true, decide_eq_true_eq] at h
    simp only [List.map_cons, Memory.wfFrom, Bool.and_eq_true, decide_eq_true_eq]
    have hx : src ≤ x := hb (x, y) (by simp)
    have hr := ih (lo := x + 1) h.2 (fun c hc => hb c (by simp [hc])) (by omega)
    rw [show x + 1 - src + dst = x - src + dst + 1 by omega] at hr
    exact ⟨⟨by omega, h.1.2⟩, hr⟩

/-- Copying an area keeps the canonical form. -/
@[simp] theorem Memory.copy_wf {m : List Host.Cell} (src dst n : Nat) (h : Memory.wf m = true) :
    Memory.wf (Memory.copy m src dst n) = true := by
  unfold Memory.copy Memory.wf
  rw [List.append_assoc]
  refine Memory.append_wfFrom (mid := dst) (Memory.filter_wfFrom _ h) (by simp) ?_ (Nat.zero_le _)
  refine Memory.append_wfFrom (mid := dst + n) ?_ ?_ ?_ (by omega)
  · have hr : Memory.wfFrom src (Memory.range m src (src + n)) = true :=
      Memory.ge_wfFrom (Memory.filter_wfFrom _ h) (by simp [Memory.range]; intros; assumption)
    have hs := Memory.shift_wfFrom (dst := dst) hr (by simp [Memory.range]; intros; assumption) le_rfl
    simpa using hs
  · simp only [List.mem_map, Memory.range, List.mem_filter, Bool.and_eq_true, decide_eq_true_eq]
    rintro c ⟨x, ⟨_, h1, h2⟩, rfl⟩
    show x.1 - src + dst < dst + n
    omega
  · exact Memory.ge_wfFrom (Memory.filter_wfFrom _ h) (by simp)

theorem Memory.cells_wfFrom (a : Nat) (l : List Byte) : Memory.wfFrom a (Memory.cells a l) = true := by
  induction l generalizing a with
  | nil => rfl
  | cons b rest ih =>
    unfold Memory.cells
    split
    · exact Memory.wfFrom_mono (ih (a + 1)) (by omega)
    · simp_all [Memory.wfFrom]

theorem Memory.cells_lt (a : Nat) (l : List Byte) : ∀ c ∈ Memory.cells a l, c.1 < a + l.length := by
  induction l generalizing a with
  | nil => simp [Memory.cells]
  | cons b rest ih =>
    intro c hc
    unfold Memory.cells at hc
    split at hc
    · have := ih (a + 1) c hc
      simp only [List.length_cons]; omega
    · rcases List.mem_cons.mp hc with rfl | hc
      · simp
      · have := ih (a + 1) c hc
        simp only [List.length_cons]; omega

/-- Filling an area keeps the canonical form. -/
@[simp] theorem Memory.fill_wf {m : List Host.Cell} (a : Nat) (l : List Byte) (h : Memory.wf m = true) :
    Memory.wf (Memory.fill m a l) = true := by
  unfold Memory.fill Memory.wf
  rw [List.append_assoc]
  refine Memory.append_wfFrom (mid := a) (Memory.filter_wfFrom _ h) (by simp) ?_ (Nat.zero_le _)
  refine Memory.append_wfFrom (mid := a + l.length) (Memory.cells_wfFrom a l) (Memory.cells_lt a l) ?_ (by omega)
  exact Memory.ge_wfFrom (Memory.filter_wfFrom _ h) (by simp)

@[simp] theorem Memory.wf_nil : Memory.wf [] = true := rfl

theorem Memory.get_below {lo a : Nat} {m : List Host.Cell} (h : Memory.wfFrom lo m = true) (ha : a < lo) : Memory.get m a = 0 := by
  induction m generalizing lo with
  | nil => rfl
  | cons c rest ih =>
    obtain ⟨x, y⟩ := c
    simp only [Memory.wfFrom, Bool.and_eq_true, decide_eq_true_eq] at h
    rw [Memory.get, if_neg (by omega)]
    exact ih h.2 (by omega)

theorem Memory.get_set_from {lo a b : Nat} (v : Byte) {m : List Host.Cell} (h : Memory.wfFrom lo m = true) :
    Memory.get (Memory.set m a v) b = if b = a then v else Memory.get m b := by
  induction m generalizing lo with
  | nil =>
    unfold Memory.set
    by_cases hv : v = 0
    · rw [if_pos hv, hv]
      split <;> rfl
    · rw [if_neg hv]
      by_cases hb : b = a
      · simp [Memory.get, hb]
      · have hne : ¬ a = b := fun e => hb e.symm
        simp [Memory.get, hb, hne]
  | cons c rest ih =>
    obtain ⟨x, y⟩ := c
    simp only [Memory.wfFrom, Bool.and_eq_true, decide_eq_true_eq] at h
    unfold Memory.set
    by_cases hax : a < x
    · rw [if_pos hax]
      by_cases hv : v = 0
      · rw [if_pos hv]
        by_cases hb : b = a
        · subst hb hv
          rw [if_pos rfl, Memory.get, if_neg (by omega)]
          exact Memory.get_below h.2 (by omega)
        · rw [if_neg hb]
      · rw [if_neg hv, Memory.get]
        by_cases hb : b = a
        · simp [hb]
        · rw [if_neg (fun e => hb e.symm), if_neg hb]
    · rw [if_neg hax]
      by_cases hae : a = x
      · rw [if_pos hae]
        subst hae
        by_cases hv : v = 0
        · rw [if_pos hv]
          by_cases hb : b = a
          · subst hb hv
            rw [if_pos rfl]
            exact Memory.get_below h.2 (by omega)
          · rw [if_neg hb, Memory.get, if_neg (fun e => hb e.symm)]
        · rw [if_neg hv, Memory.get]
          by_cases hb : b = a
          · simp [hb]
          · rw [if_neg (fun e => hb e.symm), if_neg hb, Memory.get, if_neg (fun e => hb e.symm)]
      · rw [if_neg hae, Memory.get, Memory.get]
        by_cases hxb : x = b
        · rw [if_pos hxb, if_pos hxb, if_neg (by omega)]
        · rw [if_neg hxb, if_neg hxb]
          exact ih h.2

/-- A read after a byte write: the byte written, and every other byte as before. -/
theorem Memory.get_set {a b : Nat} (v : Byte) {m : List Host.Cell} (h : Memory.wf m = true) :
    Memory.get (Memory.set m a v) b = if b = a then v else Memory.get m b := Memory.get_set_from v h

/-- Writing bytes one by one leaves every byte outside the area alone. -/
theorem Memory.get_put_ne {a b : Nat} {l : List Byte} {m : List Host.Cell} (h : Memory.wf m = true)
    (hb : b < a ∨ a + l.length ≤ b) : Memory.get (Memory.put m a l) b = Memory.get m b := by
  induction l generalizing m a with
  | nil => rfl
  | cons v rest ih =>
    simp only [List.length_cons] at hb
    rw [Memory.put, ih (Memory.set_wf a v h) (by omega), Memory.get_set v h, if_neg (by omega)]

/-- Reading a byte of the area written. -/
theorem Memory.get_put {a k : Nat} {l : List Byte} {m : List Host.Cell} (h : Memory.wf m = true) (hk : k < l.length) :
    Memory.get (Memory.put m a l) (a + k) = l[k] := by
  induction l generalizing m a k with
  | nil => simp at hk
  | cons v rest ih =>
    rw [Memory.put]
    cases k with
    | zero =>
      rw [Nat.add_zero, Memory.get_put_ne (Memory.set_wf a v h) (by omega), Memory.get_set v h, if_pos (Nat.add_zero a)]
      rfl
    | succ k =>
      rw [show a + (k + 1) = a + 1 + k by omega, ih (Memory.set_wf a v h) (by simpa using hk)]
      rfl

end Sys2Proof.Machine
end

