-- ==== Sys2Proof/Laws/FrameBasics.lean ====
section
/-!
SUPPORT. The frames of Machine/Basics.lean: every operation keeps the canonical form of the image memory, or leaves it alone, and
keeps the queue of waiting commands.
-/
namespace Sys2Proof.Machine
open Sys2Proof
set_option linter.all false
set_option maxRecDepth 20000
@[simp] theorem foldl_mem {α : Type} (f : State → α → State) (h : ∀ s x, (f s x).mem = s.mem) (l : List α) (s : State) :
    (l.foldl f s).mem = s.mem := by
  induction l generalizing s with
  | nil => rfl
  | cons x l ih => simp only [List.foldl_cons, ih, h]
@[simp] theorem foldl_pending {α : Type} (f : State → α → State) (h : ∀ s x, (f s x).pending = s.pending) (l : List α) (s : State) :
    (l.foldl f s).pending = s.pending := by
  induction l generalizing s with
  | nil => rfl
  | cons x l ih => simp only [List.foldl_cons, ih, h]
@[simp] theorem foldl_wf {α : Type} (f : State → α → State) (h : ∀ s x, Memory.wf s.mem = true → Memory.wf (f s x).mem = true)
    (l : List α) (s : State) (hs : Memory.wf s.mem = true) : Memory.wf (l.foldl f s).mem = true := by
  induction l generalizing s with
  | nil => exact hs
  | cons x l ih => exact ih _ (h _ _ hs)
@[simp] theorem ite_mem (c : Prop) [Decidable c] (a b : State) : (if c then a else b).mem = if c then a.mem else b.mem := by split <;> rfl
@[simp] theorem ite_pending (c : Prop) [Decidable c] (a b : State) : (if c then a else b).pending = if c then a.pending else b.pending := by
  split <;> rfl
theorem foldl_keep {α : Type} (f : State → α → State) (h : ∀ s x, (f s x).mem = s.mem ∧ (f s x).pending = s.pending) (l : List α) (s : State) :
    (l.foldl f s).mem = s.mem ∧ (l.foldl f s).pending = s.pending := by
  induction l generalizing s with
  | nil => exact ⟨rfl, rfl⟩
  | cons x l ih => simp only [List.foldl_cons, ih, h, and_self]
theorem foldl_inv {α β : Type} (P : β → Prop) (f : β → α → β) (h : ∀ b x, P b → P (f b x)) (l : List α) (b : β) (hb : P b) :
    P (l.foldl f b) := by
  induction l generalizing b with
  | nil => exact hb
  | cons x l ih => exact ih _ (h _ _ hb)

@[simp] theorem State.modRail_frame (s : State) (n : RailN) (f : Rail → Rail) : (State.modRail s n f).mem = s.mem ∧ (State.modRail s n f).pending = s.pending := ⟨rfl, rfl⟩
end Sys2Proof.Machine
end

