-- ==== Sys2Proof/Laws/FrameWords.lean ====
section
/-!
SUPPORT. The frames of Machine/Words.lean: every operation keeps the canonical form of the image memory, or leaves it alone, and
keeps the queue of waiting commands.
-/
namespace Sys2Proof.Machine
open Sys2Proof
set_option linter.all false
set_option maxRecDepth 20000
@[simp] theorem State.lagTrim_frame (s : State) (x : Fin 320 × Int) : (State.lagTrim s x).mem = s.mem ∧ (State.lagTrim s x).pending = s.pending := ⟨rfl, rfl⟩
@[simp] theorem State.slewTrims_frame (s : State) : (State.slewTrims s).mem = s.mem ∧ (State.slewTrims s).pending = s.pending := ⟨rfl, rfl⟩
end Sys2Proof.Machine
end

