-- ==== Sys2Proof/Laws/FrameOps.lean ====
section
/-!
SUPPORT. The frames of Machine/Ops.lean: every operation keeps the canonical form of the image memory, or leaves it alone, and
keeps the queue of waiting commands.
-/
namespace Sys2Proof.Machine
open Sys2Proof
set_option linter.all false
set_option maxRecDepth 20000
@[simp] theorem State.routed_frame (s : State) (n detail : Nat) : (State.routed s n detail).mem = s.mem ∧ (State.routed s n detail).pending = s.pending := ⟨rfl, rfl⟩
@[simp] theorem State.modPair_frame (s : State) (l : LPairN) (f : LPair → LPair) : (State.modPair s l f).mem = s.mem ∧ (State.modPair s l f).pending = s.pending := ⟨rfl, rfl⟩
@[simp] theorem State.modProg_frame (s : State) (n : ProgN) (f : ProgSt → ProgSt) : (State.modProg s n f).mem = s.mem ∧ (State.modProg s n f).pending = s.pending := ⟨rfl, rfl⟩
@[simp] theorem State.takeUp_frame (s : State) (l : LPairN) (n : ProgN) : (State.takeUp s l n).mem = s.mem ∧ (State.takeUp s l n).pending = s.pending := ⟨rfl, rfl⟩
@[simp] theorem State.startRun_frame (s : State) (n : ProgN) : (State.startRun s n).mem = s.mem ∧ (State.startRun s n).pending = s.pending := ⟨rfl, rfl⟩
@[simp] theorem State.pick_frame (s : State) (l : LPairN) : (State.pick s l).mem = s.mem ∧ (State.pick s l).pending = s.pending := by
  unfold State.pick
  dsimp only
  repeat' split
  all_goals simp
@[simp] theorem State.modSync_frame (s : State) (o : Fin 1024) (f : SyncSt → SyncSt) : (State.modSync s o f).mem = s.mem ∧ (State.modSync s o f).pending = s.pending := ⟨rfl, rfl⟩
@[simp] theorem State.modLckTgt_frame (s : State) (t : TgtN) (f : LckTgt → LckTgt) : (State.modLckTgt s t f).mem = s.mem ∧ (State.modLckTgt s t f).pending = s.pending := ⟨rfl, rfl⟩
@[simp] theorem State.wake_frame (s : State) (n : ProgN) (broken : Bool) : (State.wake s n broken).mem = s.mem ∧ (State.wake s n broken).pending = s.pending := by
  unfold State.wake
  repeat' split
  all_goals simp
theorem State.completeWait_frame (s : State) (out : State → Nat → State)
    (ho : ∀ s n, (out s n).mem = s.mem ∧ (out s n).pending = s.pending) (w : Waiter) (broken : Bool) :
    (s.completeWait out w broken).mem = s.mem ∧ (s.completeWait out w broken).pending = s.pending := by
  unfold State.completeWait
  repeat' split
  all_goals simp [ho]
theorem State.signalWith_frame (s : State) (out : State → Nat → State)
    (ho : ∀ s n, (out s n).mem = s.mem ∧ (out s n).pending = s.pending) (o : Fin 1024) :
    (s.signalWith out o).mem = s.mem ∧ (s.signalWith out o).pending = s.pending := by
  unfold State.signalWith
  split
  · simp [State.completeWait_frame _ out ho]
  · simp
@[simp] theorem State.raiseTo_frame (k : Nat) (s : State) (n d : Nat) :
    (State.raiseTo k s n d).mem = s.mem ∧ (State.raiseTo k s n d).pending = s.pending := by
  induction k generalizing s n d with
  | zero => simp [State.raiseTo]
  | succ k ih =>
    have key : ∀ (x : State) (o : Fin 1024), (x.signalWith (fun s n => State.raiseTo k s n 0) o).mem = x.mem ∧
        (x.signalWith (fun s n => State.raiseTo k s n 0) o).pending = x.pending :=
      fun x o => State.signalWith_frame x _ (fun s n => ih s n 0) o
    simp only [State.raiseTo]
    rw [foldl_mem _ (fun x o => (key x o).1), foldl_pending _ (fun x o => (key x o).2)]
    simp
@[simp] theorem State.raise_frame (s : State) (n : Nat) (detail : Nat) : (State.raise s n detail).mem = s.mem ∧ (State.raise s n detail).pending = s.pending := by simp [State.raise]
@[simp] theorem State.signal_frame (s : State) (o : Fin 1024) :
    (s.signal o).mem = s.mem ∧ (s.signal o).pending = s.pending :=
  State.signalWith_frame s _ (fun s n => by simp) o
@[simp] theorem State.commitStart_frame (s : State) : (State.commitStart s).mem = s.mem ∧ (State.commitStart s).pending = s.pending := by simp [State.commitStart]
@[simp] theorem State.gather_frame (s : State) (bytes : Nat) : (State.gather s bytes).mem = s.mem ∧ (State.gather s bytes).pending = s.pending := by simp [State.gather]
@[simp] theorem State.nvWrite_frame (s : State) (bytes : Nat) (f : NvData → NvData) : (State.nvWrite s bytes f).mem = s.mem ∧ (State.nvWrite s bytes f).pending = s.pending := by simp [State.nvWrite]
@[simp] theorem State.listLfl_frame (s : State) (e : Lfl) : (State.listLfl s e).mem = s.mem ∧ (State.listLfl s e).pending = s.pending := by simp [State.listLfl]
@[simp] theorem State.laterFault_frame (s : State) (src cls : Option Nat) (name : String) (detail : List Nat) : (State.laterFault s src cls name detail).mem = s.mem ∧ (State.laterFault s src cls name detail).pending = s.pending := by simp [State.laterFault]
@[simp] theorem State.endMargin_frame (s : State) (n : RailN) (why : EndReason) : (State.endMargin s n why).mem = s.mem ∧ (State.endMargin s n why).pending = s.pending := by
  unfold State.endMargin
  dsimp only
  repeat' split
  all_goals simp
@[simp] theorem State.modConv_frame (s : State) (c : ConvN) (f : Conv → Conv) : (State.modConv s c f).mem = s.mem ∧ (State.modConv s c f).pending = s.pending := ⟨rfl, rfl⟩
@[simp] theorem State.convMode_frame (s : State) (c : ConvN) : (State.convMode s c).mem = s.mem ∧ (State.convMode s c).pending = s.pending := by
  unfold State.convMode
  repeat' split
  all_goals simp
@[simp] theorem State.convModes_frame (s : State) : (State.convModes s).mem = s.mem ∧ (State.convModes s).pending = s.pending := by simp [State.convModes]
@[simp] theorem State.preemptProbe_frame (s : State) (c : ConvN) : (State.preemptProbe s c).mem = s.mem ∧ (State.preemptProbe s c).pending = s.pending := by
  unfold State.preemptProbe
  dsimp only
  repeat' split
  all_goals simp
@[simp] theorem State.snapTrigger_frame (s : State) : (State.snapTrigger s).mem = s.mem ∧ (State.snapTrigger s).pending = s.pending := by simp [State.snapTrigger]
@[simp] theorem State.secondClass_frame (s : State) (r : IncRec) (cls src : Nat) (name : String) (trigger : List Nat) (classes : BitVec 32) : (State.secondClass s r cls src name trigger classes).mem = s.mem ∧ (State.secondClass s r cls src name trigger classes).pending = s.pending := by simp [State.secondClass]
@[simp] theorem State.faultEvent_frame (s : State) (cls src : Nat) (name : String) (trigger : List Nat) (classes : BitVec 32) : (State.faultEvent s cls src name trigger classes).mem = s.mem ∧ (State.faultEvent s cls src name trigger classes).pending = s.pending := by
  unfold State.faultEvent
  dsimp only
  repeat' split
  all_goals simp
@[simp] theorem State.faultLogged_frame (s : State) (cls src : Nat) (name : String) (detail : List Nat) : (State.faultLogged s cls src name detail).mem = s.mem ∧ (State.faultLogged s cls src name detail).pending = s.pending := by simp [State.faultLogged]
@[simp] theorem State.modStream_frame (s : State) (i : Fin 64) (f : Stream → Stream) : (State.modStream s i f).mem = s.mem ∧ (State.modStream s i f).pending = s.pending := ⟨rfl, rfl⟩
@[simp] theorem State.putEntry_frame (s : State) (i : Fin 64) (typ : Byte) (payload : List Byte) (payloadLen : Nat) (mtime utc : DWord) (qual : Nat) (poweron : BitVec 16) (sync : Bool) : (State.putEntry s i typ payload payloadLen mtime utc qual poweron sync).mem = s.mem ∧ (State.putEntry s i typ payload payloadLen mtime utc qual poweron sync).pending = s.pending := by simp [State.putEntry]
@[simp] theorem State.jurAdmit_frame (s : State) (j : Jur) : (State.jurAdmit s j).mem = s.mem ∧ (State.jurAdmit s j).pending = s.pending := by simp [State.jurAdmit]
@[simp] theorem State.waveRecord_frame (s : State) (typ : Byte) (payload : List Byte) : (State.waveRecord s typ payload).mem = s.mem ∧ (State.waveRecord s typ payload).pending = s.pending := by simp [State.waveRecord]
@[simp] theorem State.juridical_frame (s : State) (name : String) (detail : List Nat) (src : Option Nat) : (State.juridical s name detail src).mem = s.mem ∧ (State.juridical s name detail src).pending = s.pending := by simp [State.juridical]
@[simp] theorem State.accessErr_frame (s : State) (cause bar offset : Nat) : (State.accessErr s cause bar offset).mem = s.mem ∧ (State.accessErr s cause bar offset).pending = s.pending := by simp [State.accessErr]
@[simp] theorem State.toHost_frame (s : State) (addr : DWord) (bytes : List Byte) : (State.toHost s addr bytes).mem = s.mem ∧ (State.toHost s addr bytes).pending = s.pending := ⟨rfl, rfl⟩
@[simp] theorem State.noteLost_frame (s : State) (src : Nat) : (State.noteLost s src).mem = s.mem ∧ (State.noteLost s src).pending = s.pending := by simp [State.noteLost]
@[simp] theorem State.linkFound_frame (s : State) (src : Nat) : (State.linkFound s src).mem = s.mem ∧ (State.linkFound s src).pending = s.pending := ⟨rfl, rfl⟩
@[simp] theorem State.linkLost_frame (s : State) (src : Nat) : (State.linkLost s src).mem = s.mem ∧ (State.linkLost s src).pending = s.pending := by simp [State.linkLost]
@[simp] theorem State.hostLinkDown_frame (s : State) : (State.hostLinkDown s).mem = s.mem ∧ (State.hostLinkDown s).pending = s.pending := by simp [State.hostLinkDown]
@[simp] theorem State.updFault_frame (s : State) : (State.updFault s).mem = s.mem ∧ (State.updFault s).pending = s.pending := ⟨rfl, rfl⟩
@[simp] theorem State.relinquish_frame (s : State) (sync : Bool) : (State.relinquish s sync).mem = s.mem ∧ (State.relinquish s sync).pending = s.pending := by simp [State.relinquish]
@[simp] theorem State.tickFree_frame (s : State) : (State.tickFree s).mem = s.mem ∧ (State.tickFree s).pending = s.pending := ⟨rfl, rfl⟩
@[simp] theorem State.sendBeats_frame (s : State) : (State.sendBeats s).mem = s.mem ∧ (State.sendBeats s).pending = s.pending := ⟨rfl, rfl⟩
@[simp] theorem State.hsbLeave_frame (s : State) (st : ModSt) : (State.hsbLeave s st).mem = s.mem ∧ (State.hsbLeave s st).pending = s.pending := by simp [State.hsbLeave]
@[simp] theorem State.setMod_frame (s0 : State) (st : ModSt) : (State.setMod s0 st).mem = s0.mem ∧ (State.setMod s0 st).pending = s0.pending := by simp [State.setMod]
@[simp] theorem State.setDegraded_frame (s : State) (b : Bool) : (State.setDegraded s b).mem = s.mem ∧ (State.setDegraded s b).pending = s.pending := by simp [State.setDegraded]
@[simp] theorem State.updDegraded_frame (s : State) : (State.updDegraded s).mem = s.mem ∧ (State.updDegraded s).pending = s.pending := by simp [State.updDegraded]
@[simp] theorem State.abandonTest_frame (s : State) : (State.abandonTest s).mem = s.mem ∧ (State.abandonTest s).pending = s.pending := by simp [State.abandonTest]
@[simp] theorem State.wdgFirst_frame (s : State) : (State.wdgFirst s).mem = s.mem ∧ (State.wdgFirst s).pending = s.pending := ⟨rfl, rfl⟩
@[simp] theorem State.wdgFromStart_frame (s : State) : (State.wdgFromStart s).mem = s.mem ∧ (State.wdgFromStart s).pending = s.pending := by simp [State.wdgFromStart]
@[simp] theorem State.enableWdgs_frame (s : State) : (State.enableWdgs s).mem = s.mem ∧ (State.enableWdgs s).pending = s.pending := by simp [State.enableWdgs]
@[simp] theorem State.stopWdgs_frame (s : State) : (State.stopWdgs s).mem = s.mem ∧ (State.stopWdgs s).pending = s.pending := ⟨rfl, rfl⟩
@[simp] theorem State.endTestMode_frame (s : State) : (State.endTestMode s).mem = s.mem ∧ (State.endTestMode s).pending = s.pending := by simp [State.endTestMode]
end Sys2Proof.Machine
end

