-- ==== Sys2Proof/Laws/FramePeriods.lean ====
section
/-!
SUPPORT. The frames of Machine/Periods.lean: every operation keeps the canonical form of the image memory, or leaves it alone, and
keeps the queue of waiting commands.
-/
namespace Sys2Proof.Machine
open Sys2Proof
set_option linter.all false
set_option maxRecDepth 20000
@[simp] theorem State.takeEntry_frame (s : State) (name : String) (typ inst : Nat) (x : Option Sec) : (State.takeEntry s name typ inst x).mem = s.mem ∧ (State.takeEntry s name typ inst x).pending = s.pending := by simp [State.takeEntry]
@[simp] theorem State.landed_frame (s : State) (x : Sec) : (State.landed s x).mem = s.mem ∧ (State.landed s x).pending = s.pending := by simp [State.landed]
@[simp] theorem State.modSet_frame (s : State) (m : Fin 4) (f : MSet → MSet) : (State.modSet s m f).mem = s.mem ∧ (State.modSet s m f).pending = s.pending := ⟨rfl, rfl⟩
@[simp] theorem State.absence_frame (s : State) (before after : DWord) (cause : Nat) : (State.absence s before after cause).mem = s.mem ∧ (State.absence s before after cause).pending = s.pending := by simp [State.absence]
@[simp] theorem State.landMeter_frame (s : State) : (State.landMeter s).mem = s.mem ∧ (State.landMeter s).pending = s.pending := by
  unfold State.landMeter
  dsimp only
  repeat' split
  all_goals simp
@[simp] theorem State.closePeriod_frame (s : State) (cause : BitVec 32) : (State.closePeriod s cause).mem = s.mem ∧ (State.closePeriod s cause).pending = s.pending := by simp [State.closePeriod]
@[simp] theorem State.openPeriod_frame (s : State) (cause : BitVec 32) : (State.openPeriod s cause).mem = s.mem ∧ (State.openPeriod s cause).pending = s.pending := by simp [State.openPeriod]
@[simp] theorem State.stepUtc_frame (s : State) (delta : Int) : (State.stepUtc s delta).mem = s.mem ∧ (State.stepUtc s delta).pending = s.pending := by simp [State.stepUtc]
@[simp] theorem State.stampChunks_frame (s : State) : (State.stampChunks s).mem = s.mem ∧ (State.stampChunks s).pending = s.pending := ⟨rfl, rfl⟩
@[simp] theorem State.setUtc_frame (s : State) (utc : DWord) : (State.setUtc s utc).mem = s.mem ∧ (State.setUtc s utc).pending = s.pending := by simp [State.setUtc]
@[simp] theorem State.streamSets_frame (s : State) : (State.streamSets s).mem = s.mem ∧ (State.streamSets s).pending = s.pending := by simp [State.streamSets]
@[simp] theorem State.signOne_frame (s : State) : (State.signOne s).mem = s.mem ∧ (State.signOne s).pending = s.pending := by
  unfold State.signOne
  dsimp only
  repeat' split
  all_goals simp
@[simp] theorem State.signAll_frame (s : State) : (State.signAll s).mem = s.mem ∧ (State.signAll s).pending = s.pending := by simp [State.signAll]
end Sys2Proof.Machine
end

