-- ==== Sys2Proof/Laws/FrameRails.lean ====
section
/-!
SUPPORT. The frames of Machine/Rails.lean: every operation keeps the canonical form of the image memory, or leaves it alone, and
keeps the queue of waiting commands.
-/
namespace Sys2Proof.Machine
open Sys2Proof
set_option linter.all false
set_option maxRecDepth 20000
@[simp] theorem State.lateTrim_frame (s : State) (n : RailN) : (State.lateTrim s n).mem = s.mem ∧ (State.lateTrim s n).pending = s.pending := by
  unfold State.lateTrim
  dsimp only
  repeat' split
  all_goals simp
@[simp] theorem State.enterRail_frame (s : State) (n : RailN) (st : RailSt) (f : Rail → Rail) (d : Nat) : (State.enterRail s n st f d).mem = s.mem ∧ (State.enterRail s n st f d).pending = s.pending := by simp [State.enterRail]
@[simp] theorem State.answer_frame (s : State) (src : Src) (n : RailN) (a : Ans) : (State.answer s src n a).mem = s.mem ∧ (State.answer s src n a).pending = s.pending := by
  unfold State.answer
  repeat' split
  all_goals simp
@[simp] theorem State.answerClear_frame (s : State) (src : Src) (n : RailN) (a : Ans) : (State.answerClear s src n a).mem = s.mem ∧ (State.answerClear s src n a).pending = s.pending := by
  unfold State.answerClear
  repeat' split
  all_goals simp
@[simp] theorem State.endPending_frame (s : State) (n : RailN) (a : Ans) : (State.endPending s n a).mem = s.mem ∧ (State.endPending s n a).pending = s.pending := by
  unfold State.endPending
  repeat' split
  all_goals simp
@[simp] theorem State.probeLeft_frame (s : State) (n : RailN) : (State.probeLeft s n).mem = s.mem ∧ (State.probeLeft s n).pending = s.pending := by simp [State.probeLeft]
@[simp] theorem State.toDrain_frame (s : State) (n : RailN) (drop : Option (Fin 128)) : (State.toDrain s n drop).mem = s.mem ∧ (State.toDrain s n drop).pending = s.pending := by simp [State.toDrain]
@[simp] theorem State.toRamp_frame (s : State) (n : RailN) (warm : Bool) : (State.toRamp s n warm).mem = s.mem ∧ (State.toRamp s n warm).pending = s.pending := by simp [State.toRamp]
@[simp] theorem State.onEvent_frame (s : State) (n : RailN) (src : Src) : (State.onEvent s n src).1.mem = s.mem ∧ (State.onEvent s n src).1.pending = s.pending := by
  unfold State.onEvent
  dsimp only
  repeat' split
  all_goals simp
@[simp] theorem State.dropMember_frame (s : State) (k : Fin 128) (n : RailN) : (State.dropMember s k n).mem = s.mem ∧ (State.dropMember s k n).pending = s.pending := by
  unfold State.dropMember
  dsimp only
  repeat' split
  all_goals simp
@[simp] theorem State.reactSet_frame (s : State) (k : Nat) (c : CReact) (trip : Option RailN) (src : Nat) (cause : Option Cause) : (State.reactSet s k c trip src cause).mem = s.mem ∧ (State.reactSet s k c trip src cause).pending = s.pending := by simp [State.reactSet]
@[simp] theorem State.reactRail_frame (s : State) (n : RailN) (cs : List Cause) : (State.reactRail s n cs).mem = s.mem ∧ (State.reactRail s n cs).pending = s.pending := by simp [State.reactRail]
@[simp] theorem State.reactAnalog_frame (s : State) (a : Nat) : (State.reactAnalog s a).mem = s.mem ∧ (State.reactAnalog s a).pending = s.pending := by simp [State.reactAnalog]
@[simp] theorem State.addHistory_frame (s : State) (n : RailN) (cs : List Cause) (entry : Bool) : (State.addHistory s n cs entry).mem = s.mem ∧ (State.addHistory s n cs entry).pending = s.pending := by simp [State.addHistory]
@[simp] theorem State.causeEvents_frame (s : State) (n : RailN) (cs : List Cause) : (State.causeEvents s n cs).mem = s.mem ∧ (State.causeEvents s n cs).pending = s.pending := by simp [State.causeEvents]
@[simp] theorem State.tripRail_frame (s : State) (n : RailN) (cs : List Cause) : (State.tripRail s n cs).mem = s.mem ∧ (State.tripRail s n cs).pending = s.pending := by simp [State.tripRail]
@[simp] theorem State.secondCause_frame (s : State) (n : RailN) (cs : List Cause) : (State.secondCause s n cs).mem = s.mem ∧ (State.secondCause s n cs).pending = s.pending := by simp [State.secondCause]
@[simp] theorem State.unclear_frame (s : State) (n : RailN) (cs : List Cause) (c : Option Cause) (src : Src) : (State.unclear s n cs c src).mem = s.mem ∧ (State.unclear s n cs c src).pending = s.pending := by simp [State.unclear]
@[simp] theorem State.establish_frame (s : State) (n : RailN) (cs : List Cause) : (State.establish s n cs).mem = s.mem ∧ (State.establish s n cs).pending = s.pending := by
  unfold State.establish
  dsimp only
  repeat' split
  all_goals simp
@[simp] theorem State.noDrain_frame (s : State) (n : RailN) : (State.noDrain s n).mem = s.mem ∧ (State.noDrain s n).pending = s.pending := by simp [State.noDrain]
@[simp] theorem State.railCross_frame (s : State) (n : RailN) (out : CmpOut) (level : Int) : (State.railCross s n out level).mem = s.mem ∧ (State.railCross s n out level).pending = s.pending := by
  unfold State.railCross
  repeat' split
  all_goals simp
@[simp] theorem State.analogTrip_frame (s : State) (a : Nat) (out : CmpOut) : (State.analogTrip s a out).mem = s.mem ∧ (State.analogTrip s a out).pending = s.pending := by simp [State.analogTrip]
@[simp] theorem State.cmpTo_frame (s : State) (i : Fin 320) (out : CmpOut) (level : Int) : (State.cmpTo s i out level).mem = s.mem ∧ (State.cmpTo s i out level).pending = s.pending := by
  unfold State.cmpTo
  dsimp only
  repeat' split
  all_goals simp
@[simp] theorem State.setInput_frame (s : State) (i : Fin 320) (level : Int) : (State.setInput s i level).mem = s.mem ∧ (State.setInput s i level).pending = s.pending := ⟨rfl, rfl⟩
@[simp] theorem State.cmpSync_frame (s : State) (i : Fin 320) : (State.cmpSync s i).mem = s.mem ∧ (State.cmpSync s i).pending = s.pending := by
  unfold State.cmpSync
  dsimp only
  repeat' split
  all_goals simp
@[simp] theorem State.railSync_frame (s : State) (n : RailN) : (State.railSync s n).mem = s.mem ∧ (State.railSync s n).pending = s.pending := by simp [State.railSync]
@[simp] theorem State.toUp_frame (s : State) (n : RailN) : (State.toUp s n).mem = s.mem ∧ (State.toUp s n).pending = s.pending := by simp [State.toUp]
@[simp] theorem State.judgeWarn_frame (s : State) (n : RailN) (v : Int) : (State.judgeWarn s n v).mem = s.mem ∧ (State.judgeWarn s n v).pending = s.pending := by simp [State.judgeWarn]
@[simp] theorem State.leaveObserve_frame (s : State) (n : RailN) : (State.leaveObserve s n).mem = s.mem ∧ (State.leaveObserve s n).pending = s.pending := by simp [State.leaveObserve]
@[simp] theorem State.senseClean_frame (s : State) (n : RailN) (c : CRail) (v : Int) (pass : Nat) : (State.senseClean s n c v pass).mem = s.mem ∧ (State.senseClean s n c v pass).pending = s.pending := by
  unfold State.senseClean
  dsimp only
  repeat' split
  all_goals simp
@[simp] theorem State.imonClean_frame (s : State) (n : RailN) (c : CRail) (code : Int) : (State.imonClean s n c code).mem = s.mem ∧ (State.imonClean s n c code).pending = s.pending := by
  unfold State.imonClean
  dsimp only
  repeat' split
  all_goals simp
@[simp] theorem State.cmdOn_frame (s : State) (src : Src) (n : RailN) : (State.cmdOn s src n).mem = s.mem ∧ (State.cmdOn s src n).pending = s.pending := by
  unfold State.cmdOn
  dsimp only
  repeat' split
  all_goals simp
@[simp] theorem State.cmdOff_frame (s : State) (src : Src) (n : RailN) : (State.cmdOff s src n).mem = s.mem ∧ (State.cmdOff s src n).pending = s.pending := by
  unfold State.cmdOff
  dsimp only
  repeat' split
  all_goals simp
@[simp] theorem State.clearRail_frame (s : State) (src : Src) (n : RailN) : (State.clearRail s src n).mem = s.mem ∧ (State.clearRail s src n).pending = s.pending := by simp [State.clearRail]
@[simp] theorem State.cmdClear_frame (s : State) (src : Src) (n : RailN) : (State.cmdClear s src n).mem = s.mem ∧ (State.cmdClear s src n).pending = s.pending := by
  unfold State.cmdClear
  repeat' split
  all_goals simp
@[simp] theorem State.cmdRelease_frame (s : State) (src : Src) (n : RailN) : (State.cmdRelease s src n).mem = s.mem ∧ (State.cmdRelease s src n).pending = s.pending := by
  unfold State.cmdRelease
  repeat' split
  all_goals simp
@[simp] theorem State.cmdPark_frame (s : State) (src : Src) (n : RailN) : (State.cmdPark s src n).mem = s.mem ∧ (State.cmdPark s src n).pending = s.pending := by
  unfold State.cmdPark
  repeat' split
  all_goals simp
@[simp] theorem State.toObserve_frame (s : State) (n : RailN) : (State.toObserve s n).mem = s.mem ∧ (State.toObserve s n).pending = s.pending := by simp [State.toObserve]
@[simp] theorem State.cmdUnpark_frame (s : State) (src : Src) (n : RailN) : (State.cmdUnpark s src n).mem = s.mem ∧ (State.cmdUnpark s src n).pending = s.pending := by
  unfold State.cmdUnpark
  repeat' split
  all_goals simp
@[simp] theorem State.railCommand_frame (s : State) (q : RailReq) : (State.railCommand s q).mem = s.mem ∧ (State.railCommand s q).pending = s.pending := by
  unfold State.railCommand
  repeat' split
  all_goals simp
end Sys2Proof.Machine
end

