-- ==== Sys2Proof/Laws/FrameQueues.lean ====
section
/-!
SUPPORT. The frames of Machine/Queues.lean: every operation keeps the canonical form of the image memory, or leaves it alone, and
keeps the queue of waiting commands.
-/
namespace Sys2Proof.Machine
open Sys2Proof
set_option linter.all false
set_option maxRecDepth 20000
@[simp] theorem State.modQueue_frame (s : State) (q : QueueN) (f : Queue → Queue) : (State.modQueue s q f).mem = s.mem ∧ (State.modQueue s q f).pending = s.pending := ⟨rfl, rfl⟩
@[simp] theorem State.modDom_frame (s : State) (d : Fin 16) (f : Dom → Dom) : (State.modDom s d f).mem = s.mem ∧ (State.modDom s d f).pending = s.pending := ⟨rfl, rfl⟩
@[simp] theorem State.addTokens_frame (s : State) (x : Int) : (State.addTokens s x).mem = s.mem ∧ (State.addTokens s x).pending = s.pending := ⟨rfl, rfl⟩
@[simp] theorem State.completion_frame (s : State) (q : QueueN) (x : Item) (code charge meas : Nat) (measured : Bool) : (State.completion s q x code charge meas measured).mem = s.mem ∧ (State.completion s q x code charge meas measured).pending = s.pending := by
  unfold State.completion
  dsimp only
  repeat' split
  all_goals simp
@[simp] theorem State.settleItem_frame (s : State) (q : QueueN) (x : Item) (m : Nat) : (State.settleItem s q x m).mem = s.mem ∧ (State.settleItem s q x m).pending = s.pending := by
  unfold State.settleItem
  dsimp only
  repeat' split
  all_goals simp
@[simp] theorem State.complete_frame (s : State) (q : QueueN) (x : Item) (code : Nat) (m : Option Nat) : (State.complete s q x code m).mem = s.mem ∧ (State.complete s q x code m).pending = s.pending := by
  unfold State.complete
  dsimp only
  repeat' split
  all_goals simp
@[simp] theorem State.taskDone_frame (s : State) (n : ProgN) (code : Nat) : (State.taskDone s n code).mem = s.mem ∧ (State.taskDone s n code).pending = s.pending := by
  unfold State.taskDone
  dsimp only
  repeat' split
  all_goals simp
@[simp] theorem State.requeueTasks_frame (s : State) : (State.requeueTasks s).mem = s.mem ∧ (State.requeueTasks s).pending = s.pending := by
  unfold State.requeueTasks
  try dsimp only
  repeat' split
  all_goals (try simp)
  all_goals (try simp (disch := ((try intros); (try dsimp only); (repeat' split) <;> (try simp (maxDischargeDepth := 30) [*]))))
@[simp] theorem State.grant_frame (s : State) (d : Fin 16) (q : QueueN) (x : Item) (abort : Bool) : (State.grant s d q x abort).mem = s.mem ∧ (State.grant s d q x abort).pending = s.pending := by simp [State.grant]
@[simp] theorem State.loseDomain_frame (s : State) (d : Fin 16) : (State.loseDomain s d).mem = s.mem ∧ (State.loseDomain s d).pending = s.pending := by simp [State.loseDomain]
@[simp] theorem State.evalDom_frame (s : State) (d : Fin 16) : (State.evalDom s d).mem = s.mem ∧ (State.evalDom s d).pending = s.pending := by
  unfold State.evalDom
  dsimp only
  repeat' split
  all_goals simp
@[simp] theorem State.evalDoms_frame (s : State) : (State.evalDoms s).mem = s.mem ∧ (State.evalDoms s).pending = s.pending := by simp [State.evalDoms]
end Sys2Proof.Machine
end

