-- ==== Sys2Proof/Laws/FrameModes.lean ====
section
/-!
SUPPORT. The frames of Machine/Modes.lean: every operation keeps the canonical form of the image memory, or leaves it alone, and
keeps the queue of waiting commands.
-/
namespace Sys2Proof.Machine
open Sys2Proof
set_option linter.all false
set_option maxRecDepth 20000
@[simp] theorem State.refuseWaiting_frame (s : State) : (State.refuseWaiting s).mem = s.mem ∧ (State.refuseWaiting s).pending = s.pending := by simp [State.refuseWaiting]
@[simp] theorem State.darkSpindles_frame (s : State) : (State.darkSpindles s).mem = s.mem ∧ (State.darkSpindles s).pending = s.pending := ⟨rfl, rfl⟩
@[simp] theorem State.stopCycle_frame (s : State) : (State.stopCycle s).mem = s.mem ∧ (State.stopCycle s).pending = s.pending := by simp [State.stopCycle]
@[simp] theorem State.sealToList_frame (s : State) : (State.sealToList s).mem = s.mem ∧ (State.sealToList s).pending = s.pending := by simp [State.sealToList]
@[simp] theorem State.startEntry_frame (s : State) (cause wake : Nat) : (Memory.wf s.mem = true → Memory.wf (State.startEntry s cause wake).mem = true) ∧ (State.startEntry s cause wake).pending = s.pending := ⟨fun h => by simp (maxDischargeDepth := 30) [State.startEntry, h], by simp [State.startEntry]⟩
@[simp] theorem State.enterStabled_frame (s : State) : (Memory.wf s.mem = true → Memory.wf (State.enterStabled s).mem = true) ∧
    (State.enterStabled s).pending = s.pending := by
  unfold State.enterStabled
  extract_lets s1 s2 a b c d s3 s4
  have h2 : s2.mem = s1.mem ∧ s2.pending = s1.pending := by
    apply foldl_keep
    intro s x
    split <;> simp
  have h1 : s1.mem = s.mem ∧ s1.pending = s.pending := by simp [s1]
  have h3 : s3.mem = s.mem ∧ s3.pending = s.pending := by simp only [s3, State.setMod_frame, h2, h1, and_self]
  clear_value s3
  have h4 : s4.mem = s.mem ∧ s4.pending = s.pending := by simp only [s4]; exact h3
  clear_value s4
  split
  · exact ⟨fun h => (State.startEntry_frame _ _ _).1 (by simp [h4, h]), by simp [h4]⟩
  · exact ⟨fun h => by simp [h4, h], by simp [h4]⟩
@[simp] theorem State.enterOff_frame (s : State) : (State.enterOff s).mem = s.mem ∧ (State.enterOff s).pending = s.pending := by simp [State.enterOff]
@[simp] theorem State.safeOff_frame (s : State) : (Memory.wf s.mem = true → Memory.wf (State.safeOff s).mem = true) ∧ (State.safeOff s).pending = s.pending := by
  unfold State.safeOff
  dsimp only
  repeat' split
  all_goals exact ⟨fun h => by simp (maxDischargeDepth := 30) [h], by simp⟩
@[simp] theorem State.enterSafeHold_frame (s : State) (cause : String) (detail : List Nat) : (Memory.wf s.mem = true → Memory.wf (State.enterSafeHold s cause detail).mem = true) ∧ (State.enterSafeHold s cause detail).pending = s.pending := by
  unfold State.enterSafeHold
  dsimp only
  repeat' split
  all_goals exact ⟨fun h => by simp (maxDischargeDepth := 30) [h], by simp⟩
@[simp] theorem State.restartLoses_frame (s : State) : (State.restartLoses s).mem = s.mem ∧ (State.restartLoses s).pending = s.pending := by
  unfold State.restartLoses
  dsimp only
  repeat' split
  all_goals simp
@[simp] theorem State.seqShutdown_frame (s : State) : (State.seqShutdown s).mem = s.mem ∧ (State.seqShutdown s).pending = s.pending := ⟨rfl, rfl⟩
@[simp] theorem State.dropJur_frame (s : State) : (State.dropJur s).mem = s.mem ∧ (State.dropJur s).pending = s.pending := ⟨rfl, rfl⟩
@[simp] theorem State.lastGaspCommit_frame (s : State) (leftMib : Nat) : (State.lastGaspCommit s leftMib).mem = s.mem ∧ (State.lastGaspCommit s leftMib).pending = s.pending := by simp [State.lastGaspCommit]
@[simp] theorem State.abandonSet_frame (s : State) : (State.abandonSet s).mem = s.mem ∧ (State.abandonSet s).pending = s.pending := by simp [State.abandonSet]
@[simp] theorem State.abandonPending_frame (s : State) : (State.abandonPending s).mem = s.mem ∧ (State.abandonPending s).pending = s.pending := by
  unfold State.abandonPending
  dsimp only
  repeat' split
  all_goals simp
@[simp] theorem State.abandonTake_frame (s : State) : (State.abandonTake s).mem = s.mem ∧ (State.abandonTake s).pending = s.pending := by simp [State.abandonTake]
@[simp] theorem State.enterLastGasp_frame (s : State) : (State.enterLastGasp s).mem = s.mem ∧ (State.enterLastGasp s).pending = s.pending := by simp [State.enterLastGasp]
end Sys2Proof.Machine
end

