-- ==== Sys2Proof/Laws/FrameSequencer.lean ====
section
/-!
SUPPORT. The frames of Machine/Sequencer.lean: every operation keeps the canonical form of the image memory, or leaves it alone, and
keeps the queue of waiting commands.
-/
namespace Sys2Proof.Machine
open Sys2Proof
set_option linter.all false
set_option maxRecDepth 20000
@[simp] theorem State.modGroup_frame (s : State) (g : Nat) (f : GroupSt → GroupSt) : (State.modGroup s g f).mem = s.mem ∧ (State.modGroup s g f).pending = s.pending := ⟨rfl, rfl⟩
@[simp] theorem State.modStep_frame (s : State) (g k : Nat) (f : StepSt → StepSt) : (State.modStep s g k f).mem = s.mem ∧ (State.modStep s g k f).pending = s.pending := ⟨rfl, rfl⟩
@[simp] theorem State.startStep_frame (s : State) (g k : Nat) (x : CStep) : (State.startStep s g k x).mem = s.mem ∧ (State.startStep s g k x).pending = s.pending := by
  unfold State.startStep
  dsimp only
  repeat' split
  all_goals simp
@[simp] theorem State.evalStep_frame (s : State) (c : CGroup) (g k : Nat) : (State.evalStep s c g k).mem = s.mem ∧ (State.evalStep s c g k).pending = s.pending := by
  unfold State.evalStep
  dsimp only
  repeat' split
  all_goals simp
@[simp] theorem State.startGroup_frame (s : State) (c : CGroup) (g : Nat) : (State.startGroup s c g).mem = s.mem ∧ (State.startGroup s c g).pending = s.pending := by simp [State.startGroup]
@[simp] theorem State.groupUp_frame (s : State) (c : CGroup) (g : Nat) : (State.groupUp s c g).mem = s.mem ∧ (State.groupUp s c g).pending = s.pending := by
  unfold State.groupUp
  dsimp only
  repeat' split
  all_goals simp
@[simp] theorem State.evalGroup_frame (s : State) (c : CGroup) (g : Nat) : (State.evalGroup s c g).mem = s.mem ∧ (State.evalGroup s c g).pending = s.pending := by simp [State.evalGroup]
@[simp] theorem State.evalGroups_frame (s : State) : (State.evalGroups s).mem = s.mem ∧ (State.evalGroups s).pending = s.pending := by
  unfold State.evalGroups
  repeat' split
  all_goals simp
@[simp] theorem State.startAttempt_frame (s : State) : (State.startAttempt s).mem = s.mem ∧ (State.startAttempt s).pending = s.pending := ⟨rfl, rfl⟩
@[simp] theorem State.evalComplete_frame (s : State) : (State.evalComplete s).mem = s.mem ∧ (State.evalComplete s).pending = s.pending := by
  unfold State.evalComplete
  dsimp only
  repeat' split
  all_goals simp
@[simp] theorem State.noteFail_frame (s : State) (why : FailReason) (n : RailN) (g k : Nat) : (State.noteFail s why n g k).mem = s.mem ∧ (State.noteFail s why n g k).pending = s.pending := ⟨rfl, rfl⟩
@[simp] theorem State.addJob_frame (s : State) (j : Shut) : (State.addJob s j).mem = s.mem ∧ (State.addJob s j).pending = s.pending := by simp [State.addJob]
@[simp] theorem State.beginRetry_frame (s : State) : (State.beginRetry s).mem = s.mem ∧ (State.beginRetry s).pending = s.pending := by simp [State.beginRetry]
@[simp] theorem State.exhaust_frame (s : State) : (State.exhaust s).mem = s.mem ∧ (State.exhaust s).pending = s.pending := by simp [State.exhaust]
@[simp] theorem State.failInRun_frame (s : State) (g : Nat) (c : CGroup) : (State.failInRun s g c).mem = s.mem ∧ (State.failInRun s g c).pending = s.pending := by simp [State.failInRun]
@[simp] theorem State.judgeFail_frame (s : State) (f : FailReason × RailN) : (State.judgeFail s f).mem = s.mem ∧ (State.judgeFail s f).pending = s.pending := by
  unfold State.judgeFail
  repeat' split
  all_goals simp
@[simp] theorem State.evalFails_frame (s : State) : (State.evalFails s).mem = s.mem ∧ (State.evalFails s).pending = s.pending := by simp [State.evalFails]
@[simp] theorem State.shutOff_frame (s : State) (n : RailN) : (State.shutOff s n).mem = s.mem ∧ (State.shutOff s n).pending = s.pending := by
  unfold State.shutOff
  repeat' split
  all_goals simp
@[simp] theorem State.issueOff_frame (s : State) (scope rails : List RailN) : (State.issueOff s scope rails).mem = s.mem ∧ (State.issueOff s scope rails).pending = s.pending := by simp [State.issueOff]
@[simp] theorem State.downFrom_frame (s : State) (scope : List RailN) (steps : List CStep) (k : Nat) :
    (s.downFrom scope steps k).1.mem = s.mem ∧ (s.downFrom scope steps k).1.pending = s.pending := by
  induction k generalizing s with
  | zero => exact ⟨rfl, rfl⟩
  | succ k ih =>
    unfold State.downFrom
    extract_lets rails s1
    have h1 : s1.mem = s.mem ∧ s1.pending = s.pending := by simp [s1]
    clear_value s1
    split
    · exact ⟨(ih s1).1.trans h1.1, (ih s1).2.trans h1.2⟩
    · exact h1
@[simp] theorem State.advanceGroup_frame (s : State) (j : Shut) (p : CPlan) (g : Nat) (x : GroupProg) : (State.advanceGroup s j p g x).1.mem = s.mem ∧ (State.advanceGroup s j p g x).1.pending = s.pending := by
  unfold State.advanceGroup
  dsimp only
  repeat' split
  all_goals simp
@[simp] theorem State.groupEnded_frame (s : State) (j : Shut) (g : Nat) : (State.groupEnded s j g).mem = s.mem ∧ (State.groupEnded s j g).pending = s.pending := by simp [State.groupEnded]
@[simp] theorem State.advanceJob_frame (s : State) (j : Shut) :
    (s.advanceJob j).1.mem = s.mem ∧ (s.advanceJob j).1.pending = s.pending := by
  unfold State.advanceJob
  extract_lets p step a rest s1
  have ha : a.1.mem = s.mem ∧ a.1.pending = s.pending := by
    refine foldl_inv (fun a : State × Shut × Bool => a.1.mem = s.mem ∧ a.1.pending = s.pending) step ?_ _ _ ⟨rfl, rfl⟩
    intro b x hb
    simp only [step]
    split <;> simp [hb]
  clear_value a
  split
  · show s1.mem = s.mem ∧ s1.pending = s.pending
    simp only [s1]
    split <;> simp [ha]
  · exact ha
@[simp] theorem State.beginSet_frame (s : State) : (State.beginSet s).mem = s.mem ∧ (State.beginSet s).pending = s.pending := by simp [State.beginSet]
@[simp] theorem State.flushEnd_frame (s : State) (leftMib : Nat) : (State.flushEnd s leftMib).mem = s.mem ∧ (State.flushEnd s leftMib).pending = s.pending := by simp [State.flushEnd]
@[simp] theorem State.beginFlush_frame (s : State) : (State.beginFlush s).mem = s.mem ∧ (State.beginFlush s).pending = s.pending := by simp [State.beginFlush]
@[simp] theorem State.abandonWaits_frame (s : State) : (State.abandonWaits s).mem = s.mem ∧ (State.abandonWaits s).pending = s.pending := by simp [State.abandonWaits]
@[simp] theorem State.enterRunDown_frame (s0 : State) : (State.enterRunDown s0).mem = s0.mem ∧ (State.enterRunDown s0).pending = s0.pending := by simp [State.enterRunDown]
@[simp] theorem State.beginStabled_frame (s : State) : (State.beginStabled s).mem = s.mem ∧ (State.beginStabled s).pending = s.pending := by simp [State.beginStabled]
@[simp] theorem State.offNow_frame (s : State) : (State.offNow s).mem = s.mem ∧ (State.offNow s).pending = s.pending := by simp [State.offNow]
@[simp] theorem State.stepToRunDown_frame (s : State) : (State.stepToRunDown s).mem = s.mem ∧ (State.stepToRunDown s).pending = s.pending := by simp [State.stepToRunDown]
@[simp] theorem State.judgeRetry_frame (s : State) : (State.judgeRetry s).mem = s.mem ∧ (State.judgeRetry s).pending = s.pending := by simp [State.judgeRetry]
@[simp] theorem State.shedDone_frame (s : State) : (State.shedDone s).mem = s.mem ∧ (State.shedDone s).pending = s.pending := by simp [State.shedDone]
@[simp] theorem State.jobEnded_frame (s : State) (j : Shut) : (Memory.wf s.mem = true → Memory.wf (State.jobEnded s j).mem = true) ∧ (State.jobEnded s j).pending = s.pending := by
  unfold State.jobEnded
  try dsimp only
  repeat' split
  all_goals (refine ⟨fun h => ?_, ?_⟩ <;> (try simp (maxDischargeDepth := 30) [h]))
  all_goals (try with_reducible apply foldl_wf)
  all_goals (try (intros; (try dsimp only); (repeat' split) <;> simp (maxDischargeDepth := 30) [*]; done))
  all_goals (try simp (disch := ((try intros); (try dsimp only); (repeat' split) <;> (try simp (maxDischargeDepth := 30) [*]))) [*])
@[simp] theorem State.evalJobs_frame (s : State) : (Memory.wf s.mem = true → Memory.wf (State.evalJobs s).mem = true) ∧ (State.evalJobs s).pending = s.pending := by
  unfold State.evalJobs
  try dsimp only
  repeat' split
  all_goals (refine ⟨fun h => ?_, ?_⟩ <;> (try simp (maxDischargeDepth := 30) [h]))
  all_goals (try with_reducible apply foldl_wf)
  all_goals (try (intros; (try dsimp only); (repeat' split) <;> simp (maxDischargeDepth := 30) [*]; done))
  all_goals (try simp (disch := ((try intros); (try dsimp only); (repeat' split) <;> (try simp (maxDischargeDepth := 30) [*]))) [*])
@[simp] theorem State.evalPause_frame (s : State) : (State.evalPause s).mem = s.mem ∧ (State.evalPause s).pending = s.pending := by simp [State.evalPause]
@[simp] theorem State.watchProbes_frame (s : State) : (State.watchProbes s).mem = s.mem ∧ (State.watchProbes s).pending = s.pending := by
  unfold State.watchProbes
  try dsimp only
  repeat' split
  all_goals (try simp)
  all_goals (try simp (disch := ((try intros); (try dsimp only); (repeat' split) <;> (try simp (maxDischargeDepth := 30) [*]))))
@[simp] theorem State.evalCycling_frame (s : State) : (State.evalCycling s).mem = s.mem ∧ (State.evalCycling s).pending = s.pending := by
  unfold State.evalCycling
  try dsimp only
  repeat' split
  all_goals (try simp)
  all_goals (try simp (disch := ((try intros); (try dsimp only); (repeat' split) <;> (try simp (maxDischargeDepth := 30) [*]))))
@[simp] theorem State.seqPass_frame (s : State) : (Memory.wf s.mem = true → Memory.wf (State.seqPass s).mem = true) ∧ (State.seqPass s).pending = s.pending := ⟨fun h => by simp (maxDischargeDepth := 30) [State.seqPass, h], by simp [State.seqPass]⟩
@[simp] theorem State.settle_frame (s : State) : (Memory.wf s.mem = true → Memory.wf (State.settle s).mem = true) ∧ (State.settle s).pending = s.pending := by
  unfold State.settle
  try dsimp only
  repeat' split
  all_goals (refine ⟨fun h => ?_, ?_⟩ <;> (try simp (maxDischargeDepth := 30) [h]))
  all_goals (try with_reducible apply foldl_wf)
  all_goals (try (intros; (try dsimp only); (repeat' split) <;> simp (maxDischargeDepth := 30) [*]; done))
  all_goals (try simp (disch := ((try intros); (try dsimp only); (repeat' split) <;> (try simp (maxDischargeDepth := 30) [*]))) [*])
@[simp] theorem State.admitKept_frame (s : State) : (State.admitKept s).mem = s.mem ∧ (State.admitKept s).pending = s.pending := by
  unfold State.admitKept
  repeat' split
  all_goals simp
@[simp] theorem State.enterSequence_frame (s0 : State) : (Memory.wf s0.mem = true → Memory.wf (State.enterSequence s0).mem = true) ∧ (State.enterSequence s0).pending = s0.pending := ⟨fun h => by simp (maxDischargeDepth := 30) [State.enterSequence, h], by simp [State.enterSequence]⟩
@[simp] theorem State.adoptGroups_frame (s : State) (live : List RailN) : (State.adoptGroups s live).mem = s.mem ∧ (State.adoptGroups s live).pending = s.pending := by
  unfold State.adoptGroups
  dsimp only
  repeat' split
  all_goals simp
@[simp] theorem State.adopt_frame (s : State) (q : Fin 8) :
    (Memory.wf s.mem = true → Memory.wf (s.adopt q).mem = true) ∧ (s.adopt q).pending = s.pending := by
  unfold State.adopt
  extract_lets
  rename_i s2 a s3 s4
  have h3 : s3.mem = s.mem ∧ s3.pending = s.pending := ⟨rfl, rfl⟩
  have h4 : s4.mem = s3.mem ∧ s4.pending = s3.pending := by simp only [s4]; split <;> simp
  clear_value s4 s3
  exact ⟨fun h => (State.settle_frame _).1 (by simp [h4, h3, h]), by simp [h4, h3]⟩
@[simp] theorem State.shutGroup_frame (s : State) (g : Nat) (reason : DownReason) : (State.shutGroup s g reason).mem = s.mem ∧ (State.shutGroup s g reason).pending = s.pending := by
  unfold State.shutGroup
  dsimp only
  repeat' split
  all_goals simp
@[simp] theorem State.domRequest_frame (s : State) (r : DomReq) : (State.domRequest s r).mem = s.mem ∧ (State.domRequest s r).pending = s.pending := by
  unfold State.domRequest
  dsimp only
  repeat' split
  all_goals simp
@[simp] theorem State.judgeRerun_frame (s : State) (src : Src) : (State.judgeRerun s src).mem = s.mem ∧ (State.judgeRerun s src).pending = s.pending := by
  unfold State.judgeRerun
  dsimp only
  repeat' split
  all_goals simp
@[simp] theorem State.modAnswer_frame (s : State) (src : Src) (a : Ans) : (State.modAnswer s src a).mem = s.mem ∧ (State.modAnswer s src a).pending = s.pending := by simp [State.modAnswer]
@[simp] theorem State.offRequest_frame (s : State) (src : Src) : (Memory.wf s.mem = true → Memory.wf (State.offRequest s src).mem = true) ∧ (State.offRequest s src).pending = s.pending := by
  unfold State.offRequest
  dsimp only
  repeat' split
  all_goals exact ⟨fun h => by simp (maxDischargeDepth := 30) [h], by simp⟩
@[simp] theorem State.onRequest_frame (s : State) (src : Src) : (Memory.wf s.mem = true → Memory.wf (State.onRequest s src).mem = true) ∧ (State.onRequest s src).pending = s.pending := by
  unfold State.onRequest
  dsimp only
  repeat' split
  all_goals exact ⟨fun h => by simp (maxDischargeDepth := 30) [h], by simp⟩
@[simp] theorem State.restartAnswer_frame (s : State) (src : Src) (a : Ans) : (State.restartAnswer s src a).mem = s.mem ∧ (State.restartAnswer s src a).pending = s.pending := by
  unfold State.restartAnswer
  dsimp only
  repeat' split
  all_goals simp
@[simp] theorem State.restartRequest_frame (s : State) (src : Src) : (Memory.wf s.mem = true → Memory.wf (State.restartRequest s src).mem = true) ∧ (State.restartRequest s src).pending = s.pending := by
  unfold State.restartRequest
  dsimp only
  repeat' split
  all_goals exact ⟨fun h => by simp (maxDischargeDepth := 30) [h], by simp⟩
end Sys2Proof.Machine
end

