-- ==== Sys2Proof/Laws/FramePower.lean ====
section
/-!
SUPPORT. The frames of Machine/Power.lean: every operation keeps the canonical form of the image memory, or leaves it alone, and
keeps the queue of waiting commands.
-/
namespace Sys2Proof.Machine
open Sys2Proof
set_option linter.all false
set_option maxRecDepth 20000
@[simp] theorem State.wakeUp_frame (s : State) (code : Nat) : (Memory.wf s.mem = true → Memory.wf (State.wakeUp s code).mem = true) ∧ (State.wakeUp s code).pending = s.pending := by
  unfold State.wakeUp
  dsimp only
  repeat' split
  all_goals exact ⟨fun h => by simp (maxDischargeDepth := 30) [h], by simp⟩
@[simp] theorem State.deferredRetry_frame (s : State) : (State.deferredRetry s).mem = s.mem ∧ (State.deferredRetry s).pending = s.pending := by simp [State.deferredRetry]
theorem execSupplyStartThreshold_frame (s : State) (u : State) (ho : execSupplyStartThreshold s = .next u) : (Memory.wf s.mem = true → Memory.wf u.mem = true) ∧ u.pending = s.pending := by
  unfold execSupplyStartThreshold at ho
  dsimp only at ho
  repeat' split at ho
  all_goals simp only [Host.Outcome.next.injEq, reduceCtorEq] at ho
  all_goals (subst ho; exact ⟨fun h => by simp (maxDischargeDepth := 30) [h], by simp⟩)
@[simp] theorem State.absent_frame (s : State) : (State.absent s).mem = s.mem ∧ (State.absent s).pending = s.pending := by simp [State.absent]
theorem execVinAbsenceBegin_frame (s : State) (u : State) (ho : execVinAbsenceBegin s = .next u) : u.mem = s.mem ∧ u.pending = s.pending := by
  simp only [execVinAbsenceBegin, Host.Outcome.next.injEq] at ho
  subst ho
  simp
theorem execFluctuationExpiry_frame (s : State) (u : State) (ho : execFluctuationExpiry s = .next u) : u.mem = s.mem ∧ u.pending = s.pending := by
  simp only [execFluctuationExpiry, Host.Outcome.next.injEq] at ho
  subst ho
  simp
theorem execSupplyLossDeclared_frame (s : State) (u : State) (ho : execSupplyLossDeclared s = .next u) : u.mem = s.mem ∧ u.pending = s.pending := by
  unfold execSupplyLossDeclared at ho
  dsimp only at ho
  repeat' split at ho
  all_goals simp only [Host.Outcome.next.injEq, reduceCtorEq] at ho
  all_goals (subst ho; simp)
theorem execVinReturn_frame (s : State) (u : State) (ho : execVinReturn s = .next u) : u.mem = s.mem ∧ u.pending = s.pending := by
  unfold execVinReturn at ho
  dsimp only at ho
  repeat' split at ho
  all_goals simp only [Host.Outcome.next.injEq, reduceCtorEq] at ho
  all_goals (subst ho; simp)
theorem execPfwAssert_frame (asserted : Bool) (s : State) (u : State) (ho : execPfwAssert asserted s = .next u) : (Memory.wf s.mem = true → Memory.wf u.mem = true) ∧ u.pending = s.pending := by
  unfold execPfwAssert at ho
  dsimp only at ho
  repeat' split at ho
  all_goals simp only [Host.Outcome.next.injEq, reduceCtorEq] at ho
  all_goals (subst ho; exact ⟨fun h => by simp (maxDischargeDepth := 30) [h], by simp⟩)
theorem execInternalRailFault_frame (s : State) (u : State) (ho : execInternalRailFault s = .next u) : (Memory.wf s.mem = true → Memory.wf u.mem = true) ∧ u.pending = s.pending := by
  unfold execInternalRailFault at ho
  dsimp only at ho
  repeat' split at ho
  all_goals simp only [Host.Outcome.next.injEq, reduceCtorEq] at ho
  all_goals (subst ho; exact ⟨fun h => by simp (maxDischargeDepth := 30) [h], by simp⟩)
theorem execInternalTempMeasure_frame (temps : List Int) (s : State) (u : State) (ho : execInternalTempMeasure temps s = .next u) : u.mem = s.mem ∧ u.pending = s.pending := by
  unfold execInternalTempMeasure at ho
  dsimp only at ho
  repeat' split at ho
  all_goals simp only [Host.Outcome.next.injEq, reduceCtorEq] at ho
  all_goals (subst ho; simp)
@[simp] theorem State.recovered_frame (s : State) : (State.recovered s).mem = s.mem ∧ (State.recovered s).pending = s.pending := by simp [State.recovered]
@[simp] theorem State.startComplete_frame (s : State) : (State.startComplete s).mem = s.mem ∧ (State.startComplete s).pending = s.pending := by simp [State.startComplete]
theorem execHoldupEnergyUpdate_frame (vinMv bankMv : Nat) (railsGood : Bool) (s : State) (u : State) (ho : execHoldupEnergyUpdate vinMv bankMv railsGood s = .next u) : u.mem = s.mem ∧ u.pending = s.pending := by
  unfold execHoldupEnergyUpdate at ho
  dsimp only at ho
  repeat' split at ho
  all_goals simp only [Host.Outcome.next.injEq, reduceCtorEq] at ho
  all_goals (subst ho; simp)
theorem execHoldupChargeStalled_frame (s : State) (u : State) (ho : execHoldupChargeStalled s = .next u) : u.mem = s.mem ∧ u.pending = s.pending := by
  unfold execHoldupChargeStalled at ho
  dsimp only at ho
  repeat' split at ho
  all_goals simp only [Host.Outcome.next.injEq, reduceCtorEq] at ho
  all_goals (subst ho; simp)
@[simp] theorem State.setFinding_frame (s : State) (b : Bool) : (State.setFinding s b).mem = s.mem ∧ (State.setFinding s b).pending = s.pending := ⟨rfl, rfl⟩
theorem execTimeBaseCheck_frame (ppm : Int) (s : State) (u : State) (ho : execTimeBaseCheck ppm s = .next u) : (Memory.wf s.mem = true → Memory.wf u.mem = true) ∧ u.pending = s.pending := by
  unfold execTimeBaseCheck at ho
  dsimp only at ho
  repeat' split at ho
  all_goals simp only [Host.Outcome.next.injEq, reduceCtorEq] at ho
  all_goals (subst ho; exact ⟨fun h => by simp (maxDischargeDepth := 30) [h], by simp⟩)
theorem execMtimeLoRead_frame (s : State) (u : State) (ho : execMtimeLoRead s = .next u) : u.mem = s.mem ∧ u.pending = s.pending := by
  simp only [execMtimeLoRead, Host.Outcome.next.injEq] at ho
  subst ho
  simp
theorem execUtcLoRead_frame (s : State) (u : State) (ho : execUtcLoRead s = .next u) : u.mem = s.mem ∧ u.pending = s.pending := by
  simp only [execUtcLoRead, Host.Outcome.next.injEq] at ho
  subst ho
  simp
theorem execCycleLoRead_frame (s : State) (u : State) (ho : execCycleLoRead s = .next u) : u.mem = s.mem ∧ u.pending = s.pending := by
  simp only [execCycleLoRead, Host.Outcome.next.injEq] at ho
  subst ho
  simp
theorem execCmdSeqLoRead_frame (src : Fin 64) (isIssued : Bool) (s : State) (u : State) (ho : execCmdSeqLoRead src isIssued s = .next u) : u.mem = s.mem ∧ u.pending = s.pending := by
  unfold execCmdSeqLoRead at ho
  dsimp only at ho
  repeat' split at ho
  all_goals simp only [Host.Outcome.next.injEq, reduceCtorEq] at ho
  all_goals (subst ho; simp)
theorem execUtcHoldover_frame (s : State) (u : State) (ho : execUtcHoldover s = .next u) : u.mem = s.mem ∧ u.pending = s.pending := by
  unfold execUtcHoldover at ho
  dsimp only at ho
  repeat' split at ho
  all_goals simp only [Host.Outcome.next.injEq, reduceCtorEq] at ho
  all_goals (subst ho; simp)
theorem execLeapSecond_frame (positive : Bool) (s : State) (u : State) (ho : execLeapSecond positive s = .next u) : u.mem = s.mem ∧ u.pending = s.pending := by
  unfold execLeapSecond at ho
  dsimp only at ho
  repeat' split at ho
  all_goals simp only [Host.Outcome.next.injEq, reduceCtorEq] at ho
  all_goals (subst ho; simp)
theorem execWakeTimerExpiry_frame (s : State) (u : State) (ho : execWakeTimerExpiry s = .next u) : (Memory.wf s.mem = true → Memory.wf u.mem = true) ∧ u.pending = s.pending := by
  unfold execWakeTimerExpiry at ho
  try dsimp only at ho
  repeat' split at ho
  all_goals (first | (simp only [reduceCtorEq] at ho; done) | (simp only [Host.Outcome.next.injEq] at ho; subst ho; refine ⟨fun h => ?_, ?_⟩ <;> simp (maxDischargeDepth := 30) [*]; done) | (simp only [Host.Outcome.next.injEq] at ho; subst ho; (refine ⟨fun h => ?_, ?_⟩) <;> simp (disch := ((try intros); (try dsimp only); (repeat' split) <;> (try simp (maxDischargeDepth := 30) [*]))) [*]; done) | skip)
@[simp] theorem State.hostModRequest_frame (s : State) (off : Bool) : (Memory.wf s.mem = true → Memory.wf (State.hostModRequest s off).mem = true) ∧ (State.hostModRequest s off).pending = s.pending := by
  unfold State.hostModRequest
  dsimp only
  repeat' split
  all_goals exact ⟨fun h => by simp (maxDischargeDepth := 30) [h], by simp⟩
theorem execHostOffRequest_frame (s : State) (u : State) (ho : execHostOffRequest s = .next u) : (Memory.wf s.mem = true → Memory.wf u.mem = true) ∧ u.pending = s.pending := by
  simp only [execHostOffRequest, Host.Outcome.next.injEq] at ho
  subst ho
  exact ⟨fun h => by simp [h], by simp⟩
theorem execHostOnRequest_frame (s : State) (u : State) (ho : execHostOnRequest s = .next u) : (Memory.wf s.mem = true → Memory.wf u.mem = true) ∧ u.pending = s.pending := by
  simp only [execHostOnRequest, Host.Outcome.next.injEq] at ho
  subst ho
  exact ⟨fun h => by simp [h], by simp⟩
theorem execHostRestart_frame (s : State) (u : State) (ho : execHostRestart s = .next u) : (Memory.wf s.mem = true → Memory.wf u.mem = true) ∧ u.pending = s.pending := by
  simp only [execHostRestart, Host.Outcome.next.injEq] at ho
  subst ho
  exact ⟨fun h => by simp [h], by simp⟩
theorem execStandstillInputChange_frame (asserted : Bool) (s : State) (u : State) (ho : execStandstillInputChange asserted s = .next u) : (Memory.wf s.mem = true → Memory.wf u.mem = true) ∧ u.pending = s.pending := by
  unfold execStandstillInputChange at ho
  dsimp only at ho
  repeat' split at ho
  all_goals simp only [Host.Outcome.next.injEq, reduceCtorEq] at ho
  all_goals (subst ho; exact ⟨fun h => by simp (maxDischargeDepth := 30) [h], by simp⟩)
@[simp] theorem State.judgeMotion_frame (s : State) : (State.judgeMotion s).mem = s.mem ∧ (State.judgeMotion s).pending = s.pending := by simp [State.judgeMotion]
theorem execMotionJudgement_frame (s : State) (u : State) (ho : execMotionJudgement s = .next u) : u.mem = s.mem ∧ u.pending = s.pending := by
  unfold execMotionJudgement at ho
  try dsimp only at ho
  repeat' split at ho
  all_goals (first | (simp only [reduceCtorEq] at ho; done) | (simp only [Host.Outcome.next.injEq] at ho; subst ho; simp; done) | (simp only [Host.Outcome.next.injEq] at ho; subst ho; simp (disch := ((try intros); (try dsimp only); (repeat' split) <;> (try simp (maxDischargeDepth := 30) [*]))); done) | skip)
theorem execStandstillConfirmed_frame (s : State) (u : State) (ho : execStandstillConfirmed s = .next u) : (Memory.wf s.mem = true → Memory.wf u.mem = true) ∧ u.pending = s.pending := by
  unfold execStandstillConfirmed at ho
  dsimp only at ho
  repeat' split at ho
  all_goals simp only [Host.Outcome.next.injEq, reduceCtorEq] at ho
  all_goals (subst ho; exact ⟨fun h => by simp (maxDischargeDepth := 30) [h], by simp⟩)
theorem execStabledFlushEnd_frame (s : State) (u : State) (ho : execStabledFlushEnd s = .next u) : u.mem = s.mem ∧ u.pending = s.pending := by
  unfold execStabledFlushEnd at ho
  try dsimp only at ho
  repeat' split at ho
  all_goals (first | (simp only [reduceCtorEq] at ho; done) | (simp only [Host.Outcome.next.injEq] at ho; subst ho; simp; done) | (simp only [Host.Outcome.next.injEq] at ho; subst ho; simp (disch := ((try intros); (try dsimp only); (repeat' split) <;> (try simp (maxDischargeDepth := 30) [*]))); done) | skip)
end Sys2Proof.Machine
end

