-- ==== Sys2Proof/Laws/FrameRailCommands.lean ====
section
/-!
SUPPORT. The frames of Machine/RailCommands.lean: every operation keeps the canonical form of the image memory, or leaves it alone, and
keeps the queue of waiting commands.
-/
namespace Sys2Proof.Machine
open Sys2Proof
set_option linter.all false
set_option maxRecDepth 20000
@[simp] theorem State.hostRailCmd_frame (s : State) (n : RailN) (code : RailCode) : (Memory.wf s.mem = true → Memory.wf (State.hostRailCmd s n code).mem = true) ∧ (State.hostRailCmd s n code).pending = s.pending := by
  unfold State.hostRailCmd
  dsimp only
  repeat' split
  all_goals exact ⟨fun h => by simp (maxDischargeDepth := 30) [h], by simp⟩
theorem execRailCmdOn_frame (n : RailN) (s : State) (u : State) (ho : execRailCmdOn n s = .next u) : (Memory.wf s.mem = true → Memory.wf u.mem = true) ∧ u.pending = s.pending := by
  simp only [execRailCmdOn, Host.Outcome.next.injEq] at ho
  subst ho
  exact ⟨fun h => by simp [h], by simp⟩
theorem execRailCmdOff_frame (n : RailN) (s : State) (u : State) (ho : execRailCmdOff n s = .next u) : (Memory.wf s.mem = true → Memory.wf u.mem = true) ∧ u.pending = s.pending := by
  simp only [execRailCmdOff, Host.Outcome.next.injEq] at ho
  subst ho
  exact ⟨fun h => by simp [h], by simp⟩
theorem execRailCmdClear_frame (n : RailN) (s : State) (u : State) (ho : execRailCmdClear n s = .next u) : (Memory.wf s.mem = true → Memory.wf u.mem = true) ∧ u.pending = s.pending := by
  simp only [execRailCmdClear, Host.Outcome.next.injEq] at ho
  subst ho
  exact ⟨fun h => by simp [h], by simp⟩
theorem execRailCmdRelease_frame (n : RailN) (s : State) (u : State) (ho : execRailCmdRelease n s = .next u) : (Memory.wf s.mem = true → Memory.wf u.mem = true) ∧ u.pending = s.pending := by
  simp only [execRailCmdRelease, Host.Outcome.next.injEq] at ho
  subst ho
  exact ⟨fun h => by simp [h], by simp⟩
theorem execRailCmdPark_frame (n : RailN) (s : State) (u : State) (ho : execRailCmdPark n s = .next u) : (Memory.wf s.mem = true → Memory.wf u.mem = true) ∧ u.pending = s.pending := by
  simp only [execRailCmdPark, Host.Outcome.next.injEq] at ho
  subst ho
  exact ⟨fun h => by simp [h], by simp⟩
theorem execRailCmdUnpark_frame (n : RailN) (s : State) (u : State) (ho : execRailCmdUnpark n s = .next u) : (Memory.wf s.mem = true → Memory.wf u.mem = true) ∧ u.pending = s.pending := by
  simp only [execRailCmdUnpark, Host.Outcome.next.injEq] at ho
  subst ho
  exact ⟨fun h => by simp [h], by simp⟩
theorem execComparatorCrossing_frame (i : Fin 320) (level : Int) (s : State) (u : State) (ho : execComparatorCrossing i level s = .next u) : (Memory.wf s.mem = true → Memory.wf u.mem = true) ∧ u.pending = s.pending := by
  unfold execComparatorCrossing at ho
  try dsimp only at ho
  repeat' split at ho
  all_goals (first | (simp only [reduceCtorEq] at ho; done) | (simp only [Host.Outcome.next.injEq] at ho; subst ho; refine ⟨fun h => ?_, ?_⟩ <;> simp (maxDischargeDepth := 30) [*]; done) | (simp only [Host.Outcome.next.injEq] at ho; subst ho; (refine ⟨fun h => ?_, ?_⟩) <;> simp (disch := ((try intros); (try dsimp only); (repeat' split) <;> (try simp (maxDischargeDepth := 30) [*]))) [*]; done) | skip)
theorem execRampDelayEnd_frame (n : RailN) (s : State) (u : State) (ho : execRampDelayEnd n s = .next u) : (Memory.wf s.mem = true → Memory.wf u.mem = true) ∧ u.pending = s.pending := by
  unfold execRampDelayEnd at ho
  try dsimp only at ho
  repeat' split at ho
  all_goals (first | (simp only [reduceCtorEq] at ho; done) | (simp only [Host.Outcome.next.injEq] at ho; subst ho; refine ⟨fun h => ?_, ?_⟩ <;> simp (maxDischargeDepth := 30) [*]; done) | (simp only [Host.Outcome.next.injEq] at ho; subst ho; (refine ⟨fun h => ?_, ?_⟩) <;> simp (disch := ((try intros); (try dsimp only); (repeat' split) <;> (try simp (maxDischargeDepth := 30) [*]))) [*]; done) | skip)
theorem execRampDeadline_frame (n : RailN) (s : State) (u : State) (ho : execRampDeadline n s = .next u) : (Memory.wf s.mem = true → Memory.wf u.mem = true) ∧ u.pending = s.pending := by
  unfold execRampDeadline at ho
  try dsimp only at ho
  repeat' split at ho
  all_goals (first | (simp only [reduceCtorEq] at ho; done) | (simp only [Host.Outcome.next.injEq] at ho; subst ho; refine ⟨fun h => ?_, ?_⟩ <;> simp (maxDischargeDepth := 30) [*]; done) | (simp only [Host.Outcome.next.injEq] at ho; subst ho; (refine ⟨fun h => ?_, ?_⟩) <;> simp (disch := ((try intros); (try dsimp only); (repeat' split) <;> (try simp (maxDischargeDepth := 30) [*]))) [*]; done) | skip)
theorem execPgChange_frame (n : RailN) (good : Bool) (s : State) (u : State) (ho : execPgChange n good s = .next u) : u.mem = s.mem ∧ u.pending = s.pending := by
  simp only [execPgChange, Host.Outcome.next.injEq] at ho
  subst ho
  simp
theorem execPgDelayExpiry_frame (n : RailN) (s : State) (u : State) (ho : execPgDelayExpiry n s = .next u) : (Memory.wf s.mem = true → Memory.wf u.mem = true) ∧ u.pending = s.pending := by
  unfold execPgDelayExpiry at ho
  try dsimp only at ho
  repeat' split at ho
  all_goals (first | (simp only [reduceCtorEq] at ho; done) | (simp only [Host.Outcome.next.injEq] at ho; subst ho; refine ⟨fun h => ?_, ?_⟩ <;> simp (maxDischargeDepth := 30) [*]; done) | (simp only [Host.Outcome.next.injEq] at ho; subst ho; (refine ⟨fun h => ?_, ?_⟩) <;> simp (disch := ((try intros); (try dsimp only); (repeat' split) <;> (try simp (maxDischargeDepth := 30) [*]))) [*]; done) | skip)
theorem execPgFilterExpiry_frame (n : RailN) (s : State) (u : State) (ho : execPgFilterExpiry n s = .next u) : (Memory.wf s.mem = true → Memory.wf u.mem = true) ∧ u.pending = s.pending := by
  unfold execPgFilterExpiry at ho
  dsimp only at ho
  repeat' split at ho
  all_goals simp only [Host.Outcome.next.injEq, reduceCtorEq] at ho
  all_goals (subst ho; exact ⟨fun h => by simp (maxDischargeDepth := 30) [h], by simp⟩)
theorem execDischargeTimeout_frame (n : RailN) (s : State) (u : State) (ho : execDischargeTimeout n s = .next u) : (Memory.wf s.mem = true → Memory.wf u.mem = true) ∧ u.pending = s.pending := by
  unfold execDischargeTimeout at ho
  dsimp only at ho
  repeat' split at ho
  all_goals simp only [Host.Outcome.next.injEq, reduceCtorEq] at ho
  all_goals (subst ho; exact ⟨fun h => by simp (maxDischargeDepth := 30) [h], by simp⟩)
theorem execStepDelayExpiry_frame (g : GroupN) (k : Fin 32) (s : State) (u : State) (ho : execStepDelayExpiry g k s = .next u) : (Memory.wf s.mem = true → Memory.wf u.mem = true) ∧ u.pending = s.pending := by
  unfold execStepDelayExpiry at ho
  try dsimp only at ho
  repeat' split at ho
  all_goals (first | (simp only [reduceCtorEq] at ho; done) | (simp only [Host.Outcome.next.injEq] at ho; subst ho; refine ⟨fun h => ?_, ?_⟩ <;> simp (maxDischargeDepth := 30) [*]; done) | (simp only [Host.Outcome.next.injEq] at ho; subst ho; (refine ⟨fun h => ?_, ?_⟩) <;> simp (disch := ((try intros); (try dsimp only); (repeat' split) <;> (try simp (maxDischargeDepth := 30) [*]))) [*]; done) | skip)
theorem execStepTimeout_frame (g : GroupN) (k : Fin 32) (s : State) (u : State) (ho : execStepTimeout g k s = .next u) :
    (Memory.wf s.mem = true → Memory.wf u.mem = true) ∧ u.pending = s.pending := by
  unfold execStepTimeout at ho
  dsimp only at ho
  repeat' split at ho
  all_goals (try ((simp only [Host.Outcome.next.injEq] at ho; subst ho); exact ⟨id, rfl⟩))
  all_goals
    (simp only [Host.Outcome.next.injEq] at ho; subst ho)
    refine ⟨fun h => (State.settle_frame _).1 ?_, (State.settle_frame _).2.trans ?_⟩ <;>
      first
      | rw [foldl_mem]
        all_goals first | exact h | (simp only [State.evalFails_frame]; exact h) | (intros; (repeat' split) <;> simp)
      | rw [foldl_pending]
        all_goals first | rfl | (simp only [State.evalFails_frame]; done) | (intros; (repeat' split) <;> simp)
theorem execCasInAccepted_frame (c : ChainN) (high : Bool) (s : State) (u : State) (ho : execCasInAccepted c high s = .next u) : (Memory.wf s.mem = true → Memory.wf u.mem = true) ∧ u.pending = s.pending := by
  unfold execCasInAccepted at ho
  dsimp only at ho
  repeat' split at ho
  all_goals simp only [Host.Outcome.next.injEq, reduceCtorEq] at ho
  all_goals (subst ho; exact ⟨fun h => by simp (maxDischargeDepth := 30) [h], by simp⟩)
theorem execAllowanceExpiry_frame (g : GroupN) (s : State) (u : State) (ho : execAllowanceExpiry g s = .next u) :
    (Memory.wf s.mem = true → Memory.wf u.mem = true) ∧ u.pending = s.pending := by
  unfold execAllowanceExpiry at ho
  extract_lets act at ho
  have key : ∀ (b : State) (x : Shut), (act b x).mem = b.mem ∧ (act b x).pending = b.pending := by
    intro b x
    simp only [act]
    repeat' split
    all_goals simp
  (simp only [Host.Outcome.next.injEq] at ho; subst ho)
  have h3 := foldl_keep act key s.shut.jobs s
  exact ⟨fun h => (State.settle_frame _).1 (by simp [h3, h]), by simp [h3]⟩
theorem execRetryPauseEnd_frame (s : State) (u : State) (ho : execRetryPauseEnd s = .next u) : (Memory.wf s.mem = true → Memory.wf u.mem = true) ∧ u.pending = s.pending := by
  unfold execRetryPauseEnd at ho
  dsimp only at ho
  repeat' split at ho
  all_goals simp only [Host.Outcome.next.injEq, reduceCtorEq] at ho
  all_goals (subst ho; exact ⟨fun h => by simp (maxDischargeDepth := 30) [h], by simp⟩)
theorem execRerun_frame (s : State) (u : State) (ho : execRerun s = .next u) : u.mem = s.mem ∧ u.pending = s.pending := by
  unfold execRerun at ho
  dsimp only at ho
  repeat' split at ho
  all_goals simp only [Host.Outcome.next.injEq, reduceCtorEq] at ho
  all_goals (subst ho; simp)
end Sys2Proof.Machine
end

