-- ==== Sys2Proof/Laws/FrameLocks.lean ====
section
/-!
SUPPORT. The frames of Machine/Locks.lean: every operation keeps the canonical form of the image memory, or leaves it alone, and
keeps the queue of waiting commands.
-/
namespace Sys2Proof.Machine
open Sys2Proof
set_option linter.all false
set_option maxRecDepth 20000
@[simp] theorem State.modLock_frame (s : State) (k : Fin 256) (f : LockSt → LockSt) : (State.modLock s k f).mem = s.mem ∧ (State.modLock s k f).pending = s.pending := ⟨rfl, rfl⟩
@[simp] theorem State.acquire_frame (s : State) (k : Fin 256) (w : LockOwner) : (State.acquire s k w).1.mem = s.mem ∧ (State.acquire s k w).1.pending = s.pending := by
  unfold State.acquire
  dsimp only
  repeat' split
  all_goals simp
@[simp] theorem State.release_frame (s : State) (k : Fin 256) (w : LockOwner) (clear : Bool) : (State.release s k w clear).1.mem = s.mem ∧ (State.release s k w clear).1.pending = s.pending := by
  unfold State.release
  dsimp only
  repeat' split
  all_goals simp
@[simp] theorem State.orphan_frame (s : State) (w : LockOwner) : (State.orphan s w).mem = s.mem ∧ (State.orphan s w).pending = s.pending := by simp [State.orphan]
@[simp] theorem State.unregister_frame (s : State) (w : Waiter) : (State.unregister s w).mem = s.mem ∧ (State.unregister s w).pending = s.pending := ⟨rfl, rfl⟩
@[simp] theorem State.cancelWait_frame (s : State) (t : TgtN) : (State.cancelWait s t).mem = s.mem ∧ (State.cancelWait s t).pending = s.pending := by simp [State.cancelWait]
@[simp] theorem State.riseHost_frame (s : State) (t : TgtN) : (State.riseHost s t).mem = s.mem ∧ (State.riseHost s t).pending = s.pending := by simp [State.riseHost]
@[simp] theorem State.riseHosts_frame (s : State) : (State.riseHosts s).mem = s.mem ∧ (State.riseHosts s).pending = s.pending := by simp [State.riseHosts]
@[simp] theorem State.risePair_frame (s : State) (l : LPairN) : (State.risePair s l).mem = s.mem ∧ (State.risePair s l).pending = s.pending := by simp [State.risePair]
@[simp] theorem State.lckDone_frame (s : State) (t : TgtN) (a : Ans) (q : Acq) : (State.lckDone s t a q).mem = s.mem ∧ (State.lckDone s t a q).pending = s.pending := ⟨rfl, rfl⟩
theorem execLckAcquire_frame (t : TgtN) (o : Fin 1024) (s : State) (u : State) (ho : execLckAcquire t o s = .next u) : u.mem = s.mem ∧ u.pending = s.pending := by
  unfold execLckAcquire at ho
  dsimp only at ho
  repeat' split at ho
  all_goals simp only [Host.Outcome.next.injEq, reduceCtorEq] at ho
  all_goals (subst ho; simp)
@[simp] theorem State.hostRelease_frame (s : State) (t : TgtN) (o : Fin 1024) (clear : Bool) : (State.hostRelease s t o clear).mem = s.mem ∧ (State.hostRelease s t o clear).pending = s.pending := by
  unfold State.hostRelease
  dsimp only
  repeat' split
  all_goals simp
theorem execLckRelease_frame (t : TgtN) (o : Fin 1024) (s : State) (u : State) (ho : execLckRelease t o s = .next u) : u.mem = s.mem ∧ u.pending = s.pending := by
  simp only [execLckRelease, Host.Outcome.next.injEq] at ho
  subst ho
  simp
theorem execLckReleaseClearPoison_frame (t : TgtN) (o : Fin 1024) (s : State) (u : State) (ho : execLckReleaseClearPoison t o s = .next u) : u.mem = s.mem ∧ u.pending = s.pending := by
  simp only [execLckReleaseClearPoison, Host.Outcome.next.injEq] at ho
  subst ho
  simp
theorem execSyncSignal_frame (t : TgtN) (o : Fin 1024) (s : State) (u : State) (ho : execSyncSignal t o s = .next u) : u.mem = s.mem ∧ u.pending = s.pending := by
  unfold execSyncSignal at ho
  try dsimp only at ho
  repeat' split at ho
  all_goals (first | (simp only [reduceCtorEq] at ho; done) | (simp only [Host.Outcome.next.injEq] at ho; subst ho; simp; done) | (simp only [Host.Outcome.next.injEq] at ho; subst ho; simp (disch := ((try intros); (try dsimp only); (repeat' split) <;> (try simp (maxDischargeDepth := 30) [*]))); done) | skip)
@[simp] theorem State.register_frame (s : State) (o : Fin 1024) (w : Waiter) : (State.register s o w).mem = s.mem ∧ (State.register s o w).pending = s.pending := ⟨rfl, rfl⟩
@[simp] theorem State.endRound_frame (s : State) : (State.endRound s).mem = s.mem ∧ (State.endRound s).pending = s.pending := ⟨rfl, rfl⟩
theorem execSyncWait_frame (t : TgtN) (o : Fin 1024) (notify : Fin 32) (prio : BitVec 8) (s : State) (u : State) (ho : execSyncWait t o notify prio s = .next u) : u.mem = s.mem ∧ u.pending = s.pending := by
  unfold execSyncWait at ho
  try dsimp only at ho
  repeat' split at ho
  all_goals (first | (simp only [reduceCtorEq] at ho; done) | (simp only [Host.Outcome.next.injEq] at ho; subst ho; simp; done) | (simp only [Host.Outcome.next.injEq] at ho; subst ho; simp (disch := ((try intros); (try dsimp only); (repeat' split) <;> (try simp (maxDischargeDepth := 30) [*]))); done) | skip)
theorem execSyncCancelWait_frame (t : TgtN) (s : State) (u : State) (ho : execSyncCancelWait t s = .next u) : u.mem = s.mem ∧ u.pending = s.pending := by
  unfold execSyncCancelWait at ho
  try dsimp only at ho
  repeat' split at ho
  all_goals (first | (simp only [reduceCtorEq] at ho; done) | (simp only [Host.Outcome.next.injEq] at ho; subst ho; simp; done) | (simp only [Host.Outcome.next.injEq] at ho; subst ho; simp (disch := ((try intros); (try dsimp only); (repeat' split) <;> (try simp (maxDischargeDepth := 30) [*]))); done) | skip)
theorem execResetEpoch_frame (t : TgtN) (s : State) (u : State) (ho : execResetEpoch t s = .next u) : u.mem = s.mem ∧ u.pending = s.pending := by
  simp only [execResetEpoch, Host.Outcome.next.injEq] at ho
  subst ho
  simp
theorem execSyncTimerSignal_frame (o : Fin 1024) (s : State) (u : State) (ho : execSyncTimerSignal o s = .next u) : u.mem = s.mem ∧ u.pending = s.pending := by
  unfold execSyncTimerSignal at ho
  try dsimp only at ho
  repeat' split at ho
  all_goals (first | (simp only [reduceCtorEq] at ho; done) | (simp only [Host.Outcome.next.injEq] at ho; subst ho; simp; done) | (simp only [Host.Outcome.next.injEq] at ho; subst ho; simp (disch := ((try intros); (try dsimp only); (repeat' split) <;> (try simp (maxDischargeDepth := 30) [*]))); done) | skip)
@[simp] theorem State.detect_frame (s : State) : (s.detect).mem = s.mem ∧ (s.detect).pending = s.pending := by
  unfold State.detect
  extract_lets d0
  split
  · exact ⟨rfl, rfl⟩
  · rename_i v _
    extract_lets s1 host num src s2
    have h1 : s1.mem = s.mem ∧ s1.pending = s.pending := by
      have := State.completeWait_frame (s.unregister v.who) (fun s n => s.raise n) (fun s n => by simp) v.who true
      simpa using this
    have h2 : s2.mem = s.mem ∧ s2.pending = s.pending := h1
    clear_value s2
    simp [h2]
end Sys2Proof.Machine
end

