-- ==== Sys2Proof/Laws/FrameMargin.lean ====
section
/-!
SUPPORT. The frames of Machine/Margin.lean: every operation keeps the canonical form of the image memory, or leaves it alone, and
keeps the queue of waiting commands.
-/
namespace Sys2Proof.Machine
open Sys2Proof
set_option linter.all false
set_option maxRecDepth 20000
@[simp] theorem State.slew_frame (s : State) (n : RailN) : (State.slew s n).mem = s.mem ∧ (State.slew s n).pending = s.pending := by
  unfold State.slew
  dsimp only
  repeat' split
  all_goals simp
@[simp] theorem State.marginAnswer_frame (s : State) (src : Src) (n : RailN) (a : Ans) : (State.marginAnswer s src n a).mem = s.mem ∧ (State.marginAnswer s src n a).pending = s.pending := by
  unfold State.marginAnswer
  dsimp only
  repeat' split
  all_goals simp
@[simp] theorem State.judgeHold_frame (s : State) (src : Src) (n : RailN) (off : Int) : (State.judgeHold s src n off).mem = s.mem ∧ (State.judgeHold s src n off).pending = s.pending := by
  unfold State.judgeHold
  dsimp only
  repeat' split
  all_goals simp
@[simp] theorem State.judgeEnd_frame (s : State) (src : Src) (n : RailN) : (State.judgeEnd s src n).mem = s.mem ∧ (State.judgeEnd s src n).pending = s.pending := by simp [State.judgeEnd]
@[simp] theorem State.judgeMargin_frame (s : State) (n : RailN) (reqs : List MarginReq) : (State.judgeMargin s n reqs).mem = s.mem ∧ (State.judgeMargin s n reqs).pending = s.pending := by
  unfold State.judgeMargin
  dsimp only
  repeat' split
  all_goals simp
@[simp] theorem State.judgeMargins_frame (s : State) : (State.judgeMargins s).mem = s.mem ∧ (State.judgeMargins s).pending = s.pending := by
  unfold State.judgeMargins
  try dsimp only
  repeat' split
  all_goals (try simp)
  all_goals (try simp (disch := ((try intros); (try dsimp only); (repeat' split) <;> (try simp (maxDischargeDepth := 30) [*]))))
@[simp] theorem State.hostMargin_frame (s : State) (n : RailN) (target : Option Int) : (State.hostMargin s n target).mem = s.mem ∧ (State.hostMargin s n target).pending = s.pending := by simp [State.hostMargin]
theorem execMarginHold_frame (n : RailN) (target : BitVec 8) (s : State) (u : State) (ho : execMarginHold n target s = .next u) : u.mem = s.mem ∧ u.pending = s.pending := by
  simp only [execMarginHold, Host.Outcome.next.injEq] at ho
  subst ho
  simp
theorem execMarginEnd_frame (n : RailN) (s : State) (u : State) (ho : execMarginEnd n s = .next u) : u.mem = s.mem ∧ u.pending = s.pending := by
  simp only [execMarginEnd, Host.Outcome.next.injEq] at ho
  subst ho
  simp
theorem execMarginSlewStep_frame (n : RailN) (s : State) (u : State) (ho : execMarginSlewStep n s = .next u) : u.mem = s.mem ∧ u.pending = s.pending := by
  unfold execMarginSlewStep at ho
  dsimp only at ho
  repeat' split at ho
  all_goals simp only [Host.Outcome.next.injEq, reduceCtorEq] at ho
  all_goals (subst ho; simp)
theorem execHoldExpired_frame (n : RailN) (s : State) (u : State) (ho : execHoldExpired n s = .next u) : u.mem = s.mem ∧ u.pending = s.pending := by
  unfold execHoldExpired at ho
  dsimp only at ho
  repeat' split at ho
  all_goals simp only [Host.Outcome.next.injEq, reduceCtorEq] at ho
  all_goals (subst ho; simp)
theorem execTrimClipped_frame (n : RailN) (clipped : Bool) (s : State) (u : State) (ho : execTrimClipped n clipped s = .next u) : u.mem = s.mem ∧ u.pending = s.pending := by
  unfold execTrimClipped at ho
  dsimp only at ho
  repeat' split at ho
  all_goals simp only [Host.Outcome.next.injEq, reduceCtorEq] at ho
  all_goals (subst ho; simp)
@[simp] theorem State.startProbe_frame (s : State) (n : RailN) (code : Int) : (State.startProbe s n code).mem = s.mem ∧ (State.startProbe s n code).pending = s.pending := by
  unfold State.startProbe
  dsimp only
  repeat' split
  all_goals simp
@[simp] theorem State.probePass_frame (s : State) : (State.probePass s).mem = s.mem ∧ (State.probePass s).pending = s.pending := by
  unfold State.probePass
  dsimp only
  repeat' split
  all_goals simp
theorem execProbeAbortAll_frame (s : State) (u : State) (ho : execProbeAbortAll s = .next u) : u.mem = s.mem ∧ u.pending = s.pending := by
  simp only [execProbeAbortAll, Host.Outcome.next.injEq] at ho
  subst ho
  simp
theorem execProbeRequest_frame (n : RailN) (s : State) (u : State) (ho : execProbeRequest n s = .next u) : u.mem = s.mem ∧ u.pending = s.pending := by
  simp only [execProbeRequest, Host.Outcome.next.injEq] at ho
  subst ho
  simp
theorem execProbeStepApply_frame (n : RailN) (s : State) (u : State) (ho : execProbeStepApply n s = .next u) : u.mem = s.mem ∧ u.pending = s.pending := by
  unfold execProbeStepApply at ho
  dsimp only at ho
  repeat' split at ho
  all_goals simp only [Host.Outcome.next.injEq, reduceCtorEq] at ho
  all_goals (subst ho; simp)
theorem execProbeHoldEnd_frame (n : RailN) (s : State) (u : State) (ho : execProbeHoldEnd n s = .next u) : u.mem = s.mem ∧ u.pending = s.pending := by
  unfold execProbeHoldEnd at ho
  dsimp only at ho
  repeat' split at ho
  all_goals simp only [Host.Outcome.next.injEq, reduceCtorEq] at ho
  all_goals (subst ho; simp)
@[simp] theorem State.probeResult_frame (s : State) (n : RailN) : (State.probeResult s n).mem = s.mem ∧ (State.probeResult s n).pending = s.pending := by
  unfold State.probeResult
  dsimp only
  repeat' split
  all_goals simp
@[simp] theorem State.probeResults_frame (s : State) : (State.probeResults s).mem = s.mem ∧ (State.probeResults s).pending = s.pending := by simp [State.probeResults]
end Sys2Proof.Machine
end

