-- ==== Sys2Proof/Laws/FrameScan.lean ====
section
/-!
SUPPORT. The frames of Machine/Scan.lean: every operation keeps the canonical form of the image memory, or leaves it alone, and
keeps the queue of waiting commands.
-/
namespace Sys2Proof.Machine
open Sys2Proof
set_option linter.all false
set_option maxRecDepth 20000
@[simp] theorem State.settleAll_frame (s : State) (c : ConvN) (k : Nat) : (State.settleAll s c k).mem = s.mem ∧ (State.settleAll s c k).pending = s.pending := by simp [State.settleAll]
@[simp] theorem State.leaveList_frame (s : State) (c : ConvN) (st : ConvState) : (State.leaveList s c st).mem = s.mem ∧ (State.leaveList s c st).pending = s.pending := by simp [State.leaveList]
@[simp] theorem State.leaveNow_frame (s : State) (c : ConvN) : (State.leaveNow s c).mem = s.mem ∧ (State.leaveNow s c).pending = s.pending := by
  unfold State.leaveNow
  dsimp only
  repeat' split
  all_goals simp
@[simp] theorem State.restartList_frame (s : State) (o : ConvN) : (State.restartList s o).mem = s.mem ∧ (State.restartList s o).pending = s.pending := by simp [State.restartList]
@[simp] theorem State.powerMode_frame (s : State) (c : ConvN) : (State.powerMode s c).mem = s.mem ∧ (State.powerMode s c).pending = s.pending := by simp [State.powerMode]
@[simp] theorem State.beginSlot_frame (s : State) (c : ConvN) (own : Bool) : (State.beginSlot s c own).mem = s.mem ∧ (State.beginSlot s c own).pending = s.pending := ⟨rfl, rfl⟩
@[simp] theorem State.join_frame (s : State) (c : ConvN) : (State.join s c).mem = s.mem ∧ (State.join s c).pending = s.pending := by simp [State.join]
@[simp] theorem State.boundary_frame (s : State) (c : ConvN) : (State.boundary s c).mem = s.mem ∧ (State.boundary s c).pending = s.pending := by
  unfold State.boundary
  dsimp only
  repeat' split
  all_goals simp
@[simp] theorem State.reRun_frame (s : State) (c : ConvN) : (State.reRun s c).mem = s.mem ∧ (State.reRun s c).pending = s.pending := by
  unfold State.reRun
  dsimp only
  repeat' split
  all_goals simp
@[simp] theorem State.advance_frame (s : State) (c o : ConvN) (ovr : Bool) : (State.advance s c o ovr).mem = s.mem ∧ (State.advance s c o ovr).pending = s.pending := by simp [State.advance]
@[simp] theorem State.railResult_frame (s : State) (e : CScanEntry) (r : Res) (pass : Nat) : (State.railResult s e r pass).mem = s.mem ∧ (State.railResult s e r pass).pending = s.pending := by
  unfold State.railResult
  dsimp only
  repeat' split
  all_goals simp
theorem execScanSlotEnd_frame (c : ConvN) (x : Int) (s : State) (u : State) (ho : execScanSlotEnd c x s = .next u) : (Memory.wf s.mem = true → Memory.wf u.mem = true) ∧ u.pending = s.pending := by
  unfold execScanSlotEnd at ho
  dsimp only at ho
  repeat' split at ho
  all_goals simp only [Host.Outcome.next.injEq, reduceCtorEq] at ho
  all_goals (subst ho; exact ⟨fun h => by simp (maxDischargeDepth := 30) [h], by simp⟩)
theorem execCalibrationDue_frame (c : ConvN) (s : State) (u : State) (ho : execCalibrationDue c s = .next u) : u.mem = s.mem ∧ u.pending = s.pending := by
  simp only [execCalibrationDue, Host.Outcome.next.injEq] at ho
  subst ho
  simp
theorem execCalOverdue_frame (c : ConvN) (s : State) (u : State) (ho : execCalOverdue c s = .next u) : u.mem = s.mem ∧ u.pending = s.pending := by
  unfold execCalOverdue at ho
  try dsimp only at ho
  repeat' split at ho
  all_goals (first | (simp only [reduceCtorEq] at ho; done) | (simp only [Host.Outcome.next.injEq] at ho; subst ho; simp; done) | (simp only [Host.Outcome.next.injEq] at ho; subst ho; simp (disch := ((try intros); (try dsimp only); (repeat' split) <;> (try simp (maxDischargeDepth := 30) [*]))); done) | skip)
@[simp] theorem State.convFail_frame (s : State) (c : ConvN) : (State.convFail s c).mem = s.mem ∧ (State.convFail s c).pending = s.pending := by simp [State.convFail]
theorem execCalibrationDone_frame (c : ConvN) (gain offset : Int) (agree : Bool) (s : State) (u : State) (ho : execCalibrationDone c gain offset agree s = .next u) : u.mem = s.mem ∧ u.pending = s.pending := by
  unfold execCalibrationDone at ho
  dsimp only at ho
  repeat' split at ho
  all_goals simp only [Host.Outcome.next.injEq, reduceCtorEq] at ho
  all_goals (subst ho; simp)
@[simp] theorem State.convAnswer_frame (s : State) (c : ConvN) (a : Ans) : (State.convAnswer s c a).mem = s.mem ∧ (State.convAnswer s c a).pending = s.pending := ⟨rfl, rfl⟩
theorem execConverterOut_frame (c : ConvN) (s : State) (u : State) (ho : execConverterOut c s = .next u) : u.mem = s.mem ∧ u.pending = s.pending := by
  unfold execConverterOut at ho
  dsimp only at ho
  repeat' split at ho
  all_goals simp only [Host.Outcome.next.injEq, reduceCtorEq] at ho
  all_goals (subst ho; simp)
theorem execConverterIn_frame (c : ConvN) (s : State) (u : State) (ho : execConverterIn c s = .next u) : u.mem = s.mem ∧ u.pending = s.pending := by
  unfold execConverterIn at ho
  try dsimp only at ho
  repeat' split at ho
  all_goals (first | (simp only [reduceCtorEq] at ho; done) | (simp only [Host.Outcome.next.injEq] at ho; subst ho; simp; done) | (simp only [Host.Outcome.next.injEq] at ho; subst ho; simp (disch := ((try intros); (try dsimp only); (repeat' split) <;> (try simp (maxDischargeDepth := 30) [*]))); done) | skip)
theorem execConverterCalibrate_frame (c : ConvN) (s : State) (u : State) (ho : execConverterCalibrate c s = .next u) : u.mem = s.mem ∧ u.pending = s.pending := by
  unfold execConverterCalibrate at ho
  dsimp only at ho
  repeat' split at ho
  all_goals simp only [Host.Outcome.next.injEq, reduceCtorEq] at ho
  all_goals (subst ho; simp)
theorem execSnapshotTriggerCmd_frame (s : State) (u : State) (ho : execSnapshotTriggerCmd s = .next u) : u.mem = s.mem ∧ u.pending = s.pending := by
  unfold execSnapshotTriggerCmd at ho
  dsimp only at ho
  repeat' split at ho
  all_goals simp only [Host.Outcome.next.injEq, reduceCtorEq] at ho
  all_goals (subst ho; simp)
theorem execSnapshotBurstEnd_frame (samples : List (List (Option Int))) (s : State) (u : State) (ho : execSnapshotBurstEnd samples s = .next u) : u.mem = s.mem ∧ u.pending = s.pending := by
  unfold execSnapshotBurstEnd at ho
  dsimp only at ho
  repeat' split at ho
  all_goals simp only [Host.Outcome.next.injEq, reduceCtorEq] at ho
  all_goals (subst ho; simp)
theorem execProbeSnapshotEnd_frame (n : RailN) (samples : List (Option Int)) (s : State) (u : State) (ho : execProbeSnapshotEnd n samples s = .next u) : u.mem = s.mem ∧ u.pending = s.pending := by
  unfold execProbeSnapshotEnd at ho
  dsimp only at ho
  repeat' split at ho
  all_goals simp only [Host.Outcome.next.injEq, reduceCtorEq] at ho
  all_goals (subst ho; simp)
theorem execScnResRead_frame (r : Fin 1024) (s : State) (u : State) (ho : execScnResRead r s = .next u) : u.mem = s.mem ∧ u.pending = s.pending := by
  simp only [execScnResRead, Host.Outcome.next.injEq] at ho
  subst ho
  simp
@[simp] theorem State.s0Effect_frame (s : State) : (State.s0Effect s).mem = s.mem ∧ (State.s0Effect s).pending = s.pending := by
  unfold State.s0Effect
  dsimp only
  repeat' split
  all_goals simp
@[simp] theorem State.smpDeclared_frame (s : State) (j : Fin 16) (t : SmpThr) : (Memory.wf s.mem = true → Memory.wf (State.smpDeclared s j t).mem = true) ∧ (State.smpDeclared s j t).pending = s.pending := by
  unfold State.smpDeclared
  dsimp only
  repeat' split
  all_goals exact ⟨fun h => by simp (maxDischargeDepth := 30) [h], by simp⟩
@[simp] theorem State.smpEnded_frame (s : State) (j : Fin 16) : (State.smpEnded s j).mem = s.mem ∧ (State.smpEnded s j).pending = s.pending := by
  unfold State.smpEnded
  dsimp only
  repeat' split
  all_goals simp
@[simp] theorem State.sampleOne_frame (s : State) (j : Fin 16) (x : Int) : (Memory.wf s.mem = true → Memory.wf (State.sampleOne s j x).mem = true) ∧ (State.sampleOne s j x).pending = s.pending := by
  unfold State.sampleOne
  dsimp only
  repeat' split
  all_goals exact ⟨fun h => by simp (maxDischargeDepth := 30) [h], by simp⟩
theorem execSampledSampling_frame (levels : List Int) (s : State) (u : State) (ho : execSampledSampling levels s = .next u) :
    (Memory.wf s.mem = true → Memory.wf u.mem = true) ∧ u.pending = s.pending := by
  unfold execSampledSampling at ho
  split at ho
  · simp only [reduceCtorEq] at ho
  split at ho
  · (simp only [Host.Outcome.next.injEq] at ho; subst ho); exact ⟨id, rfl⟩
  extract_lets one all s1 at ho
  have hone : ∀ (s : State) (p : Fin 16 × Int), (Memory.wf s.mem = true → Memory.wf (one s p).mem = true) ∧ (one s p).pending = s.pending := by
    intro s p
    simp only [one]
    split
    · exact ⟨id, rfl⟩
    · exact ⟨(State.sampleOne_frame _ _ _).1, (State.sampleOne_frame _ _ _).2⟩
  have hf : ∀ (l : List (Fin 16 × Int)) (s : State), (Memory.wf s.mem = true → Memory.wf (l.foldl one s).mem = true) ∧
      (l.foldl one s).pending = s.pending := by
    intro l
    induction l with
    | nil => exact fun s => ⟨id, rfl⟩
    | cons a l ih => exact fun s => ⟨fun h => (ih _).1 ((hone s a).1 h), (ih _).2.trans (hone s a).2⟩
  clear_value one
  have h1 : (Memory.wf s.mem = true → Memory.wf s1.mem = true) ∧ s1.pending = s.pending :=
    ⟨fun h => by rw [(State.s0Effect_frame _).1]; exact (hf _ s).1 h, (State.s0Effect_frame _).2.trans (hf _ s).2⟩
  clear_value s1
  (simp only [Host.Outcome.next.injEq] at ho; subst ho)
  exact ⟨fun h => (hf _ s1).1 (h1.1 h), (hf _ s1).2.trans h1.2⟩
end Sys2Proof.Machine
end

