-- ==== Sys2Proof/Laws/FrameHeadstock.lean ====
section
/-!
SUPPORT. The frames of Machine/Headstock.lean: every operation keeps the canonical form of the image memory, or leaves it alone, and
keeps the queue of waiting commands.
-/
namespace Sys2Proof.Machine
open Sys2Proof
set_option linter.all false
set_option maxRecDepth 20000
@[simp] theorem State.sampleLoad_frame (s : State) : (State.sampleLoad s).mem = s.mem ∧ (State.sampleLoad s).pending = s.pending := ⟨rfl, rfl⟩
@[simp] theorem State.setLevel_frame (s : State) (l : Level) : (State.setLevel s l).mem = s.mem ∧ (State.setLevel s l).pending = s.pending := by simp [State.setLevel]
@[simp] theorem State.judgeLevel_frame (s : State) (target hystTarget : Level) (upHold : Nat) : (State.judgeLevel s target hystTarget upHold).mem = s.mem ∧ (State.judgeLevel s target hystTarget upHold).pending = s.pending := by
  unfold State.judgeLevel
  dsimp only
  repeat' split
  all_goals simp
@[simp] theorem State.thermStep_frame (s : State) (h : Fin 8) : (State.thermStep s h).mem = s.mem ∧ (State.thermStep s h).pending = s.pending := by
  unfold State.thermStep
  dsimp only
  repeat' split
  all_goals simp
@[simp] theorem State.shareEnergy_frame (s : State) (d : Fin 16) : (State.shareEnergy s d).mem = s.mem ∧ (State.shareEnergy s d).pending = s.pending := by
  unfold State.shareEnergy
  dsimp only
  repeat' split
  all_goals simp
@[simp] theorem State.showHorizon_frame (s : State) (h : CHds) (meas : List Nat) (pMod : Nat) : (State.showHorizon s h meas pMod).mem = s.mem ∧ (State.showHorizon s h meas pMod).pending = s.pending := ⟨rfl, rfl⟩
@[simp] theorem State.refill_frame (s : State) : (State.refill s).mem = s.mem ∧ (State.refill s).pending = s.pending := by
  unfold State.refill
  dsimp only
  repeat' split
  all_goals simp
theorem execLevelRecompute_frame (x : Marker) (pMod : Nat) (s : State) (u : State) (ho : execLevelRecompute x pMod s = .next u) :
    u.mem = s.mem ∧ u.pending = s.pending := by
  unfold execLevelRecompute at ho
  split at ho
  · (simp only [Host.Outcome.next.injEq] at ho; subst ho); exact ⟨rfl, rfl⟩
  extract_lets src s0 meas hp s1 at ho
  have h1 : s1.mem = s.mem ∧ s1.pending = s.pending := by
    have h0 : s0.mem = s.mem ∧ s0.pending = s.pending := by simp [s0]
    clear_value s0
    simp only [s1, State.judgeLevel_frame, h0, and_self]
  clear_value s1
  split at ho
  · (simp only [Host.Outcome.next.injEq] at ho; subst ho); exact h1
  · (simp only [Host.Outcome.next.injEq] at ho; subst ho); simp [h1]
theorem execBatteryWrite_frame (joules : Word) (s : State) (u : State) (ho : execBatteryWrite joules s = .next u) : u.mem = s.mem ∧ u.pending = s.pending := by
  simp only [execBatteryWrite, Host.Outcome.next.injEq] at ho
  subst ho
  simp
theorem execBatteryTimeout_frame (s : State) (u : State) (ho : execBatteryTimeout s = .next u) : u.mem = s.mem ∧ u.pending = s.pending := by
  unfold execBatteryTimeout at ho
  dsimp only at ho
  repeat' split at ho
  all_goals simp only [Host.Outcome.next.injEq, reduceCtorEq] at ho
  all_goals (subst ho; simp)
@[simp] theorem State.withdrawDown_frame (s : State) (q : QueueN) : (State.withdrawDown s q).mem = s.mem ∧ (State.withdrawDown s q).pending = s.pending := by
  unfold State.withdrawDown
  dsimp only
  repeat' split
  all_goals simp
@[simp] theorem State.pushTask_frame (s : State) (q : QueueN) (c : CQueue) (w : Word) : (State.pushTask s q c w).mem = s.mem ∧ (State.pushTask s q c w).pending = s.pending := by simp [State.pushTask]
@[simp] theorem State.pushHost_frame (s : State) (q : QueueN) (w : Word) : (State.pushHost s q w).mem = s.mem ∧ (State.pushHost s q w).pending = s.pending := by simp [State.pushHost]
theorem execQueuePush_frame (q : QueueN) (w : Word) (s : State) (u : State) (ho : execQueuePush q w s = .next u) : u.mem = s.mem ∧ u.pending = s.pending := by
  unfold execQueuePush at ho
  try dsimp only at ho
  repeat' split at ho
  all_goals (first | (simp only [reduceCtorEq] at ho; done) | (simp only [Host.Outcome.next.injEq] at ho; subst ho; simp; done) | (simp only [Host.Outcome.next.injEq] at ho; subst ho; simp (disch := ((try intros); (try dsimp only); (repeat' split) <;> (try simp (maxDischargeDepth := 30) [*]))); done) | skip)
theorem execQueueComplete_frame (q : QueueN) (index : BitVec 16) (aborted : Bool) (s : State) (u : State) (ho : execQueueComplete q index aborted s = .next u) : u.mem = s.mem ∧ u.pending = s.pending := by
  unfold execQueueComplete at ho
  try dsimp only at ho
  repeat' split at ho
  all_goals (first | (simp only [reduceCtorEq] at ho; done) | (simp only [Host.Outcome.next.injEq] at ho; subst ho; simp; done) | (simp only [Host.Outcome.next.injEq] at ho; subst ho; simp (disch := ((try intros); (try dsimp only); (repeat' split) <;> (try simp (maxDischargeDepth := 30) [*]))); done) | skip)
theorem execQueueCancel_frame (q : QueueN) (index : BitVec 16) (s : State) (u : State) (ho : execQueueCancel q index s = .next u) : u.mem = s.mem ∧ u.pending = s.pending := by
  unfold execQueueCancel at ho
  try dsimp only at ho
  repeat' split at ho
  all_goals (first | (simp only [reduceCtorEq] at ho; done) | (simp only [Host.Outcome.next.injEq] at ho; subst ho; simp; done) | (simp only [Host.Outcome.next.injEq] at ho; subst ho; simp (disch := ((try intros); (try dsimp only); (repeat' split) <;> (try simp (maxDischargeDepth := 30) [*]))); done) | skip)
theorem execQueueFlush_frame (s : State) (u : State) (ho : execQueueFlush s = .next u) : u.mem = s.mem ∧ u.pending = s.pending := by
  simp only [execQueueFlush, Host.Outcome.next.injEq] at ho
  subst ho
  simp
theorem execDescriptorReadDone_frame (q : QueueN) (est : Word) (s : State) (u : State) (ho : execDescriptorReadDone q est s = .next u) : u.mem = s.mem ∧ u.pending = s.pending := by
  unfold execDescriptorReadDone at ho
  try dsimp only at ho
  repeat' split at ho
  all_goals (first | (simp only [reduceCtorEq] at ho; done) | (simp only [Host.Outcome.next.injEq] at ho; subst ho; simp; done) | (simp only [Host.Outcome.next.injEq] at ho; subst ho; simp (disch := ((try intros); (try dsimp only); (repeat' split) <;> (try simp (maxDischargeDepth := 30) [*]))); done) | skip)
@[simp] theorem State.cancelItem_frame (s : State) (q : QueueN) (i : Nat) : (State.cancelItem s q i).mem = s.mem ∧ (State.cancelItem s q i).pending = s.pending := by
  unfold State.cancelItem
  dsimp only
  repeat' split
  all_goals simp
@[simp] theorem State.applyCancels_frame (s : State) (qs : List (QueueN × CQueue)) : (State.applyCancels s qs).mem = s.mem ∧ (State.applyCancels s qs).pending = s.pending := by simp [State.applyCancels]
@[simp] theorem State.noteDenials_frame (s : State) (l : List Judged) : (State.noteDenials s l).mem = s.mem ∧ (State.noteDenials s l).pending = s.pending := by simp [State.noteDenials]
@[simp] theorem State.noteMissed_frame (s : State) (qs : List (QueueN × CQueue)) : (State.noteMissed s qs).mem = s.mem ∧ (State.noteMissed s qs).pending = s.pending := by
  unfold State.noteMissed
  try dsimp only
  repeat' split
  all_goals (try simp)
  all_goals (try simp (disch := ((try intros); (try dsimp only); (repeat' split) <;> (try simp (maxDischargeDepth := 30) [*]))))
@[simp] theorem State.dispatch_frame (s : State) (j : Judged) : (State.dispatch s j).mem = s.mem ∧ (State.dispatch s j).pending = s.pending := by
  unfold State.dispatch
  dsimp only
  repeat' split
  all_goals simp
@[simp] theorem State.domWake_frame (s : State) (d : Fin 16) : (State.domWake s d).mem = s.mem ∧ (State.domWake s d).pending = s.pending := by
  unfold State.domWake
  dsimp only
  repeat' split
  all_goals simp
theorem execDispatchRound_frame (s : State) (u : State) (ho : execDispatchRound s = .next u) : u.mem = s.mem ∧ u.pending = s.pending := by
  unfold execDispatchRound at ho
  dsimp only at ho
  repeat' split at ho
  all_goals simp only [Host.Outcome.next.injEq, reduceCtorEq] at ho
  all_goals (subst ho; simp)
theorem execDomainIdleTimeout_frame (d : Fin 16) (s : State) (u : State) (ho : execDomainIdleTimeout d s = .next u) : u.mem = s.mem ∧ u.pending = s.pending := by
  unfold execDomainIdleTimeout at ho
  dsimp only at ho
  repeat' split at ho
  all_goals simp only [Host.Outcome.next.injEq, reduceCtorEq] at ho
  all_goals (subst ho; simp)
@[simp] theorem State.losesUnused_frame (s : State) (old : Option CHds) (used : Fin 16 → Bool) : (State.losesUnused s old used).mem = s.mem ∧ (State.losesUnused s old used).pending = s.pending := by simp [State.losesUnused]
@[simp] theorem State.landHds_frame (s : State) (old : Option CHds) :
    (s.landHds old).mem = s.mem ∧ (s.landHds old).pending = s.pending := by
  unfold State.landHds
  split
  · exact ⟨rfl, rfl⟩
  · extract_lets before used s1 src s2
    have h1 : s1.mem = s.mem ∧ s1.pending = s.pending := by
      have h0 : s1.mem = (s.losesUnused old used).mem ∧ s1.pending = (s.losesUnused old used).pending :=
        foldl_keep _ (fun s y => by simp) _ _
      simpa using h0
    have h2 : s2.mem = s1.mem ∧ s2.pending = s1.pending := ⟨rfl, rfl⟩
    clear_value s2 s1
    simp [h2, h1]
@[simp] theorem State.loadHds_frame (s : State) (first : Bool) : (State.loadHds s first).mem = s.mem ∧ (State.loadHds s first).pending = s.pending := by
  unfold State.loadHds
  try dsimp only
  repeat' split
  all_goals (try simp)
  all_goals (try simp (disch := ((try intros); (try dsimp only); (repeat' split) <;> (try simp (maxDischargeDepth := 30) [*]))))
end Sys2Proof.Machine
end

