-- ==== Sys2Proof/Laws/FrameField.lean ====
section
/-!
SUPPORT. The frames of Machine/Field.lean: every operation keeps the canonical form of the image memory, or leaves it alone, and
keeps the queue of waiting commands.
-/
namespace Sys2Proof.Machine
open Sys2Proof
set_option linter.all false
set_option maxRecDepth 20000
@[simp] theorem State.modPoint_frame (s : State) (p : PointN) (f : Point → Point) : (State.modPoint s p f).mem = s.mem ∧ (State.modPoint s p f).pending = s.pending := ⟨rfl, rfl⟩
@[simp] theorem State.modFGroup_frame (s : State) (g : Fin 8) (f : FGroup → FGroup) : (State.modFGroup s g f).mem = s.mem ∧ (State.modFGroup s g f).pending = s.pending := ⟨rfl, rfl⟩
theorem execFieldSample_frame (g : Fin 8) (contacts : BitVec 16) (current : Nat) (s : State) (u : State)
    (ho : execFieldSample g contacts current s = .next u) :
    (Memory.wf s.mem = true → Memory.wf u.mem = true) ∧ u.pending = s.pending := by
  unfold execFieldSample at ho
  dsimp only at ho
  repeat' split at ho
  all_goals simp only [Host.Outcome.next.injEq] at ho
  all_goals subst ho
  all_goals first
    | exact ⟨id, rfl⟩
    | (have hk := State.settle_frame
       refine ⟨fun h => (State.settle_frame _).1 ?_, (State.settle_frame _).2.trans ?_⟩ <;>
         first
         | rw [foldl_mem]
           · simp [h]
           · intros
             repeat' split
             all_goals simp
         | rw [foldl_pending]
           · simp
           · intros
             repeat' split
             all_goals simp)
theorem execSilentLogicExpiry_frame (p : PointN) (s : State) (u : State) (ho : execSilentLogicExpiry p s = .next u) : u.mem = s.mem ∧ u.pending = s.pending := by
  unfold execSilentLogicExpiry at ho
  dsimp only at ho
  repeat' split at ho
  all_goals simp only [Host.Outcome.next.injEq, reduceCtorEq] at ho
  all_goals (subst ho; simp)
@[simp] theorem State.clearInputs_frame (s : State) (g : Fin 8) : (State.clearInputs s g).mem = s.mem ∧ (State.clearInputs s g).pending = s.pending := by simp [State.clearInputs]
theorem execGroupSupplyLost_frame (g : Fin 8) (s : State) (u : State) (ho : execGroupSupplyLost g s = .next u) : (Memory.wf s.mem = true → Memory.wf u.mem = true) ∧ u.pending = s.pending := by
  unfold execGroupSupplyLost at ho
  dsimp only at ho
  repeat' split at ho
  all_goals simp only [Host.Outcome.next.injEq, reduceCtorEq] at ho
  all_goals (subst ho; exact ⟨fun h => by simp (maxDischargeDepth := 30) [h], by simp⟩)
theorem execGroupSupplyReturned_frame (g : Fin 8) (s : State) (u : State) (ho : execGroupSupplyReturned g s = .next u) : (Memory.wf s.mem = true → Memory.wf u.mem = true) ∧ u.pending = s.pending := by
  unfold execGroupSupplyReturned at ho
  dsimp only at ho
  repeat' split at ho
  all_goals simp only [Host.Outcome.next.injEq, reduceCtorEq] at ho
  all_goals (subst ho; exact ⟨fun h => by simp (maxDischargeDepth := 30) [h], by simp⟩)
@[simp] theorem State.fieldCheckEnd_frame (s : State) : (State.fieldCheckEnd s).mem = s.mem ∧ (State.fieldCheckEnd s).pending = s.pending := by simp [State.fieldCheckEnd]
theorem execGroupOverload_frame (g : Fin 8) (s : State) (u : State) (ho : execGroupOverload g s = .next u) : u.mem = s.mem ∧ u.pending = s.pending := by
  unfold execGroupOverload at ho
  try dsimp only at ho
  repeat' split at ho
  all_goals (first | (simp only [reduceCtorEq] at ho; done) | (simp only [Host.Outcome.next.injEq] at ho; subst ho; simp; done) | (simp only [Host.Outcome.next.injEq] at ho; subst ho; simp (disch := ((try intros); (try dsimp only); (repeat' split) <;> (try simp (maxDischargeDepth := 30) [*]))); done) | skip)
theorem execPointOverload_frame (p : PointN) (thermal : Bool) (s : State) (u : State) (ho : execPointOverload p thermal s = .next u) : u.mem = s.mem ∧ u.pending = s.pending := by
  unfold execPointOverload at ho
  dsimp only at ho
  repeat' split at ho
  all_goals simp only [Host.Outcome.next.injEq, reduceCtorEq] at ho
  all_goals (subst ho; simp)
theorem execPointOverloadClear_frame (p : PointN) (s : State) (u : State) (ho : execPointOverloadClear p s = .next u) : u.mem = s.mem ∧ u.pending = s.pending := by
  simp only [execPointOverloadClear, Host.Outcome.next.injEq] at ho
  subst ho
  simp
@[simp] theorem State.fieldReset_frame (s : State) (g : Fin 8) : (State.fieldReset s g).1.mem = s.mem ∧ (State.fieldReset s g).1.pending = s.pending := by
  unfold State.fieldReset
  dsimp only
  repeat' split
  all_goals simp
theorem execFieldGroupReset_frame (g : Fin 8) (s : State) (u : State) (ho : execFieldGroupReset g s = .next u) : u.mem = s.mem ∧ u.pending = s.pending := by
  simp only [execFieldGroupReset, Host.Outcome.next.injEq] at ho
  subst ho
  simp
@[simp] theorem State.pointCommit_frame (s : State) (bits : BitVec 128) (first : Bool) (p : PointN) : (State.pointCommit s bits first p).mem = s.mem ∧ (State.pointCommit s bits first p).pending = s.pending := by
  unfold State.pointCommit
  dsimp only
  repeat' split
  all_goals simp
@[simp] theorem State.fieldCommit_frame (s : State) (bits : BitVec 128) : (State.fieldCommit s bits).mem = s.mem ∧ (State.fieldCommit s bits).pending = s.pending := by simp [State.fieldCommit]
@[simp] theorem State.fieldLand_frame (s : State) (g : Fin 8) (old : Option CField) :
    (s.fieldLand g old).mem = s.mem ∧ (s.fieldLand g old).pending = s.pending := by
  unfold State.fieldLand
  extract_lets s1
  have h1 : s1.mem = s.mem ∧ s1.pending = s.pending := by
    simp only [s1]
    split <;> simp
  clear_value s1
  rw [← h1.1, ← h1.2]
  apply foldl_keep
  intro s i
  extract_lets p was is
  clear_value was is
  repeat' split
  all_goals simp
end Sys2Proof.Machine
end

