-- ==== Sys2Proof/Laws/FrameMeter.lean ====
section
/-!
SUPPORT. The frames of Machine/Meter.lean: every operation keeps the canonical form of the image memory, or leaves it alone, and
keeps the queue of waiting commands.
-/
namespace Sys2Proof.Machine
open Sys2Proof
set_option linter.all false
set_option maxRecDepth 20000
theorem execMeterBurst_frame (samples : List MeterSample) (wins : List (Option MeterWin)) (s : State) (u : State) (ho : execMeterBurst samples wins s = .next u) : u.mem = s.mem ∧ u.pending = s.pending := by
  unfold execMeterBurst at ho
  try dsimp only at ho
  repeat' split at ho
  all_goals (first | (simp only [reduceCtorEq] at ho; done) | (simp only [Host.Outcome.next.injEq] at ho; subst ho; simp; done) | (simp only [Host.Outcome.next.injEq] at ho; subst ho; simp (disch := ((try intros); (try dsimp only); (repeat' split) <;> (try simp (maxDischargeDepth := 30) [*]))); done) | skip)
@[simp] theorem State.lineSync_frame (s : State) : (State.lineSync s).mem = s.mem ∧ (State.lineSync s).pending = s.pending := by simp [State.lineSync]
theorem execLineJudgement_frame (levels : List Nat) (s : State) (u : State) (ho : execLineJudgement levels s = .next u) : u.mem = s.mem ∧ u.pending = s.pending := by
  unfold execLineJudgement at ho
  dsimp only at ho
  repeat' split at ho
  all_goals simp only [Host.Outcome.next.injEq, reduceCtorEq] at ho
  all_goals (subst ho; simp)
@[simp] theorem State.classify_frame (s : State) (pct : Nat) (m : Fin 4) (w : LineWin) : (State.classify s pct m w).mem = s.mem ∧ (State.classify s pct m w).pending = s.pending := by simp [State.classify]
theorem execSystemClassify_frame (wins : List LineWin) (s : State) (u : State) (ho : execSystemClassify wins s = .next u) : u.mem = s.mem ∧ u.pending = s.pending := by
  unfold execSystemClassify at ho
  try dsimp only at ho
  repeat' split at ho
  all_goals (first | (simp only [reduceCtorEq] at ho; done) | (simp only [Host.Outcome.next.injEq] at ho; subst ho; simp; done) | (simp only [Host.Outcome.next.injEq] at ho; subst ho; simp (disch := ((try intros); (try dsimp only); (repeat' split) <;> (try simp (maxDischargeDepth := 30) [*]))); done) | skip)
theorem execDataSetSigned_frame (s : State) (u : State) (ho : execDataSetSigned s = .next u) : u.mem = s.mem ∧ u.pending = s.pending := by
  simp only [execDataSetSigned, Host.Outcome.next.injEq] at ho
  subst ho
  simp
theorem execMeterDsSelect_frame (ds : Word) (s : State) (u : State) (ho : execMeterDsSelect ds s = .next u) : u.mem = s.mem ∧ u.pending = s.pending := by
  simp only [execMeterDsSelect, Host.Outcome.next.injEq] at ho
  subst ho
  simp
end Sys2Proof.Machine
end

