-- ==== Sys2Proof/Laws/FrameRecord.lean ====
section
/-!
SUPPORT. The frames of Machine/Record.lean: every operation keeps the canonical form of the image memory, or leaves it alone, and
keeps the queue of waiting commands.
-/
namespace Sys2Proof.Machine
open Sys2Proof
set_option linter.all false
set_option maxRecDepth 20000
@[simp] theorem State.modUnit_frame (s : State) (k : Fin 8) (f : StUnit → StUnit) : (State.modUnit s k f).mem = s.mem ∧ (State.modUnit s k f).pending = s.pending := ⟨rfl, rfl⟩
theorem State.openOn_frame (s : State) (i : Fin 64) (copy first : Nat) (k : Fin 8) (u : State)
    (ho : s.openOn i copy first k = some u) : u.mem = s.mem ∧ u.pending = s.pending := by
  unfold State.openOn at ho
  dsimp only at ho
  repeat' split at ho
  all_goals simp only [Option.some.injEq, reduceCtorEq] at ho
  all_goals (subst ho; simp)
theorem findSome_mem {α β : Type} {f : α → Option β} {l : List α} {b : β} (h : l.findSome? f = some b) : ∃ a, f a = some b := by
  induction l with
  | nil => cases h
  | cons x l ih =>
    rw [List.findSome?_cons] at h
    split at h
    · exact ⟨x, by simp_all⟩
    · exact ih h
theorem State.openChunk_frame (s : State) (i : Fin 64) (copy first : Nat) (u : State)
    (ho : s.openChunk i copy first = some u) : u.mem = s.mem ∧ u.pending = s.pending := by
  obtain ⟨k, hk⟩ := findSome_mem ho
  exact State.openOn_frame s i copy first k u hk
@[simp] theorem State.openChunk_getD (s : State) (i : Fin 64) (copy first : Nat) :
    ((s.openChunk i copy first).getD s).mem = s.mem ∧ ((s.openChunk i copy first).getD s).pending = s.pending := by
  cases h : s.openChunk i copy first with
  | none => exact ⟨rfl, rfl⟩
  | some u => exact State.openChunk_frame s i copy first u h
@[simp] theorem State.settleOpen_frame (s : State) (i : Fin 64) : (State.settleOpen s i).mem = s.mem ∧ (State.settleOpen s i).pending = s.pending := ⟨rfl, rfl⟩
@[simp] theorem State.ensureChunks_frame (s0 : State) (i : Fin 64) : (State.ensureChunks s0 i).1.mem = s0.mem ∧ (State.ensureChunks s0 i).1.pending = s0.pending := by simp [State.ensureChunks]
theorem execBlockWrite_frame (i : Fin 64) (s : State) (u : State) (ho : execBlockWrite i s = .next u) : u.mem = s.mem ∧ u.pending = s.pending := by
  unfold execBlockWrite at ho
  dsimp only at ho
  repeat' split at ho
  all_goals simp only [Host.Outcome.next.injEq, reduceCtorEq] at ho
  all_goals (subst ho; simp)
@[simp] theorem State.advanceDurable_frame (s : State) : (State.advanceDurable s).mem = s.mem ∧ (State.advanceDurable s).pending = s.pending := by simp [State.advanceDurable]
theorem execUnitFlush_frame (writeMbs inMbs : Nat) (s : State) (u : State) (ho : execUnitFlush writeMbs inMbs s = .next u) : u.mem = s.mem ∧ u.pending = s.pending := by
  unfold execUnitFlush at ho
  dsimp only at ho
  repeat' split at ho
  all_goals simp only [Host.Outcome.next.injEq, reduceCtorEq] at ho
  all_goals (subst ho; simp)
theorem execUnitWriteDone_frame (k : Fin 8) (flush : Bool) (s : State) (u : State) (ho : execUnitWriteDone k flush s = .next u) : u.mem = s.mem ∧ u.pending = s.pending := by
  simp only [execUnitWriteDone, Host.Outcome.next.injEq] at ho
  subst ho
  simp
theorem execUnitPresent_frame (k : Fin 8) (s : State) (u : State) (ho : execUnitPresent k s = .next u) : u.mem = s.mem ∧ u.pending = s.pending := by
  unfold execUnitPresent at ho
  try dsimp only at ho
  repeat' split at ho
  all_goals (first | (simp only [reduceCtorEq] at ho; done) | (simp only [Host.Outcome.next.injEq] at ho; subst ho; simp; done) | (simp only [Host.Outcome.next.injEq] at ho; subst ho; simp (disch := ((try intros); (try dsimp only); (repeat' split) <;> (try simp (maxDischargeDepth := 30) [*]))); done) | skip)
theorem execUnitControllerReady_frame (k : Fin 8) (met : Bool) (chunks wearPct : Nat) (s : State) (u : State) (ho : execUnitControllerReady k met chunks wearPct s = .next u) : u.mem = s.mem ∧ u.pending = s.pending := by
  unfold execUnitControllerReady at ho
  try dsimp only at ho
  repeat' split at ho
  all_goals (first | (simp only [reduceCtorEq] at ho; done) | (simp only [Host.Outcome.next.injEq] at ho; subst ho; simp; done) | (simp only [Host.Outcome.next.injEq] at ho; subst ho; simp (disch := ((try intros); (try dsimp only); (repeat' split) <;> (try simp (maxDischargeDepth := 30) [*]))); done) | skip)
theorem execUnitTrainingTimeout_frame (k : Fin 8) (s : State) (u : State) (ho : execUnitTrainingTimeout k s = .next u) : u.mem = s.mem ∧ u.pending = s.pending := by
  unfold execUnitTrainingTimeout at ho
  try dsimp only at ho
  repeat' split at ho
  all_goals (first | (simp only [reduceCtorEq] at ho; done) | (simp only [Host.Outcome.next.injEq] at ho; subst ho; simp; done) | (simp only [Host.Outcome.next.injEq] at ho; subst ho; simp (disch := ((try intros); (try dsimp only); (repeat' split) <;> (try simp (maxDischargeDepth := 30) [*]))); done) | skip)
theorem execUnitVerifyDone_frame (k : Fin 8) (r : UnitCheck) (s : State) (u : State) (ho : execUnitVerifyDone k r s = .next u) : u.mem = s.mem ∧ u.pending = s.pending := by
  unfold execUnitVerifyDone at ho
  dsimp only at ho
  repeat' split at ho
  all_goals simp only [Host.Outcome.next.injEq, reduceCtorEq] at ho
  all_goals (subst ho; simp)
theorem execUnitShutdownDone_frame (k : Fin 8) (s : State) (u : State) (ho : execUnitShutdownDone k s = .next u) : u.mem = s.mem ∧ u.pending = s.pending := by
  unfold execUnitShutdownDone at ho
  try dsimp only at ho
  repeat' split at ho
  all_goals (first | (simp only [reduceCtorEq] at ho; done) | (simp only [Host.Outcome.next.injEq] at ho; subst ho; simp; done) | (simp only [Host.Outcome.next.injEq] at ho; subst ho; simp (disch := ((try intros); (try dsimp only); (repeat' split) <;> (try simp (maxDischargeDepth := 30) [*]))); done) | skip)
@[simp] theorem State.unwrite_frame (s : State) (k : Fin 8) : (State.unwrite s k).mem = s.mem ∧ (State.unwrite s k).pending = s.pending := ⟨rfl, rfl⟩
@[simp] theorem State.unitGone_frame (s : State) (k : Fin 8) :
    (s.unitGone k).mem = s.mem ∧ (s.unitGone k).pending = s.pending := by
  unfold State.unitGone
  apply foldl_keep
  intro s i
  split
  · split
    · exact ⟨by rw [(State.raise_frame _ _ _).1, (State.modStream_frame _ _ _).1], by rw [(State.raise_frame _ _ _).2, (State.modStream_frame _ _ _).2]⟩
    · exact ⟨rfl, rfl⟩
  · exact ⟨rfl, rfl⟩
theorem execUnitRemoved_frame (k : Fin 8) (s : State) (u : State) (ho : execUnitRemoved k s = .next u) : u.mem = s.mem ∧ u.pending = s.pending := by
  unfold execUnitRemoved at ho
  dsimp only at ho
  repeat' split at ho
  all_goals simp only [Host.Outcome.next.injEq, reduceCtorEq] at ho
  all_goals (subst ho; simp)
theorem execStorageLinkDown_frame (k : Fin 8) (s : State) (u : State) (ho : execStorageLinkDown k s = .next u) : u.mem = s.mem ∧ u.pending = s.pending := by
  unfold execStorageLinkDown at ho
  dsimp only at ho
  repeat' split at ho
  all_goals simp only [Host.Outcome.next.injEq, reduceCtorEq] at ho
  all_goals (subst ho; simp)
theorem execStorageLinkRecovered_frame (k : Fin 8) (s : State) (u : State) (ho : execStorageLinkRecovered k s = .next u) : u.mem = s.mem ∧ u.pending = s.pending := by
  unfold execStorageLinkRecovered at ho
  try dsimp only at ho
  repeat' split at ho
  all_goals (first | (simp only [reduceCtorEq] at ho; done) | (simp only [Host.Outcome.next.injEq] at ho; subst ho; simp; done) | (simp only [Host.Outcome.next.injEq] at ho; subst ho; simp (disch := ((try intros); (try dsimp only); (repeat' split) <;> (try simp (maxDischargeDepth := 30) [*]))); done) | skip)
theorem execUnitWriteError_frame (k : Fin 8) (linkLost : Bool) (s : State) (u : State) (ho : execUnitWriteError k linkLost s = .next u) : u.mem = s.mem ∧ u.pending = s.pending := by
  unfold execUnitWriteError at ho
  try dsimp only at ho
  repeat' split at ho
  all_goals (first | (simp only [reduceCtorEq] at ho; done) | (simp only [Host.Outcome.next.injEq] at ho; subst ho; simp; done) | (simp only [Host.Outcome.next.injEq] at ho; subst ho; simp (disch := ((try intros); (try dsimp only); (repeat' split) <;> (try simp (maxDischargeDepth := 30) [*]))); done) | skip)
@[simp] theorem State.unitAnswer_frame (s : State) (k : Fin 8) (a : Ans) : (State.unitAnswer s k a).mem = s.mem ∧ (State.unitAnswer s k a).pending = s.pending := ⟨rfl, rfl⟩
theorem execUnitRelease_frame (k : Fin 8) (force : Bool) (s : State) (u : State) (ho : execUnitRelease k force s = .next u) : u.mem = s.mem ∧ u.pending = s.pending := by
  unfold execUnitRelease at ho
  dsimp only at ho
  repeat' split at ho
  all_goals simp only [Host.Outcome.next.injEq, reduceCtorEq] at ho
  all_goals (subst ho; simp)
theorem execUnitAdmit_frame (k : Fin 8) (s : State) (u : State) (ho : execUnitAdmit k s = .next u) : u.mem = s.mem ∧ u.pending = s.pending := by
  unfold execUnitAdmit at ho
  try dsimp only at ho
  repeat' split at ho
  all_goals (first | (simp only [reduceCtorEq] at ho; done) | (simp only [Host.Outcome.next.injEq] at ho; subst ho; simp; done) | (simp only [Host.Outcome.next.injEq] at ho; subst ho; simp (disch := ((try intros); (try dsimp only); (repeat' split) <;> (try simp (maxDischargeDepth := 30) [*]))); done) | skip)
theorem execUnitFormat_frame (k : Fin 8) (force : Bool) (s : State) (u : State) (ho : execUnitFormat k force s = .next u) : u.mem = s.mem ∧ u.pending = s.pending := by
  unfold execUnitFormat at ho
  dsimp only at ho
  repeat' split at ho
  all_goals simp only [Host.Outcome.next.injEq, reduceCtorEq] at ho
  all_goals (subst ho; simp)
theorem execStreamTailWrite_frame (i : Fin 64) (tail : BitVec 16) (s : State) (u : State) (ho : execStreamTailWrite i tail s = .next u) : u.mem = s.mem ∧ u.pending = s.pending := by
  unfold execStreamTailWrite at ho
  dsimp only at ho
  repeat' split at ho
  all_goals simp only [Host.Outcome.next.injEq, reduceCtorEq] at ho
  all_goals (subst ho; simp)
theorem execStreamPayloadAdmitted_frame (i : Fin 64) (len : Word) (typ : Byte) (sync : Bool) (payload : List Byte) (s : State) (u : State) (ho : execStreamPayloadAdmitted i len typ sync payload s = .next u) : u.mem = s.mem ∧ u.pending = s.pending := by
  unfold execStreamPayloadAdmitted at ho
  dsimp only at ho
  repeat' split at ho
  all_goals simp only [Host.Outcome.next.injEq, reduceCtorEq] at ho
  all_goals (subst ho; simp)
theorem execRecordRead_frame (i : Fin 64) (s : State) (u : State) (ho : execRecordRead i s = .next u) : u.mem = s.mem ∧ u.pending = s.pending := by
  unfold execRecordRead at ho
  dsimp only at ho
  repeat' split at ho
  all_goals simp only [Host.Outcome.next.injEq, reduceCtorEq] at ho
  all_goals (subst ho; simp)
theorem execRecordReadAbort_frame (s : State) (u : State) (ho : execRecordReadAbort s = .next u) : u.mem = s.mem ∧ u.pending = s.pending := by
  unfold execRecordReadAbort at ho
  dsimp only at ho
  repeat' split at ho
  all_goals simp only [Host.Outcome.next.injEq, reduceCtorEq] at ho
  all_goals (subst ho; simp)
theorem execRecordReadDone_frame (hostError : Bool) (damaged : Option Nat) (s : State) (u : State) (ho : execRecordReadDone hostError damaged s = .next u) : u.mem = s.mem ∧ u.pending = s.pending := by
  unfold execRecordReadDone at ho
  dsimp only at ho
  repeat' split at ho
  all_goals simp only [Host.Outcome.next.injEq, reduceCtorEq] at ho
  all_goals (subst ho; simp)
end Sys2Proof.Machine
end

