-- ==== Sys2Proof/Laws/FrameEvents.lean ====
section
/-!
SUPPORT. The frames of Machine/Events.lean: every operation keeps the canonical form of the image memory, or leaves it alone, and
keeps the queue of waiting commands.
-/
namespace Sys2Proof.Machine
open Sys2Proof
set_option linter.all false
set_option maxRecDepth 20000
@[simp] theorem State.modEvt_frame (s : State) (f : Evt → Evt) : (State.modEvt s f).mem = s.mem ∧ (State.modEvt s f).pending = s.pending := ⟨rfl, rfl⟩
theorem execEvtClaim_frame (t : TgtN) (s : State) (u : State) (ho : execEvtClaim t s = .next u) : u.mem = s.mem ∧ u.pending = s.pending := by
  unfold execEvtClaim at ho
  try dsimp only at ho
  repeat' split at ho
  all_goals (first | (simp only [reduceCtorEq] at ho; done) | (simp only [Host.Outcome.next.injEq] at ho; subst ho; simp; done) | (simp only [Host.Outcome.next.injEq] at ho; subst ho; simp (disch := ((try intros); (try dsimp only); (repeat' split) <;> (try simp (maxDischargeDepth := 30) [*]))); done) | skip)
theorem execEvtComplete_frame (t : TgtN) (src : BitVec 10) (s : State) (u : State) (ho : execEvtComplete t src s = .next u) : u.mem = s.mem ∧ u.pending = s.pending := by
  unfold execEvtComplete at ho
  dsimp only at ho
  repeat' split at ho
  all_goals simp only [Host.Outcome.next.injEq, reduceCtorEq] at ho
  all_goals (subst ho; simp)
theorem execEvtPendWrite_frame (g : Fin 32) (w : Word) (s : State) (u : State) (ho : execEvtPendWrite g w s = .next u) : u.mem = s.mem ∧ u.pending = s.pending := by
  simp only [execEvtPendWrite, Host.Outcome.next.injEq] at ho
  subst ho
  simp
theorem execEvtMaskWrite_frame (g : Fin 32) (w : Word) (s : State) (u : State) (ho : execEvtMaskWrite g w s = .next u) : u.mem = s.mem ∧ u.pending = s.pending := by
  simp only [execEvtMaskWrite, Host.Outcome.next.injEq] at ho
  subst ho
  simp
theorem execEvtPrioWrite_frame (t : TgtN) (prio : BitVec 8) (s : State) (u : State) (ho : execEvtPrioWrite t prio s = .next u) : u.mem = s.mem ∧ u.pending = s.pending := by
  simp only [execEvtPrioWrite, Host.Outcome.next.injEq] at ho
  subst ho
  simp
theorem execHoldoffEnd_frame (g : Fin 32) (s : State) (u : State) (ho : execHoldoffEnd g s = .next u) : u.mem = s.mem ∧ u.pending = s.pending := by
  simp only [execHoldoffEnd, Host.Outcome.next.injEq] at ho
  subst ho
  simp
theorem execMsixMaskChange_frame (en fnMask : Bool) (vecMask : BitVec 64) (s : State) (u : State) (ho : execMsixMaskChange en fnMask vecMask s = .next u) : u.mem = s.mem ∧ u.pending = s.pending := by
  simp only [execMsixMaskChange, Host.Outcome.next.injEq] at ho
  subst ho
  simp
@[simp] theorem State.modAlert_frame (s : State) (i : Fin 8) (f : AlertSt → AlertSt) : (State.modAlert s i f).mem = s.mem ∧ (State.modAlert s i f).pending = s.pending := ⟨rfl, rfl⟩
theorem execAlertAccepted_frame (i : Fin 8) (high : Bool) (s : State) (u : State) (ho : execAlertAccepted i high s = .next u) : (Memory.wf s.mem = true → Memory.wf u.mem = true) ∧ u.pending = s.pending := by
  unfold execAlertAccepted at ho
  dsimp only at ho
  repeat' split at ho
  all_goals simp only [Host.Outcome.next.injEq, reduceCtorEq] at ho
  all_goals (subst ho; exact ⟨fun h => by simp (maxDischargeDepth := 30) [h], by simp⟩)
@[simp] theorem State.raiseAt_frame (s : State) (n : Nat) (stamp : Ns) : (State.raiseAt s n stamp).mem = s.mem ∧ (State.raiseAt s n stamp).pending = s.pending := by simp [State.raiseAt]
@[simp] theorem State.alertsAtLoad_frame (s : State) : (State.alertsAtLoad s).mem = s.mem ∧ (State.alertsAtLoad s).pending = s.pending := by
  unfold State.alertsAtLoad
  try dsimp only
  repeat' split
  all_goals (try simp)
  all_goals (try simp (disch := ((try intros); (try dsimp only); (repeat' split) <;> (try simp (maxDischargeDepth := 30) [*]))))
end Sys2Proof.Machine
end

