-- ==== Sys2Proof/Laws/FrameNvStore.lean ====
section
/-!
SUPPORT. The frames of Machine/NvStore.lean: every operation keeps the canonical form of the image memory, or leaves it alone, and
keeps the queue of waiting commands.
-/
namespace Sys2Proof.Machine
open Sys2Proof
set_option linter.all false
set_option maxRecDepth 20000
@[simp] theorem State.modSession_frame (s : State) (n : Fin 4) (f : Session → Session) : (State.modSession s n f).mem = s.mem ∧ (State.modSession s n f).pending = s.pending := ⟨rfl, rfl⟩
@[simp] theorem State.reply_frame (s : State) (n : Fin 4) (status : Nat) (a : Ans) (ws : List Word) : (State.reply s n status a ws).mem = s.mem ∧ (State.reply s n status a ws).pending = s.pending := ⟨rfl, rfl⟩
@[simp] theorem State.nvAnswer_frame (s : State) (o : Owner) (a : Ans) : (State.nvAnswer s o a).mem = s.mem ∧ (State.nvAnswer s o a).pending = s.pending := by
  unfold State.nvAnswer
  dsimp only
  repeat' split
  all_goals simp
@[simp] theorem State.setNvData_frame (s : State) (o : Owner) (ws : List Word) : (State.setNvData s o ws).mem = s.mem ∧ (State.setNvData s o ws).pending = s.pending := by
  unfold State.setNvData
  dsimp only
  repeat' split
  all_goals simp
@[simp] theorem State.clearNvPwd_frame (s : State) (o : Owner) : (State.clearNvPwd s o).mem = s.mem ∧ (State.clearNvPwd s o).pending = s.pending := by
  unfold State.clearNvPwd
  dsimp only
  repeat' split
  all_goals simp
@[simp] theorem State.gatherPages_frame (s : State) (m : Fin 16) (ps : List (Nat × List Byte)) : (State.gatherPages s m ps).mem = s.mem ∧ (State.gatherPages s m ps).pending = s.pending := by simp [State.gatherPages]
@[simp] theorem State.nvWriteGo_frame (s : State) (w : NvWait) (r : CRegion) : (State.nvWriteGo s w r).mem = s.mem ∧ (State.nvWriteGo s w r).pending = s.pending := by simp [State.nvWriteGo]
@[simp] theorem State.nvResume_frame (s : State) : (State.nvResume s).mem = s.mem ∧ (State.nvResume s).pending = s.pending := by
  unfold State.nvResume
  try dsimp only
  repeat' split
  all_goals (try simp)
  all_goals (try simp (disch := ((try intros); (try dsimp only); (repeat' split) <;> (try simp (maxDischargeDepth := 30) [*]))))
theorem execGatherTimeout_frame (s : State) (u : State) (ho : execGatherTimeout s = .next u) : u.mem = s.mem ∧ u.pending = s.pending := by
  unfold execGatherTimeout at ho
  try dsimp only at ho
  repeat' split at ho
  all_goals (first | (simp only [reduceCtorEq] at ho; done) | (simp only [Host.Outcome.next.injEq] at ho; subst ho; simp; done) | (simp only [Host.Outcome.next.injEq] at ho; subst ho; simp (disch := ((try intros); (try dsimp only); (repeat' split) <;> (try simp (maxDischargeDepth := 30) [*]))); done) | skip)
theorem execNvsRead_frame (o : Owner) (s : State) (u : State) (ho : execNvsRead o s = .next u) : u.mem = s.mem ∧ u.pending = s.pending := by
  unfold execNvsRead at ho
  dsimp only at ho
  repeat' split at ho
  all_goals simp only [Host.Outcome.next.injEq, reduceCtorEq] at ho
  all_goals (subst ho; simp)
theorem execNvsWrite_frame (o : Owner) (len : BitVec 9) (s : State) (u : State) (ho : execNvsWrite o len s = .next u) : u.mem = s.mem ∧ u.pending = s.pending := by
  unfold execNvsWrite at ho
  dsimp only at ho
  repeat' split at ho
  all_goals simp only [Host.Outcome.next.injEq, reduceCtorEq] at ho
  all_goals (subst ho; simp)
theorem execNvsCommitNow_frame (o : Owner) (s : State) (u : State) (ho : execNvsCommitNow o s = .next u) : u.mem = s.mem ∧ u.pending = s.pending := by
  simp only [execNvsCommitNow, Host.Outcome.next.injEq] at ho
  subst ho
  simp
theorem execNvsLock_frame (o : Owner) (s : State) (u : State) (ho : execNvsLock o s = .next u) : u.mem = s.mem ∧ u.pending = s.pending := by
  simp only [execNvsLock, Host.Outcome.next.injEq] at ho
  subst ho
  simp
@[simp] theorem State.incRead_frame (s : State) (copyB : Bool) (p : Nat) : (State.incRead s copyB p).1.mem = s.mem ∧ (State.incRead s copyB p).1.pending = s.pending := by
  unfold State.incRead
  dsimp only
  repeat' split
  all_goals simp
theorem execNvsReadInc_frame (o : Owner) (s : State) (u : State) (ho : execNvsReadInc o s = .next u) : u.mem = s.mem ∧ u.pending = s.pending := by
  unfold execNvsReadInc at ho
  dsimp only at ho
  repeat' split at ho
  all_goals simp only [Host.Outcome.next.injEq, reduceCtorEq] at ho
  all_goals (subst ho; simp)
theorem execNvsReadLfl_frame (o : Owner) (s : State) (u : State) (ho : execNvsReadLfl o s = .next u) : u.mem = s.mem ∧ u.pending = s.pending := by
  unfold execNvsReadLfl at ho
  dsimp only at ho
  repeat' split at ho
  all_goals simp only [Host.Outcome.next.injEq, reduceCtorEq] at ho
  all_goals (subst ho; simp)
theorem execNvsClear_frame (o : Owner) (scope : BitVec 3) (force : Bool) (n : RailN) (s : State) (u : State) (ho : execNvsClear o scope force n s = .next u) : u.mem = s.mem ∧ u.pending = s.pending := by
  unfold execNvsClear at ho
  dsimp only at ho
  repeat' split at ho
  all_goals simp only [Host.Outcome.next.injEq, reduceCtorEq] at ho
  all_goals (subst ho; simp)
@[simp] theorem State.pwdFail_frame (s : State) (o : Owner) (use : PwdUse) (i : Fin 35) : (State.pwdFail s o use i).mem = s.mem ∧ (State.pwdFail s o use i).pending = s.pending := by simp [State.pwdFail]
@[simp] theorem State.pwdPass_frame (s : State) (i : Fin 35) : (State.pwdPass s i).mem = s.mem ∧ (State.pwdPass s i).pending = s.pending := by simp [State.pwdPass]
@[simp] theorem State.unlock_frame (s : State) (o : Owner) (i : Fin 35) (m : Fin 17) (write : Bool) : (State.unlock s o i m write).mem = s.mem ∧ (State.unlock s o i m write).pending = s.pending := by
  unfold State.unlock
  dsimp only
  repeat' split
  all_goals simp
theorem execNvsUnlockRead_frame (o : Owner) (s : State) (u : State) (ho : execNvsUnlockRead o s = .next u) : u.mem = s.mem ∧ u.pending = s.pending := by
  unfold execNvsUnlockRead at ho
  dsimp only at ho
  repeat' split at ho
  all_goals simp only [Host.Outcome.next.injEq, reduceCtorEq] at ho
  all_goals (subst ho; simp)
theorem execNvsUnlockWrite_frame (o : Owner) (s : State) (u : State) (ho : execNvsUnlockWrite o s = .next u) : u.mem = s.mem ∧ u.pending = s.pending := by
  unfold execNvsUnlockWrite at ho
  dsimp only at ho
  repeat' split at ho
  all_goals simp only [Host.Outcome.next.injEq, reduceCtorEq] at ho
  all_goals (subst ho; simp)
theorem execNvsUnlockClear_frame (o : Owner) (s : State) (u : State) (ho : execNvsUnlockClear o s = .next u) : u.mem = s.mem ∧ u.pending = s.pending := by
  simp only [execNvsUnlockClear, Host.Outcome.next.injEq] at ho
  subst ho
  simp
theorem execPasswordLockoutExpiry_frame (i : Fin 35) (s : State) (u : State) (ho : execPasswordLockoutExpiry i s = .next u) : u.mem = s.mem ∧ u.pending = s.pending := by
  simp only [execPasswordLockoutExpiry, Host.Outcome.next.injEq] at ho
  subst ho
  simp
@[simp] theorem State.uncorrectable_frame (s : State) (x : Fin 16 × Nat × Option (List Byte)) : (State.uncorrectable s x).mem = s.mem ∧ (State.uncorrectable s x).pending = s.pending := ⟨rfl, rfl⟩
@[simp] theorem State.eccEvent_frame (s : State) (detail : List Nat) : (State.eccEvent s detail).mem = s.mem ∧ (State.eccEvent s detail).pending = s.pending := by simp [State.eccEvent]
@[simp] theorem State.calHit_frame (s : State) (x : ConvN × Option (Int × Int × Nat)) : (State.calHit s x).mem = s.mem ∧ (State.calHit s x).pending = s.pending := by simp [State.calHit]
theorem execNvScrub_frame (r : ScrubResult) (s : State) (u : State) (ho : execNvScrub r s = .next u) : u.mem = s.mem ∧ u.pending = s.pending := by
  simp only [execNvScrub, Host.Outcome.next.injEq] at ho
  subst ho
  simp
end Sys2Proof.Machine
end

