-- ==== Sys2Proof/Laws/FrameLastGasp.lean ====
section
/-!
SUPPORT. The frames of Machine/LastGasp.lean: every operation keeps the canonical form of the image memory, or leaves it alone, and
keeps the queue of waiting commands.
-/
namespace Sys2Proof.Machine
open Sys2Proof
set_option linter.all false
set_option maxRecDepth 20000
@[simp] theorem State.lastGaspEnd_frame (s : State) : (Memory.wf s.mem = true → Memory.wf (State.lastGaspEnd s).mem = true) ∧ (State.lastGaspEnd s).pending = s.pending := by
  unfold State.lastGaspEnd
  try dsimp only
  repeat' split
  all_goals (refine ⟨fun h => ?_, ?_⟩ <;> (try simp (maxDischargeDepth := 30) [h]))
  all_goals (try with_reducible apply foldl_wf)
  all_goals (try (intros; (try dsimp only); (repeat' split) <;> simp (maxDischargeDepth := 30) [*]; done))
  all_goals (try simp (disch := ((try intros); (try dsimp only); (repeat' split) <;> (try simp (maxDischargeDepth := 30) [*]))) [*])
@[simp] theorem State.dropsDone_frame (s : State) : (Memory.wf s.mem = true → Memory.wf (State.dropsDone s).mem = true) ∧ (State.dropsDone s).pending = s.pending := by
  unfold State.dropsDone
  dsimp only
  repeat' split
  all_goals exact ⟨fun h => by simp (maxDischargeDepth := 30) [h], by simp⟩
@[simp] theorem State.lastGaspDrop_frame (s : State) (n : RailN) : (State.lastGaspDrop s n).mem = s.mem ∧ (State.lastGaspDrop s n).pending = s.pending := by
  unfold State.lastGaspDrop
  repeat' split
  all_goals simp
@[simp] theorem State.dropSteps_frame (s : State) (l : List (List RailN)) :
    (s.dropSteps l).1.mem = s.mem ∧ (s.dropSteps l).1.pending = s.pending := by
  induction l generalizing s with
  | nil => exact ⟨rfl, rfl⟩
  | cons r l ih =>
    unfold State.dropSteps
    extract_lets s1
    have h1 : s1.mem = s.mem ∧ s1.pending = s.pending := by simp [s1]
    clear_value s1
    split
    · exact h1
    · exact ⟨(ih s1).1.trans h1.1, (ih s1).2.trans h1.2⟩
@[simp] theorem State.dropNext_frame (s : State) : (Memory.wf s.mem = true → Memory.wf (State.dropNext s).mem = true) ∧ (State.dropNext s).pending = s.pending := by
  unfold State.dropNext
  dsimp only
  repeat' split
  all_goals exact ⟨fun h => by simp (maxDischargeDepth := 30) [h], by simp⟩
theorem execSealDone_frame (s : State) (u : State) (ho : execSealDone s = .next u) : (Memory.wf s.mem = true → Memory.wf u.mem = true) ∧ u.pending = s.pending := by
  unfold execSealDone at ho
  dsimp only at ho
  repeat' split at ho
  all_goals simp only [Host.Outcome.next.injEq, reduceCtorEq] at ho
  all_goals (subst ho; exact ⟨fun h => by simp (maxDischargeDepth := 30) [h], by simp⟩)
theorem execLastGaspDropStep_frame (s : State) (u : State) (ho : execLastGaspDropStep s = .next u) : (Memory.wf s.mem = true → Memory.wf u.mem = true) ∧ u.pending = s.pending := by
  unfold execLastGaspDropStep at ho
  try dsimp only at ho
  repeat' split at ho
  all_goals (first | (simp only [reduceCtorEq] at ho; done) | (simp only [Host.Outcome.next.injEq] at ho; subst ho; refine ⟨fun h => ?_, ?_⟩ <;> simp (maxDischargeDepth := 30) [*]; done) | (simp only [Host.Outcome.next.injEq] at ho; subst ho; (refine ⟨fun h => ?_, ?_⟩) <;> simp (disch := ((try intros); (try dsimp only); (repeat' split) <;> (try simp (maxDischargeDepth := 30) [*]))) [*]; done) | skip)
theorem execLastGaspFlushEnd_frame (s : State) (u : State) (ho : execLastGaspFlushEnd s = .next u) : u.mem = s.mem ∧ u.pending = s.pending := by
  unfold execLastGaspFlushEnd at ho
  try dsimp only at ho
  repeat' split at ho
  all_goals (first | (simp only [reduceCtorEq] at ho; done) | (simp only [Host.Outcome.next.injEq] at ho; subst ho; simp; done) | (simp only [Host.Outcome.next.injEq] at ho; subst ho; simp (disch := ((try intros); (try dsimp only); (repeat' split) <;> (try simp (maxDischargeDepth := 30) [*]))); done) | skip)
@[simp] theorem State.answerWrong_frame (s : State) (w : WrongDue) : (State.answerWrong s w).mem = s.mem ∧ (State.answerWrong s w).pending = s.pending := by
  unfold State.answerWrong
  dsimp only
  repeat' split
  all_goals simp
@[simp] theorem State.groupDurable_frame (s : State) (d : NvData) : (State.groupDurable s d).mem = s.mem ∧ (State.groupDurable s d).pending = s.pending := by simp [State.groupDurable]
theorem execCommitGroupDone_frame (s : State) (u : State) (ho : execCommitGroupDone s = .next u) : (Memory.wf s.mem = true → Memory.wf u.mem = true) ∧ u.pending = s.pending := by
  unfold execCommitGroupDone at ho
  dsimp only at ho
  repeat' split at ho
  all_goals simp only [Host.Outcome.next.injEq, reduceCtorEq] at ho
  all_goals (subst ho; exact ⟨fun h => by simp (maxDischargeDepth := 30) [h], by simp⟩)
theorem execInclusionCopyADone_frame (s : State) (u : State) (ho : execInclusionCopyADone s = .next u) : u.mem = s.mem ∧ u.pending = s.pending := by
  unfold execInclusionCopyADone at ho
  dsimp only at ho
  repeat' split at ho
  all_goals simp only [Host.Outcome.next.injEq, reduceCtorEq] at ho
  all_goals (subst ho; simp)
theorem execInclusionCopyBDone_frame (s : State) (u : State) (ho : execInclusionCopyBDone s = .next u) : (Memory.wf s.mem = true → Memory.wf u.mem = true) ∧ u.pending = s.pending := by
  unfold execInclusionCopyBDone at ho
  dsimp only at ho
  repeat' split at ho
  all_goals simp only [Host.Outcome.next.injEq, reduceCtorEq] at ho
  all_goals (subst ho; exact ⟨fun h => by simp (maxDischargeDepth := 30) [h], by simp⟩)
theorem execInclusionClearDone_frame (s : State) (u : State) (ho : execInclusionClearDone s = .next u) : u.mem = s.mem ∧ u.pending = s.pending := by
  unfold execInclusionClearDone at ho
  try dsimp only at ho
  repeat' split at ho
  all_goals (first | (simp only [reduceCtorEq] at ho; done) | (simp only [Host.Outcome.next.injEq] at ho; subst ho; simp; done) | (simp only [Host.Outcome.next.injEq] at ho; subst ho; simp (disch := ((try intros); (try dsimp only); (repeat' split) <;> (try simp (maxDischargeDepth := 30) [*]))); done) | skip)
end Sys2Proof.Machine
end

