-- ==== Sys2Proof/Laws/FrameBudget.lean ====
section
/-!
SUPPORT. The frames of Machine/Budget.lean: every operation keeps the canonical form of the image memory, or leaves it alone, and
keeps the queue of waiting commands.
-/
namespace Sys2Proof.Machine
open Sys2Proof
set_option linter.all false
set_option maxRecDepth 20000
@[simp] theorem State.noteBudget_frame (s : State) (l : List ProgN) : (State.noteBudget s l).mem = s.mem ∧ (State.noteBudget s l).pending = s.pending := by
  unfold State.noteBudget
  repeat' split
  all_goals simp
@[simp] theorem State.dropProg_frame (s : State) (n : ProgN) : (State.dropProg s n).mem = s.mem ∧ (State.dropProg s n).pending = s.pending := ⟨rfl, rfl⟩
@[simp] theorem State.checkBudget_frame (s : State) (factor : BitVec 16) : (State.checkBudget s factor).mem = s.mem ∧ (State.checkBudget s factor).pending = s.pending := by simp [State.checkBudget]
end Sys2Proof.Machine
end

