-- ==== Sys2Proof/Laws/FrameAgeing.lean ====
section
/-!
SUPPORT. The frames of Machine/Ageing.lean: every operation keeps the canonical form of the image memory, or leaves it alone, and
keeps the queue of waiting commands.
-/
namespace Sys2Proof.Machine
open Sys2Proof
set_option linter.all false
set_option maxRecDepth 20000
@[simp] theorem State.keep_frame (s : State) (f : NvData → NvData) : (State.keep s f).mem = s.mem ∧ (State.keep s f).pending = s.pending := ⟨rfl, rfl⟩
@[simp] theorem State.beyondModel_frame (s : State) (factor : BitVec 16) : (State.beyondModel s factor).mem = s.mem ∧ (State.beyondModel s factor).pending = s.pending := by simp [State.beyondModel]
theorem execSlowdownMeasure_frame (factor : BitVec 16) (s : State) (u : State) (ho : execSlowdownMeasure factor s = .next u) : u.mem = s.mem ∧ u.pending = s.pending := by
  unfold execSlowdownMeasure at ho
  dsimp only at ho
  repeat' split at ho
  all_goals simp only [Host.Outcome.next.injEq, reduceCtorEq] at ho
  all_goals (subst ho; simp)
theorem execCoreOffsetStep_frame (s : State) (u : State) (ho : execCoreOffsetStep s = .next u) : u.mem = s.mem ∧ u.pending = s.pending := by
  unfold execCoreOffsetStep at ho
  try dsimp only at ho
  repeat' split at ho
  all_goals (first | (simp only [reduceCtorEq] at ho; done) | (simp only [Host.Outcome.next.injEq] at ho; subst ho; simp; done) | (simp only [Host.Outcome.next.injEq] at ho; subst ho; simp (disch := ((try intros); (try dsimp only); (repeat' split) <;> (try simp (maxDischargeDepth := 30) [*]))); done) | skip)
theorem execReferenceCheck_frame (ab bc ca : Int) (s : State) (u : State) (ho : execReferenceCheck ab bc ca s = .next u) : u.mem = s.mem ∧ u.pending = s.pending := by
  unfold execReferenceCheck at ho
  dsimp only at ho
  repeat' split at ho
  all_goals simp only [Host.Outcome.next.injEq, reduceCtorEq] at ho
  all_goals (subst ho; simp)
theorem execCellCheck_frame (mv : Nat) (s : State) (u : State) (ho : execCellCheck mv s = .next u) : u.mem = s.mem ∧ u.pending = s.pending := by
  unfold execCellCheck at ho
  try dsimp only at ho
  repeat' split at ho
  all_goals (first | (simp only [reduceCtorEq] at ho; done) | (simp only [Host.Outcome.next.injEq] at ho; subst ho; simp; done) | (simp only [Host.Outcome.next.injEq] at ho; subst ho; simp (disch := ((try intros); (try dsimp only); (repeat' split) <;> (try simp (maxDischargeDepth := 30) [*]))); done) | skip)
theorem execLoadEstimateSample_frame (x : Marker) (s : State) (u : State) (ho : execLoadEstimateSample x s = .next u) : u.mem = s.mem ∧ u.pending = s.pending := by
  unfold execLoadEstimateSample at ho
  dsimp only at ho
  repeat' split at ho
  all_goals simp only [Host.Outcome.next.injEq, reduceCtorEq] at ho
  all_goals (subst ho; simp)
@[simp] theorem State.judgeStore_frame (s : State) : (s.judgeStore).mem = s.mem ∧ (s.judgeStore).pending = s.pending := by
  unfold State.judgeStore
  extract_lets full s1
  have h1 : s1.mem = s.mem ∧ s1.pending = s.pending := by simp only [s1, State.nvWrite_frame, and_self]
  clear_value s1
  split <;> simp [h1]
@[simp] theorem State.landStore_frame (s : State) (uf esr : Nat) : (State.landStore s uf esr).mem = s.mem ∧ (State.landStore s uf esr).pending = s.pending := by simp [State.landStore]
theorem execHoldupTestStart_frame (s : State) (u : State) (ho : execHoldupTestStart s = .next u) : u.mem = s.mem ∧ u.pending = s.pending := by
  unfold execHoldupTestStart at ho
  dsimp only at ho
  repeat' split at ho
  all_goals simp only [Host.Outcome.next.injEq, reduceCtorEq] at ho
  all_goals (subst ho; simp)
theorem execHoldupTestEnd_frame (dv step : Nat) (s : State) (u : State) (ho : execHoldupTestEnd dv step s = .next u) : u.mem = s.mem ∧ u.pending = s.pending := by
  unfold execHoldupTestEnd at ho
  dsimp only at ho
  repeat' split at ho
  all_goals simp only [Host.Outcome.next.injEq, reduceCtorEq] at ho
  all_goals (subst ho; simp)
@[simp] theorem State.showForecast_frame (s : State) (u : Fin 6) (f : Fc) (detail : Nat) : (State.showForecast s u f detail).mem = s.mem ∧ (State.showForecast s u f detail).pending = s.pending := by simp [State.showForecast]
@[simp] theorem State.landReplan_frame (s : State) (r : Replan) :
    (s.landReplan r).mem = s.mem ∧ (s.landReplan r).pending = s.pending := by
  unfold State.landReplan
  extract_lets wait now s0 src s1 s2 s3 s4
  have h0 : s0.mem = s.mem ∧ s0.pending = s.pending := foldl_keep _ (fun s y => by simp) _ _
  clear_value s0
  have h1 : s1.mem = s.mem ∧ s1.pending = s.pending := by simp only [s1, State.nvWrite_frame]; exact h0
  clear_value s1
  have h2 : s2.mem = s.mem ∧ s2.pending = s.pending := by
    simp only [s2]
    split <;> simp [h1]
  clear_value s2
  have h3 : s3.mem = s.mem ∧ s3.pending = s.pending := by
    have : s3.mem = s2.mem ∧ s3.pending = s2.pending := by
      apply foldl_keep
      intro s x
      extract_lets edges t
      have ht : t.mem = s.mem ∧ t.pending = s.pending := by simp only [t, State.modRail_frame, and_self]
      clear_value t
      split <;> simp [ht]
    exact ⟨this.1.trans h2.1, this.2.trans h2.2⟩
  clear_value s3
  have h4 : s4.mem = s.mem ∧ s4.pending = s.pending := by
    simp only [s4]
    split <;> simp [h3]
  clear_value s4
  split <;> simp [h4]
@[simp] theorem State.replanEnd_frame (s : State) (kind : Nat) (m : ReplanIn) : (State.replanEnd s kind m).mem = s.mem ∧ (State.replanEnd s kind m).pending = s.pending := by
  unfold State.replanEnd
  dsimp only
  repeat' split
  all_goals simp
@[simp] theorem State.replanStart_frame (s : State) (kind : Nat) : (State.replanStart s kind).mem = s.mem ∧ (State.replanStart s kind).pending = s.pending := ⟨rfl, rfl⟩
theorem execReplanDue_frame (s : State) (u : State) (ho : execReplanDue s = .next u) : u.mem = s.mem ∧ u.pending = s.pending := by
  unfold execReplanDue at ho
  dsimp only at ho
  repeat' split at ho
  all_goals simp only [Host.Outcome.next.injEq, reduceCtorEq] at ho
  all_goals (subst ho; simp)
theorem execReplan_frame (s : State) (u : State) (ho : execReplan s = .next u) : u.mem = s.mem ∧ u.pending = s.pending := by
  unfold execReplan at ho
  dsimp only at ho
  repeat' split at ho
  all_goals simp only [Host.Outcome.next.injEq, reduceCtorEq] at ho
  all_goals (subst ho; simp)
theorem execReplanEnd_frame (m : ReplanIn) (s : State) (u : State) (ho : execReplanEnd m s = .next u) : (Memory.wf s.mem = true → Memory.wf u.mem = true) ∧ u.pending = s.pending := by
  unfold execReplanEnd at ho
  try dsimp only at ho
  repeat' split at ho
  all_goals (first | (simp only [reduceCtorEq] at ho; done) | (simp only [Host.Outcome.next.injEq] at ho; subst ho; refine ⟨fun h => ?_, ?_⟩ <;> simp (maxDischargeDepth := 30) [*]; done) | (simp only [Host.Outcome.next.injEq] at ho; subst ho; (refine ⟨fun h => ?_, ?_⟩) <;> simp (disch := ((try intros); (try dsimp only); (repeat' split) <;> (try simp (maxDischargeDepth := 30) [*]))) [*]; done) | skip)
theorem execAgeHistSelect_frame (sel : BitVec 13) (s : State) (u : State) (ho : execAgeHistSelect sel s = .next u) : u.mem = s.mem ∧ u.pending = s.pending := by
  simp only [execAgeHistSelect, Host.Outcome.next.injEq] at ho
  subst ho
  simp
end Sys2Proof.Machine
end

