-- ==== Sys2Proof/Laws/FrameKey.lean ====
section
/-!
SUPPORT. The frames of Machine/Key.lean: every operation keeps the canonical form of the image memory, or leaves it alone, and
keeps the queue of waiting commands.
-/
namespace Sys2Proof.Machine
open Sys2Proof
set_option linter.all false
set_option maxRecDepth 20000
@[simp] theorem State.loadFail_frame (s : State) (r : LoadRes) : (Memory.wf s.mem = true → Memory.wf (State.loadFail s r).mem = true) ∧ (State.loadFail s r).pending = s.pending := ⟨fun h => by simp (maxDischargeDepth := 30) [State.loadFail, h], by simp [State.loadFail]⟩
@[simp] theorem State.touchAtLoad_frame (s : State) (used : Bool) : (State.touchAtLoad s used).mem = s.mem ∧ (State.touchAtLoad s used).pending = s.pending := by
  unfold State.touchAtLoad
  dsimp only
  repeat' split
  all_goals simp
@[simp] theorem State.eraseRegions_frame (s : State) (c : CSecurity) : (State.eraseRegions s c).mem = s.mem ∧ (State.eraseRegions s c).pending = s.pending := by simp [State.eraseRegions]
@[simp] theorem State.railsAtLoad_frame (s : State) : (State.railsAtLoad s).mem = s.mem ∧ (State.railsAtLoad s).pending = s.pending := by
  unfold State.railsAtLoad
  try dsimp only
  repeat' split
  all_goals (try simp)
  all_goals (try simp (disch := ((try intros); (try dsimp only); (repeat' split) <;> (try simp (maxDischargeDepth := 30) [*]))))
@[simp] theorem State.scanAtLoad_frame (s : State) : (State.scanAtLoad s).mem = s.mem ∧ (State.scanAtLoad s).pending = s.pending := by simp [State.scanAtLoad]
@[simp] theorem State.eventsAtLoad_frame (s : State) : (State.eventsAtLoad s).mem = s.mem ∧ (State.eventsAtLoad s).pending = s.pending := by
  unfold State.eventsAtLoad
  dsimp only
  repeat' split
  all_goals simp
@[simp] theorem State.linksAtLoad_frame (s : State) : (State.linksAtLoad s).mem = s.mem ∧ (State.linksAtLoad s).pending = s.pending := by
  unfold State.linksAtLoad
  dsimp only
  repeat' split
  all_goals simp
@[simp] theorem State.paramsAtLoad_frame (s : State) : (State.paramsAtLoad s).mem = s.mem ∧ (State.paramsAtLoad s).pending = s.pending := by
  unfold State.paramsAtLoad
  dsimp only
  repeat' split
  all_goals simp
@[simp] theorem State.nvAtLoad_frame (s : State) : (State.nvAtLoad s).mem = s.mem ∧ (State.nvAtLoad s).pending = s.pending := by
  unfold State.nvAtLoad
  dsimp only
  repeat' split
  all_goals simp
@[simp] theorem State.applyLoad_frame (s : State) (img : Image) (sel : Selector) : (State.applyLoad s img sel).mem = s.mem ∧ (State.applyLoad s img sel).pending = s.pending := by simp [State.applyLoad]
theorem execKeyLoadComplete_frame (x : Marker) (s : State) (u : State) (ho : execKeyLoadComplete x s = .next u) : (Memory.wf s.mem = true → Memory.wf u.mem = true) ∧ u.pending = s.pending := by
  unfold execKeyLoadComplete at ho
  dsimp only at ho
  repeat' split at ho
  all_goals simp only [Host.Outcome.next.injEq, reduceCtorEq] at ho
  all_goals (subst ho; exact ⟨fun h => by simp (maxDischargeDepth := 30) [h], by simp⟩)
@[simp] theorem State.pairFailsCheck_frame (s : State) (q : PPairN) : (State.pairFailsCheck s q).mem = s.mem ∧ (State.pairFailsCheck s q).pending = s.pending := by
  unfold State.pairFailsCheck
  dsimp only
  repeat' split
  all_goals simp
@[simp] theorem State.markFailed_frame (s : State) (t : SelfTest) : (State.markFailed s t).mem = s.mem ∧ (State.markFailed s t).pending = s.pending := by simp [State.markFailed]
@[simp] theorem State.parkFailed_frame (s : State) (t : SelfTest) : (State.parkFailed s t).mem = s.mem ∧ (State.parkFailed s t).pending = s.pending := by simp [State.parkFailed]
theorem execSelftestComplete_frame (t : SelfTest) (m : ReplanIn) (s : State) (u : State) (ho : execSelftestComplete t m s = .next u) : (Memory.wf s.mem = true → Memory.wf u.mem = true) ∧ u.pending = s.pending := by
  unfold execSelftestComplete at ho
  dsimp only at ho
  repeat' split at ho
  all_goals simp only [Host.Outcome.next.injEq, reduceCtorEq] at ho
  all_goals (subst ho; exact ⟨fun h => by simp (maxDischargeDepth := 30) [h], by simp⟩)
@[simp] theorem State.stageEntry_frame (s : State) (name : String) (x : Nat) : (State.stageEntry s name x).mem = s.mem ∧ (State.stageEntry s name x).pending = s.pending := by simp [State.stageEntry]
@[simp] theorem State.stageResult_frame (s : State) (code : Nat) : (State.stageResult s code).mem = s.mem ∧ (State.stageResult s code).pending = s.pending := by simp [State.stageResult]
@[simp] theorem State.stageFail_frame (s : State) (code : BitVec 8) (bank : BankSt) : (State.stageFail s code bank).mem = s.mem ∧ (State.stageFail s code bank).pending = s.pending := by simp [State.stageFail]
@[simp] theorem State.keyGone_frame (s : State) : (State.keyGone s).mem = s.mem ∧ (State.keyGone s).pending = s.pending := by simp [State.keyGone]
theorem execKeyRemoved_frame (s : State) (u : State) (ho : execKeyRemoved s = .next u) : (Memory.wf s.mem = true → Memory.wf u.mem = true) ∧ u.pending = s.pending := by
  unfold execKeyRemoved at ho
  dsimp only at ho
  repeat' split at ho
  all_goals simp only [Host.Outcome.next.injEq, reduceCtorEq] at ho
  all_goals (subst ho; exact ⟨fun h => by simp (maxDischargeDepth := 30) [h], by simp⟩)
theorem execKeyInserted_frame (key : Key) (s : State) (u : State) (ho : execKeyInserted key s = .next u) : u.mem = s.mem ∧ u.pending = s.pending := by
  unfold execKeyInserted at ho
  dsimp only at ho
  repeat' split at ho
  all_goals simp only [Host.Outcome.next.injEq, reduceCtorEq] at ho
  all_goals (subst ho; simp)
@[simp] theorem State.stgResult_frame (s : State) (code : BitVec 8) : (State.stgResult s code).mem = s.mem ∧ (State.stgResult s code).pending = s.pending := ⟨rfl, rfl⟩
theorem execStage_frame (owner : Owner) (downgrade : Bool) (s : State) (u : State) (ho : execStage owner downgrade s = .next u) : u.mem = s.mem ∧ u.pending = s.pending := by
  unfold execStage at ho
  dsimp only at ho
  repeat' split at ho
  all_goals simp only [Host.Outcome.next.injEq, reduceCtorEq] at ho
  all_goals (subst ho; simp)
theorem execStageWriteDone_frame (r : StageWrite) (s : State) (u : State) (ho : execStageWriteDone r s = .next u) : u.mem = s.mem ∧ u.pending = s.pending := by
  unfold execStageWriteDone at ho
  dsimp only at ho
  repeat' split at ho
  all_goals simp only [Host.Outcome.next.injEq, reduceCtorEq] at ho
  all_goals (subst ho; simp)
theorem execStageVerifyDone_frame (x : Marker) (s : State) (u : State) (ho : execStageVerifyDone x s = .next u) : u.mem = s.mem ∧ u.pending = s.pending := by
  unfold execStageVerifyDone at ho
  dsimp only at ho
  repeat' split at ho
  all_goals simp only [Host.Outcome.next.injEq, reduceCtorEq] at ho
  all_goals (subst ho; simp)
theorem execVerify_frame (owner : Owner) (s : State) (u : State) (ho : execVerify owner s = .next u) : u.mem = s.mem ∧ u.pending = s.pending := by
  unfold execVerify at ho
  dsimp only at ho
  repeat' split at ho
  all_goals simp only [Host.Outcome.next.injEq, reduceCtorEq] at ho
  all_goals (subst ho; simp)
@[simp] theorem State.stageAbort_frame (s : State) : (State.stageAbort s).mem = s.mem ∧ (State.stageAbort s).pending = s.pending := by simp [State.stageAbort]
theorem execStageAbort_frame (owner : Owner) (s : State) (u : State) (ho : execStageAbort owner s = .next u) : u.mem = s.mem ∧ u.pending = s.pending := by
  unfold execStageAbort at ho
  try dsimp only at ho
  repeat' split at ho
  all_goals (first | (simp only [reduceCtorEq] at ho; done) | (simp only [Host.Outcome.next.injEq] at ho; subst ho; simp; done) | (simp only [Host.Outcome.next.injEq] at ho; subst ho; simp (disch := ((try intros); (try dsimp only); (repeat' split) <;> (try simp (maxDischargeDepth := 30) [*]))); done) | skip)
theorem execSwitch_frame (owner : Owner) (s : State) (u : State) (ho : execSwitch owner s = .next u) : u.mem = s.mem ∧ u.pending = s.pending := by
  unfold execSwitch at ho
  dsimp only at ho
  repeat' split at ho
  all_goals simp only [Host.Outcome.next.injEq, reduceCtorEq] at ho
  all_goals (subst ho; simp)
theorem execSelectorWriteDone_frame (s : State) (u : State) (ho : execSelectorWriteDone s = .next u) : u.mem = s.mem ∧ u.pending = s.pending := by
  unfold execSelectorWriteDone at ho
  dsimp only at ho
  repeat' split at ho
  all_goals simp only [Host.Outcome.next.injEq, reduceCtorEq] at ho
  all_goals (subst ho; simp)
end Sys2Proof.Machine
end

