-- ==== Sys2Proof/Laws/FrameTakes.lean ====
section
/-!
SUPPORT. The frames of Machine/Takes.lean: every operation keeps the canonical form of the image memory, or leaves it alone, and
keeps the queue of waiting commands.
-/
namespace Sys2Proof.Machine
open Sys2Proof
set_option linter.all false
set_option maxRecDepth 20000
@[simp] theorem State.partAnswers_frame (s : State) (n : Nat) (f : Nat → Ans) : (State.partAnswers s n f).mem = s.mem ∧ (State.partAnswers s n f).pending = s.pending := by simp [State.partAnswers]
@[simp] theorem State.takeRefused_frame (s : State) (f : Nat → Ans) : (State.takeRefused s f).mem = s.mem ∧ (State.takeRefused s f).pending = s.pending := by simp [State.takeRefused]
@[simp] theorem State.prepare_frame (s : State) (n : Nat) (target : DWord) : (State.prepare s n target).mem = s.mem ∧ (State.prepare s n target).pending = s.pending := by simp [State.prepare]
@[simp] theorem State.takeSet_frame (s : State) (n : Nat) (target : DWord) : (State.takeSet s n target).mem = s.mem ∧ (State.takeSet s n target).pending = s.pending := by simp [State.takeSet]
theorem execTake_frame (count : BitVec 6) (s : State) (u : State) (ho : execTake count s = .next u) : u.mem = s.mem ∧ u.pending = s.pending := by
  unfold execTake at ho
  dsimp only at ho
  repeat' split at ho
  all_goals simp only [Host.Outcome.next.injEq, reduceCtorEq] at ho
  all_goals (subst ho; simp)
theorem execTakePrepared_frame (x : Marker) (s : State) (u : State) (ho : execTakePrepared x s = .next u) : u.mem = s.mem ∧ u.pending = s.pending := by
  unfold execTakePrepared at ho
  dsimp only at ho
  repeat' split at ho
  all_goals simp only [Host.Outcome.next.injEq, reduceCtorEq] at ho
  all_goals (subst ho; simp)
@[simp] theorem State.settleInputs_frame (s : State) (f : CScanEntry → Bool) (k : Nat) : (State.settleInputs s f k).mem = s.mem ∧ (State.settleInputs s f k).pending = s.pending := by simp [State.settleInputs]
@[simp] theorem State.landRail_frame (s : State) (n : RailN) (old : Option CRail) : (State.landRail s n old).mem = s.mem ∧ (State.landRail s n old).pending = s.pending := by
  unfold State.landRail
  dsimp only
  repeat' split
  all_goals simp
@[simp] theorem State.landScan_frame (s : State) (c : ConvN) (old : Cfg) : (State.landScan s c old).mem = s.mem ∧ (State.landScan s c old).pending = s.pending := by
  unfold State.landScan
  dsimp only
  repeat' split
  all_goals simp
@[simp] theorem State.landProg_frame (s : State) (n : ProgN) : (State.landProg s n).mem = s.mem ∧ (State.landProg s n).pending = s.pending := by
  unfold State.landProg
  dsimp only
  repeat' split
  all_goals simp
@[simp] theorem State.endWaiting_frame (s : State) (l : LPairN) : (State.endWaiting s l).mem = s.mem ∧ (State.endWaiting s l).pending = s.pending := by
  unfold State.endWaiting
  try dsimp only
  repeat' split
  all_goals (try simp)
  all_goals (try simp (disch := ((try intros); (try dsimp only); (repeat' split) <;> (try simp (maxDischargeDepth := 30) [*]))))
@[simp] theorem State.landPart_frame (s : State) (old : Cfg) (x : Nat × Nat × Option Sec) : (State.landPart s old x).mem = s.mem ∧ (State.landPart s old x).pending = s.pending := by
  unfold State.landPart
  repeat' split
  all_goals simp
@[simp] theorem State.removedPart_frame (s : State) (typ inst : Nat) : (State.removedPart s typ inst).mem = s.mem ∧ (State.removedPart s typ inst).pending = s.pending := by simp [State.removedPart]
@[simp] theorem State.notePart_frame (s : State) (x : Nat × Nat × Option Sec) : (State.notePart s x).mem = s.mem ∧ (State.notePart s x).pending = s.pending := by
  unfold State.notePart
  repeat' split
  all_goals simp
@[simp] theorem State.noteUnchanged_frame (s : State) (x : Nat × Nat × Option Sec) : (State.noteUnchanged s x).mem = s.mem ∧ (State.noteUnchanged s x).pending = s.pending := ⟨rfl, rfl⟩
@[simp] theorem State.meterPart_frame (s : State) (x : Nat × Nat × Option Sec) : (State.meterPart s x).mem = s.mem ∧ (State.meterPart s x).pending = s.pending := by
  unfold State.meterPart
  dsimp only
  repeat' split
  all_goals simp
@[simp] theorem State.landSet_frame (s : State) : (State.landSet s).mem = s.mem ∧ (State.landSet s).pending = s.pending := by simp [State.landSet]
@[simp] theorem State.landTake_frame (s : State) : (State.landTake s).mem = s.mem ∧ (State.landTake s).pending = s.pending := by
  unfold State.landTake
  repeat' split
  all_goals simp
end Sys2Proof.Machine
end

