-- ==== Sys2Proof/Laws/FrameWatchdogs.lean ====
section
/-!
SUPPORT. The frames of Machine/Watchdogs.lean: every operation keeps the canonical form of the image memory, or leaves it alone, and
keeps the queue of waiting commands.
-/
namespace Sys2Proof.Machine
open Sys2Proof
set_option linter.all false
set_option maxRecDepth 20000
theorem execHostLinkDown_frame (s : State) (u : State) (ho : execHostLinkDown s = .next u) : u.mem = s.mem ∧ u.pending = s.pending := by
  simp only [execHostLinkDown, Host.Outcome.next.injEq] at ho
  subst ho
  simp
theorem execHostLinkUp_frame (width rate : Nat) (s : State) (u : State) (ho : execHostLinkUp width rate s = .next u) : u.mem = s.mem ∧ u.pending = s.pending := by
  unfold execHostLinkUp at ho
  dsimp only at ho
  repeat' split at ho
  all_goals simp only [Host.Outcome.next.injEq, reduceCtorEq] at ho
  all_goals (subst ho; simp)
@[simp] theorem State.discardItems_frame (s : State) (q : QueueN) (d : Fin 16) : (State.discardItems s q d).mem = s.mem ∧ (State.discardItems s q d).pending = s.pending := by simp [State.discardItems]
@[simp] theorem State.resetQueues_frame (s : State) : (State.resetQueues s).mem = s.mem ∧ (State.resetQueues s).pending = s.pending := by
  unfold State.resetQueues
  try dsimp only
  repeat' split
  all_goals (try simp)
  all_goals (try simp (disch := ((try intros); (try dsimp only); (repeat' split) <;> (try simp (maxDischargeDepth := 30) [*]))))
@[simp] theorem State.resetStaging_frame (s : State) : (State.resetStaging s).mem = s.mem ∧ (State.resetStaging s).pending = s.pending := by simp [State.resetStaging]
@[simp] theorem State.hostFacingReset_frame (s : State) : (State.hostFacingReset s).mem = s.mem ∧ (State.hostFacingReset s).pending = s.pending := by simp [State.hostFacingReset]
theorem execPerstAssert_frame (s : State) (u : State) (ho : execPerstAssert s = .next u) : u.mem = s.mem ∧ u.pending = s.pending := by
  unfold execPerstAssert at ho
  dsimp only at ho
  repeat' split at ho
  all_goals simp only [Host.Outcome.next.injEq, reduceCtorEq] at ho
  all_goals (subst ho; simp)
theorem execHostFunctionReset_frame (s : State) (u : State) (ho : execHostFunctionReset s = .next u) : u.mem = s.mem ∧ u.pending = s.pending := by
  unfold execHostFunctionReset at ho
  try dsimp only at ho
  repeat' split at ho
  all_goals (first | (simp only [reduceCtorEq] at ho; done) | (simp only [Host.Outcome.next.injEq] at ho; subst ho; simp; done) | (simp only [Host.Outcome.next.injEq] at ho; subst ho; simp (disch := ((try intros); (try dsimp only); (repeat' split) <;> (try simp (maxDischargeDepth := 30) [*]))); done) | skip)
@[simp] theorem State.hostReset_frame (s : State) : (State.hostReset s).mem = s.mem ∧ (State.hostReset s).pending = s.pending := by simp [State.hostReset]
theorem execMrstPress_frame (s : State) (u : State) (ho : execMrstPress s = .next u) : u.mem = s.mem ∧ u.pending = s.pending := by
  unfold execMrstPress at ho
  dsimp only at ho
  repeat' split at ho
  all_goals simp only [Host.Outcome.next.injEq, reduceCtorEq] at ho
  all_goals (subst ho; simp)
theorem execMrstRelease_frame (s : State) (u : State) (ho : execMrstRelease s = .next u) : u.mem = s.mem ∧ u.pending = s.pending := by
  unfold execMrstRelease at ho
  dsimp only at ho
  repeat' split at ho
  all_goals simp only [Host.Outcome.next.injEq, reduceCtorEq] at ho
  all_goals (subst ho; simp)
theorem execMrstRestartPress_frame (s : State) (u : State) (ho : execMrstRestartPress s = .next u) : (Memory.wf s.mem = true → Memory.wf u.mem = true) ∧ u.pending = s.pending := by
  unfold execMrstRestartPress at ho
  dsimp only at ho
  repeat' split at ho
  all_goals simp only [Host.Outcome.next.injEq, reduceCtorEq] at ho
  all_goals (subst ho; exact ⟨fun h => by simp (maxDischargeDepth := 30) [h], by simp⟩)
theorem execMrstStuck_frame (s : State) (u : State) (ho : execMrstStuck s = .next u) : u.mem = s.mem ∧ u.pending = s.pending := by
  unfold execMrstStuck at ho
  dsimp only at ho
  repeat' split at ho
  all_goals simp only [Host.Outcome.next.injEq, reduceCtorEq] at ho
  all_goals (subst ho; simp)
theorem execMrstHeldEnd_frame (s : State) (u : State) (ho : execMrstHeldEnd s = .next u) : u.mem = s.mem ∧ u.pending = s.pending := by
  unfold execMrstHeldEnd at ho
  dsimp only at ho
  repeat' split at ho
  all_goals simp only [Host.Outcome.next.injEq, reduceCtorEq] at ho
  all_goals (subst ho; simp)
theorem execHostResetEnd_frame (s : State) (u : State) (ho : execHostResetEnd s = .next u) : u.mem = s.mem ∧ u.pending = s.pending := by
  unfold execHostResetEnd at ho
  dsimp only at ho
  repeat' split at ho
  all_goals simp only [Host.Outcome.next.injEq, reduceCtorEq] at ho
  all_goals (subst ho; simp)
@[simp] theorem State.domainCycle_frame (s : State) (d : Fin 16) : (Memory.wf s.mem = true → Memory.wf (State.domainCycle s d).mem = true) ∧ (State.domainCycle s d).pending = s.pending := by
  unfold State.domainCycle
  try dsimp only
  repeat' split
  all_goals (refine ⟨fun h => ?_, ?_⟩ <;> (try simp (maxDischargeDepth := 30) [h]))
  all_goals (try with_reducible apply foldl_wf)
  all_goals (try (intros; (try dsimp only); (repeat' split) <;> simp (maxDischargeDepth := 30) [*]; done))
  all_goals (try simp (disch := ((try intros); (try dsimp only); (repeat' split) <;> (try simp (maxDischargeDepth := 30) [*]))) [*])
@[simp] theorem State.wdgExpire_frame (s : State) (late : Bool) : (Memory.wf s.mem = true → Memory.wf (State.wdgExpire s late).mem = true) ∧ (State.wdgExpire s late).pending = s.pending := by
  unfold State.wdgExpire
  dsimp only
  repeat' split
  all_goals exact ⟨fun h => by simp (maxDischargeDepth := 30) [h], by simp⟩
theorem execHostWdgService_frame (w : Word) (s : State) (u : State) (ho : execHostWdgService w s = .next u) : (Memory.wf s.mem = true → Memory.wf u.mem = true) ∧ u.pending = s.pending := by
  unfold execHostWdgService at ho
  dsimp only at ho
  repeat' split at ho
  all_goals simp only [Host.Outcome.next.injEq, reduceCtorEq] at ho
  all_goals (subst ho; exact ⟨fun h => by simp (maxDischargeDepth := 30) [h], by simp⟩)
theorem execHostWdgExpiry_frame (s : State) (u : State) (ho : execHostWdgExpiry s = .next u) : (Memory.wf s.mem = true → Memory.wf u.mem = true) ∧ u.pending = s.pending := by
  unfold execHostWdgExpiry at ho
  try dsimp only at ho
  repeat' split at ho
  all_goals (first | (simp only [reduceCtorEq] at ho; done) | (simp only [Host.Outcome.next.injEq] at ho; subst ho; refine ⟨fun h => ?_, ?_⟩ <;> simp (maxDischargeDepth := 30) [*]; done) | (simp only [Host.Outcome.next.injEq] at ho; subst ho; (refine ⟨fun h => ?_, ?_⟩) <;> simp (disch := ((try intros); (try dsimp only); (repeat' split) <;> (try simp (maxDischargeDepth := 30) [*]))) [*]; done) | skip)
@[simp] theorem State.wdgAnswer_frame (s : State) (o : Owner) (a : Ans) : (State.wdgAnswer s o a).mem = s.mem ∧ (State.wdgAnswer s o a).pending = s.pending := by
  unfold State.wdgAnswer
  dsimp only
  repeat' split
  all_goals simp
theorem execWdgDisableArm_frame (o : Owner) (s : State) (u : State) (ho : execWdgDisableArm o s = .next u) : u.mem = s.mem ∧ u.pending = s.pending := by
  unfold execWdgDisableArm at ho
  dsimp only at ho
  repeat' split at ho
  all_goals simp only [Host.Outcome.next.injEq, reduceCtorEq] at ho
  all_goals (subst ho; simp)
theorem execWdgDisableConfirm_frame (o : Owner) (which : BitVec 2) (s : State) (u : State) (ho : execWdgDisableConfirm o which s = .next u) : u.mem = s.mem ∧ u.pending = s.pending := by
  unfold execWdgDisableConfirm at ho
  dsimp only at ho
  repeat' split at ho
  all_goals simp only [Host.Outcome.next.injEq, reduceCtorEq] at ho
  all_goals (subst ho; simp)
end Sys2Proof.Machine
end

