-- ==== Sys2Proof/Laws/FrameLinks.lean ====
section
/-!
SUPPORT. The frames of Machine/Links.lean: every operation keeps the canonical form of the image memory, or leaves it alone, and
keeps the queue of waiting commands.
-/
namespace Sys2Proof.Machine
open Sys2Proof
set_option linter.all false
set_option maxRecDepth 20000
@[simp] theorem State.modNet_frame (s : State) (n : Fin 4) (f : NetPort → NetPort) : (State.modNet s n f).mem = s.mem ∧ (State.modNet s n f).pending = s.pending := ⟨rfl, rfl⟩
@[simp] theorem State.selectPort_frame (s : State) : (State.selectPort s).mem = s.mem ∧ (State.selectPort s).pending = s.pending := by
  unfold State.selectPort
  dsimp only
  repeat' split
  all_goals simp
@[simp] theorem State.noteLeap_frame (s : State) (n : Fin 4) : (State.noteLeap s n).mem = s.mem ∧ (State.noteLeap s n).pending = s.pending := by
  unfold State.noteLeap
  dsimp only
  repeat' split
  all_goals simp
theorem execPtpAnnounceRx_frame (n : Fin 4) (a : Announce) (s : State) (u : State) (ho : execPtpAnnounceRx n a s = .next u) : u.mem = s.mem ∧ u.pending = s.pending := by
  unfold execPtpAnnounceRx at ho
  dsimp only at ho
  repeat' split at ho
  all_goals simp only [Host.Outcome.next.injEq, reduceCtorEq] at ho
  all_goals (subst ho; simp)
theorem execPtpMasterLoss_frame (n : Fin 4) (s : State) (u : State) (ho : execPtpMasterLoss n s = .next u) : u.mem = s.mem ∧ u.pending = s.pending := by
  simp only [execPtpMasterLoss, Host.Outcome.next.injEq] at ho
  subst ho
  simp
@[simp] theorem State.correctUtc_frame (s : State) (offset : Int) : (State.correctUtc s offset).mem = s.mem ∧ (State.correctUtc s offset).pending = s.pending := by simp [State.correctUtc]
theorem execPtpSyncRx_frame (n : Fin 4) (offset : Int) (delay : Nat) (utc : DWord) (s : State) (u : State) (ho : execPtpSyncRx n offset delay utc s = .next u) : u.mem = s.mem ∧ u.pending = s.pending := by
  unfold execPtpSyncRx at ho
  dsimp only at ho
  repeat' split at ho
  all_goals simp only [Host.Outcome.next.injEq, reduceCtorEq] at ho
  all_goals (subst ho; simp)
theorem execNetLinkChange_frame (port : Fin 5) (isUp g1000 : Bool) (s : State) (u : State) (ho : execNetLinkChange port isUp g1000 s = .next u) : u.mem = s.mem ∧ u.pending = s.pending := by
  unfold execNetLinkChange at ho
  dsimp only at ho
  repeat' split at ho
  all_goals simp only [Host.Outcome.next.injEq, reduceCtorEq] at ho
  all_goals (subst ho; simp)
theorem execSpeedReportRx_frame (n : Fin 4) (data : List Byte) (s : State) (u : State) (ho : execSpeedReportRx n data s = .next u) : u.mem = s.mem ∧ u.pending = s.pending := by
  unfold execSpeedReportRx at ho
  dsimp only at ho
  repeat' split at ho
  all_goals simp only [Host.Outcome.next.injEq, reduceCtorEq] at ho
  all_goals (subst ho; simp)
theorem execLocationRx_frame (n : Fin 4) (data : List Byte) (s : State) (u : State) (ho : execLocationRx n data s = .next u) : u.mem = s.mem ∧ u.pending = s.pending := by
  unfold execLocationRx at ho
  dsimp only at ho
  repeat' split at ho
  all_goals simp only [Host.Outcome.next.injEq, reduceCtorEq] at ho
  all_goals (subst ho; simp)
theorem execStatusTelegram_frame (s : State) (u : State) (ho : execStatusTelegram s = .next u) : u.mem = s.mem ∧ u.pending = s.pending := by
  unfold execStatusTelegram at ho
  dsimp only at ho
  repeat' split at ho
  all_goals simp only [Host.Outcome.next.injEq, reduceCtorEq] at ho
  all_goals (subst ho; simp)
theorem execWakeFrameRx_frame (n : Fin 4) (payload : List Byte) (s : State) (u : State) (ho : execWakeFrameRx n payload s = .next u) : (Memory.wf s.mem = true → Memory.wf u.mem = true) ∧ u.pending = s.pending := by
  unfold execWakeFrameRx at ho
  dsimp only at ho
  repeat' split at ho
  all_goals simp only [Host.Outcome.next.injEq, reduceCtorEq] at ho
  all_goals (subst ho; exact ⟨fun h => by simp (maxDischargeDepth := 30) [h], by simp⟩)
@[simp] theorem State.netRequest_frame (s : State) (off : Bool) : (Memory.wf s.mem = true → Memory.wf (State.netRequest s off).mem = true) ∧ (State.netRequest s off).pending = s.pending := by
  unfold State.netRequest
  dsimp only
  repeat' split
  all_goals exact ⟨fun h => by simp (maxDischargeDepth := 30) [h], by simp⟩
theorem execNetOffRequest_frame (s : State) (u : State) (ho : execNetOffRequest s = .next u) : (Memory.wf s.mem = true → Memory.wf u.mem = true) ∧ u.pending = s.pending := by
  simp only [execNetOffRequest, Host.Outcome.next.injEq] at ho
  subst ho
  exact ⟨fun h => by simp [h], by simp⟩
theorem execNetOnRequest_frame (s : State) (u : State) (ho : execNetOnRequest s = .next u) : (Memory.wf s.mem = true → Memory.wf u.mem = true) ∧ u.pending = s.pending := by
  simp only [execNetOnRequest, Host.Outcome.next.injEq] at ho
  subst ho
  exact ⟨fun h => by simp [h], by simp⟩
theorem execNetRailCommand_frame (n : RailN) (code : BitVec 8) (s : State) (u : State) (ho : execNetRailCommand n code s = .next u) : u.mem = s.mem ∧ u.pending = s.pending := by
  unfold execNetRailCommand at ho
  try dsimp only at ho
  repeat' split at ho
  all_goals (first | (simp only [reduceCtorEq] at ho; done) | (simp only [Host.Outcome.next.injEq] at ho; subst ho; simp; done) | (simp only [Host.Outcome.next.injEq] at ho; subst ho; simp (disch := ((try intros); (try dsimp only); (repeat' split) <;> (try simp (maxDischargeDepth := 30) [*]))); done) | skip)
end Sys2Proof.Machine
end

