-- ==== Sys2Proof/Laws/FrameSecurity.lean ====
section
/-!
SUPPORT. The frames of Machine/Security.lean: every operation keeps the canonical form of the image memory, or leaves it alone, and
keeps the queue of waiting commands.
-/
namespace Sys2Proof.Machine
open Sys2Proof
set_option linter.all false
set_option maxRecDepth 20000
@[simp] theorem State.onSession_frame (s : State) (n : Fin 4) (f : Session → State → State)
    (hf : ∀ x s, (f x s).mem = s.mem ∧ (f x s).pending = s.pending) :
    (s.onSession n f).mem = s.mem ∧ (s.onSession n f).pending = s.pending := by
  unfold State.onSession
  split <;> simp [hf]
theorem State.onSession_wf (s : State) (n : Fin 4) (f : Session → State → State)
    (hf : ∀ x s, (Memory.wf s.mem = true → Memory.wf (f x s).mem = true) ∧ (f x s).pending = s.pending) :
    (Memory.wf s.mem = true → Memory.wf (s.onSession n f).mem = true) ∧ (s.onSession n f).pending = s.pending := by
  unfold State.onSession
  split
  · exact ⟨id, rfl⟩
  · exact ⟨fun h => (hf _ _).1 (by simp [h]), (hf _ _).2.trans (by simp)⟩
@[simp] theorem State.auth_frame (s : State) (n : Fin 4) (a : Ans) (ws : List Word) : (State.auth s n a ws).mem = s.mem ∧ (State.auth s n a ws).pending = s.pending := ⟨rfl, rfl⟩
theorem execChallenge_frame (n : Fin 4) (index : Byte) (s : State) (u : State) (ho : execChallenge n index s = .next u) : u.mem = s.mem ∧ u.pending = s.pending := by
  simp only [execChallenge, Host.Outcome.next.injEq] at ho
  subst ho
  simp
theorem execLogin_frame (n : Fin 4) (index : Byte) (proof : List Byte) (s : State) (u : State) (ho : execLogin n index proof s = .next u) : u.mem = s.mem ∧ u.pending = s.pending := by
  unfold execLogin at ho
  try dsimp only at ho
  repeat' split at ho
  all_goals (first | (simp only [reduceCtorEq] at ho; done) | (simp only [Host.Outcome.next.injEq] at ho; subst ho; simp; done) | (simp only [Host.Outcome.next.injEq] at ho; subst ho; simp (disch := ((try intros); (try dsimp only); (repeat' split) <;> (try simp (maxDischargeDepth := 30) [*]))); done) | skip)
theorem execLogout_frame (n : Fin 4) (s : State) (u : State) (ho : execLogout n s = .next u) : u.mem = s.mem ∧ u.pending = s.pending := by
  simp only [execLogout, Host.Outcome.next.injEq] at ho
  subst ho
  simp
theorem execSetPassword_frame (n : Fin 4) (p : PwdFields) (s : State) (u : State) (ho : execSetPassword n p s = .next u) : u.mem = s.mem ∧ u.pending = s.pending := by
  unfold execSetPassword at ho
  dsimp only at ho
  repeat' split at ho
  all_goals simp only [Host.Outcome.next.injEq, reduceCtorEq] at ho
  all_goals (subst ho; simp)
@[simp] theorem State.provisionNow_frame (s : State) (n : Fin 4) (key : List Byte) (v : List Verifier) : (State.provisionNow s n key v).mem = s.mem ∧ (State.provisionNow s n key v).pending = s.pending := by simp [State.provisionNow]
theorem execProvision_frame (n : Fin 4) (key : List Byte) (p : List PwdFields) (s : State) (u : State) (ho : execProvision n key p s = .next u) : u.mem = s.mem ∧ u.pending = s.pending := by
  simp only [execProvision, Host.Outcome.next.injEq] at ho
  subst ho
  simp
theorem execRekey_frame (n : Fin 4) (key : List Byte) (sig : List Byte) (s : State) (u : State) (ho : execRekey n key sig s = .next u) : u.mem = s.mem ∧ u.pending = s.pending := by
  simp only [execRekey, Host.Outcome.next.injEq] at ho
  subst ho
  simp
@[simp] theorem State.secAnswer_frame (s : State) (o : Owner) (a : Ans) : (State.secAnswer s o a).mem = s.mem ∧ (State.secAnswer s o a).pending = s.pending := by
  unfold State.secAnswer
  dsimp only
  repeat' split
  all_goals simp
@[simp] theorem State.releaseBegin_frame (s : State) (o : Owner) (force : Bool) : (State.releaseBegin s o force).mem = s.mem ∧ (State.releaseBegin s o force).pending = s.pending := by
  unfold State.releaseBegin
  dsimp only
  repeat' split
  all_goals simp
@[simp] theorem State.releaseJudge_frame (s : State) (o : Owner) (force : Bool) (go : State → State)
    (hf : ∀ s, (go s).mem = s.mem ∧ (go s).pending = s.pending) :
    (s.releaseJudge o force go).mem = s.mem ∧ (s.releaseJudge o force go).pending = s.pending := by
  unfold State.releaseJudge
  split <;> simp [hf]
@[simp] theorem State.releaseWait_frame (s : State) (o : Owner) (force : Bool) : (State.releaseWait s o force).mem = s.mem ∧ (State.releaseWait s o force).pending = s.pending := ⟨rfl, rfl⟩
@[simp] theorem State.releaseAsk_frame (s : State) (o : Owner) (force : Bool) (pwd : List Byte) : (State.releaseAsk s o force pwd).mem = s.mem ∧ (State.releaseAsk s o force pwd).pending = s.pending := by
  unfold State.releaseAsk
  repeat' split
  all_goals simp
theorem execReleaseForReturn_frame (o : Owner) (force : Bool) (s : State) (u : State) (ho : execReleaseForReturn o force s = .next u) : u.mem = s.mem ∧ u.pending = s.pending := by
  unfold execReleaseForReturn at ho
  dsimp only at ho
  repeat' split at ho
  all_goals simp only [Host.Outcome.next.injEq, reduceCtorEq] at ho
  all_goals (subst ho; simp)
@[simp] theorem State.eraseUser_frame (s : State) : (State.eraseUser s).mem = s.mem ∧ (State.eraseUser s).pending = s.pending := ⟨rfl, rfl⟩
theorem execReleaseDone_frame (s : State) (u : State) (ho : execReleaseDone s = .next u) : (Memory.wf s.mem = true → Memory.wf u.mem = true) ∧ u.pending = s.pending := by
  unfold execReleaseDone at ho
  dsimp only at ho
  repeat' split at ho
  all_goals simp only [Host.Outcome.next.injEq, reduceCtorEq] at ho
  all_goals (subst ho; exact ⟨fun h => by simp (maxDischargeDepth := 30) [h], by simp⟩)
@[simp] theorem State.presence_frame (s : State) : (State.presence s).mem = s.mem ∧ (State.presence s).pending = s.pending := by
  unfold State.presence
  repeat' split
  all_goals simp
theorem execPresenceTimeout_frame (s : State) (u : State) (ho : execPresenceTimeout s = .next u) : u.mem = s.mem ∧ u.pending = s.pending := by
  unfold execPresenceTimeout at ho
  dsimp only at ho
  repeat' split at ho
  all_goals simp only [Host.Outcome.next.injEq, reduceCtorEq] at ho
  all_goals (subst ho; simp)
theorem execMaker_frame (n : Fin 4) (token : List Byte) (s : State) (u : State) (ho : execMaker n token s = .next u) : u.mem = s.mem ∧ u.pending = s.pending := by
  simp only [execMaker, Host.Outcome.next.injEq] at ho
  subst ho
  simp
theorem execGirdleBreach_frame (b : Breach) (s : State) (u : State) (ho : execGirdleBreach b s = .next u) : u.mem = s.mem ∧ u.pending = s.pending := by
  unfold execGirdleBreach at ho
  dsimp only at ho
  repeat' split at ho
  all_goals simp only [Host.Outcome.next.injEq, reduceCtorEq] at ho
  all_goals (subst ho; simp)
end Sys2Proof.Machine
end

