-- ==== Sys2Proof/Laws/FrameTouch.lean ====
section
/-!
SUPPORT. The frames of Machine/Touch.lean: every operation keeps the canonical form of the image memory, or leaves it alone, and
keeps the queue of waiting commands.
-/
namespace Sys2Proof.Machine
open Sys2Proof
set_option linter.all false
set_option maxRecDepth 20000
@[simp] theorem State.modTouch_frame (s : State) (f : Touch → Touch) : (State.modTouch s f).mem = s.mem ∧ (State.modTouch s f).pending = s.pending := ⟨rfl, rfl⟩
@[simp] theorem State.touchAct_frame (s : State) (code : Nat) (name : String) (detail : List Nat) : (State.touchAct s code name detail).mem = s.mem ∧ (State.touchAct s code name detail).pending = s.pending := by simp [State.touchAct]
@[simp] theorem State.shortTouch_frame (s : State) : (State.shortTouch s).mem = s.mem ∧ (State.shortTouch s).pending = s.pending := by
  unfold State.shortTouch
  dsimp only
  repeat' split
  all_goals simp
@[simp] theorem State.touchEnd_frame (s : State) (d : Ns) (forced : Bool) : (State.touchEnd s d forced).mem = s.mem ∧ (State.touchEnd s d forced).pending = s.pending := by simp [State.touchEnd]
@[simp] theorem State.touchFirst_frame (s : State) (count : Int) : (State.touchFirst s count).mem = s.mem ∧ (State.touchFirst s count).pending = s.pending := by simp [State.touchFirst]
@[simp] theorem State.touchHold_frame (s : State) : (Memory.wf s.mem = true → Memory.wf (State.touchHold s).mem = true) ∧ (State.touchHold s).pending = s.pending := by
  unfold State.touchHold
  dsimp only
  repeat' split
  all_goals exact ⟨fun h => by simp (maxDischargeDepth := 30) [h], by simp⟩
@[simp] theorem State.touchStep_frame (s : State) (count : Int) : (Memory.wf s.mem = true → Memory.wf (State.touchStep s count).mem = true) ∧ (State.touchStep s count).pending = s.pending := by
  unfold State.touchStep
  dsimp only
  repeat' split
  all_goals exact ⟨fun h => by simp (maxDischargeDepth := 30) [h], by simp⟩
theorem execTouchSample_frame (count : Int) (s : State) (u : State) (ho : execTouchSample count s = .next u) : (Memory.wf s.mem = true → Memory.wf u.mem = true) ∧ u.pending = s.pending := by
  unfold execTouchSample at ho
  dsimp only at ho
  repeat' split at ho
  all_goals simp only [Host.Outcome.next.injEq, reduceCtorEq] at ho
  all_goals (subst ho; exact ⟨fun h => by simp (maxDischargeDepth := 30) [h], by simp⟩)
theorem execTouchForceOff_frame (s : State) (u : State) (ho : execTouchForceOff s = .next u) : (Memory.wf s.mem = true → Memory.wf u.mem = true) ∧ u.pending = s.pending := by
  unfold execTouchForceOff at ho
  dsimp only at ho
  repeat' split at ho
  all_goals simp only [Host.Outcome.next.injEq, reduceCtorEq] at ho
  all_goals (subst ho; exact ⟨fun h => by simp (maxDischargeDepth := 30) [h], by simp⟩)
theorem execTouchRundownOff_frame (s : State) (u : State) (ho : execTouchRundownOff s = .next u) : (Memory.wf s.mem = true → Memory.wf u.mem = true) ∧ u.pending = s.pending := by
  unfold execTouchRundownOff at ho
  dsimp only at ho
  repeat' split at ho
  all_goals simp only [Host.Outcome.next.injEq, reduceCtorEq] at ho
  all_goals (subst ho; exact ⟨fun h => by simp (maxDischargeDepth := 30) [h], by simp⟩)
theorem execTouchStuck_frame (s : State) (u : State) (ho : execTouchStuck s = .next u) : u.mem = s.mem ∧ u.pending = s.pending := by
  unfold execTouchStuck at ho
  dsimp only at ho
  repeat' split at ho
  all_goals simp only [Host.Outcome.next.injEq, reduceCtorEq] at ho
  all_goals (subst ho; simp)
theorem execTouchPowerupRelease_frame (s : State) (u : State) (ho : execTouchPowerupRelease s = .next u) : u.mem = s.mem ∧ u.pending = s.pending := by
  unfold execTouchPowerupRelease at ho
  try dsimp only at ho
  repeat' split at ho
  all_goals (first | (simp only [reduceCtorEq] at ho; done) | (simp only [Host.Outcome.next.injEq] at ho; subst ho; simp; done) | (simp only [Host.Outcome.next.injEq] at ho; subst ho; simp (disch := ((try intros); (try dsimp only); (repeat' split) <;> (try simp (maxDischargeDepth := 30) [*]))); done) | skip)
theorem execDisplayPageTimeout_frame (s : State) (u : State) (ho : execDisplayPageTimeout s = .next u) : u.mem = s.mem ∧ u.pending = s.pending := by
  simp only [execDisplayPageTimeout, Host.Outcome.next.injEq] at ho
  subst ho
  simp
end Sys2Proof.Machine
end

