-- ==== Sys2Proof/Laws/FrameTailstock.lean ====
section
/-!
SUPPORT. The frames of Machine/Tailstock.lean: every operation keeps the canonical form of the image memory, or leaves it alone, and
keeps the queue of waiting commands.
-/
namespace Sys2Proof.Machine
open Sys2Proof
set_option linter.all false
set_option maxRecDepth 20000
@[simp] theorem State.modHsb_frame (s : State) (f : Hsb → Hsb) : (State.modHsb s f).mem = s.mem ∧ (State.modHsb s f).pending = s.pending := ⟨rfl, rfl⟩
@[simp] theorem State.adoptGrid_frame (s : State) : (State.adoptGrid s).mem = s.mem ∧ (State.adoptGrid s).pending = s.pending := ⟨rfl, rfl⟩
@[simp] theorem State.enterSync_frame (s : State) : (State.enterSync s).mem = s.mem ∧ (State.enterSync s).pending = s.pending := ⟨rfl, rfl⟩
@[simp] theorem State.takeover_frame (s : State) : (State.takeover s).mem = s.mem ∧ (State.takeover s).pending = s.pending := by simp [State.takeover]
@[simp] theorem State.partnerLost_frame (s : State) : (State.partnerLost s).mem = s.mem ∧ (State.partnerLost s).pending = s.pending := by
  unfold State.partnerLost
  dsimp only
  repeat' split
  all_goals simp
@[simp] theorem State.readyLost_frame (s : State) : (State.readyLost s).mem = s.mem ∧ (State.readyLost s).pending = s.pending := by simp [State.readyLost]
@[simp] theorem State.primaryAlone_frame (s : State) : (State.primaryAlone s).mem = s.mem ∧ (State.primaryAlone s).pending = s.pending := by simp [State.primaryAlone]
@[simp] theorem State.dualPrimary_frame (s : State) (b : Beat) (first : Bool) : (State.dualPrimary s b first).mem = s.mem ∧ (State.dualPrimary s b first).pending = s.pending := by simp [State.dualPrimary]
@[simp] theorem State.judgeRole_frame (s : State) (b : Beat) (first : Bool) : (State.judgeRole s b first).mem = s.mem ∧ (State.judgeRole s b first).pending = s.pending := by
  unfold State.judgeRole
  repeat' split
  all_goals simp
@[simp] theorem State.judgePrep_frame (s : State) (b : Beat) : (State.judgePrep s b).mem = s.mem ∧ (State.judgePrep s b).pending = s.pending := by simp [State.judgePrep]
@[simp] theorem State.beatValid_frame (s : State) (x : Heartbeat) : (State.beatValid s x).mem = s.mem ∧ (State.beatValid s x).pending = s.pending := by simp [State.beatValid]
@[simp] theorem State.miswire_frame (s : State) : (State.miswire s).mem = s.mem ∧ (State.miswire s).pending = s.pending := by
  unfold State.miswire
  dsimp only
  repeat' split
  all_goals simp
theorem execHeartbeatRx_frame (k : Fin 2) (b : Heartbeat) (s : State) (u : State) (ho : execHeartbeatRx k b s = .next u) : u.mem = s.mem ∧ u.pending = s.pending := by
  unfold execHeartbeatRx at ho
  dsimp only at ho
  repeat' split at ho
  all_goals simp only [Host.Outcome.next.injEq, reduceCtorEq] at ho
  all_goals (subst ho; simp)
theorem execHeartbeatSend_frame (s : State) (u : State) (ho : execHeartbeatSend s = .next u) : u.mem = s.mem ∧ u.pending = s.pending := by
  unfold execHeartbeatSend at ho
  try dsimp only at ho
  repeat' split at ho
  all_goals (first | (simp only [reduceCtorEq] at ho; done) | (simp only [Host.Outcome.next.injEq] at ho; subst ho; simp; done) | (simp only [Host.Outcome.next.injEq] at ho; subst ho; simp (disch := ((try intros); (try dsimp only); (repeat' split) <;> (try simp (maxDischargeDepth := 30) [*]))); done) | skip)
@[simp] theorem State.tailDown_frame (s : State) (k : Fin 2) : (State.tailDown s k).mem = s.mem ∧ (State.tailDown s k).pending = s.pending := by simp [State.tailDown]
theorem execTailstockLinkLoss_frame (k : Fin 2) (s : State) (u : State) (ho : execTailstockLinkLoss k s = .next u) : u.mem = s.mem ∧ u.pending = s.pending := by
  unfold execTailstockLinkLoss at ho
  try dsimp only at ho
  repeat' split at ho
  all_goals (first | (simp only [reduceCtorEq] at ho; done) | (simp only [Host.Outcome.next.injEq] at ho; subst ho; simp; done) | (simp only [Host.Outcome.next.injEq] at ho; subst ho; simp (disch := ((try intros); (try dsimp only); (repeat' split) <;> (try simp (maxDischargeDepth := 30) [*]))); done) | skip)
theorem execPartnerLoss_frame (s : State) (u : State) (ho : execPartnerLoss s = .next u) : u.mem = s.mem ∧ u.pending = s.pending := by
  unfold execPartnerLoss at ho
  dsimp only at ho
  repeat' split at ho
  all_goals simp only [Host.Outcome.next.injEq, reduceCtorEq] at ho
  all_goals (subst ho; simp)
theorem execSeekTimeout_frame (s : State) (u : State) (ho : execSeekTimeout s = .next u) : u.mem = s.mem ∧ u.pending = s.pending := by
  unfold execSeekTimeout at ho
  try dsimp only at ho
  repeat' split at ho
  all_goals (first | (simp only [reduceCtorEq] at ho; done) | (simp only [Host.Outcome.next.injEq] at ho; subst ho; simp; done) | (simp only [Host.Outcome.next.injEq] at ho; subst ho; simp (disch := ((try intros); (try dsimp only); (repeat' split) <;> (try simp (maxDischargeDepth := 30) [*]))); done) | skip)
theorem execHandover_frame (s : State) (u : State) (ho : execHandover s = .next u) : u.mem = s.mem ∧ u.pending = s.pending := by
  unfold execHandover at ho
  try dsimp only at ho
  repeat' split at ho
  all_goals (first | (simp only [reduceCtorEq] at ho; done) | (simp only [Host.Outcome.next.injEq] at ho; subst ho; simp; done) | (simp only [Host.Outcome.next.injEq] at ho; subst ho; simp (disch := ((try intros); (try dsimp only); (repeat' split) <;> (try simp (maxDischargeDepth := 30) [*]))); done) | skip)
theorem execPartnerCommand_frame (n : RailN) (code : BitVec 4) (s : State) (u : State) (ho : execPartnerCommand n code s = .next u) : u.mem = s.mem ∧ u.pending = s.pending := by
  unfold execPartnerCommand at ho
  dsimp only at ho
  repeat' split at ho
  all_goals simp only [Host.Outcome.next.injEq, reduceCtorEq] at ho
  all_goals (subst ho; simp)
theorem execMirrorRx_frame (m : Mirror) (s : State) (u : State) (ho : execMirrorRx m s = .next u) : u.mem = s.mem ∧ u.pending = s.pending := by
  unfold execMirrorRx at ho
  try dsimp only at ho
  repeat' split at ho
  all_goals (first | (simp only [reduceCtorEq] at ho; done) | (simp only [Host.Outcome.next.injEq] at ho; subst ho; simp; done) | (simp only [Host.Outcome.next.injEq] at ho; subst ho; simp (disch := ((try intros); (try dsimp only); (repeat' split) <;> (try simp (maxDischargeDepth := 30) [*]))); done) | skip)
@[simp] theorem State.pairedPrepare_frame (s : State) (t : Option (DWord × List (Nat × Nat))) : (State.pairedPrepare s t).mem = s.mem ∧ (State.pairedPrepare s t).pending = s.pending := by
  unfold State.pairedPrepare
  dsimp only
  repeat' split
  all_goals simp
@[simp] theorem State.applyMirror_frame (s : State) (m : Mirror) :
    (Memory.wf s.mem = true → Memory.wf (s.applyMirror m).mem = true) ∧ (s.applyMirror m).pending = s.pending := by
  have hm (l : List Host.Cell) (x : List Host.Cell) (b : Nat) (hx : Memory.wf x = true) :
      Memory.wf (l.foldl (fun (x : List Host.Cell) (c : Nat × Byte) => Memory.set x (b + c.1) c.2) x) = true :=
    foldl_inv (fun x => Memory.wf x = true) _ (fun x c hx => by simp [hx]) l x hx
  unfold State.applyMirror
  extract_lets
  rename_i s1 s2
  have h1 : (Memory.wf s.mem = true → Memory.wf s1.mem = true) ∧ s1.pending = s.pending := by
    refine ⟨fun h => ?_, rfl⟩
    simp only [s1]
    exact hm _ _ _ (by simp [h])
  clear_value s1
  have h2 : s2.mem = s1.mem ∧ s2.pending = s1.pending := by
    simp only [s2]
    split <;> simp
  clear_value s2
  exact ⟨fun h => by simp [h2, h1.1 h], by simp [h2, h1.2]⟩
@[simp] theorem State.mirrorCommit_frame (s : State) : (Memory.wf s.mem = true → Memory.wf (State.mirrorCommit s).mem = true) ∧ (State.mirrorCommit s).pending = s.pending := by
  unfold State.mirrorCommit
  dsimp only
  repeat' split
  all_goals exact ⟨fun h => by simp (maxDischargeDepth := 30) [h], by simp⟩
@[simp] theorem State.mirrorShip_frame (s : State) : (State.mirrorShip s).mem = s.mem ∧ (State.mirrorShip s).pending = s.pending := by simp [State.mirrorShip]
end Sys2Proof.Machine
end

