-- ==== Sys2Proof/Laws/FramePrograms.lean ====
section
/-!
SUPPORT. The frames of Machine/Programs.lean: every operation keeps the canonical form of the image memory, or leaves it alone, and
keeps the queue of waiting commands.
-/
namespace Sys2Proof.Machine
open Sys2Proof
set_option linter.all false
set_option maxRecDepth 20000
@[simp] theorem State.storeEntry_frame (s : State) (e : BufEntry) :
    (Memory.wf s.mem = true → Memory.wf (s.storeEntry e).mem = true) ∧ (s.storeEntry e).pending = s.pending :=
  ⟨fun h => foldl_inv (fun m => Memory.wf m = true) _ (fun m b hm => Memory.set_wf _ _ hm) e.bytes s.mem h, rfl⟩
@[simp] theorem State.drain_frame (s : State) (l : LPairN) : (Memory.wf s.mem = true → Memory.wf (State.drain s l).mem = true) ∧ (State.drain s l).pending = s.pending := by
  unfold State.drain
  try dsimp only
  repeat' split
  all_goals (refine ⟨fun h => ?_, ?_⟩ <;> (try simp (maxDischargeDepth := 30) [h]))
  all_goals (try with_reducible apply foldl_wf)
  all_goals (try (intros; (try dsimp only); (repeat' split) <;> simp (maxDischargeDepth := 30) [*]; done))
  all_goals (try simp (disch := ((try intros); (try dsimp only); (repeat' split) <;> (try simp (maxDischargeDepth := 30) [*]))) [*])
@[simp] theorem State.drainOne_frame (s : State) (l : LPairN) : (Memory.wf s.mem = true → Memory.wf (State.drainOne s l).mem = true) ∧ (State.drainOne s l).pending = s.pending := by
  unfold State.drainOne
  try dsimp only
  repeat' split
  all_goals (refine ⟨fun h => ?_, ?_⟩ <;> (try simp (maxDischargeDepth := 30) [h]))
  all_goals (try with_reducible apply foldl_wf)
  all_goals (try (intros; (try dsimp only); (repeat' split) <;> simp (maxDischargeDepth := 30) [*]; done))
  all_goals (try simp (disch := ((try intros); (try dsimp only); (repeat' split) <;> (try simp (maxDischargeDepth := 30) [*]))) [*])
@[simp] theorem State.leavePair_frame (s : State) (l : LPairN) : (State.leavePair s l).mem = s.mem ∧ (State.leavePair s l).pending = s.pending := by
  unfold State.leavePair
  dsimp only
  repeat' split
  all_goals simp
@[simp] theorem State.stopNow_frame (s : State) (n : ProgN) : (State.stopNow s n).mem = s.mem ∧ (State.stopNow s n).pending = s.pending := by
  unfold State.stopNow
  repeat' split
  all_goals simp
@[simp] theorem State.pickNext_frame (s : State) (l : LPairN) : (State.pickNext s l).mem = s.mem ∧ (State.pickNext s l).pending = s.pending := by
  unfold State.pickNext
  repeat' split
  all_goals simp
@[simp] theorem State.endRun_frame (s : State) (l : LPairN) (n : ProgN) (st : PSt) (code : Nat) : (Memory.wf s.mem = true → Memory.wf (State.endRun s l n st code).mem = true) ∧ (State.endRun s l n st code).pending = s.pending := ⟨fun h => by simp (maxDischargeDepth := 30) [State.endRun, h], by simp [State.endRun]⟩
@[simp] theorem State.noteFault_frame (s : State) (l : LPairN) (n : ProgN) (f : PFault) (bead word : Nat) : (State.noteFault s l n f bead word).1.mem = s.mem ∧ (State.noteFault s l n f bead word).1.pending = s.pending := by
  unfold State.noteFault
  dsimp only
  repeat' split
  all_goals simp
@[simp] theorem State.programFault_frame (s : State) (l : LPairN) (n : ProgN) (f : PFault) : (Memory.wf s.mem = true → Memory.wf (State.programFault s l n f).mem = true) ∧ (State.programFault s l n f).pending = s.pending := ⟨fun h => by simp (maxDischargeDepth := 30) [State.programFault, h], by simp [State.programFault]⟩
@[simp] theorem State.waitExpired_frame (s : State) (n : ProgN) : (State.waitExpired s n).mem = s.mem ∧ (State.waitExpired s n).pending = s.pending := by
  unfold State.waitExpired
  dsimp only
  repeat' split
  all_goals simp
theorem execProgramRestart_frame (n : ProgN) (s : State) (u : State) (ho : execProgramRestart n s = .next u) : u.mem = s.mem ∧ u.pending = s.pending := by
  unfold execProgramRestart at ho
  try dsimp only at ho
  repeat' split at ho
  all_goals (first | (simp only [reduceCtorEq] at ho; done) | (simp only [Host.Outcome.next.injEq] at ho; subst ho; simp; done) | (simp only [Host.Outcome.next.injEq] at ho; subst ho; simp (disch := ((try intros); (try dsimp only); (repeat' split) <;> (try simp (maxDischargeDepth := 30) [*]))); done) | skip)
theorem execProgramStop_frame (n : ProgN) (s : State) (u : State) (ho : execProgramStop n s = .next u) : u.mem = s.mem ∧ u.pending = s.pending := by
  unfold execProgramStop at ho
  try dsimp only at ho
  repeat' split at ho
  all_goals (first | (simp only [reduceCtorEq] at ho; done) | (simp only [Host.Outcome.next.injEq] at ho; subst ho; simp; done) | (simp only [Host.Outcome.next.injEq] at ho; subst ho; simp (disch := ((try intros); (try dsimp only); (repeat' split) <;> (try simp (maxDischargeDepth := 30) [*]))); done) | skip)
end Sys2Proof.Machine
end

