-- ==== Sys2Proof/Laws/FrameCycle.lean ====
section
/-!
SUPPORT. The frames of Machine/Cycle.lean: every operation keeps the canonical form of the image memory, or leaves it alone, and
keeps the queue of waiting commands.
-/
namespace Sys2Proof.Machine
open Sys2Proof
set_option linter.all false
set_option maxRecDepth 20000
@[simp] theorem State.cutShort_frame (s : State) (l : LPairN) : (State.cutShort s l).mem = s.mem ∧ (State.cutShort s l).pending = s.pending := by simp [State.cutShort]
@[simp] theorem State.timePairs_frame (s : State) : (State.timePairs s).mem = s.mem ∧ (State.timePairs s).pending = s.pending := by simp [State.timePairs]
@[simp] theorem State.answerTo_frame (s : State) (q : RailReq) (a : Ans) : (State.answerTo s q a).mem = s.mem ∧ (State.answerTo s q a).pending = s.pending := by simp [State.answerTo]
@[simp] theorem State.judgeSame_frame (s : State) (l : List RailReq) (c : RailCode) : (State.judgeSame s l c).mem = s.mem ∧ (State.judgeSame s l c).pending = s.pending := by
  unfold State.judgeSame
  dsimp only
  repeat' split
  all_goals simp
@[simp] theorem State.contradict_frame (s : State) (q : RailReq) : (State.contradict s q).mem = s.mem ∧ (State.contradict s q).pending = s.pending := by
  unfold State.contradict
  dsimp only
  repeat' split
  all_goals simp
@[simp] theorem State.judgeRail_frame (s : State) (all : List RailReq) : (State.judgeRail s all).mem = s.mem ∧ (State.judgeRail s all).pending = s.pending := by
  unfold State.judgeRail
  dsimp only
  repeat' split
  all_goals simp
@[simp] theorem State.judgeRails_frame (s : State) : (State.judgeRails s).mem = s.mem ∧ (State.judgeRails s).pending = s.pending := by
  unfold State.judgeRails
  try dsimp only
  repeat' split
  all_goals (try simp)
  all_goals (try simp (disch := ((try intros); (try dsimp only); (repeat' split) <;> (try simp (maxDischargeDepth := 30) [*]))))
@[simp] theorem State.judgeAllMargins_frame (s : State) : (State.judgeAllMargins s).mem = s.mem ∧ (State.judgeAllMargins s).pending = s.pending := by simp [State.judgeAllMargins]
@[simp] theorem State.judgeMods_frame (s : State) : (Memory.wf s.mem = true → Memory.wf (State.judgeMods s).mem = true) ∧ (State.judgeMods s).pending = s.pending := by
  unfold State.judgeMods
  dsimp only
  repeat' split
  all_goals exact ⟨fun h => by simp (maxDischargeDepth := 30) [h], by simp⟩
@[simp] theorem State.judgeSeqCmd_frame (s : State) : (State.judgeSeqCmd s).mem = s.mem ∧ (State.judgeSeqCmd s).pending = s.pending := by
  unfold State.judgeSeqCmd
  dsimp only
  repeat' split
  all_goals simp
@[simp] theorem State.within_frame (s : State) (f : State → State) (hf : ∀ s, (f s).mem = s.mem ∧ (f s).pending = s.pending) :
    (s.within f).mem = s.mem ∧ (s.within f).pending = s.pending := by
  unfold State.within
  split <;> simp [hf]
@[simp] theorem State.within_wf (s : State) (f : State → State)
    (hf : ∀ s, (Memory.wf s.mem = true → Memory.wf (f s).mem = true) ∧ (f s).pending = s.pending) :
    (Memory.wf s.mem = true → Memory.wf (s.within f).mem = true) ∧ (s.within f).pending = s.pending := by
  unfold State.within
  split
  · exact hf s
  · exact ⟨id, rfl⟩
@[simp] theorem State.commitOpen_frame (s : State) : (State.commitOpen s).mem = s.mem ∧ (State.commitOpen s).pending = s.pending := by simp [State.commitOpen]
@[simp] theorem State.commitLand_frame (s : State) : (Memory.wf s.mem = true → Memory.wf (State.commitLand s).mem = true) ∧ (State.commitLand s).pending = s.pending := by
  unfold State.commitLand
  try dsimp only
  repeat' split
  all_goals (refine ⟨fun h => ?_, ?_⟩ <;> (try simp (maxDischargeDepth := 30) [h]))
  all_goals (try with_reducible apply foldl_wf)
  all_goals (try (intros; (try dsimp only); (repeat' split) <;> simp (maxDischargeDepth := 30) [*]; done))
  all_goals (try simp (disch := ((try intros); (try dsimp only); (repeat' split) <;> (try simp (maxDischargeDepth := 30) [*]))) [*])
@[simp] theorem State.commitAdopt_frame (s : State) : (Memory.wf s.mem = true → Memory.wf (State.commitAdopt s).mem = true) ∧ (State.commitAdopt s).pending = s.pending := by
  unfold State.commitAdopt
  dsimp only
  repeat' split
  all_goals exact ⟨fun h => by simp (maxDischargeDepth := 30) [h], by simp⟩
@[simp] theorem State.commitJudge_frame (s : State) : (Memory.wf s.mem = true → Memory.wf (State.commitJudge s).mem = true) ∧ (State.commitJudge s).pending = s.pending := ⟨fun h => by simp (maxDischargeDepth := 30) [State.commitJudge, h], by simp [State.commitJudge]⟩
@[simp] theorem State.commitOutputs_frame (s : State) : (Memory.wf s.mem = true → Memory.wf (State.commitOutputs s).mem = true) ∧ (State.commitOutputs s).pending = s.pending := ⟨fun h => by simp (maxDischargeDepth := 30) [State.commitOutputs, h], by simp [State.commitOutputs]⟩
@[simp] theorem State.commitEvents_frame (s : State) : (State.commitEvents s).mem = s.mem ∧ (State.commitEvents s).pending = s.pending := by simp [State.commitEvents]
@[simp] theorem State.commitCopy_frame (s : State) :
    (Memory.wf s.mem = true → Memory.wf (s.commitCopy).mem = true) ∧ (s.commitCopy).pending = s.pending :=
  ⟨fun h => by simp (maxDischargeDepth := 30) [State.commitCopy, h], rfl⟩
@[simp] theorem State.serveTimes_frame (s : State) : (State.serveTimes s).mem = s.mem ∧ (State.serveTimes s).pending = s.pending := ⟨rfl, rfl⟩
@[simp] theorem State.nextTick_frame (s : State) : (State.nextTick s).mem = s.mem ∧ (State.nextTick s).pending = s.pending := ⟨rfl, rfl⟩
@[simp] theorem State.commitClose_frame (s : State) : (State.commitClose s).mem = s.mem ∧ (State.commitClose s).pending = s.pending := by simp [State.commitClose]
@[simp] theorem State.commit_frame (s : State) :
    (Memory.wf s.mem = true → Memory.wf (s.commit).mem = true) ∧ (s.commit).pending = s.pending := by
  unfold State.commit
  extract_lets s1 s2 s3 s4
  have h1 : (Memory.wf s.mem = true → Memory.wf s1.mem = true) ∧ s1.pending = s.pending :=
    ⟨fun h => by simp (maxDischargeDepth := 30) [s1, h], by simp [s1]⟩
  clear_value s1
  have h2 := State.within_wf s1 State.commitJudge State.commitJudge_frame
  have h3 := State.within_frame s2 (fun s => if s.g.st = .run then s.probePass else s) (fun s => by split <;> simp)
  have e3 : s3.mem = s2.mem ∧ s3.pending = s2.pending := h3
  have a4 := State.within_wf s3 State.commitOutputs State.commitOutputs_frame
  have b4 := State.within_frame (s3.within State.commitOutputs) State.serveTimes (fun s => by simp)
  have c4 := State.within_frame ((s3.within State.commitOutputs).within State.serveTimes) State.commitEvents (fun s => by simp)
  have a5 := State.within_wf s4 State.commitCopy State.commitCopy_frame
  have b5 := State.within_wf (s4.within State.commitCopy) State.commitClose (fun s => by simp)
  have e4 : s4.mem = (s3.within State.commitOutputs).mem ∧ s4.pending = (s3.within State.commitOutputs).pending :=
    ⟨c4.1.trans b4.1, c4.2.trans b4.2⟩
  refine ⟨fun h => b5.1 (a5.1 ?_), b5.2.trans (a5.2.trans (e4.2.trans (a4.2.trans (e3.2.trans (h2.2.trans h1.2)))))⟩
  rw [e4.1]
  apply a4.1
  rw [e3.1]
  exact h2.1 (h1.1 h)
@[simp] theorem State.afterEnd_frame (s : State) : (Memory.wf s.mem = true → Memory.wf (State.afterEnd s).mem = true) ∧ (State.afterEnd s).pending = s.pending := by
  unfold State.afterEnd
  dsimp only
  repeat' split
  all_goals exact ⟨fun h => by simp (maxDischargeDepth := 30) [h], by simp⟩
theorem execClosingTick_frame (s : State) (u : State) (ho : execClosingTick s = .next u) : (Memory.wf s.mem = true → Memory.wf u.mem = true) ∧ u.pending = s.pending := by
  unfold execClosingTick at ho
  dsimp only at ho
  repeat' split at ho
  all_goals simp only [Host.Outcome.next.injEq, reduceCtorEq] at ho
  all_goals (subst ho; exact ⟨fun h => by simp (maxDischargeDepth := 30) [h], by simp⟩)
@[simp] theorem State.takeImage_frame (s : State) :
    (Memory.wf s.mem = true → Memory.wf (s.takeImage).mem = true) ∧ (s.takeImage).pending = s.pending :=
  ⟨fun h => by simp (maxDischargeDepth := 30) [State.takeImage, h], rfl⟩
@[simp] theorem State.place_frame (s : State) (l : LPairN) (q : PPairN) : (State.place s l q).mem = s.mem ∧ (State.place s l q).pending = s.pending := ⟨rfl, rfl⟩
@[simp] theorem State.handOver_frame (s : State) : (State.handOver s).mem = s.mem ∧ (State.handOver s).pending = s.pending := by
  unfold State.handOver
  repeat' split
  all_goals simp
@[simp] theorem State.replaceAtFreeze_frame (s : State) : (State.replaceAtFreeze s).mem = s.mem ∧ (State.replaceAtFreeze s).pending = s.pending := by simp [State.replaceAtFreeze]
@[simp] theorem State.armPair_frame (s : State) (l : LPairN) : (State.armPair s l).mem = s.mem ∧ (State.armPair s l).pending = s.pending := ⟨rfl, rfl⟩
theorem execInputFreeze_frame (s : State) (u : State) (ho : execInputFreeze s = .next u) : (Memory.wf s.mem = true → Memory.wf u.mem = true) ∧ u.pending = s.pending := by
  unfold execInputFreeze at ho
  dsimp only at ho
  repeat' split at ho
  all_goals simp only [Host.Outcome.next.injEq, reduceCtorEq] at ho
  all_goals (subst ho; exact ⟨fun h => by simp (maxDischargeDepth := 30) [h], by simp⟩)
end Sys2Proof.Machine
end

