-- ==== Sys2Proof/Laws/FrameReplacement.lean ====
section
/-!
SUPPORT. The frames of Machine/Replacement.lean: every operation keeps the canonical form of the image memory, or leaves it alone, and
keeps the queue of waiting commands.
-/
namespace Sys2Proof.Machine
open Sys2Proof
set_option linter.all false
set_option maxRecDepth 20000
@[simp] theorem State.modPhys_frame (s : State) (q : PPairN) (f : PPair → PPair) : (State.modPhys s q f).mem = s.mem ∧ (State.modPhys s q f).pending = s.pending := ⟨rfl, rfl⟩
@[simp] theorem State.modRepl_frame (s : State) (f : Repl → Repl) : (State.modRepl s f).mem = s.mem ∧ (State.modRepl s f).pending = s.pending := ⟨rfl, rfl⟩
@[simp] theorem State.retire_frame (s : State) (q : PPairN) (kind : Option MKind) : (State.retire s q kind).mem = s.mem ∧ (State.retire s q kind).pending = s.pending := by simp [State.retire]
@[simp] theorem State.noteRetired_frame (s : State) (q : PPairN) (kind : MKind) : (State.noteRetired s q kind).mem = s.mem ∧ (State.noteRetired s q kind).pending = s.pending := by simp [State.noteRetired]
@[simp] theorem State.returnItem_frame (s : State) (n : ProgN) : (State.returnItem s n).mem = s.mem ∧ (State.returnItem s n).pending = s.pending := by
  unfold State.returnItem
  dsimp only
  repeat' split
  all_goals simp
@[simp] theorem State.restartProg_frame (s : State) (n : ProgN) : (State.restartProg s n).mem = s.mem ∧ (State.restartProg s n).pending = s.pending := by simp [State.restartProg]
@[simp] theorem State.restartPair_frame (s : State) (l : LPairN) : (Memory.wf s.mem = true → Memory.wf (State.restartPair s l).mem = true) ∧ (State.restartPair s l).pending = s.pending := ⟨fun h => by simp (maxDischargeDepth := 30) [State.restartPair, h], by simp [State.restartPair]⟩
@[simp] theorem State.startReplay_frame (s : State) (l : LPairN) (n : ProgN) : (Memory.wf s.mem = true → Memory.wf (State.startReplay s l n).mem = true) ∧ (State.startReplay s l n).pending = s.pending := ⟨fun h => by simp (maxDischargeDepth := 30) [State.startReplay, h], by simp [State.startReplay]⟩
@[simp] theorem State.unplace_frame (s : State) (l : LPairN) : (Memory.wf s.mem = true → Memory.wf (State.unplace s l).mem = true) ∧ (State.unplace s l).pending = s.pending := by
  unfold State.unplace
  try dsimp only
  repeat' split
  all_goals (refine ⟨fun h => ?_, ?_⟩ <;> (try simp (maxDischargeDepth := 30) [h]))
  all_goals (try with_reducible apply foldl_wf)
  all_goals (try (intros; (try dsimp only); (repeat' split) <;> simp (maxDischargeDepth := 30) [*]; done))
  all_goals (try simp (disch := ((try intros); (try dsimp only); (repeat' split) <;> (try simp (maxDischargeDepth := 30) [*]))) [*])
@[simp] theorem State.noSpindles_frame (s old : State) : (State.noSpindles s old).mem = s.mem ∧ (State.noSpindles s old).pending = s.pending := by simp [State.noSpindles]
@[simp] theorem State.rehome_frame (s : State) (l : LPairN) : (Memory.wf s.mem = true → Memory.wf (State.rehome s l).1.mem = true) ∧ (State.rehome s l).1.pending = s.pending := by
  unfold State.rehome
  dsimp only
  repeat' split
  all_goals exact ⟨fun h => by simp (maxDischargeDepth := 30) [h], by simp⟩
@[simp] theorem State.orphaned_frame (s : State) (q : PPairN) (kind : MKind) (ckOk : Bool) (l : LPairN) : (Memory.wf s.mem = true → Memory.wf (State.orphaned s q kind ckOk l).mem = true) ∧ (State.orphaned s q kind ckOk l).pending = s.pending := by
  unfold State.orphaned
  dsimp only
  repeat' split
  all_goals exact ⟨fun h => by simp (maxDischargeDepth := 30) [h], by simp⟩
@[simp] theorem State.mismatch_frame (s : State) (q : PPairN) (kind : MKind) (ckOk : Bool) : (Memory.wf s.mem = true → Memory.wf (State.mismatch s q kind ckOk).mem = true) ∧ (State.mismatch s q kind ckOk).pending = s.pending := by
  unfold State.mismatch
  try dsimp only
  repeat' split
  all_goals (refine ⟨fun h => ?_, ?_⟩ <;> (try simp (maxDischargeDepth := 30) [h]))
  all_goals (try with_reducible apply foldl_wf)
  all_goals (try (intros; (try dsimp only); (repeat' split) <;> simp (maxDischargeDepth := 30) [*]; done))
  all_goals (try simp (disch := ((try intros); (try dsimp only); (repeat' split) <;> (try simp (maxDischargeDepth := 30) [*]))) [*])
@[simp] theorem State.mismatchFirst_frame (s : State) (q : PPairN) (kind : MKind) (ckOk : Bool) : (Memory.wf s.mem = true → Memory.wf (State.mismatchFirst s q kind ckOk).mem = true) ∧ (State.mismatchFirst s q kind ckOk).pending = s.pending := by
  unfold State.mismatchFirst
  dsimp only
  repeat' split
  all_goals exact ⟨fun h => by simp (maxDischargeDepth := 30) [h], by simp⟩
theorem execMismatch_frame (q : PPairN) (kind : MKind) (ckOk : Bool) (s : State) (u : State) (ho : execMismatch q kind ckOk s = .next u) : (Memory.wf s.mem = true → Memory.wf u.mem = true) ∧ u.pending = s.pending := by
  unfold execMismatch at ho
  try dsimp only at ho
  repeat' split at ho
  all_goals (first | (simp only [reduceCtorEq] at ho; done) | (simp only [Host.Outcome.next.injEq] at ho; subst ho; refine ⟨fun h => ?_, ?_⟩ <;> simp (maxDischargeDepth := 30) [*]; done) | (simp only [Host.Outcome.next.injEq] at ho; subst ho; (refine ⟨fun h => ?_, ?_⟩) <;> simp (disch := ((try intros); (try dsimp only); (repeat' split) <;> (try simp (maxDischargeDepth := 30) [*]))) [*]; done) | skip)
@[simp] theorem State.restoreByte_frame (s : State) (b : Nat × Byte × Byte) :
    (Memory.wf s.mem = true → Memory.wf (s.restoreByte b).mem = true) ∧ (s.restoreByte b).pending = s.pending := by
  unfold State.restoreByte
  split
  · exact ⟨fun h => by simp [h], rfl⟩
  · exact ⟨id, rfl⟩
@[simp] theorem State.undoLock_frame (s : State) (l : LPairN) (o : JOp) :
    (s.undoLock l o).mem = s.mem ∧ (s.undoLock l o).pending = s.pending := by
  unfold State.undoLock
  repeat' split
  all_goals simp
@[simp] theorem State.reconcile_frame (s : State) (l : LPairN) (r : Replay) :
    (Memory.wf s.mem = true → Memory.wf (s.reconcile l r).mem = true) ∧ (s.reconcile l r).pending = s.pending := by
  unfold State.reconcile
  extract_lets bytes s1 s2
  have h1 : (Memory.wf s.mem = true → Memory.wf s1.mem = true) ∧ s1.pending = s.pending :=
    ⟨fun h => foldl_wf _ (fun s x => (State.restoreByte_frame s x).1) _ _ h,
     foldl_pending _ (fun s x => (State.restoreByte_frame s x).2) _ _⟩
  clear_value s1
  have h2 : s2.mem = s1.mem ∧ s2.pending = s1.pending := foldl_keep _ (fun s o => State.undoLock_frame s l o) _ _
  clear_value s2
  exact ⟨fun h => by simp [h2, h1.1 h], by simp [h2, h1.2]⟩
theorem execReplayEnd_frame (l : LPairN) (s : State) (u : State) (ho : execReplayEnd l s = .next u) : (Memory.wf s.mem = true → Memory.wf u.mem = true) ∧ u.pending = s.pending := by
  unfold execReplayEnd at ho
  dsimp only at ho
  repeat' split at ho
  all_goals simp only [Host.Outcome.next.injEq, reduceCtorEq] at ho
  all_goals (subst ho; exact ⟨fun h => by simp (maxDischargeDepth := 30) [h], by simp⟩)
theorem execPairSelftest_frame (q : PPairN) (s : State) (u : State) (ho : execPairSelftest q s = .next u) : u.mem = s.mem ∧ u.pending = s.pending := by
  unfold execPairSelftest at ho
  try dsimp only at ho
  repeat' split at ho
  all_goals (first | (simp only [reduceCtorEq] at ho; done) | (simp only [Host.Outcome.next.injEq] at ho; subst ho; simp; done) | (simp only [Host.Outcome.next.injEq] at ho; subst ho; simp (disch := ((try intros); (try dsimp only); (repeat' split) <;> (try simp (maxDischargeDepth := 30) [*]))); done) | skip)
theorem execPairInject_frame (q : PPairN) (s : State) (u : State) (ho : execPairInject q s = .next u) : u.mem = s.mem ∧ u.pending = s.pending := by
  simp only [execPairInject, Host.Outcome.next.injEq] at ho
  subst ho
  simp
theorem execPairSelftestStart_frame (q : PPairN) (s : State) (u : State) (ho : execPairSelftestStart q s = .next u) : u.mem = s.mem ∧ u.pending = s.pending := by
  unfold execPairSelftestStart at ho
  try dsimp only at ho
  repeat' split at ho
  all_goals (first | (simp only [reduceCtorEq] at ho; done) | (simp only [Host.Outcome.next.injEq] at ho; subst ho; simp; done) | (simp only [Host.Outcome.next.injEq] at ho; subst ho; simp (disch := ((try intros); (try dsimp only); (repeat' split) <;> (try simp (maxDischargeDepth := 30) [*]))); done) | skip)
theorem execPairSelftestDone_frame (q : PPairN) (pass : Bool) (s : State) (u : State) (ho : execPairSelftestDone q pass s = .next u) : u.mem = s.mem ∧ u.pending = s.pending := by
  unfold execPairSelftestDone at ho
  try dsimp only at ho
  repeat' split at ho
  all_goals (first | (simp only [reduceCtorEq] at ho; done) | (simp only [Host.Outcome.next.injEq] at ho; subst ho; simp; done) | (simp only [Host.Outcome.next.injEq] at ho; subst ho; simp (disch := ((try intros); (try dsimp only); (repeat' split) <;> (try simp (maxDischargeDepth := 30) [*]))); done) | skip)
theorem execPairShadowDone_frame (q : PPairN) (agree : Bool) (s : State) (u : State) (ho : execPairShadowDone q agree s = .next u) : u.mem = s.mem ∧ u.pending = s.pending := by
  unfold execPairShadowDone at ho
  try dsimp only at ho
  repeat' split at ho
  all_goals (first | (simp only [reduceCtorEq] at ho; done) | (simp only [Host.Outcome.next.injEq] at ho; subst ho; simp; done) | (simp only [Host.Outcome.next.injEq] at ho; subst ho; simp (disch := ((try intros); (try dsimp only); (repeat' split) <;> (try simp (maxDischargeDepth := 30) [*]))); done) | skip)
theorem execSpareSelfcheckFail_frame (q : PPairN) (s : State) (u : State) (ho : execSpareSelfcheckFail q s = .next u) : u.mem = s.mem ∧ u.pending = s.pending := by
  unfold execSpareSelfcheckFail at ho
  try dsimp only at ho
  repeat' split at ho
  all_goals (first | (simp only [reduceCtorEq] at ho; done) | (simp only [Host.Outcome.next.injEq] at ho; subst ho; simp; done) | (simp only [Host.Outcome.next.injEq] at ho; subst ho; simp (disch := ((try intros); (try dsimp only); (repeat' split) <;> (try simp (maxDischargeDepth := 30) [*]))); done) | skip)
theorem execSpindleWdgExpiry_frame (q : PPairN) (s : State) (u : State) (ho : execSpindleWdgExpiry q s = .next u) : (Memory.wf s.mem = true → Memory.wf u.mem = true) ∧ u.pending = s.pending := by
  unfold execSpindleWdgExpiry at ho
  dsimp only at ho
  repeat' split at ho
  all_goals simp only [Host.Outcome.next.injEq, reduceCtorEq] at ho
  all_goals (subst ho; exact ⟨fun h => by simp (maxDischargeDepth := 30) [h], by simp⟩)
end Sys2Proof.Machine
end

