-- ==== Sys2Proof/Laws/FrameOperands.lean ====
section
/-!
SUPPORT. The frames of Machine/Operands.lean: every operation keeps the canonical form of the image memory, or leaves it alone, and
keeps the queue of waiting commands.
-/
namespace Sys2Proof.Machine
open Sys2Proof
set_option linter.all false
set_option maxRecDepth 20000
@[simp] theorem State.modRegs_frame (s : State) (l : LPairN) (f : Regs → Regs) : (State.modRegs s l f).mem = s.mem ∧ (State.modRegs s l f).pending = s.pending := ⟨rfl, rfl⟩
@[simp] theorem State.drainFor_frame (s : State) (l : LPairN) (a n k : Nat) :
    (Memory.wf s.mem = true → Memory.wf (s.drainFor l a n k).mem = true) ∧ (s.drainFor l a n k).pending = s.pending := by
  induction k generalizing s with
  | zero => exact ⟨id, rfl⟩
  | succ k ih =>
    unfold State.drainFor
    split
    · exact ⟨fun h => (ih _).1 (by simp [h]), (ih _).2.trans (by simp)⟩
    · exact ⟨id, rfl⟩
@[simp] theorem State.loadBytes_frame (s : State) (l : LPairN) (a n : Nat) (need : Byte) :
    (Memory.wf s.mem = true → Memory.wf (s.loadBytes l a n need).1.mem = true) ∧
      (s.loadBytes l a n need).1.pending = s.pending := by
  unfold State.loadBytes
  dsimp only
  repeat' split
  all_goals simp
  all_goals exact fun h => by simp [h]
/-- What an instruction leaves, relative to the state it started from: a well-formed memory and the same queue. -/
def Act.Keeps (s : State) : Act → Prop
  | .next t | .jumped t | .ended t => (Memory.wf s.mem = true → Memory.wf t.mem = true) ∧ t.pending = s.pending
  | .fault t _ => (Memory.wf s.mem = true → Memory.wf t.mem = true) ∧ t.pending = s.pending
theorem Act.Keeps.trans {s t : State} {a : Act} (h : (Memory.wf s.mem = true → Memory.wf t.mem = true) ∧ t.pending = s.pending)
    (ha : Act.Keeps t a) : Act.Keeps s a := by
  cases a <;> exact ⟨fun x => ha.1 (h.1 x), ha.2.trans h.2⟩
@[simp] theorem Act.keeps_next (s t : State) : Act.Keeps s (.next t) ↔
    (Memory.wf s.mem = true → Memory.wf t.mem = true) ∧ t.pending = s.pending := Iff.rfl
@[simp] theorem Act.keeps_jumped (s t : State) : Act.Keeps s (.jumped t) ↔
    (Memory.wf s.mem = true → Memory.wf t.mem = true) ∧ t.pending = s.pending := Iff.rfl
@[simp] theorem Act.keeps_ended (s t : State) : Act.Keeps s (.ended t) ↔
    (Memory.wf s.mem = true → Memory.wf t.mem = true) ∧ t.pending = s.pending := Iff.rfl
@[simp] theorem Act.keeps_fault (s t : State) (f : PFault) : Act.Keeps s (.fault t f) ↔
    (Memory.wf s.mem = true → Memory.wf t.mem = true) ∧ t.pending = s.pending := Iff.rfl
@[simp] theorem State.withWord_keeps (s : State) (l : LPairN) (w : BitVec 24) (i : Nat) (f : State → Word → Act)
    (hf : ∀ s v, Act.Keeps s (f s v)) : Act.Keeps s (s.withWord l w i f) := by
  unfold State.withWord
  split
  · simp
  · exact hf _ _
  · rename_i a _
    extract_lets r
    have hr : (Memory.wf s.mem = true → Memory.wf r.1.mem = true) ∧ r.1.pending = s.pending := State.loadBytes_frame s l a 4 0xFF
    clear_value r
    split
    · exact hr
    · exact Act.Keeps.trans hr (hf _ _)
@[simp] theorem State.withBit_keeps (s : State) (l : LPairN) (w : BitVec 24) (f : State → Bool → Act)
    (hf : ∀ s v, Act.Keeps s (f s v)) : Act.Keeps s (s.withBit l w f) := by
  unfold State.withBit
  split
  · simp
  · exact hf _ _
  · exact hf _ _
  · rename_i a b _
    extract_lets r
    have hr : (Memory.wf s.mem = true → Memory.wf r.1.mem = true) ∧ r.1.pending = s.pending :=
      State.loadBytes_frame s l a 1 (1#8 <<< b.val)
    clear_value r
    split
    · exact hr
    · exact Act.Keeps.trans hr (hf _ _)
@[simp] theorem State.putStore_frame (s : State) (l : LPairN) (bytes : List (Nat × Byte × Byte)) :
    (Memory.wf s.mem = true → Memory.wf (s.putStore l bytes).mem = true) ∧ (s.putStore l bytes).pending = s.pending := by
  unfold State.putStore
  extract_lets e s1
  have h1 : (Memory.wf s.mem = true → Memory.wf s1.mem = true) ∧ s1.pending = s.pending := by
    simp only [s1]
    split
    · exact State.drainOne_frame s l
    · exact ⟨id, rfl⟩
  clear_value s1
  split
  · exact ⟨fun h => foldl_inv (fun m => Memory.wf m = true) _ (fun m b hm => Memory.set_wf _ _ hm) e.bytes s.mem h, rfl⟩
  · exact ⟨fun h => by simp [h1.1 h], by simp [h1.2]⟩
@[simp] theorem State.modReplay_frame (s : State) (l : LPairN) (f : Replay → Replay) : (State.modReplay s l f).mem = s.mem ∧ (State.modReplay s l f).pending = s.pending := ⟨rfl, rfl⟩
@[simp] theorem State.popOp_frame (s : State) (l : LPairN) : (State.popOp s l).mem = s.mem ∧ (State.popOp s l).pending = s.pending := ⟨rfl, rfl⟩
@[simp] theorem State.diverge_frame (s : State) (l : LPairN) : (State.diverge s l).mem = s.mem ∧ (State.diverge s l).pending = s.pending := ⟨rfl, rfl⟩
@[simp] theorem State.record_frame (s : State) (l : LPairN) (o : JOp) : (State.record s l o).mem = s.mem ∧ (State.record s l o).pending = s.pending := by simp [State.record]
@[simp] theorem State.noteStored_frame (s : State) (l : LPairN) (bytes : List (Nat × Byte × Byte)) : (State.noteStored s l bytes).mem = s.mem ∧ (State.noteStored s l bytes).pending = s.pending := ⟨rfl, rfl⟩
@[simp] theorem State.doStore_frame (s : State) (l : LPairN) (bytes : List (Nat × Byte × Byte)) : (Memory.wf s.mem = true → Memory.wf (State.doStore s l bytes).mem = true) ∧ (State.doStore s l bytes).pending = s.pending := by
  unfold State.doStore
  dsimp only
  repeat' split
  all_goals exact ⟨fun h => by simp (maxDischargeDepth := 30) [h], by simp⟩
@[simp] theorem State.storeThen_keeps (s : State) (l : LPairN) (n : ProgN) (a : Nat) (mask : Word)
    (bytes : List (Nat × Byte × Byte)) (f : State → Act) (hf : ∀ s, Act.Keeps s (f s)) :
    Act.Keeps s (s.storeThen l n a mask bytes f) := by
  unfold State.storeThen
  repeat' split
  · simp
  · simp
  · exact ⟨fun h => by simp [h], by simp⟩
  · exact Act.Keeps.trans (State.doStore_frame s l bytes) (hf _)
@[simp] theorem State.setWord_keeps (s : State) (l : LPairN) (n : ProgN) (w : BitVec 24) (i : Nat) (v : Word) (f : State → Act)
    (hf : ∀ s, Act.Keeps s (f s)) : Act.Keeps s (s.setWord l n w i v f) := by
  unfold State.setWord
  split
  · simp
  · exact Act.Keeps.trans (by simp) (hf _)
  · exact State.storeThen_keeps _ _ _ _ _ _ _ hf
@[simp] theorem State.setBit_keeps (s : State) (l : LPairN) (n : ProgN) (w : BitVec 24) (v : Bool) (f : State → Act)
    (hf : ∀ s, Act.Keeps s (f s)) : Act.Keeps s (s.setBit l n w v f) := by
  unfold State.setBit
  split
  · simp
  · exact Act.Keeps.trans (by simp) (hf _)
  · exact Act.Keeps.trans (by simp) (hf _)
  · exact State.storeThen_keeps _ _ _ _ _ _ _ hf
end Sys2Proof.Machine
end

