-- ==== Sys2Proof/Laws/FrameSpindles.lean ====
section
/-!
SUPPORT. The frames of Machine/Spindles.lean: every operation keeps the canonical form of the image memory, or leaves it alone, and
keeps the queue of waiting commands.
-/
namespace Sys2Proof.Machine
open Sys2Proof
set_option linter.all false
set_option maxRecDepth 20000
@[simp] theorem State.finish_frame (s : State) (l : LPairN) (n : ProgN) (a : Act) (h : Act.Keeps s a) :
    (Memory.wf s.mem = true → Memory.wf (State.finish l n a).mem = true) ∧ (State.finish l n a).pending = s.pending := by
  cases a with
  | next t => exact ⟨fun x => by simp [State.finish, h.1 x], by simp [State.finish, h.2]⟩
  | jumped t => exact ⟨fun x => by simp [State.finish, h.1 x], by simp [State.finish, h.2]⟩
  | ended t => exact ⟨fun x => by simp [State.finish, h.1 x], by simp [State.finish, h.2]⟩
  | fault t f => exact ⟨fun x => by simp (maxDischargeDepth := 30) [State.finish, h.1 x], by simp [State.finish, h.2]⟩
theorem State.instr_frame (s : State) (l : LPairN) (op : Nat) (act : State → ProgN → BitVec 24 → Act)
    (ha : ∀ s n w, Act.Keeps s (act s n w)) (u : State) (ho : s.instr l op act = .next u) :
    (Memory.wf s.mem = true → Memory.wf u.mem = true) ∧ u.pending = s.pending := by
  unfold State.instr at ho
  dsimp only at ho
  repeat' split at ho
  all_goals simp only [Host.Outcome.next.injEq] at ho
  all_goals subst ho
  · exact ⟨id, rfl⟩
  · exact ⟨fun h => by simp (maxDischargeDepth := 30) [h], by simp⟩
  · exact State.finish_frame s l _ _ (ha _ _ _)
  · exact ⟨id, rfl⟩
@[simp] theorem State.go_keeps (s : State) (l : LPairN) (f : Regs → Regs) : Act.Keeps s (s.go l f) := by simp [State.go]
@[simp] theorem State.bitOp_keeps (s : State) (l : LPairN) (w : BitVec 24) (f : Bool → Bool → Bool) :
    Act.Keeps s (s.bitOp l w f) := State.withBit_keeps _ _ _ _ (fun _ _ => State.go_keeps _ _ _)
@[simp] theorem State.wordOp_keeps (s : State) (l : LPairN) (w : BitVec 24) (f : Regs → Word → Regs) :
    Act.Keeps s (s.wordOp l w f) := State.withWord_keeps _ _ _ _ _ (fun _ _ => State.go_keeps _ _ _)
theorem execLd_frame (l : LPairN) (s : State) (u : State) (ho : execLd l s = .next u) :
    (Memory.wf s.mem = true → Memory.wf u.mem = true) ∧ u.pending = s.pending := by
  refine State.instr_frame s l _ _ (fun s n w => ?_) u ho
  try dsimp only
  repeat' split
  all_goals (try simp)
  all_goals (try (exact fun h => by simp (maxDischargeDepth := 30) [h]))
theorem execLdn_frame (l : LPairN) (s : State) (u : State) (ho : execLdn l s = .next u) :
    (Memory.wf s.mem = true → Memory.wf u.mem = true) ∧ u.pending = s.pending := by
  refine State.instr_frame s l _ _ (fun s n w => ?_) u ho
  try dsimp only
  repeat' split
  all_goals (try simp)
  all_goals (try (exact fun h => by simp (maxDischargeDepth := 30) [h]))
theorem execAnd_frame (l : LPairN) (s : State) (u : State) (ho : execAnd l s = .next u) :
    (Memory.wf s.mem = true → Memory.wf u.mem = true) ∧ u.pending = s.pending := by
  refine State.instr_frame s l _ _ (fun s n w => ?_) u ho
  try dsimp only
  repeat' split
  all_goals (try simp)
  all_goals (try (exact fun h => by simp (maxDischargeDepth := 30) [h]))
theorem execAndn_frame (l : LPairN) (s : State) (u : State) (ho : execAndn l s = .next u) :
    (Memory.wf s.mem = true → Memory.wf u.mem = true) ∧ u.pending = s.pending := by
  refine State.instr_frame s l _ _ (fun s n w => ?_) u ho
  try dsimp only
  repeat' split
  all_goals (try simp)
  all_goals (try (exact fun h => by simp (maxDischargeDepth := 30) [h]))
theorem execOr_frame (l : LPairN) (s : State) (u : State) (ho : execOr l s = .next u) :
    (Memory.wf s.mem = true → Memory.wf u.mem = true) ∧ u.pending = s.pending := by
  refine State.instr_frame s l _ _ (fun s n w => ?_) u ho
  try dsimp only
  repeat' split
  all_goals (try simp)
  all_goals (try (exact fun h => by simp (maxDischargeDepth := 30) [h]))
theorem execOrn_frame (l : LPairN) (s : State) (u : State) (ho : execOrn l s = .next u) :
    (Memory.wf s.mem = true → Memory.wf u.mem = true) ∧ u.pending = s.pending := by
  refine State.instr_frame s l _ _ (fun s n w => ?_) u ho
  try dsimp only
  repeat' split
  all_goals (try simp)
  all_goals (try (exact fun h => by simp (maxDischargeDepth := 30) [h]))
theorem execXor_frame (l : LPairN) (s : State) (u : State) (ho : execXor l s = .next u) :
    (Memory.wf s.mem = true → Memory.wf u.mem = true) ∧ u.pending = s.pending := by
  refine State.instr_frame s l _ _ (fun s n w => ?_) u ho
  try dsimp only
  repeat' split
  all_goals (try simp)
  all_goals (try (exact fun h => by simp (maxDischargeDepth := 30) [h]))
theorem execSt_frame (l : LPairN) (s : State) (u : State) (ho : execSt l s = .next u) :
    (Memory.wf s.mem = true → Memory.wf u.mem = true) ∧ u.pending = s.pending := by
  refine State.instr_frame s l _ _ (fun s n w => ?_) u ho
  try dsimp only
  repeat' split
  all_goals (try simp)
  all_goals (try (exact fun h => by simp (maxDischargeDepth := 30) [h]))
theorem execSet_frame (l : LPairN) (s : State) (u : State) (ho : execSet l s = .next u) :
    (Memory.wf s.mem = true → Memory.wf u.mem = true) ∧ u.pending = s.pending := by
  refine State.instr_frame s l _ _ (fun s n w => ?_) u ho
  try dsimp only
  repeat' split
  all_goals (try simp)
  all_goals (try (exact fun h => by simp (maxDischargeDepth := 30) [h]))
theorem execRst_frame (l : LPairN) (s : State) (u : State) (ho : execRst l s = .next u) :
    (Memory.wf s.mem = true → Memory.wf u.mem = true) ∧ u.pending = s.pending := by
  refine State.instr_frame s l _ _ (fun s n w => ?_) u ho
  try dsimp only
  repeat' split
  all_goals (try simp)
  all_goals (try (exact fun h => by simp (maxDischargeDepth := 30) [h]))
theorem execNot_frame (l : LPairN) (s : State) (u : State) (ho : execNot l s = .next u) :
    (Memory.wf s.mem = true → Memory.wf u.mem = true) ∧ u.pending = s.pending := by
  refine State.instr_frame s l _ _ (fun s n w => ?_) u ho
  try dsimp only
  repeat' split
  all_goals (try simp)
  all_goals (try (exact fun h => by simp (maxDischargeDepth := 30) [h]))
@[simp] theorem State.pushBit_keeps (s : State) (l : LPairN) : Act.Keeps s (s.pushBit l) := by
  unfold State.pushBit
  split
  · exact State.go_keeps _ _ _
  · exact Act.Keeps.trans (by simp) (State.go_keeps _ _ _)
@[simp] theorem State.popBit_keeps (s : State) (l : LPairN) (f : Bool → Bool → Bool) : Act.Keeps s (s.popBit l f) := by
  unfold State.popBit
  split
  · exact State.go_keeps _ _ _
  · exact Act.Keeps.trans (by simp) (State.go_keeps _ _ _)
theorem execBpush_frame (l : LPairN) (s : State) (u : State) (ho : execBpush l s = .next u) :
    (Memory.wf s.mem = true → Memory.wf u.mem = true) ∧ u.pending = s.pending := by
  refine State.instr_frame s l _ _ (fun s n w => ?_) u ho
  try dsimp only
  repeat' split
  all_goals (try simp)
  all_goals (try (exact fun h => by simp (maxDischargeDepth := 30) [h]))
theorem execBpopand_frame (l : LPairN) (s : State) (u : State) (ho : execBpopand l s = .next u) :
    (Memory.wf s.mem = true → Memory.wf u.mem = true) ∧ u.pending = s.pending := by
  refine State.instr_frame s l _ _ (fun s n w => ?_) u ho
  try dsimp only
  repeat' split
  all_goals (try simp)
  all_goals (try (exact fun h => by simp (maxDischargeDepth := 30) [h]))
theorem execBpopor_frame (l : LPairN) (s : State) (u : State) (ho : execBpopor l s = .next u) :
    (Memory.wf s.mem = true → Memory.wf u.mem = true) ∧ u.pending = s.pending := by
  refine State.instr_frame s l _ _ (fun s n w => ?_) u ho
  try dsimp only
  repeat' split
  all_goals (try simp)
  all_goals (try (exact fun h => by simp (maxDischargeDepth := 30) [h]))
@[simp] theorem State.edgeOf_keeps (s : State) (l : LPairN) (n : ProgN) (w : BitVec 24) (f : Bool → Bool → Bool) :
    Act.Keeps s (s.edgeOf l n w f) :=
  State.withBit_keeps _ _ _ _ (fun _ _ => State.setBit_keeps _ _ _ _ _ _ (fun _ => State.go_keeps _ _ _))
theorem execRe_frame (l : LPairN) (s : State) (u : State) (ho : execRe l s = .next u) :
    (Memory.wf s.mem = true → Memory.wf u.mem = true) ∧ u.pending = s.pending := by
  refine State.instr_frame s l _ _ (fun s n w => ?_) u ho
  try dsimp only
  repeat' split
  all_goals (try simp)
  all_goals (try (exact fun h => by simp (maxDischargeDepth := 30) [h]))
theorem execFe_frame (l : LPairN) (s : State) (u : State) (ho : execFe l s = .next u) :
    (Memory.wf s.mem = true → Memory.wf u.mem = true) ∧ u.pending = s.pending := by
  refine State.instr_frame s l _ _ (fun s n w => ?_) u ho
  try dsimp only
  repeat' split
  all_goals (try simp)
  all_goals (try (exact fun h => by simp (maxDischargeDepth := 30) [h]))
@[simp] theorem State.timer_keeps (s : State) (l : LPairN) (n : ProgN) (w : BitVec 24)
    (f : Timer → Bool → Word → Word → Timer) : Act.Keeps s (s.timer l n w f) := by
  unfold State.timer
  split
  · simp
  · refine State.withWord_keeps _ _ _ _ _ (fun s a => State.withWord_keeps _ _ _ _ _ (fun s b => ?_))
    extract_lets r y neg z s1 last
    have h1 : (Memory.wf s.mem = true → Memory.wf s1.mem = true) ∧ s1.pending = s.pending := by
      simp only [s1]
      split <;> simp
    have hl : ∀ s, Act.Keeps s (last s) := fun s => State.setWord_keeps _ _ _ _ _ _ _ (fun s => State.go_keeps _ _ _)
    clear_value s1 last
    split
    · exact Act.Keeps.trans h1 (hl _)
    · exact Act.Keeps.trans h1 (State.setWord_keeps _ _ _ _ _ _ _ hl)
theorem execTon_frame (l : LPairN) (s : State) (u : State) (ho : execTon l s = .next u) :
    (Memory.wf s.mem = true → Memory.wf u.mem = true) ∧ u.pending = s.pending := by
  refine State.instr_frame s l _ _ (fun s n w => ?_) u ho
  try dsimp only
  repeat' split
  all_goals (try simp)
  all_goals (try (exact fun h => by simp (maxDischargeDepth := 30) [h]))
theorem execTof_frame (l : LPairN) (s : State) (u : State) (ho : execTof l s = .next u) :
    (Memory.wf s.mem = true → Memory.wf u.mem = true) ∧ u.pending = s.pending := by
  refine State.instr_frame s l _ _ (fun s n w => ?_) u ho
  try dsimp only
  repeat' split
  all_goals (try simp)
  all_goals (try (exact fun h => by simp (maxDischargeDepth := 30) [h]))
theorem execTp_frame (l : LPairN) (s : State) (u : State) (ho : execTp l s = .next u) :
    (Memory.wf s.mem = true → Memory.wf u.mem = true) ∧ u.pending = s.pending := by
  refine State.instr_frame s l _ _ (fun s n w => ?_) u ho
  try dsimp only
  repeat' split
  all_goals (try simp)
  all_goals (try (exact fun h => by simp (maxDischargeDepth := 30) [h]))
@[simp] theorem State.counter_keeps (s : State) (l : LPairN) (n : ProgN) (w : BitVec 24) (f : Word → Bool → Bool → Word)
    (out : Word → Word → Bool) : Act.Keeps s (s.counter l n w f out) := by
  unfold State.counter
  split
  · simp
  · refine State.withWord_keeps _ _ _ _ _ (fun s a => State.withWord_keeps _ _ _ _ _ (fun s b => ?_))
    extract_lets r c last
    have hl : ∀ s, Act.Keeps s (last s) := fun s => State.setWord_keeps _ _ _ _ _ _ _ (fun s => State.go_keeps _ _ _)
    clear_value last
    split
    · exact hl _
    · exact State.setWord_keeps _ _ _ _ _ _ _ hl
theorem execCtu_frame (l : LPairN) (s : State) (u : State) (ho : execCtu l s = .next u) :
    (Memory.wf s.mem = true → Memory.wf u.mem = true) ∧ u.pending = s.pending := by
  refine State.instr_frame s l _ _ (fun s n w => ?_) u ho
  try dsimp only
  repeat' split
  all_goals (try simp)
  all_goals (try (exact fun h => by simp (maxDischargeDepth := 30) [h]))
theorem execCtd_frame (l : LPairN) (s : State) (u : State) (ho : execCtd l s = .next u) :
    (Memory.wf s.mem = true → Memory.wf u.mem = true) ∧ u.pending = s.pending := by
  refine State.instr_frame s l _ _ (fun s n w => ?_) u ho
  try dsimp only
  repeat' split
  all_goals (try simp)
  all_goals (try (exact fun h => by simp (maxDischargeDepth := 30) [h]))
theorem execCrst_frame (l : LPairN) (s : State) (u : State) (ho : execCrst l s = .next u) :
    (Memory.wf s.mem = true → Memory.wf u.mem = true) ∧ u.pending = s.pending := by
  refine State.instr_frame s l _ _ (fun s n w => ?_) u ho
  try dsimp only
  repeat' split
  all_goals (try simp)
  all_goals (try (exact fun h => by simp (maxDischargeDepth := 30) [h]))
theorem execLdw_frame (l : LPairN) (s : State) (u : State) (ho : execLdw l s = .next u) :
    (Memory.wf s.mem = true → Memory.wf u.mem = true) ∧ u.pending = s.pending := by
  refine State.instr_frame s l _ _ (fun s n w => ?_) u ho
  try dsimp only
  repeat' split
  all_goals (try simp)
  all_goals (try (exact fun h => by simp (maxDischargeDepth := 30) [h]))
theorem execLdi_frame (l : LPairN) (s : State) (u : State) (ho : execLdi l s = .next u) :
    (Memory.wf s.mem = true → Memory.wf u.mem = true) ∧ u.pending = s.pending := by
  refine State.instr_frame s l _ _ (fun s n w => ?_) u ho
  try dsimp only
  repeat' split
  all_goals (try simp)
  all_goals (try (exact fun h => by simp (maxDischargeDepth := 30) [h]))
theorem execLdih_frame (l : LPairN) (s : State) (u : State) (ho : execLdih l s = .next u) :
    (Memory.wf s.mem = true → Memory.wf u.mem = true) ∧ u.pending = s.pending := by
  refine State.instr_frame s l _ _ (fun s n w => ?_) u ho
  try dsimp only
  repeat' split
  all_goals (try simp)
  all_goals (try (exact fun h => by simp (maxDischargeDepth := 30) [h]))
theorem execStw_frame (l : LPairN) (s : State) (u : State) (ho : execStw l s = .next u) :
    (Memory.wf s.mem = true → Memory.wf u.mem = true) ∧ u.pending = s.pending := by
  refine State.instr_frame s l _ _ (fun s n w => ?_) u ho
  try dsimp only
  repeat' split
  all_goals (try simp)
  all_goals (try (exact fun h => by simp (maxDischargeDepth := 30) [h]))
theorem execAdd_frame (l : LPairN) (s : State) (u : State) (ho : execAdd l s = .next u) :
    (Memory.wf s.mem = true → Memory.wf u.mem = true) ∧ u.pending = s.pending := by
  refine State.instr_frame s l _ _ (fun s n w => ?_) u ho
  try dsimp only
  repeat' split
  all_goals (try simp)
  all_goals (try (exact fun h => by simp (maxDischargeDepth := 30) [h]))
theorem execSub_frame (l : LPairN) (s : State) (u : State) (ho : execSub l s = .next u) :
    (Memory.wf s.mem = true → Memory.wf u.mem = true) ∧ u.pending = s.pending := by
  refine State.instr_frame s l _ _ (fun s n w => ?_) u ho
  try dsimp only
  repeat' split
  all_goals (try simp)
  all_goals (try (exact fun h => by simp (maxDischargeDepth := 30) [h]))
theorem execMul_frame (l : LPairN) (s : State) (u : State) (ho : execMul l s = .next u) :
    (Memory.wf s.mem = true → Memory.wf u.mem = true) ∧ u.pending = s.pending := by
  refine State.instr_frame s l _ _ (fun s n w => ?_) u ho
  try dsimp only
  repeat' split
  all_goals (try simp)
  all_goals (try (exact fun h => by simp (maxDischargeDepth := 30) [h]))
theorem execDiv_frame (l : LPairN) (s : State) (u : State) (ho : execDiv l s = .next u) :
    (Memory.wf s.mem = true → Memory.wf u.mem = true) ∧ u.pending = s.pending := by
  refine State.instr_frame s l _ _ (fun s n w => ?_) u ho
  try dsimp only
  repeat' split
  all_goals (try simp)
  all_goals (try (exact fun h => by simp (maxDischargeDepth := 30) [h]))
theorem execAndw_frame (l : LPairN) (s : State) (u : State) (ho : execAndw l s = .next u) :
    (Memory.wf s.mem = true → Memory.wf u.mem = true) ∧ u.pending = s.pending := by
  refine State.instr_frame s l _ _ (fun s n w => ?_) u ho
  try dsimp only
  repeat' split
  all_goals (try simp)
  all_goals (try (exact fun h => by simp (maxDischargeDepth := 30) [h]))
theorem execOrw_frame (l : LPairN) (s : State) (u : State) (ho : execOrw l s = .next u) :
    (Memory.wf s.mem = true → Memory.wf u.mem = true) ∧ u.pending = s.pending := by
  refine State.instr_frame s l _ _ (fun s n w => ?_) u ho
  try dsimp only
  repeat' split
  all_goals (try simp)
  all_goals (try (exact fun h => by simp (maxDischargeDepth := 30) [h]))
theorem execXorw_frame (l : LPairN) (s : State) (u : State) (ho : execXorw l s = .next u) :
    (Memory.wf s.mem = true → Memory.wf u.mem = true) ∧ u.pending = s.pending := by
  refine State.instr_frame s l _ _ (fun s n w => ?_) u ho
  try dsimp only
  repeat' split
  all_goals (try simp)
  all_goals (try (exact fun h => by simp (maxDischargeDepth := 30) [h]))
theorem execShl_frame (l : LPairN) (s : State) (u : State) (ho : execShl l s = .next u) :
    (Memory.wf s.mem = true → Memory.wf u.mem = true) ∧ u.pending = s.pending := by
  refine State.instr_frame s l _ _ (fun s n w => ?_) u ho
  try dsimp only
  repeat' split
  all_goals (try simp)
  all_goals (try (exact fun h => by simp (maxDischargeDepth := 30) [h]))
theorem execShr_frame (l : LPairN) (s : State) (u : State) (ho : execShr l s = .next u) :
    (Memory.wf s.mem = true → Memory.wf u.mem = true) ∧ u.pending = s.pending := by
  refine State.instr_frame s l _ _ (fun s n w => ?_) u ho
  try dsimp only
  repeat' split
  all_goals (try simp)
  all_goals (try (exact fun h => by simp (maxDischargeDepth := 30) [h]))
theorem execMova_frame (l : LPairN) (s : State) (u : State) (ho : execMova l s = .next u) :
    (Memory.wf s.mem = true → Memory.wf u.mem = true) ∧ u.pending = s.pending := by
  refine State.instr_frame s l _ _ (fun s n w => ?_) u ho
  try dsimp only
  repeat' split
  all_goals (try simp)
  all_goals (try (exact fun h => by simp (maxDischargeDepth := 30) [h]))
theorem execMovw_frame (l : LPairN) (s : State) (u : State) (ho : execMovw l s = .next u) :
    (Memory.wf s.mem = true → Memory.wf u.mem = true) ∧ u.pending = s.pending := by
  refine State.instr_frame s l _ _ (fun s n w => ?_) u ho
  try dsimp only
  repeat' split
  all_goals (try simp)
  all_goals (try (exact fun h => by simp (maxDischargeDepth := 30) [h]))
theorem execAddi_frame (l : LPairN) (s : State) (u : State) (ho : execAddi l s = .next u) :
    (Memory.wf s.mem = true → Memory.wf u.mem = true) ∧ u.pending = s.pending := by
  refine State.instr_frame s l _ _ (fun s n w => ?_) u ho
  try dsimp only
  repeat' split
  all_goals (try simp)
  all_goals (try (exact fun h => by simp (maxDischargeDepth := 30) [h]))
theorem execCmpeq_frame (l : LPairN) (s : State) (u : State) (ho : execCmpeq l s = .next u) :
    (Memory.wf s.mem = true → Memory.wf u.mem = true) ∧ u.pending = s.pending := by
  refine State.instr_frame s l _ _ (fun s n w => ?_) u ho
  try dsimp only
  repeat' split
  all_goals (try simp)
  all_goals (try (exact fun h => by simp (maxDischargeDepth := 30) [h]))
theorem execCmpne_frame (l : LPairN) (s : State) (u : State) (ho : execCmpne l s = .next u) :
    (Memory.wf s.mem = true → Memory.wf u.mem = true) ∧ u.pending = s.pending := by
  refine State.instr_frame s l _ _ (fun s n w => ?_) u ho
  try dsimp only
  repeat' split
  all_goals (try simp)
  all_goals (try (exact fun h => by simp (maxDischargeDepth := 30) [h]))
theorem execCmpgt_frame (l : LPairN) (s : State) (u : State) (ho : execCmpgt l s = .next u) :
    (Memory.wf s.mem = true → Memory.wf u.mem = true) ∧ u.pending = s.pending := by
  refine State.instr_frame s l _ _ (fun s n w => ?_) u ho
  try dsimp only
  repeat' split
  all_goals (try simp)
  all_goals (try (exact fun h => by simp (maxDischargeDepth := 30) [h]))
theorem execCmplt_frame (l : LPairN) (s : State) (u : State) (ho : execCmplt l s = .next u) :
    (Memory.wf s.mem = true → Memory.wf u.mem = true) ∧ u.pending = s.pending := by
  refine State.instr_frame s l _ _ (fun s n w => ?_) u ho
  try dsimp only
  repeat' split
  all_goals (try simp)
  all_goals (try (exact fun h => by simp (maxDischargeDepth := 30) [h]))
theorem execLim_frame (l : LPairN) (s : State) (u : State) (ho : execLim l s = .next u) :
    (Memory.wf s.mem = true → Memory.wf u.mem = true) ∧ u.pending = s.pending := by
  refine State.instr_frame s l _ _ (fun s n w => ?_) u ho
  try dsimp only
  repeat' split
  all_goals (try simp)
  all_goals (try (exact fun h => by simp (maxDischargeDepth := 30) [h]))
theorem execScale_frame (l : LPairN) (s : State) (u : State) (ho : execScale l s = .next u) :
    (Memory.wf s.mem = true → Memory.wf u.mem = true) ∧ u.pending = s.pending := by
  refine State.instr_frame s l _ _ (fun s n w => ?_) u ho
  try dsimp only
  repeat' split
  all_goals (try simp)
  all_goals (try (exact fun h => by simp (maxDischargeDepth := 30) [h]))
theorem execAbs_frame (l : LPairN) (s : State) (u : State) (ho : execAbs l s = .next u) :
    (Memory.wf s.mem = true → Memory.wf u.mem = true) ∧ u.pending = s.pending := by
  refine State.instr_frame s l _ _ (fun s n w => ?_) u ho
  try dsimp only
  repeat' split
  all_goals (try simp)
  all_goals (try (exact fun h => by simp (maxDischargeDepth := 30) [h]))
theorem execResc_frame (l : LPairN) (s : State) (u : State) (ho : execResc l s = .next u) :
    (Memory.wf s.mem = true → Memory.wf u.mem = true) ∧ u.pending = s.pending := by
  refine State.instr_frame s l _ _ (fun s n w => ?_) u ho
  extract_lets r
  have hr : (Memory.wf s.mem = true → Memory.wf r.1.mem = true) ∧ r.1.pending = s.pending := State.loadBytes_frame s l _ 4 0xFF
  clear_value r
  split
  · exact hr
  · exact Act.Keeps.trans hr (State.go_keeps _ _ _)
@[simp] theorem State.request_frame (s : State) (l : LPairN) (o : JOp) (act : State → State)
    (ha : ∀ s, (Memory.wf s.mem = true → Memory.wf (act s).mem = true) ∧ (act s).pending = s.pending) :
    (Memory.wf s.mem = true → Memory.wf (s.request l o act).mem = true) ∧ (s.request l o act).pending = s.pending := by
  unfold State.request
  split
  all_goals exact ⟨fun h => (ha _).1 (by simp [h]), (ha _).2.trans (by simp)⟩
theorem execRail_frame (l : LPairN) (s : State) (u : State) (ho : execRail l s = .next u) :
    (Memory.wf s.mem = true → Memory.wf u.mem = true) ∧ u.pending = s.pending := by
  refine State.instr_frame s l _ _ (fun s n w => ?_) u ho
  repeat' split
  · simp
  · simp
  · exact State.request_frame _ _ _ _ (fun s => State.putStore_frame _ _ _)
theorem execMrg_frame (l : LPairN) (s : State) (u : State) (ho : execMrg l s = .next u) :
    (Memory.wf s.mem = true → Memory.wf u.mem = true) ∧ u.pending = s.pending := by
  refine State.instr_frame s l _ _ (fun s n w => ?_) u ho
  split
  · simp
  · exact State.request_frame _ _ _ _ (fun s => ⟨fun h => Memory.putWord_wf _ _ h, rfl⟩)
theorem execEvt_frame (l : LPairN) (s : State) (u : State) (ho : execEvt l s = .next u) :
    (Memory.wf s.mem = true → Memory.wf u.mem = true) ∧ u.pending = s.pending := by
  refine State.instr_frame s l _ _ (fun s n w => ?_) u ho
  dsimp only
  repeat' split
  · simp
  · exact State.request_frame _ _ _ _ (fun s => State.putStore_frame _ _ _)
  · simp
@[simp] theorem State.progSignal_frame (s : State) (l : LPairN) (n : ProgN) (o : Fin 1024) : (State.progSignal s l n o).mem = s.mem ∧ (State.progSignal s l n o).pending = s.pending := by simp [State.progSignal]
theorem execSigsync_frame (l : LPairN) (s : State) (u : State) (ho : execSigsync l s = .next u) :
    (Memory.wf s.mem = true → Memory.wf u.mem = true) ∧ u.pending = s.pending := by
  refine State.instr_frame s l _ _ (fun s n w => ?_) u ho
  try dsimp only
  repeat' split
  all_goals (try simp)
  all_goals (try (exact fun h => by simp (maxDischargeDepth := 30) [h]))
@[simp] theorem State.liveLock_frame (s : State) (l : LPairN) (k : Fin 256) : (State.liveLock s l k).mem = s.mem ∧ (State.liveLock s l k).pending = s.pending := by simp [State.liveLock]
theorem execLock_frame (l : LPairN) (s : State) (u : State) (ho : execLock l s = .next u) :
    (Memory.wf s.mem = true → Memory.wf u.mem = true) ∧ u.pending = s.pending := by
  refine State.instr_frame s l _ _ (fun s n w => ?_) u ho
  extract_lets k
  clear_value k
  generalize s.matchOp l _ = m
  rcases m with _ | o | _
  · simp
  · cases o <;> simp
  · simp
@[simp] theorem State.liveUnlock_frame (s : State) (l : LPairN) (n : ProgN) (k : Fin 256) (clear : Bool) : (State.liveUnlock s l n k clear).mem = s.mem ∧ (State.liveUnlock s l n k clear).pending = s.pending := by simp [State.liveUnlock]
theorem execUnlock_frame (l : LPairN) (s : State) (u : State) (ho : execUnlock l s = .next u) :
    (Memory.wf s.mem = true → Memory.wf u.mem = true) ∧ u.pending = s.pending := by
  refine State.instr_frame s l _ _ (fun s n w => ?_) u ho
  try dsimp only
  repeat' split
  all_goals (try simp)
  all_goals (try (exact fun h => by simp (maxDischargeDepth := 30) [h]))
@[simp] theorem State.jumpTo_keeps (s : State) (l : LPairN) (n : ProgN) (target : Nat) : Act.Keeps s (s.jumpTo l n target) := by
  unfold State.jumpTo
  dsimp only
  split <;> simp
@[simp] theorem State.jump_keeps (s : State) (l : LPairN) (n : ProgN) (w : BitVec 24) : Act.Keeps s (s.jump l n w) := by
  unfold State.jump
  split <;> simp
theorem execJmp_frame (l : LPairN) (s : State) (u : State) (ho : execJmp l s = .next u) :
    (Memory.wf s.mem = true → Memory.wf u.mem = true) ∧ u.pending = s.pending := by
  refine State.instr_frame s l _ _ (fun s n w => ?_) u ho
  try dsimp only
  repeat' split
  all_goals (try simp)
  all_goals (try (exact fun h => by simp (maxDischargeDepth := 30) [h]))
theorem execJc_frame (l : LPairN) (s : State) (u : State) (ho : execJc l s = .next u) :
    (Memory.wf s.mem = true → Memory.wf u.mem = true) ∧ u.pending = s.pending := by
  refine State.instr_frame s l _ _ (fun s n w => ?_) u ho
  try dsimp only
  repeat' split
  all_goals (try simp)
  all_goals (try (exact fun h => by simp (maxDischargeDepth := 30) [h]))
theorem execJnc_frame (l : LPairN) (s : State) (u : State) (ho : execJnc l s = .next u) :
    (Memory.wf s.mem = true → Memory.wf u.mem = true) ∧ u.pending = s.pending := by
  refine State.instr_frame s l _ _ (fun s n w => ?_) u ho
  try dsimp only
  repeat' split
  all_goals (try simp)
  all_goals (try (exact fun h => by simp (maxDischargeDepth := 30) [h]))
theorem execLoop_frame (l : LPairN) (s : State) (u : State) (ho : execLoop l s = .next u) :
    (Memory.wf s.mem = true → Memory.wf u.mem = true) ∧ u.pending = s.pending := by
  refine State.instr_frame s l _ _ (fun s n w => ?_) u ho
  extract_lets r k v d mine taken others s1
  have h1 : (Memory.wf s.mem = true → Memory.wf s1.mem = true) ∧ s1.pending = s.pending := by simp [s1]
  clear_value s1
  split
  · split
    · simp
    · exact Act.Keeps.trans h1 (Act.Keeps.trans (by simp) (State.jumpTo_keeps _ _ _ _))
  · exact Act.Keeps.trans h1 (State.go_keeps _ _ _)
theorem execCall_frame (l : LPairN) (s : State) (u : State) (ho : execCall l s = .next u) :
    (Memory.wf s.mem = true → Memory.wf u.mem = true) ∧ u.pending = s.pending := by
  refine State.instr_frame s l _ _ (fun s n w => ?_) u ho
  try dsimp only
  repeat' split
  all_goals (try simp)
  all_goals (try (exact fun h => by simp (maxDischargeDepth := 30) [h]))
theorem execRet_frame (l : LPairN) (s : State) (u : State) (ho : execRet l s = .next u) :
    (Memory.wf s.mem = true → Memory.wf u.mem = true) ∧ u.pending = s.pending := by
  refine State.instr_frame s l _ _ (fun s n w => ?_) u ho
  try dsimp only
  repeat' split
  all_goals (try simp)
  all_goals (try (exact fun h => by simp (maxDischargeDepth := 30) [h]))
@[simp] theorem State.waitOn_frame (s : State) (l : LPairN) (n : ProgN) (o : Fin 1024) : (State.waitOn s l n o).mem = s.mem ∧ (State.waitOn s l n o).pending = s.pending := by simp [State.waitOn]
@[simp] theorem State.endBead_frame (s : State) (l : LPairN) (n : ProgN) (next : Nat) (wait : Option (Fin 1024)) : (Memory.wf s.mem = true → Memory.wf (State.endBead s l n next wait).mem = true) ∧ (State.endBead s l n next wait).pending = s.pending := by
  unfold State.endBead
  dsimp only
  repeat' split
  all_goals exact ⟨fun h => by simp (maxDischargeDepth := 30) [h], by simp⟩
theorem execBend_frame (l : LPairN) (s : State) (u : State) (ho : execBend l s = .next u) :
    (Memory.wf s.mem = true → Memory.wf u.mem = true) ∧ u.pending = s.pending := by
  refine State.instr_frame s l _ _ (fun s n w => ?_) u ho
  try dsimp only
  repeat' split
  all_goals (try simp)
  all_goals (try (exact fun h => by simp (maxDischargeDepth := 30) [h]))
theorem execPend_frame (l : LPairN) (s : State) (u : State) (ho : execPend l s = .next u) :
    (Memory.wf s.mem = true → Memory.wf u.mem = true) ∧ u.pending = s.pending := by
  refine State.instr_frame s l _ _ (fun s n w => ?_) u ho
  try dsimp only
  repeat' split
  all_goals (try simp)
  all_goals (try (exact fun h => by simp (maxDischargeDepth := 30) [h]))
theorem execWaitsync_frame (l : LPairN) (s : State) (u : State) (ho : execWaitsync l s = .next u) :
    (Memory.wf s.mem = true → Memory.wf u.mem = true) ∧ u.pending = s.pending := by
  refine State.instr_frame s l _ _ (fun s n w => ?_) u ho
  try dsimp only
  repeat' split
  all_goals (try simp)
  all_goals (try (exact fun h => by simp (maxDischargeDepth := 30) [h]))
theorem execNop_frame (l : LPairN) (s : State) (u : State) (ho : execNop l s = .next u) :
    (Memory.wf s.mem = true → Memory.wf u.mem = true) ∧ u.pending = s.pending := by
  refine State.instr_frame s l _ _ (fun s n w => ?_) u ho
  try dsimp only
  repeat' split
  all_goals (try simp)
  all_goals (try (exact fun h => by simp (maxDischargeDepth := 30) [h]))
end Sys2Proof.Machine
end

