-- ==== Sys2Proof/Laws/FrameRegisters.lean ====
section
/-!
SUPPORT. The frames of Machine/Registers.lean: every operation keeps the canonical form of the image memory, or leaves it alone, and
keeps the queue of waiting commands.
-/
namespace Sys2Proof.Machine
open Sys2Proof
set_option linter.all false
set_option maxRecDepth 20000
/-- Every next state that a command answers has a well-formed memory if `s` has, and the queue of `s`. -/
def Out.Keeps (s : State) (o : Out) : Prop :=
  ∀ u, o = .next u → (Memory.wf s.mem = true → Memory.wf u.mem = true) ∧ u.pending = s.pending
@[simp] theorem Out.keeps_next (s t : State) : Out.Keeps s (.next t) ↔
    (Memory.wf s.mem = true → Memory.wf t.mem = true) ∧ t.pending = s.pending :=
  ⟨fun h => h t rfl, fun h u hu => by rw [Host.Outcome.next.injEq] at hu; exact hu ▸ h⟩
@[simp] theorem Out.keeps_refused (s : State) (r : Refusal) : Out.Keeps s (.refused r) := by
  intro u hu; simp only [reduceCtorEq] at hu
@[simp] theorem Out.keeps_fault (s : State) (r : Fault) : Out.Keeps s (.fault r) := by
  intro u hu; simp only [reduceCtorEq] at hu
theorem Out.Keeps.trans {s t : State} {o : Out} (h : (Memory.wf s.mem = true → Memory.wf t.mem = true) ∧ t.pending = s.pending)
    (ho : Out.Keeps t o) : Out.Keeps s o := fun u hu => ⟨fun x => (ho u hu).1 (h.1 x), (ho u hu).2.trans h.2⟩

@[simp] theorem execSupplyStartThreshold_keeps (s : State) : Out.Keeps s (execSupplyStartThreshold s) :=
  fun u hu => execSupplyStartThreshold_frame s u hu
@[simp] theorem execVinAbsenceBegin_keeps (s : State) : Out.Keeps s (execVinAbsenceBegin s) :=
  fun u hu => ⟨fun h => by rw [(execVinAbsenceBegin_frame s u hu).1]; exact h, (execVinAbsenceBegin_frame s u hu).2⟩
@[simp] theorem execFluctuationExpiry_keeps (s : State) : Out.Keeps s (execFluctuationExpiry s) :=
  fun u hu => ⟨fun h => by rw [(execFluctuationExpiry_frame s u hu).1]; exact h, (execFluctuationExpiry_frame s u hu).2⟩
@[simp] theorem execSupplyLossDeclared_keeps (s : State) : Out.Keeps s (execSupplyLossDeclared s) :=
  fun u hu => ⟨fun h => by rw [(execSupplyLossDeclared_frame s u hu).1]; exact h, (execSupplyLossDeclared_frame s u hu).2⟩
@[simp] theorem execVinReturn_keeps (s : State) : Out.Keeps s (execVinReturn s) :=
  fun u hu => ⟨fun h => by rw [(execVinReturn_frame s u hu).1]; exact h, (execVinReturn_frame s u hu).2⟩
@[simp] theorem execPfwAssert_keeps (asserted : Bool) (s : State) : Out.Keeps s (execPfwAssert asserted s) :=
  fun u hu => execPfwAssert_frame asserted s u hu
@[simp] theorem execInternalRailFault_keeps (s : State) : Out.Keeps s (execInternalRailFault s) :=
  fun u hu => execInternalRailFault_frame s u hu
@[simp] theorem execInternalTempMeasure_keeps (temps : List Int) (s : State) : Out.Keeps s (execInternalTempMeasure temps s) :=
  fun u hu => ⟨fun h => by rw [(execInternalTempMeasure_frame temps s u hu).1]; exact h, (execInternalTempMeasure_frame temps s u hu).2⟩
@[simp] theorem execHoldupEnergyUpdate_keeps (vinMv bankMv : Nat) (railsGood : Bool) (s : State) : Out.Keeps s (execHoldupEnergyUpdate vinMv bankMv railsGood s) :=
  fun u hu => ⟨fun h => by rw [(execHoldupEnergyUpdate_frame vinMv bankMv railsGood s u hu).1]; exact h, (execHoldupEnergyUpdate_frame vinMv bankMv railsGood s u hu).2⟩
@[simp] theorem execHoldupChargeStalled_keeps (s : State) : Out.Keeps s (execHoldupChargeStalled s) :=
  fun u hu => ⟨fun h => by rw [(execHoldupChargeStalled_frame s u hu).1]; exact h, (execHoldupChargeStalled_frame s u hu).2⟩
@[simp] theorem execTimeBaseCheck_keeps (ppm : Int) (s : State) : Out.Keeps s (execTimeBaseCheck ppm s) :=
  fun u hu => execTimeBaseCheck_frame ppm s u hu
@[simp] theorem execMtimeLoRead_keeps (s : State) : Out.Keeps s (execMtimeLoRead s) :=
  fun u hu => ⟨fun h => by rw [(execMtimeLoRead_frame s u hu).1]; exact h, (execMtimeLoRead_frame s u hu).2⟩
@[simp] theorem execUtcLoRead_keeps (s : State) : Out.Keeps s (execUtcLoRead s) :=
  fun u hu => ⟨fun h => by rw [(execUtcLoRead_frame s u hu).1]; exact h, (execUtcLoRead_frame s u hu).2⟩
@[simp] theorem execCycleLoRead_keeps (s : State) : Out.Keeps s (execCycleLoRead s) :=
  fun u hu => ⟨fun h => by rw [(execCycleLoRead_frame s u hu).1]; exact h, (execCycleLoRead_frame s u hu).2⟩
@[simp] theorem execCmdSeqLoRead_keeps (src : Fin 64) (isIssued : Bool) (s : State) : Out.Keeps s (execCmdSeqLoRead src isIssued s) :=
  fun u hu => ⟨fun h => by rw [(execCmdSeqLoRead_frame src isIssued s u hu).1]; exact h, (execCmdSeqLoRead_frame src isIssued s u hu).2⟩
@[simp] theorem execUtcHoldover_keeps (s : State) : Out.Keeps s (execUtcHoldover s) :=
  fun u hu => ⟨fun h => by rw [(execUtcHoldover_frame s u hu).1]; exact h, (execUtcHoldover_frame s u hu).2⟩
@[simp] theorem execLeapSecond_keeps (positive : Bool) (s : State) : Out.Keeps s (execLeapSecond positive s) :=
  fun u hu => ⟨fun h => by rw [(execLeapSecond_frame positive s u hu).1]; exact h, (execLeapSecond_frame positive s u hu).2⟩
@[simp] theorem execWakeTimerExpiry_keeps (s : State) : Out.Keeps s (execWakeTimerExpiry s) :=
  fun u hu => execWakeTimerExpiry_frame s u hu
@[simp] theorem execHostOffRequest_keeps (s : State) : Out.Keeps s (execHostOffRequest s) :=
  fun u hu => execHostOffRequest_frame s u hu
@[simp] theorem execHostOnRequest_keeps (s : State) : Out.Keeps s (execHostOnRequest s) :=
  fun u hu => execHostOnRequest_frame s u hu
@[simp] theorem execHostRestart_keeps (s : State) : Out.Keeps s (execHostRestart s) :=
  fun u hu => execHostRestart_frame s u hu
@[simp] theorem execStandstillInputChange_keeps (asserted : Bool) (s : State) : Out.Keeps s (execStandstillInputChange asserted s) :=
  fun u hu => ⟨fun h => by rw [(execStandstillInputChange_frame asserted s u hu).1]; exact h, (execStandstillInputChange_frame asserted s u hu).2⟩
@[simp] theorem execMotionJudgement_keeps (s : State) : Out.Keeps s (execMotionJudgement s) :=
  fun u hu => ⟨fun h => by rw [(execMotionJudgement_frame s u hu).1]; exact h, (execMotionJudgement_frame s u hu).2⟩
@[simp] theorem execStandstillConfirmed_keeps (s : State) : Out.Keeps s (execStandstillConfirmed s) :=
  fun u hu => execStandstillConfirmed_frame s u hu
@[simp] theorem execStabledFlushEnd_keeps (s : State) : Out.Keeps s (execStabledFlushEnd s) :=
  fun u hu => ⟨fun h => by rw [(execStabledFlushEnd_frame s u hu).1]; exact h, (execStabledFlushEnd_frame s u hu).2⟩
@[simp] theorem execRailCmdOn_keeps (n : RailN) (s : State) : Out.Keeps s (execRailCmdOn n s) :=
  fun u hu => execRailCmdOn_frame n s u hu
@[simp] theorem execRailCmdOff_keeps (n : RailN) (s : State) : Out.Keeps s (execRailCmdOff n s) :=
  fun u hu => execRailCmdOff_frame n s u hu
@[simp] theorem execRailCmdClear_keeps (n : RailN) (s : State) : Out.Keeps s (execRailCmdClear n s) :=
  fun u hu => execRailCmdClear_frame n s u hu
@[simp] theorem execRailCmdRelease_keeps (n : RailN) (s : State) : Out.Keeps s (execRailCmdRelease n s) :=
  fun u hu => execRailCmdRelease_frame n s u hu
@[simp] theorem execRailCmdPark_keeps (n : RailN) (s : State) : Out.Keeps s (execRailCmdPark n s) :=
  fun u hu => execRailCmdPark_frame n s u hu
@[simp] theorem execRailCmdUnpark_keeps (n : RailN) (s : State) : Out.Keeps s (execRailCmdUnpark n s) :=
  fun u hu => execRailCmdUnpark_frame n s u hu
@[simp] theorem execComparatorCrossing_keeps (i : Fin 320) (level : Int) (s : State) : Out.Keeps s (execComparatorCrossing i level s) :=
  fun u hu => execComparatorCrossing_frame i level s u hu
@[simp] theorem execRampDelayEnd_keeps (n : RailN) (s : State) : Out.Keeps s (execRampDelayEnd n s) :=
  fun u hu => execRampDelayEnd_frame n s u hu
@[simp] theorem execRampDeadline_keeps (n : RailN) (s : State) : Out.Keeps s (execRampDeadline n s) :=
  fun u hu => execRampDeadline_frame n s u hu
@[simp] theorem execPgChange_keeps (n : RailN) (good : Bool) (s : State) : Out.Keeps s (execPgChange n good s) :=
  fun u hu => ⟨fun h => by rw [(execPgChange_frame n good s u hu).1]; exact h, (execPgChange_frame n good s u hu).2⟩
@[simp] theorem execPgDelayExpiry_keeps (n : RailN) (s : State) : Out.Keeps s (execPgDelayExpiry n s) :=
  fun u hu => execPgDelayExpiry_frame n s u hu
@[simp] theorem execPgFilterExpiry_keeps (n : RailN) (s : State) : Out.Keeps s (execPgFilterExpiry n s) :=
  fun u hu => execPgFilterExpiry_frame n s u hu
@[simp] theorem execDischargeTimeout_keeps (n : RailN) (s : State) : Out.Keeps s (execDischargeTimeout n s) :=
  fun u hu => execDischargeTimeout_frame n s u hu
@[simp] theorem execStepDelayExpiry_keeps (g : GroupN) (k : Fin 32) (s : State) : Out.Keeps s (execStepDelayExpiry g k s) :=
  fun u hu => execStepDelayExpiry_frame g k s u hu
@[simp] theorem execStepTimeout_keeps (g : GroupN) (k : Fin 32) (s : State) : Out.Keeps s (execStepTimeout g k s) :=
  fun u hu => execStepTimeout_frame g k s u hu
@[simp] theorem execCasInAccepted_keeps (c : ChainN) (high : Bool) (s : State) : Out.Keeps s (execCasInAccepted c high s) :=
  fun u hu => execCasInAccepted_frame c high s u hu
@[simp] theorem execAllowanceExpiry_keeps (g : GroupN) (s : State) : Out.Keeps s (execAllowanceExpiry g s) :=
  fun u hu => execAllowanceExpiry_frame g s u hu
@[simp] theorem execRetryPauseEnd_keeps (s : State) : Out.Keeps s (execRetryPauseEnd s) :=
  fun u hu => execRetryPauseEnd_frame s u hu
@[simp] theorem execRerun_keeps (s : State) : Out.Keeps s (execRerun s) :=
  fun u hu => ⟨fun h => by rw [(execRerun_frame s u hu).1]; exact h, (execRerun_frame s u hu).2⟩
@[simp] theorem execLckAcquire_keeps (t : TgtN) (o : Fin 1024) (s : State) : Out.Keeps s (execLckAcquire t o s) :=
  fun u hu => ⟨fun h => by rw [(execLckAcquire_frame t o s u hu).1]; exact h, (execLckAcquire_frame t o s u hu).2⟩
@[simp] theorem execLckRelease_keeps (t : TgtN) (o : Fin 1024) (s : State) : Out.Keeps s (execLckRelease t o s) :=
  fun u hu => ⟨fun h => by rw [(execLckRelease_frame t o s u hu).1]; exact h, (execLckRelease_frame t o s u hu).2⟩
@[simp] theorem execLckReleaseClearPoison_keeps (t : TgtN) (o : Fin 1024) (s : State) : Out.Keeps s (execLckReleaseClearPoison t o s) :=
  fun u hu => ⟨fun h => by rw [(execLckReleaseClearPoison_frame t o s u hu).1]; exact h, (execLckReleaseClearPoison_frame t o s u hu).2⟩
@[simp] theorem execSyncSignal_keeps (t : TgtN) (o : Fin 1024) (s : State) : Out.Keeps s (execSyncSignal t o s) :=
  fun u hu => ⟨fun h => by rw [(execSyncSignal_frame t o s u hu).1]; exact h, (execSyncSignal_frame t o s u hu).2⟩
@[simp] theorem execSyncWait_keeps (t : TgtN) (o : Fin 1024) (notify : Fin 32) (prio : BitVec 8) (s : State) : Out.Keeps s (execSyncWait t o notify prio s) :=
  fun u hu => ⟨fun h => by rw [(execSyncWait_frame t o notify prio s u hu).1]; exact h, (execSyncWait_frame t o notify prio s u hu).2⟩
@[simp] theorem execSyncCancelWait_keeps (t : TgtN) (s : State) : Out.Keeps s (execSyncCancelWait t s) :=
  fun u hu => ⟨fun h => by rw [(execSyncCancelWait_frame t s u hu).1]; exact h, (execSyncCancelWait_frame t s u hu).2⟩
@[simp] theorem execResetEpoch_keeps (t : TgtN) (s : State) : Out.Keeps s (execResetEpoch t s) :=
  fun u hu => ⟨fun h => by rw [(execResetEpoch_frame t s u hu).1]; exact h, (execResetEpoch_frame t s u hu).2⟩
@[simp] theorem execSyncTimerSignal_keeps (o : Fin 1024) (s : State) : Out.Keeps s (execSyncTimerSignal o s) :=
  fun u hu => ⟨fun h => by rw [(execSyncTimerSignal_frame o s u hu).1]; exact h, (execSyncTimerSignal_frame o s u hu).2⟩
@[simp] theorem execMarginHold_keeps (n : RailN) (target : BitVec 8) (s : State) : Out.Keeps s (execMarginHold n target s) :=
  fun u hu => ⟨fun h => by rw [(execMarginHold_frame n target s u hu).1]; exact h, (execMarginHold_frame n target s u hu).2⟩
@[simp] theorem execMarginEnd_keeps (n : RailN) (s : State) : Out.Keeps s (execMarginEnd n s) :=
  fun u hu => ⟨fun h => by rw [(execMarginEnd_frame n s u hu).1]; exact h, (execMarginEnd_frame n s u hu).2⟩
@[simp] theorem execMarginSlewStep_keeps (n : RailN) (s : State) : Out.Keeps s (execMarginSlewStep n s) :=
  fun u hu => ⟨fun h => by rw [(execMarginSlewStep_frame n s u hu).1]; exact h, (execMarginSlewStep_frame n s u hu).2⟩
@[simp] theorem execHoldExpired_keeps (n : RailN) (s : State) : Out.Keeps s (execHoldExpired n s) :=
  fun u hu => ⟨fun h => by rw [(execHoldExpired_frame n s u hu).1]; exact h, (execHoldExpired_frame n s u hu).2⟩
@[simp] theorem execTrimClipped_keeps (n : RailN) (clipped : Bool) (s : State) : Out.Keeps s (execTrimClipped n clipped s) :=
  fun u hu => ⟨fun h => by rw [(execTrimClipped_frame n clipped s u hu).1]; exact h, (execTrimClipped_frame n clipped s u hu).2⟩
@[simp] theorem execProbeAbortAll_keeps (s : State) : Out.Keeps s (execProbeAbortAll s) :=
  fun u hu => ⟨fun h => by rw [(execProbeAbortAll_frame s u hu).1]; exact h, (execProbeAbortAll_frame s u hu).2⟩
@[simp] theorem execProbeRequest_keeps (n : RailN) (s : State) : Out.Keeps s (execProbeRequest n s) :=
  fun u hu => ⟨fun h => by rw [(execProbeRequest_frame n s u hu).1]; exact h, (execProbeRequest_frame n s u hu).2⟩
@[simp] theorem execProbeStepApply_keeps (n : RailN) (s : State) : Out.Keeps s (execProbeStepApply n s) :=
  fun u hu => ⟨fun h => by rw [(execProbeStepApply_frame n s u hu).1]; exact h, (execProbeStepApply_frame n s u hu).2⟩
@[simp] theorem execProbeSnapshotEnd_keeps (n : RailN) (samples : List Int) (s : State) : Out.Keeps s (execProbeSnapshotEnd n samples s) :=
  fun u hu => ⟨fun h => by rw [(execProbeSnapshotEnd_frame n samples s u hu).1]; exact h, (execProbeSnapshotEnd_frame n samples s u hu).2⟩
@[simp] theorem execProbeHoldEnd_keeps (n : RailN) (s : State) : Out.Keeps s (execProbeHoldEnd n s) :=
  fun u hu => ⟨fun h => by rw [(execProbeHoldEnd_frame n s u hu).1]; exact h, (execProbeHoldEnd_frame n s u hu).2⟩
@[simp] theorem execScanSlotEnd_keeps (c : ConvN) (x : Int) (s : State) : Out.Keeps s (execScanSlotEnd c x s) :=
  fun u hu => execScanSlotEnd_frame c x s u hu
@[simp] theorem execCalibrationDue_keeps (c : ConvN) (s : State) : Out.Keeps s (execCalibrationDue c s) :=
  fun u hu => ⟨fun h => by rw [(execCalibrationDue_frame c s u hu).1]; exact h, (execCalibrationDue_frame c s u hu).2⟩
@[simp] theorem execCalOverdue_keeps (c : ConvN) (s : State) : Out.Keeps s (execCalOverdue c s) :=
  fun u hu => ⟨fun h => by rw [(execCalOverdue_frame c s u hu).1]; exact h, (execCalOverdue_frame c s u hu).2⟩
@[simp] theorem execCalibrationDone_keeps (c : ConvN) (gain offset : Int) (agree : Bool) (s : State) : Out.Keeps s (execCalibrationDone c gain offset agree s) :=
  fun u hu => ⟨fun h => by rw [(execCalibrationDone_frame c gain offset agree s u hu).1]; exact h, (execCalibrationDone_frame c gain offset agree s u hu).2⟩
@[simp] theorem execConverterOut_keeps (c : ConvN) (s : State) : Out.Keeps s (execConverterOut c s) :=
  fun u hu => ⟨fun h => by rw [(execConverterOut_frame c s u hu).1]; exact h, (execConverterOut_frame c s u hu).2⟩
@[simp] theorem execConverterIn_keeps (c : ConvN) (s : State) : Out.Keeps s (execConverterIn c s) :=
  fun u hu => ⟨fun h => by rw [(execConverterIn_frame c s u hu).1]; exact h, (execConverterIn_frame c s u hu).2⟩
@[simp] theorem execConverterCalibrate_keeps (c : ConvN) (s : State) : Out.Keeps s (execConverterCalibrate c s) :=
  fun u hu => ⟨fun h => by rw [(execConverterCalibrate_frame c s u hu).1]; exact h, (execConverterCalibrate_frame c s u hu).2⟩
@[simp] theorem execSnapshotTriggerCmd_keeps (s : State) : Out.Keeps s (execSnapshotTriggerCmd s) :=
  fun u hu => ⟨fun h => by rw [(execSnapshotTriggerCmd_frame s u hu).1]; exact h, (execSnapshotTriggerCmd_frame s u hu).2⟩
@[simp] theorem execSnapshotBurstEnd_keeps (samples : List (List (Option Int))) (s : State) : Out.Keeps s (execSnapshotBurstEnd samples s) :=
  fun u hu => ⟨fun h => by rw [(execSnapshotBurstEnd_frame samples s u hu).1]; exact h, (execSnapshotBurstEnd_frame samples s u hu).2⟩
@[simp] theorem execScnResRead_keeps (r : Fin 1024) (s : State) : Out.Keeps s (execScnResRead r s) :=
  fun u hu => ⟨fun h => by rw [(execScnResRead_frame r s u hu).1]; exact h, (execScnResRead_frame r s u hu).2⟩
@[simp] theorem execSampledSampling_keeps (levels : List Int) (s : State) : Out.Keeps s (execSampledSampling levels s) :=
  fun u hu => execSampledSampling_frame levels s u hu
@[simp] theorem execLevelRecompute_keeps (x : Marker) (pMod : Nat) (s : State) : Out.Keeps s (execLevelRecompute x pMod s) :=
  fun u hu => ⟨fun h => by rw [(execLevelRecompute_frame x pMod s u hu).1]; exact h, (execLevelRecompute_frame x pMod s u hu).2⟩
@[simp] theorem execBatteryWrite_keeps (joules : Word) (s : State) : Out.Keeps s (execBatteryWrite joules s) :=
  fun u hu => ⟨fun h => by rw [(execBatteryWrite_frame joules s u hu).1]; exact h, (execBatteryWrite_frame joules s u hu).2⟩
@[simp] theorem execBatteryTimeout_keeps (s : State) : Out.Keeps s (execBatteryTimeout s) :=
  fun u hu => ⟨fun h => by rw [(execBatteryTimeout_frame s u hu).1]; exact h, (execBatteryTimeout_frame s u hu).2⟩
@[simp] theorem execQueuePush_keeps (q : QueueN) (w : Word) (s : State) : Out.Keeps s (execQueuePush q w s) :=
  fun u hu => ⟨fun h => by rw [(execQueuePush_frame q w s u hu).1]; exact h, (execQueuePush_frame q w s u hu).2⟩
@[simp] theorem execQueueComplete_keeps (q : QueueN) (index : BitVec 16) (aborted : Bool) (s : State) : Out.Keeps s (execQueueComplete q index aborted s) :=
  fun u hu => ⟨fun h => by rw [(execQueueComplete_frame q index aborted s u hu).1]; exact h, (execQueueComplete_frame q index aborted s u hu).2⟩
@[simp] theorem execQueueCancel_keeps (q : QueueN) (index : BitVec 16) (s : State) : Out.Keeps s (execQueueCancel q index s) :=
  fun u hu => ⟨fun h => by rw [(execQueueCancel_frame q index s u hu).1]; exact h, (execQueueCancel_frame q index s u hu).2⟩
@[simp] theorem execQueueFlush_keeps (s : State) : Out.Keeps s (execQueueFlush s) :=
  fun u hu => ⟨fun h => by rw [(execQueueFlush_frame s u hu).1]; exact h, (execQueueFlush_frame s u hu).2⟩
@[simp] theorem execDescriptorReadDone_keeps (q : QueueN) (est : Word) (s : State) : Out.Keeps s (execDescriptorReadDone q est s) :=
  fun u hu => ⟨fun h => by rw [(execDescriptorReadDone_frame q est s u hu).1]; exact h, (execDescriptorReadDone_frame q est s u hu).2⟩
@[simp] theorem execDispatchRound_keeps (s : State) : Out.Keeps s (execDispatchRound s) :=
  fun u hu => ⟨fun h => by rw [(execDispatchRound_frame s u hu).1]; exact h, (execDispatchRound_frame s u hu).2⟩
@[simp] theorem execDomainIdleTimeout_keeps (d : Fin 16) (s : State) : Out.Keeps s (execDomainIdleTimeout d s) :=
  fun u hu => ⟨fun h => by rw [(execDomainIdleTimeout_frame d s u hu).1]; exact h, (execDomainIdleTimeout_frame d s u hu).2⟩
@[simp] theorem execFieldSample_keeps (g : Fin 8) (contacts : BitVec 16) (current : Nat) (s : State) : Out.Keeps s (execFieldSample g contacts current s) :=
  fun u hu => execFieldSample_frame g contacts current s u hu
@[simp] theorem execSilentLogicExpiry_keeps (p : PointN) (s : State) : Out.Keeps s (execSilentLogicExpiry p s) :=
  fun u hu => ⟨fun h => by rw [(execSilentLogicExpiry_frame p s u hu).1]; exact h, (execSilentLogicExpiry_frame p s u hu).2⟩
@[simp] theorem execGroupSupplyLost_keeps (g : Fin 8) (s : State) : Out.Keeps s (execGroupSupplyLost g s) :=
  fun u hu => execGroupSupplyLost_frame g s u hu
@[simp] theorem execGroupSupplyReturned_keeps (g : Fin 8) (s : State) : Out.Keeps s (execGroupSupplyReturned g s) :=
  fun u hu => execGroupSupplyReturned_frame g s u hu
@[simp] theorem execGroupOverload_keeps (g : Fin 8) (s : State) : Out.Keeps s (execGroupOverload g s) :=
  fun u hu => ⟨fun h => by rw [(execGroupOverload_frame g s u hu).1]; exact h, (execGroupOverload_frame g s u hu).2⟩
@[simp] theorem execPointOverload_keeps (p : PointN) (thermal : Bool) (s : State) : Out.Keeps s (execPointOverload p thermal s) :=
  fun u hu => ⟨fun h => by rw [(execPointOverload_frame p thermal s u hu).1]; exact h, (execPointOverload_frame p thermal s u hu).2⟩
@[simp] theorem execPointOverloadClear_keeps (p : PointN) (s : State) : Out.Keeps s (execPointOverloadClear p s) :=
  fun u hu => ⟨fun h => by rw [(execPointOverloadClear_frame p s u hu).1]; exact h, (execPointOverloadClear_frame p s u hu).2⟩
@[simp] theorem execFieldGroupReset_keeps (g : Fin 8) (s : State) : Out.Keeps s (execFieldGroupReset g s) :=
  fun u hu => ⟨fun h => by rw [(execFieldGroupReset_frame g s u hu).1]; exact h, (execFieldGroupReset_frame g s u hu).2⟩
@[simp] theorem execMeterBurst_keeps (samples : List MeterSample) (wins : List (Option MeterWin)) (s : State) : Out.Keeps s (execMeterBurst samples wins s) :=
  fun u hu => ⟨fun h => by rw [(execMeterBurst_frame samples wins s u hu).1]; exact h, (execMeterBurst_frame samples wins s u hu).2⟩
@[simp] theorem execLineJudgement_keeps (levels : List Nat) (s : State) : Out.Keeps s (execLineJudgement levels s) :=
  fun u hu => ⟨fun h => by rw [(execLineJudgement_frame levels s u hu).1]; exact h, (execLineJudgement_frame levels s u hu).2⟩
@[simp] theorem execSystemClassify_keeps (wins : List LineWin) (s : State) : Out.Keeps s (execSystemClassify wins s) :=
  fun u hu => ⟨fun h => by rw [(execSystemClassify_frame wins s u hu).1]; exact h, (execSystemClassify_frame wins s u hu).2⟩
@[simp] theorem execDataSetSigned_keeps (s : State) : Out.Keeps s (execDataSetSigned s) :=
  fun u hu => ⟨fun h => by rw [(execDataSetSigned_frame s u hu).1]; exact h, (execDataSetSigned_frame s u hu).2⟩
@[simp] theorem execMeterDsSelect_keeps (ds : Word) (s : State) : Out.Keeps s (execMeterDsSelect ds s) :=
  fun u hu => ⟨fun h => by rw [(execMeterDsSelect_frame ds s u hu).1]; exact h, (execMeterDsSelect_frame ds s u hu).2⟩
@[simp] theorem execBlockWrite_keeps (i : Fin 64) (s : State) : Out.Keeps s (execBlockWrite i s) :=
  fun u hu => ⟨fun h => by rw [(execBlockWrite_frame i s u hu).1]; exact h, (execBlockWrite_frame i s u hu).2⟩
@[simp] theorem execUnitFlush_keeps (writeMbs inMbs : Nat) (s : State) : Out.Keeps s (execUnitFlush writeMbs inMbs s) :=
  fun u hu => ⟨fun h => by rw [(execUnitFlush_frame writeMbs inMbs s u hu).1]; exact h, (execUnitFlush_frame writeMbs inMbs s u hu).2⟩
@[simp] theorem execUnitWriteDone_keeps (k : Fin 8) (flush : Bool) (s : State) : Out.Keeps s (execUnitWriteDone k flush s) :=
  fun u hu => ⟨fun h => by rw [(execUnitWriteDone_frame k flush s u hu).1]; exact h, (execUnitWriteDone_frame k flush s u hu).2⟩
@[simp] theorem execUnitPresent_keeps (k : Fin 8) (s : State) : Out.Keeps s (execUnitPresent k s) :=
  fun u hu => ⟨fun h => by rw [(execUnitPresent_frame k s u hu).1]; exact h, (execUnitPresent_frame k s u hu).2⟩
@[simp] theorem execUnitControllerReady_keeps (k : Fin 8) (met : Bool) (chunks wearPct : Nat) (s : State) : Out.Keeps s (execUnitControllerReady k met chunks wearPct s) :=
  fun u hu => ⟨fun h => by rw [(execUnitControllerReady_frame k met chunks wearPct s u hu).1]; exact h, (execUnitControllerReady_frame k met chunks wearPct s u hu).2⟩
@[simp] theorem execUnitTrainingTimeout_keeps (k : Fin 8) (s : State) : Out.Keeps s (execUnitTrainingTimeout k s) :=
  fun u hu => ⟨fun h => by rw [(execUnitTrainingTimeout_frame k s u hu).1]; exact h, (execUnitTrainingTimeout_frame k s u hu).2⟩
@[simp] theorem execUnitVerifyDone_keeps (k : Fin 8) (r : UnitCheck) (s : State) : Out.Keeps s (execUnitVerifyDone k r s) :=
  fun u hu => ⟨fun h => by rw [(execUnitVerifyDone_frame k r s u hu).1]; exact h, (execUnitVerifyDone_frame k r s u hu).2⟩
@[simp] theorem execUnitShutdownDone_keeps (k : Fin 8) (s : State) : Out.Keeps s (execUnitShutdownDone k s) :=
  fun u hu => ⟨fun h => by rw [(execUnitShutdownDone_frame k s u hu).1]; exact h, (execUnitShutdownDone_frame k s u hu).2⟩
@[simp] theorem execUnitRemoved_keeps (k : Fin 8) (s : State) : Out.Keeps s (execUnitRemoved k s) :=
  fun u hu => ⟨fun h => by rw [(execUnitRemoved_frame k s u hu).1]; exact h, (execUnitRemoved_frame k s u hu).2⟩
@[simp] theorem execStorageLinkDown_keeps (k : Fin 8) (s : State) : Out.Keeps s (execStorageLinkDown k s) :=
  fun u hu => ⟨fun h => by rw [(execStorageLinkDown_frame k s u hu).1]; exact h, (execStorageLinkDown_frame k s u hu).2⟩
@[simp] theorem execStorageLinkRecovered_keeps (k : Fin 8) (s : State) : Out.Keeps s (execStorageLinkRecovered k s) :=
  fun u hu => ⟨fun h => by rw [(execStorageLinkRecovered_frame k s u hu).1]; exact h, (execStorageLinkRecovered_frame k s u hu).2⟩
@[simp] theorem execUnitWriteError_keeps (k : Fin 8) (linkLost : Bool) (s : State) : Out.Keeps s (execUnitWriteError k linkLost s) :=
  fun u hu => ⟨fun h => by rw [(execUnitWriteError_frame k linkLost s u hu).1]; exact h, (execUnitWriteError_frame k linkLost s u hu).2⟩
@[simp] theorem execUnitRelease_keeps (k : Fin 8) (force : Bool) (s : State) : Out.Keeps s (execUnitRelease k force s) :=
  fun u hu => ⟨fun h => by rw [(execUnitRelease_frame k force s u hu).1]; exact h, (execUnitRelease_frame k force s u hu).2⟩
@[simp] theorem execUnitAdmit_keeps (k : Fin 8) (s : State) : Out.Keeps s (execUnitAdmit k s) :=
  fun u hu => ⟨fun h => by rw [(execUnitAdmit_frame k s u hu).1]; exact h, (execUnitAdmit_frame k s u hu).2⟩
@[simp] theorem execUnitFormat_keeps (k : Fin 8) (force : Bool) (s : State) : Out.Keeps s (execUnitFormat k force s) :=
  fun u hu => ⟨fun h => by rw [(execUnitFormat_frame k force s u hu).1]; exact h, (execUnitFormat_frame k force s u hu).2⟩
@[simp] theorem execStreamTailWrite_keeps (i : Fin 64) (tail : BitVec 16) (s : State) : Out.Keeps s (execStreamTailWrite i tail s) :=
  fun u hu => ⟨fun h => by rw [(execStreamTailWrite_frame i tail s u hu).1]; exact h, (execStreamTailWrite_frame i tail s u hu).2⟩
@[simp] theorem execStreamPayloadAdmitted_keeps (i : Fin 64) (len : Word) (typ : Byte) (sync : Bool) (payload : List Byte) (s : State) : Out.Keeps s (execStreamPayloadAdmitted i len typ sync payload s) :=
  fun u hu => ⟨fun h => by rw [(execStreamPayloadAdmitted_frame i len typ sync payload s u hu).1]; exact h, (execStreamPayloadAdmitted_frame i len typ sync payload s u hu).2⟩
@[simp] theorem execRecordRead_keeps (i : Fin 64) (s : State) : Out.Keeps s (execRecordRead i s) :=
  fun u hu => ⟨fun h => by rw [(execRecordRead_frame i s u hu).1]; exact h, (execRecordRead_frame i s u hu).2⟩
@[simp] theorem execRecordReadAbort_keeps (s : State) : Out.Keeps s (execRecordReadAbort s) :=
  fun u hu => ⟨fun h => by rw [(execRecordReadAbort_frame s u hu).1]; exact h, (execRecordReadAbort_frame s u hu).2⟩
@[simp] theorem execRecordReadDone_keeps (hostError : Bool) (damaged : Option Nat) (s : State) : Out.Keeps s (execRecordReadDone hostError damaged s) :=
  fun u hu => ⟨fun h => by rw [(execRecordReadDone_frame hostError damaged s u hu).1]; exact h, (execRecordReadDone_frame hostError damaged s u hu).2⟩
@[simp] theorem execEvtClaim_keeps (t : TgtN) (s : State) : Out.Keeps s (execEvtClaim t s) :=
  fun u hu => ⟨fun h => by rw [(execEvtClaim_frame t s u hu).1]; exact h, (execEvtClaim_frame t s u hu).2⟩
@[simp] theorem execEvtComplete_keeps (t : TgtN) (src : BitVec 10) (s : State) : Out.Keeps s (execEvtComplete t src s) :=
  fun u hu => ⟨fun h => by rw [(execEvtComplete_frame t src s u hu).1]; exact h, (execEvtComplete_frame t src s u hu).2⟩
@[simp] theorem execEvtPendWrite_keeps (g : Fin 32) (w : Word) (s : State) : Out.Keeps s (execEvtPendWrite g w s) :=
  fun u hu => ⟨fun h => by rw [(execEvtPendWrite_frame g w s u hu).1]; exact h, (execEvtPendWrite_frame g w s u hu).2⟩
@[simp] theorem execEvtMaskWrite_keeps (g : Fin 32) (w : Word) (s : State) : Out.Keeps s (execEvtMaskWrite g w s) :=
  fun u hu => ⟨fun h => by rw [(execEvtMaskWrite_frame g w s u hu).1]; exact h, (execEvtMaskWrite_frame g w s u hu).2⟩
@[simp] theorem execEvtPrioWrite_keeps (t : TgtN) (prio : BitVec 8) (s : State) : Out.Keeps s (execEvtPrioWrite t prio s) :=
  fun u hu => ⟨fun h => by rw [(execEvtPrioWrite_frame t prio s u hu).1]; exact h, (execEvtPrioWrite_frame t prio s u hu).2⟩
@[simp] theorem execHoldoffEnd_keeps (g : Fin 32) (s : State) : Out.Keeps s (execHoldoffEnd g s) :=
  fun u hu => ⟨fun h => by rw [(execHoldoffEnd_frame g s u hu).1]; exact h, (execHoldoffEnd_frame g s u hu).2⟩
@[simp] theorem execMsixMaskChange_keeps (en fnMask : Bool) (vecMask : BitVec 64) (s : State) : Out.Keeps s (execMsixMaskChange en fnMask vecMask s) :=
  fun u hu => ⟨fun h => by rw [(execMsixMaskChange_frame en fnMask vecMask s u hu).1]; exact h, (execMsixMaskChange_frame en fnMask vecMask s u hu).2⟩
@[simp] theorem execAlertAccepted_keeps (i : Fin 8) (asserted : Bool) (s : State) : Out.Keeps s (execAlertAccepted i asserted s) :=
  fun u hu => execAlertAccepted_frame i asserted s u hu
@[simp] theorem execGatherTimeout_keeps (s : State) : Out.Keeps s (execGatherTimeout s) :=
  fun u hu => ⟨fun h => by rw [(execGatherTimeout_frame s u hu).1]; exact h, (execGatherTimeout_frame s u hu).2⟩
@[simp] theorem execNvsRead_keeps (o : Owner) (s : State) : Out.Keeps s (execNvsRead o s) :=
  fun u hu => ⟨fun h => by rw [(execNvsRead_frame o s u hu).1]; exact h, (execNvsRead_frame o s u hu).2⟩
@[simp] theorem execNvsWrite_keeps (o : Owner) (len : BitVec 9) (s : State) : Out.Keeps s (execNvsWrite o len s) :=
  fun u hu => ⟨fun h => by rw [(execNvsWrite_frame o len s u hu).1]; exact h, (execNvsWrite_frame o len s u hu).2⟩
@[simp] theorem execNvsCommitNow_keeps (o : Owner) (s : State) : Out.Keeps s (execNvsCommitNow o s) :=
  fun u hu => ⟨fun h => by rw [(execNvsCommitNow_frame o s u hu).1]; exact h, (execNvsCommitNow_frame o s u hu).2⟩
@[simp] theorem execNvsLock_keeps (o : Owner) (s : State) : Out.Keeps s (execNvsLock o s) :=
  fun u hu => ⟨fun h => by rw [(execNvsLock_frame o s u hu).1]; exact h, (execNvsLock_frame o s u hu).2⟩
@[simp] theorem execNvsReadInc_keeps (o : Owner) (s : State) : Out.Keeps s (execNvsReadInc o s) :=
  fun u hu => ⟨fun h => by rw [(execNvsReadInc_frame o s u hu).1]; exact h, (execNvsReadInc_frame o s u hu).2⟩
@[simp] theorem execNvsReadLfl_keeps (o : Owner) (s : State) : Out.Keeps s (execNvsReadLfl o s) :=
  fun u hu => ⟨fun h => by rw [(execNvsReadLfl_frame o s u hu).1]; exact h, (execNvsReadLfl_frame o s u hu).2⟩
@[simp] theorem execNvsClear_keeps (o : Owner) (scope : BitVec 3) (force : Bool) (n : RailN) (s : State) : Out.Keeps s (execNvsClear o scope force n s) :=
  fun u hu => ⟨fun h => by rw [(execNvsClear_frame o scope force n s u hu).1]; exact h, (execNvsClear_frame o scope force n s u hu).2⟩
@[simp] theorem execNvsUnlockRead_keeps (o : Owner) (s : State) : Out.Keeps s (execNvsUnlockRead o s) :=
  fun u hu => ⟨fun h => by rw [(execNvsUnlockRead_frame o s u hu).1]; exact h, (execNvsUnlockRead_frame o s u hu).2⟩
@[simp] theorem execNvsUnlockWrite_keeps (o : Owner) (s : State) : Out.Keeps s (execNvsUnlockWrite o s) :=
  fun u hu => ⟨fun h => by rw [(execNvsUnlockWrite_frame o s u hu).1]; exact h, (execNvsUnlockWrite_frame o s u hu).2⟩
@[simp] theorem execNvsUnlockClear_keeps (o : Owner) (s : State) : Out.Keeps s (execNvsUnlockClear o s) :=
  fun u hu => ⟨fun h => by rw [(execNvsUnlockClear_frame o s u hu).1]; exact h, (execNvsUnlockClear_frame o s u hu).2⟩
@[simp] theorem execPasswordLockoutExpiry_keeps (i : Fin 35) (s : State) : Out.Keeps s (execPasswordLockoutExpiry i s) :=
  fun u hu => ⟨fun h => by rw [(execPasswordLockoutExpiry_frame i s u hu).1]; exact h, (execPasswordLockoutExpiry_frame i s u hu).2⟩
@[simp] theorem execNvScrub_keeps (r : ScrubResult) (s : State) : Out.Keeps s (execNvScrub r s) :=
  fun u hu => ⟨fun h => by rw [(execNvScrub_frame r s u hu).1]; exact h, (execNvScrub_frame r s u hu).2⟩
@[simp] theorem execSealDone_keeps (s : State) : Out.Keeps s (execSealDone s) :=
  fun u hu => execSealDone_frame s u hu
@[simp] theorem execLastGaspDropStep_keeps (s : State) : Out.Keeps s (execLastGaspDropStep s) :=
  fun u hu => execLastGaspDropStep_frame s u hu
@[simp] theorem execLastGaspFlushEnd_keeps (s : State) : Out.Keeps s (execLastGaspFlushEnd s) :=
  fun u hu => ⟨fun h => by rw [(execLastGaspFlushEnd_frame s u hu).1]; exact h, (execLastGaspFlushEnd_frame s u hu).2⟩
@[simp] theorem execCommitGroupDone_keeps (s : State) : Out.Keeps s (execCommitGroupDone s) :=
  fun u hu => execCommitGroupDone_frame s u hu
@[simp] theorem execInclusionCopyADone_keeps (s : State) : Out.Keeps s (execInclusionCopyADone s) :=
  fun u hu => ⟨fun h => by rw [(execInclusionCopyADone_frame s u hu).1]; exact h, (execInclusionCopyADone_frame s u hu).2⟩
@[simp] theorem execInclusionCopyBDone_keeps (s : State) : Out.Keeps s (execInclusionCopyBDone s) :=
  fun u hu => execInclusionCopyBDone_frame s u hu
@[simp] theorem execInclusionClearDone_keeps (s : State) : Out.Keeps s (execInclusionClearDone s) :=
  fun u hu => ⟨fun h => by rw [(execInclusionClearDone_frame s u hu).1]; exact h, (execInclusionClearDone_frame s u hu).2⟩
@[simp] theorem execSlowdownMeasure_keeps (factor : BitVec 16) (s : State) : Out.Keeps s (execSlowdownMeasure factor s) :=
  fun u hu => ⟨fun h => by rw [(execSlowdownMeasure_frame factor s u hu).1]; exact h, (execSlowdownMeasure_frame factor s u hu).2⟩
@[simp] theorem execCoreOffsetStep_keeps (s : State) : Out.Keeps s (execCoreOffsetStep s) :=
  fun u hu => ⟨fun h => by rw [(execCoreOffsetStep_frame s u hu).1]; exact h, (execCoreOffsetStep_frame s u hu).2⟩
@[simp] theorem execReferenceCheck_keeps (ab bc ca : Int) (s : State) : Out.Keeps s (execReferenceCheck ab bc ca s) :=
  fun u hu => ⟨fun h => by rw [(execReferenceCheck_frame ab bc ca s u hu).1]; exact h, (execReferenceCheck_frame ab bc ca s u hu).2⟩
@[simp] theorem execCellCheck_keeps (mv : Nat) (s : State) : Out.Keeps s (execCellCheck mv s) :=
  fun u hu => ⟨fun h => by rw [(execCellCheck_frame mv s u hu).1]; exact h, (execCellCheck_frame mv s u hu).2⟩
@[simp] theorem execLoadEstimateSample_keeps (x : Marker) (s : State) : Out.Keeps s (execLoadEstimateSample x s) :=
  fun u hu => ⟨fun h => by rw [(execLoadEstimateSample_frame x s u hu).1]; exact h, (execLoadEstimateSample_frame x s u hu).2⟩
@[simp] theorem execHoldupTestStart_keeps (s : State) : Out.Keeps s (execHoldupTestStart s) :=
  fun u hu => ⟨fun h => by rw [(execHoldupTestStart_frame s u hu).1]; exact h, (execHoldupTestStart_frame s u hu).2⟩
@[simp] theorem execHoldupTestEnd_keeps (dv step : Nat) (s : State) : Out.Keeps s (execHoldupTestEnd dv step s) :=
  fun u hu => ⟨fun h => by rw [(execHoldupTestEnd_frame dv step s u hu).1]; exact h, (execHoldupTestEnd_frame dv step s u hu).2⟩
@[simp] theorem execReplanDue_keeps (s : State) : Out.Keeps s (execReplanDue s) :=
  fun u hu => ⟨fun h => by rw [(execReplanDue_frame s u hu).1]; exact h, (execReplanDue_frame s u hu).2⟩
@[simp] theorem execReplan_keeps (s : State) : Out.Keeps s (execReplan s) :=
  fun u hu => ⟨fun h => by rw [(execReplan_frame s u hu).1]; exact h, (execReplan_frame s u hu).2⟩
@[simp] theorem execReplanEnd_keeps (m : ReplanIn) (s : State) : Out.Keeps s (execReplanEnd m s) :=
  fun u hu => execReplanEnd_frame m s u hu
@[simp] theorem execAgeHistSelect_keeps (sel : BitVec 13) (s : State) : Out.Keeps s (execAgeHistSelect sel s) :=
  fun u hu => ⟨fun h => by rw [(execAgeHistSelect_frame sel s u hu).1]; exact h, (execAgeHistSelect_frame sel s u hu).2⟩
@[simp] theorem execKeyLoadComplete_keeps (x : Marker) (s : State) : Out.Keeps s (execKeyLoadComplete x s) :=
  fun u hu => execKeyLoadComplete_frame x s u hu
@[simp] theorem execSelftestComplete_keeps (t : SelfTest) (m : ReplanIn) (s : State) : Out.Keeps s (execSelftestComplete t m s) :=
  fun u hu => execSelftestComplete_frame t m s u hu
@[simp] theorem execKeyRemoved_keeps (s : State) : Out.Keeps s (execKeyRemoved s) :=
  fun u hu => execKeyRemoved_frame s u hu
@[simp] theorem execKeyInserted_keeps (key : Key) (s : State) : Out.Keeps s (execKeyInserted key s) :=
  fun u hu => ⟨fun h => by rw [(execKeyInserted_frame key s u hu).1]; exact h, (execKeyInserted_frame key s u hu).2⟩
@[simp] theorem execStage_keeps (owner : Owner) (downgrade : Bool) (s : State) : Out.Keeps s (execStage owner downgrade s) :=
  fun u hu => ⟨fun h => by rw [(execStage_frame owner downgrade s u hu).1]; exact h, (execStage_frame owner downgrade s u hu).2⟩
@[simp] theorem execStageWriteDone_keeps (r : StageWrite) (s : State) : Out.Keeps s (execStageWriteDone r s) :=
  fun u hu => ⟨fun h => by rw [(execStageWriteDone_frame r s u hu).1]; exact h, (execStageWriteDone_frame r s u hu).2⟩
@[simp] theorem execStageVerifyDone_keeps (x : Marker) (s : State) : Out.Keeps s (execStageVerifyDone x s) :=
  fun u hu => ⟨fun h => by rw [(execStageVerifyDone_frame x s u hu).1]; exact h, (execStageVerifyDone_frame x s u hu).2⟩
@[simp] theorem execVerify_keeps (owner : Owner) (s : State) : Out.Keeps s (execVerify owner s) :=
  fun u hu => ⟨fun h => by rw [(execVerify_frame owner s u hu).1]; exact h, (execVerify_frame owner s u hu).2⟩
@[simp] theorem execStageAbort_keeps (owner : Owner) (s : State) : Out.Keeps s (execStageAbort owner s) :=
  fun u hu => ⟨fun h => by rw [(execStageAbort_frame owner s u hu).1]; exact h, (execStageAbort_frame owner s u hu).2⟩
@[simp] theorem execSwitch_keeps (owner : Owner) (s : State) : Out.Keeps s (execSwitch owner s) :=
  fun u hu => ⟨fun h => by rw [(execSwitch_frame owner s u hu).1]; exact h, (execSwitch_frame owner s u hu).2⟩
@[simp] theorem execSelectorWriteDone_keeps (s : State) : Out.Keeps s (execSelectorWriteDone s) :=
  fun u hu => ⟨fun h => by rw [(execSelectorWriteDone_frame s u hu).1]; exact h, (execSelectorWriteDone_frame s u hu).2⟩
@[simp] theorem execTake_keeps (count : BitVec 6) (s : State) : Out.Keeps s (execTake count s) :=
  fun u hu => ⟨fun h => by rw [(execTake_frame count s u hu).1]; exact h, (execTake_frame count s u hu).2⟩
@[simp] theorem execTakePrepared_keeps (x : Marker) (s : State) : Out.Keeps s (execTakePrepared x s) :=
  fun u hu => ⟨fun h => by rw [(execTakePrepared_frame x s u hu).1]; exact h, (execTakePrepared_frame x s u hu).2⟩
@[simp] theorem execHostLinkDown_keeps (s : State) : Out.Keeps s (execHostLinkDown s) :=
  fun u hu => ⟨fun h => by rw [(execHostLinkDown_frame s u hu).1]; exact h, (execHostLinkDown_frame s u hu).2⟩
@[simp] theorem execHostLinkUp_keeps (width rate : Nat) (s : State) : Out.Keeps s (execHostLinkUp width rate s) :=
  fun u hu => ⟨fun h => by rw [(execHostLinkUp_frame width rate s u hu).1]; exact h, (execHostLinkUp_frame width rate s u hu).2⟩
@[simp] theorem execPerstAssert_keeps (s : State) : Out.Keeps s (execPerstAssert s) :=
  fun u hu => ⟨fun h => by rw [(execPerstAssert_frame s u hu).1]; exact h, (execPerstAssert_frame s u hu).2⟩
@[simp] theorem execHostFunctionReset_keeps (s : State) : Out.Keeps s (execHostFunctionReset s) :=
  fun u hu => ⟨fun h => by rw [(execHostFunctionReset_frame s u hu).1]; exact h, (execHostFunctionReset_frame s u hu).2⟩
@[simp] theorem execMrstPress_keeps (s : State) : Out.Keeps s (execMrstPress s) :=
  fun u hu => ⟨fun h => by rw [(execMrstPress_frame s u hu).1]; exact h, (execMrstPress_frame s u hu).2⟩
@[simp] theorem execMrstRelease_keeps (s : State) : Out.Keeps s (execMrstRelease s) :=
  fun u hu => ⟨fun h => by rw [(execMrstRelease_frame s u hu).1]; exact h, (execMrstRelease_frame s u hu).2⟩
@[simp] theorem execMrstRestartPress_keeps (s : State) : Out.Keeps s (execMrstRestartPress s) :=
  fun u hu => execMrstRestartPress_frame s u hu
@[simp] theorem execMrstStuck_keeps (s : State) : Out.Keeps s (execMrstStuck s) :=
  fun u hu => ⟨fun h => by rw [(execMrstStuck_frame s u hu).1]; exact h, (execMrstStuck_frame s u hu).2⟩
@[simp] theorem execMrstHeldEnd_keeps (s : State) : Out.Keeps s (execMrstHeldEnd s) :=
  fun u hu => ⟨fun h => by rw [(execMrstHeldEnd_frame s u hu).1]; exact h, (execMrstHeldEnd_frame s u hu).2⟩
@[simp] theorem execHostResetEnd_keeps (s : State) : Out.Keeps s (execHostResetEnd s) :=
  fun u hu => ⟨fun h => by rw [(execHostResetEnd_frame s u hu).1]; exact h, (execHostResetEnd_frame s u hu).2⟩
@[simp] theorem execHostWdgService_keeps (w : Word) (s : State) : Out.Keeps s (execHostWdgService w s) :=
  fun u hu => execHostWdgService_frame w s u hu
@[simp] theorem execHostWdgExpiry_keeps (s : State) : Out.Keeps s (execHostWdgExpiry s) :=
  fun u hu => execHostWdgExpiry_frame s u hu
@[simp] theorem execWdgDisableArm_keeps (o : Owner) (s : State) : Out.Keeps s (execWdgDisableArm o s) :=
  fun u hu => ⟨fun h => by rw [(execWdgDisableArm_frame o s u hu).1]; exact h, (execWdgDisableArm_frame o s u hu).2⟩
@[simp] theorem execWdgDisableConfirm_keeps (o : Owner) (which : BitVec 2) (s : State) : Out.Keeps s (execWdgDisableConfirm o which s) :=
  fun u hu => ⟨fun h => by rw [(execWdgDisableConfirm_frame o which s u hu).1]; exact h, (execWdgDisableConfirm_frame o which s u hu).2⟩
@[simp] theorem execPtpAnnounceRx_keeps (n : Fin 4) (a : Announce) (s : State) : Out.Keeps s (execPtpAnnounceRx n a s) :=
  fun u hu => ⟨fun h => by rw [(execPtpAnnounceRx_frame n a s u hu).1]; exact h, (execPtpAnnounceRx_frame n a s u hu).2⟩
@[simp] theorem execPtpMasterLoss_keeps (n : Fin 4) (s : State) : Out.Keeps s (execPtpMasterLoss n s) :=
  fun u hu => ⟨fun h => by rw [(execPtpMasterLoss_frame n s u hu).1]; exact h, (execPtpMasterLoss_frame n s u hu).2⟩
@[simp] theorem execPtpSyncRx_keeps (n : Fin 4) (offset : Int) (delay : Nat) (utc : DWord) (s : State) : Out.Keeps s (execPtpSyncRx n offset delay utc s) :=
  fun u hu => ⟨fun h => by rw [(execPtpSyncRx_frame n offset delay utc s u hu).1]; exact h, (execPtpSyncRx_frame n offset delay utc s u hu).2⟩
@[simp] theorem execNetLinkChange_keeps (port : Fin 5) (isUp g1000 : Bool) (s : State) : Out.Keeps s (execNetLinkChange port isUp g1000 s) :=
  fun u hu => ⟨fun h => by rw [(execNetLinkChange_frame port isUp g1000 s u hu).1]; exact h, (execNetLinkChange_frame port isUp g1000 s u hu).2⟩
@[simp] theorem execSpeedReportRx_keeps (n : Fin 4) (data : List Byte) (s : State) : Out.Keeps s (execSpeedReportRx n data s) :=
  fun u hu => ⟨fun h => by rw [(execSpeedReportRx_frame n data s u hu).1]; exact h, (execSpeedReportRx_frame n data s u hu).2⟩
@[simp] theorem execLocationRx_keeps (n : Fin 4) (data : List Byte) (s : State) : Out.Keeps s (execLocationRx n data s) :=
  fun u hu => ⟨fun h => by rw [(execLocationRx_frame n data s u hu).1]; exact h, (execLocationRx_frame n data s u hu).2⟩
@[simp] theorem execStatusTelegram_keeps (s : State) : Out.Keeps s (execStatusTelegram s) :=
  fun u hu => ⟨fun h => by rw [(execStatusTelegram_frame s u hu).1]; exact h, (execStatusTelegram_frame s u hu).2⟩
@[simp] theorem execWakeFrameRx_keeps (n : Fin 4) (payload : List Byte) (s : State) : Out.Keeps s (execWakeFrameRx n payload s) :=
  fun u hu => execWakeFrameRx_frame n payload s u hu
@[simp] theorem execNetOffRequest_keeps (s : State) : Out.Keeps s (execNetOffRequest s) :=
  fun u hu => execNetOffRequest_frame s u hu
@[simp] theorem execNetOnRequest_keeps (s : State) : Out.Keeps s (execNetOnRequest s) :=
  fun u hu => execNetOnRequest_frame s u hu
@[simp] theorem execNetRailCommand_keeps (n : RailN) (code : BitVec 8) (s : State) : Out.Keeps s (execNetRailCommand n code s) :=
  fun u hu => ⟨fun h => by rw [(execNetRailCommand_frame n code s u hu).1]; exact h, (execNetRailCommand_frame n code s u hu).2⟩
@[simp] theorem execTouchSample_keeps (count : Int) (s : State) : Out.Keeps s (execTouchSample count s) :=
  fun u hu => execTouchSample_frame count s u hu
@[simp] theorem execTouchForceOff_keeps (s : State) : Out.Keeps s (execTouchForceOff s) :=
  fun u hu => execTouchForceOff_frame s u hu
@[simp] theorem execTouchRundownOff_keeps (s : State) : Out.Keeps s (execTouchRundownOff s) :=
  fun u hu => execTouchRundownOff_frame s u hu
@[simp] theorem execTouchStuck_keeps (s : State) : Out.Keeps s (execTouchStuck s) :=
  fun u hu => ⟨fun h => by rw [(execTouchStuck_frame s u hu).1]; exact h, (execTouchStuck_frame s u hu).2⟩
@[simp] theorem execTouchPowerupRelease_keeps (s : State) : Out.Keeps s (execTouchPowerupRelease s) :=
  fun u hu => ⟨fun h => by rw [(execTouchPowerupRelease_frame s u hu).1]; exact h, (execTouchPowerupRelease_frame s u hu).2⟩
@[simp] theorem execDisplayPageTimeout_keeps (s : State) : Out.Keeps s (execDisplayPageTimeout s) :=
  fun u hu => ⟨fun h => by rw [(execDisplayPageTimeout_frame s u hu).1]; exact h, (execDisplayPageTimeout_frame s u hu).2⟩
@[simp] theorem execChallenge_keeps (n : Fin 4) (index : Byte) (s : State) : Out.Keeps s (execChallenge n index s) :=
  fun u hu => ⟨fun h => by rw [(execChallenge_frame n index s u hu).1]; exact h, (execChallenge_frame n index s u hu).2⟩
@[simp] theorem execLogin_keeps (n : Fin 4) (index : Byte) (proof : List Byte) (s : State) : Out.Keeps s (execLogin n index proof s) :=
  fun u hu => ⟨fun h => by rw [(execLogin_frame n index proof s u hu).1]; exact h, (execLogin_frame n index proof s u hu).2⟩
@[simp] theorem execLogout_keeps (n : Fin 4) (s : State) : Out.Keeps s (execLogout n s) :=
  fun u hu => ⟨fun h => by rw [(execLogout_frame n s u hu).1]; exact h, (execLogout_frame n s u hu).2⟩
@[simp] theorem execSetPassword_keeps (n : Fin 4) (p : PwdFields) (s : State) : Out.Keeps s (execSetPassword n p s) :=
  fun u hu => ⟨fun h => by rw [(execSetPassword_frame n p s u hu).1]; exact h, (execSetPassword_frame n p s u hu).2⟩
@[simp] theorem execProvision_keeps (n : Fin 4) (key : List Byte) (p : List PwdFields) (s : State) : Out.Keeps s (execProvision n key p s) :=
  fun u hu => ⟨fun h => by rw [(execProvision_frame n key p s u hu).1]; exact h, (execProvision_frame n key p s u hu).2⟩
@[simp] theorem execRekey_keeps (n : Fin 4) (key : List Byte) (sig : List Byte) (s : State) : Out.Keeps s (execRekey n key sig s) :=
  fun u hu => ⟨fun h => by rw [(execRekey_frame n key sig s u hu).1]; exact h, (execRekey_frame n key sig s u hu).2⟩
@[simp] theorem execReleaseForReturn_keeps (o : Owner) (force : Bool) (s : State) : Out.Keeps s (execReleaseForReturn o force s) :=
  fun u hu => ⟨fun h => by rw [(execReleaseForReturn_frame o force s u hu).1]; exact h, (execReleaseForReturn_frame o force s u hu).2⟩
@[simp] theorem execReleaseDone_keeps (s : State) : Out.Keeps s (execReleaseDone s) :=
  fun u hu => execReleaseDone_frame s u hu
@[simp] theorem execPresenceTimeout_keeps (s : State) : Out.Keeps s (execPresenceTimeout s) :=
  fun u hu => ⟨fun h => by rw [(execPresenceTimeout_frame s u hu).1]; exact h, (execPresenceTimeout_frame s u hu).2⟩
@[simp] theorem execMaker_keeps (n : Fin 4) (token : List Byte) (s : State) : Out.Keeps s (execMaker n token s) :=
  fun u hu => ⟨fun h => by rw [(execMaker_frame n token s u hu).1]; exact h, (execMaker_frame n token s u hu).2⟩
@[simp] theorem execGirdleBreach_keeps (b : Breach) (s : State) : Out.Keeps s (execGirdleBreach b s) :=
  fun u hu => ⟨fun h => by rw [(execGirdleBreach_frame b s u hu).1]; exact h, (execGirdleBreach_frame b s u hu).2⟩
@[simp] theorem execHeartbeatRx_keeps (k : Fin 2) (b : Heartbeat) (s : State) : Out.Keeps s (execHeartbeatRx k b s) :=
  fun u hu => ⟨fun h => by rw [(execHeartbeatRx_frame k b s u hu).1]; exact h, (execHeartbeatRx_frame k b s u hu).2⟩
@[simp] theorem execHeartbeatSend_keeps (s : State) : Out.Keeps s (execHeartbeatSend s) :=
  fun u hu => ⟨fun h => by rw [(execHeartbeatSend_frame s u hu).1]; exact h, (execHeartbeatSend_frame s u hu).2⟩
@[simp] theorem execTailstockLinkLoss_keeps (k : Fin 2) (s : State) : Out.Keeps s (execTailstockLinkLoss k s) :=
  fun u hu => ⟨fun h => by rw [(execTailstockLinkLoss_frame k s u hu).1]; exact h, (execTailstockLinkLoss_frame k s u hu).2⟩
@[simp] theorem execPartnerLoss_keeps (s : State) : Out.Keeps s (execPartnerLoss s) :=
  fun u hu => ⟨fun h => by rw [(execPartnerLoss_frame s u hu).1]; exact h, (execPartnerLoss_frame s u hu).2⟩
@[simp] theorem execSeekTimeout_keeps (s : State) : Out.Keeps s (execSeekTimeout s) :=
  fun u hu => ⟨fun h => by rw [(execSeekTimeout_frame s u hu).1]; exact h, (execSeekTimeout_frame s u hu).2⟩
@[simp] theorem execHandover_keeps (s : State) : Out.Keeps s (execHandover s) :=
  fun u hu => ⟨fun h => by rw [(execHandover_frame s u hu).1]; exact h, (execHandover_frame s u hu).2⟩
@[simp] theorem execPartnerCommand_keeps (n : RailN) (code : BitVec 4) (s : State) : Out.Keeps s (execPartnerCommand n code s) :=
  fun u hu => ⟨fun h => by rw [(execPartnerCommand_frame n code s u hu).1]; exact h, (execPartnerCommand_frame n code s u hu).2⟩
@[simp] theorem execMirrorRx_keeps (m : Mirror) (s : State) : Out.Keeps s (execMirrorRx m s) :=
  fun u hu => ⟨fun h => by rw [(execMirrorRx_frame m s u hu).1]; exact h, (execMirrorRx_frame m s u hu).2⟩
@[simp] theorem execProgramRestart_keeps (n : ProgN) (s : State) : Out.Keeps s (execProgramRestart n s) :=
  fun u hu => ⟨fun h => by rw [(execProgramRestart_frame n s u hu).1]; exact h, (execProgramRestart_frame n s u hu).2⟩
@[simp] theorem execProgramStop_keeps (n : ProgN) (s : State) : Out.Keeps s (execProgramStop n s) :=
  fun u hu => ⟨fun h => by rw [(execProgramStop_frame n s u hu).1]; exact h, (execProgramStop_frame n s u hu).2⟩
@[simp] theorem execClosingTick_keeps (s : State) : Out.Keeps s (execClosingTick s) :=
  fun u hu => execClosingTick_frame s u hu
@[simp] theorem execInputFreeze_keeps (s : State) : Out.Keeps s (execInputFreeze s) :=
  fun u hu => execInputFreeze_frame s u hu
@[simp] theorem execMismatch_keeps (q : PPairN) (kind : MKind) (ckOk : Bool) (s : State) : Out.Keeps s (execMismatch q kind ckOk s) :=
  fun u hu => execMismatch_frame q kind ckOk s u hu
@[simp] theorem execReplayEnd_keeps (l : LPairN) (s : State) : Out.Keeps s (execReplayEnd l s) :=
  fun u hu => execReplayEnd_frame l s u hu
@[simp] theorem execPairSelftest_keeps (q : PPairN) (s : State) : Out.Keeps s (execPairSelftest q s) :=
  fun u hu => ⟨fun h => by rw [(execPairSelftest_frame q s u hu).1]; exact h, (execPairSelftest_frame q s u hu).2⟩
@[simp] theorem execPairInject_keeps (q : PPairN) (s : State) : Out.Keeps s (execPairInject q s) :=
  fun u hu => ⟨fun h => by rw [(execPairInject_frame q s u hu).1]; exact h, (execPairInject_frame q s u hu).2⟩
@[simp] theorem execPairSelftestStart_keeps (q : PPairN) (s : State) : Out.Keeps s (execPairSelftestStart q s) :=
  fun u hu => ⟨fun h => by rw [(execPairSelftestStart_frame q s u hu).1]; exact h, (execPairSelftestStart_frame q s u hu).2⟩
@[simp] theorem execPairSelftestDone_keeps (q : PPairN) (pass : Bool) (s : State) : Out.Keeps s (execPairSelftestDone q pass s) :=
  fun u hu => ⟨fun h => by rw [(execPairSelftestDone_frame q pass s u hu).1]; exact h, (execPairSelftestDone_frame q pass s u hu).2⟩
@[simp] theorem execPairShadowDone_keeps (q : PPairN) (agree : Bool) (s : State) : Out.Keeps s (execPairShadowDone q agree s) :=
  fun u hu => ⟨fun h => by rw [(execPairShadowDone_frame q agree s u hu).1]; exact h, (execPairShadowDone_frame q agree s u hu).2⟩
@[simp] theorem execSpareSelfcheckFail_keeps (q : PPairN) (s : State) : Out.Keeps s (execSpareSelfcheckFail q s) :=
  fun u hu => ⟨fun h => by rw [(execSpareSelfcheckFail_frame q s u hu).1]; exact h, (execSpareSelfcheckFail_frame q s u hu).2⟩
@[simp] theorem execSpindleWdgExpiry_keeps (q : PPairN) (s : State) : Out.Keeps s (execSpindleWdgExpiry q s) :=
  fun u hu => execSpindleWdgExpiry_frame q s u hu
@[simp] theorem execLd_keeps (l : LPairN) (s : State) : Out.Keeps s (execLd l s) :=
  fun u hu => execLd_frame l s u hu
@[simp] theorem execLdn_keeps (l : LPairN) (s : State) : Out.Keeps s (execLdn l s) :=
  fun u hu => execLdn_frame l s u hu
@[simp] theorem execAnd_keeps (l : LPairN) (s : State) : Out.Keeps s (execAnd l s) :=
  fun u hu => execAnd_frame l s u hu
@[simp] theorem execAndn_keeps (l : LPairN) (s : State) : Out.Keeps s (execAndn l s) :=
  fun u hu => execAndn_frame l s u hu
@[simp] theorem execOr_keeps (l : LPairN) (s : State) : Out.Keeps s (execOr l s) :=
  fun u hu => execOr_frame l s u hu
@[simp] theorem execOrn_keeps (l : LPairN) (s : State) : Out.Keeps s (execOrn l s) :=
  fun u hu => execOrn_frame l s u hu
@[simp] theorem execXor_keeps (l : LPairN) (s : State) : Out.Keeps s (execXor l s) :=
  fun u hu => execXor_frame l s u hu
@[simp] theorem execSt_keeps (l : LPairN) (s : State) : Out.Keeps s (execSt l s) :=
  fun u hu => execSt_frame l s u hu
@[simp] theorem execSet_keeps (l : LPairN) (s : State) : Out.Keeps s (execSet l s) :=
  fun u hu => execSet_frame l s u hu
@[simp] theorem execRst_keeps (l : LPairN) (s : State) : Out.Keeps s (execRst l s) :=
  fun u hu => execRst_frame l s u hu
@[simp] theorem execNot_keeps (l : LPairN) (s : State) : Out.Keeps s (execNot l s) :=
  fun u hu => execNot_frame l s u hu
@[simp] theorem execBpush_keeps (l : LPairN) (s : State) : Out.Keeps s (execBpush l s) :=
  fun u hu => execBpush_frame l s u hu
@[simp] theorem execBpopand_keeps (l : LPairN) (s : State) : Out.Keeps s (execBpopand l s) :=
  fun u hu => execBpopand_frame l s u hu
@[simp] theorem execBpopor_keeps (l : LPairN) (s : State) : Out.Keeps s (execBpopor l s) :=
  fun u hu => execBpopor_frame l s u hu
@[simp] theorem execRe_keeps (l : LPairN) (s : State) : Out.Keeps s (execRe l s) :=
  fun u hu => execRe_frame l s u hu
@[simp] theorem execFe_keeps (l : LPairN) (s : State) : Out.Keeps s (execFe l s) :=
  fun u hu => execFe_frame l s u hu
@[simp] theorem execTon_keeps (l : LPairN) (s : State) : Out.Keeps s (execTon l s) :=
  fun u hu => execTon_frame l s u hu
@[simp] theorem execTof_keeps (l : LPairN) (s : State) : Out.Keeps s (execTof l s) :=
  fun u hu => execTof_frame l s u hu
@[simp] theorem execTp_keeps (l : LPairN) (s : State) : Out.Keeps s (execTp l s) :=
  fun u hu => execTp_frame l s u hu
@[simp] theorem execCtu_keeps (l : LPairN) (s : State) : Out.Keeps s (execCtu l s) :=
  fun u hu => execCtu_frame l s u hu
@[simp] theorem execCtd_keeps (l : LPairN) (s : State) : Out.Keeps s (execCtd l s) :=
  fun u hu => execCtd_frame l s u hu
@[simp] theorem execCrst_keeps (l : LPairN) (s : State) : Out.Keeps s (execCrst l s) :=
  fun u hu => execCrst_frame l s u hu
@[simp] theorem execLdw_keeps (l : LPairN) (s : State) : Out.Keeps s (execLdw l s) :=
  fun u hu => execLdw_frame l s u hu
@[simp] theorem execLdi_keeps (l : LPairN) (s : State) : Out.Keeps s (execLdi l s) :=
  fun u hu => execLdi_frame l s u hu
@[simp] theorem execLdih_keeps (l : LPairN) (s : State) : Out.Keeps s (execLdih l s) :=
  fun u hu => execLdih_frame l s u hu
@[simp] theorem execStw_keeps (l : LPairN) (s : State) : Out.Keeps s (execStw l s) :=
  fun u hu => execStw_frame l s u hu
@[simp] theorem execAdd_keeps (l : LPairN) (s : State) : Out.Keeps s (execAdd l s) :=
  fun u hu => execAdd_frame l s u hu
@[simp] theorem execSub_keeps (l : LPairN) (s : State) : Out.Keeps s (execSub l s) :=
  fun u hu => execSub_frame l s u hu
@[simp] theorem execMul_keeps (l : LPairN) (s : State) : Out.Keeps s (execMul l s) :=
  fun u hu => execMul_frame l s u hu
@[simp] theorem execDiv_keeps (l : LPairN) (s : State) : Out.Keeps s (execDiv l s) :=
  fun u hu => execDiv_frame l s u hu
@[simp] theorem execAndw_keeps (l : LPairN) (s : State) : Out.Keeps s (execAndw l s) :=
  fun u hu => execAndw_frame l s u hu
@[simp] theorem execOrw_keeps (l : LPairN) (s : State) : Out.Keeps s (execOrw l s) :=
  fun u hu => execOrw_frame l s u hu
@[simp] theorem execXorw_keeps (l : LPairN) (s : State) : Out.Keeps s (execXorw l s) :=
  fun u hu => execXorw_frame l s u hu
@[simp] theorem execShl_keeps (l : LPairN) (s : State) : Out.Keeps s (execShl l s) :=
  fun u hu => execShl_frame l s u hu
@[simp] theorem execShr_keeps (l : LPairN) (s : State) : Out.Keeps s (execShr l s) :=
  fun u hu => execShr_frame l s u hu
@[simp] theorem execMova_keeps (l : LPairN) (s : State) : Out.Keeps s (execMova l s) :=
  fun u hu => execMova_frame l s u hu
@[simp] theorem execMovw_keeps (l : LPairN) (s : State) : Out.Keeps s (execMovw l s) :=
  fun u hu => execMovw_frame l s u hu
@[simp] theorem execAddi_keeps (l : LPairN) (s : State) : Out.Keeps s (execAddi l s) :=
  fun u hu => execAddi_frame l s u hu
@[simp] theorem execCmpeq_keeps (l : LPairN) (s : State) : Out.Keeps s (execCmpeq l s) :=
  fun u hu => execCmpeq_frame l s u hu
@[simp] theorem execCmpne_keeps (l : LPairN) (s : State) : Out.Keeps s (execCmpne l s) :=
  fun u hu => execCmpne_frame l s u hu
@[simp] theorem execCmpgt_keeps (l : LPairN) (s : State) : Out.Keeps s (execCmpgt l s) :=
  fun u hu => execCmpgt_frame l s u hu
@[simp] theorem execCmplt_keeps (l : LPairN) (s : State) : Out.Keeps s (execCmplt l s) :=
  fun u hu => execCmplt_frame l s u hu
@[simp] theorem execLim_keeps (l : LPairN) (s : State) : Out.Keeps s (execLim l s) :=
  fun u hu => execLim_frame l s u hu
@[simp] theorem execScale_keeps (l : LPairN) (s : State) : Out.Keeps s (execScale l s) :=
  fun u hu => execScale_frame l s u hu
@[simp] theorem execAbs_keeps (l : LPairN) (s : State) : Out.Keeps s (execAbs l s) :=
  fun u hu => execAbs_frame l s u hu
@[simp] theorem execResc_keeps (l : LPairN) (s : State) : Out.Keeps s (execResc l s) :=
  fun u hu => execResc_frame l s u hu
@[simp] theorem execRail_keeps (l : LPairN) (s : State) : Out.Keeps s (execRail l s) :=
  fun u hu => execRail_frame l s u hu
@[simp] theorem execMrg_keeps (l : LPairN) (s : State) : Out.Keeps s (execMrg l s) :=
  fun u hu => execMrg_frame l s u hu
@[simp] theorem execEvt_keeps (l : LPairN) (s : State) : Out.Keeps s (execEvt l s) :=
  fun u hu => execEvt_frame l s u hu
@[simp] theorem execSigsync_keeps (l : LPairN) (s : State) : Out.Keeps s (execSigsync l s) :=
  fun u hu => execSigsync_frame l s u hu
@[simp] theorem execLock_keeps (l : LPairN) (s : State) : Out.Keeps s (execLock l s) :=
  fun u hu => execLock_frame l s u hu
@[simp] theorem execUnlock_keeps (l : LPairN) (s : State) : Out.Keeps s (execUnlock l s) :=
  fun u hu => execUnlock_frame l s u hu
@[simp] theorem execJmp_keeps (l : LPairN) (s : State) : Out.Keeps s (execJmp l s) :=
  fun u hu => execJmp_frame l s u hu
@[simp] theorem execJc_keeps (l : LPairN) (s : State) : Out.Keeps s (execJc l s) :=
  fun u hu => execJc_frame l s u hu
@[simp] theorem execJnc_keeps (l : LPairN) (s : State) : Out.Keeps s (execJnc l s) :=
  fun u hu => execJnc_frame l s u hu
@[simp] theorem execLoop_keeps (l : LPairN) (s : State) : Out.Keeps s (execLoop l s) :=
  fun u hu => execLoop_frame l s u hu
@[simp] theorem execCall_keeps (l : LPairN) (s : State) : Out.Keeps s (execCall l s) :=
  fun u hu => execCall_frame l s u hu
@[simp] theorem execRet_keeps (l : LPairN) (s : State) : Out.Keeps s (execRet l s) :=
  fun u hu => execRet_frame l s u hu
@[simp] theorem execBend_keeps (l : LPairN) (s : State) : Out.Keeps s (execBend l s) :=
  fun u hu => execBend_frame l s u hu
@[simp] theorem execPend_keeps (l : LPairN) (s : State) : Out.Keeps s (execPend l s) :=
  fun u hu => execPend_frame l s u hu
@[simp] theorem execWaitsync_keeps (l : LPairN) (s : State) : Out.Keeps s (execWaitsync l s) :=
  fun u hu => execWaitsync_frame l s u hu
@[simp] theorem execNop_keeps (l : LPairN) (s : State) : Out.Keeps s (execNop l s) :=
  fun u hu => execNop_frame l s u hu
@[simp] theorem andThen_keeps (s : State) (o : Out) (f : State → Out) (h : Out.Keeps s o) (hf : ∀ t, Out.Keeps t (f t)) :
    Out.Keeps s (andThen o f) := by
  unfold andThen
  split
  · rename_i t
    exact Out.Keeps.trans (h t rfl) (hf t)
  · exact Out.keeps_fault _ _
  · exact Out.keeps_refused _ _
@[simp] theorem Out.keeps_ite (s : State) (c : Prop) [Decidable c] (a b : Out) (ha : Out.Keeps s a) (hb : Out.Keeps s b) :
    Out.Keeps s (if c then a else b) := by
  split
  · exact ha
  · exact hb
@[simp] theorem onlyIf_keeps (c : Bool) (f : State → Out) (s : State) (h : ∀ s, Out.Keeps s (f s)) :
    Out.Keeps s (onlyIf c f s) := by
  unfold onlyIf
  split
  · exact h s
  · simp
@[simp] theorem atSlot_keeps (s : State) (base count stride o : Nat) (f : Nat → Out) (rest : Out) (hf : ∀ k, Out.Keeps s (f k))
    (h : Out.Keeps s rest) : Out.Keeps s (atSlot base count stride o f rest) := by
  unfold atSlot
  split
  · exact hf _
  · exact h
@[simp] theorem nvsCommand_keeps (o : Owner) (w : Word) (s : State) : Out.Keeps s (nvsCommand o w s) := by
  unfold nvsCommand
  try dsimp only
  repeat' split
  all_goals (try simp (maxDischargeDepth := 30))
@[simp] theorem stgCommand_keeps (o : Owner) (w : Word) (s : State) : Out.Keeps s (stgCommand o w s) := by
  unfold stgCommand
  try dsimp only
  repeat' split
  all_goals (try simp (maxDischargeDepth := 30))
@[simp] theorem wdgDisable_keeps (o : Owner) (w : Word) (s : State) : Out.Keeps s (wdgDisable o w s) := by
  unfold wdgDisable
  try dsimp only
  repeat' split
  all_goals (try simp (maxDischargeDepth := 30))
@[simp] theorem lckCommand_keeps (t : TgtN) (w : Word) (s : State) : Out.Keeps s (lckCommand t w s) := by
  unfold lckCommand
  try dsimp only
  repeat' split
  all_goals (try simp (maxDischargeDepth := 30))
@[simp] theorem unitCommand_keeps (k : Fin 8) (w : Word) (s : State) : Out.Keeps s (unitCommand k w s) := by
  unfold unitCommand
  try dsimp only
  repeat' split
  all_goals (try simp (maxDischargeDepth := 30))
@[simp] theorem glbWrite_keeps (o : Nat) (w : Word) (s : State) : Out.Keeps s (glbWrite o w s) := by
  unfold glbWrite
  try dsimp only
  repeat' split
  all_goals (try simp (maxDischargeDepth := 30))
@[simp] theorem probeControl_keeps (w : Word) (s : State) : Out.Keeps s (probeControl w s) := by
  unfold probeControl
  extract_lets src s1
  have h1 : (Memory.wf s.mem = true → Memory.wf s1.mem = true) ∧ s1.pending = s.pending := ⟨id, rfl⟩
  clear_value s1
  exact Out.Keeps.trans h1 (by simp)
@[simp] theorem railWrite_keeps (n : RailN) (w : Word) (s : State) : Out.Keeps s (railWrite n w s) := by
  unfold railWrite
  split
  · rw [Out.keeps_next]
    exact State.hostRailCmd_frame _ _ _
  · simp
@[simp] theorem marginWrite_keeps (n : RailN) (w : Word) (s : State) : Out.Keeps s (marginWrite n w s) := by
  unfold marginWrite
  try dsimp only
  repeat' split
  all_goals (try simp (maxDischargeDepth := 30))
@[simp] theorem rsqWrite_keeps (o : Nat) (w : Word) (s : State) : Out.Keeps s (rsqWrite o w s) := by
  unfold rsqWrite
  try dsimp only
  repeat' split
  all_goals (try simp (maxDischargeDepth := 30))
@[simp] theorem convWrite_keeps (c : ConvN) (w : Word) (s : State) : Out.Keeps s (convWrite c w s) := by
  unfold convWrite
  try dsimp only
  repeat' split
  all_goals (try simp (maxDischargeDepth := 30))
@[simp] theorem scnWrite_keeps (o : Nat) (w : Word) (s : State) : Out.Keeps s (scnWrite o w s) := by
  unfold scnWrite
  try dsimp only
  repeat' split
  all_goals (try simp (maxDischargeDepth := 30))
@[simp] theorem trpWrite_keeps (o : Nat) (w : Word) (s : State) : Out.Keeps s (trpWrite o w s) := by
  unfold trpWrite
  try dsimp only
  repeat' split
  all_goals (try simp (maxDischargeDepth := 30))
@[simp] theorem evtWrite_keeps (o : Nat) (w : Word) (s : State) : Out.Keeps s (evtWrite o w s) := by
  unfold evtWrite
  try dsimp only
  repeat' split
  all_goals (try simp (maxDischargeDepth := 30))
@[simp] theorem wdgWrite_keeps (o : Nat) (w : Word) (s : State) : Out.Keeps s (wdgWrite o w s) := by
  unfold wdgWrite
  try dsimp only
  repeat' split
  all_goals (try simp (maxDischargeDepth := 30))
@[simp] theorem progWrite_keeps (n : ProgN) (w : Word) (s : State) : Out.Keeps s (progWrite n w s) := by
  unfold progWrite
  try dsimp only
  repeat' split
  all_goals (try simp (maxDischargeDepth := 30))
@[simp] theorem physWrite_keeps (q : PPairN) (w : Word) (s : State) : Out.Keeps s (physWrite q w s) := by
  unfold physWrite
  try dsimp only
  repeat' split
  all_goals (try simp (maxDischargeDepth := 30))
@[simp] theorem spnWrite_keeps (o : Nat) (w : Word) (s : State) : Out.Keeps s (spnWrite o w s) := by
  unfold spnWrite
  try dsimp only
  repeat' split
  all_goals (try simp (maxDischargeDepth := 30))
@[simp] theorem queueWrite_keeps (w : Word) (s : State) : Out.Keeps s (queueWrite w s) :=
  Out.Keeps.trans (by simp) (onlyIf_keeps _ _ _ (fun s => execQueueFlush_keeps s))
@[simp] theorem hdsWrite_keeps (o : Nat) (w : Word) (s : State) : Out.Keeps s (hdsWrite o w s) := by
  unfold hdsWrite
  extract_lets sel src dom t
  have hs : ∀ f, Out.Keeps s (sel f) := fun f => by simp [sel]
  have hd : ∀ d f, Out.Keeps s (dom d f) := fun d f => by simp [dom]
  have ht : t.mem = s.mem ∧ t.pending = s.pending := by
    simp only [t]
    split <;> simp
  clear_value sel dom src t
  repeat' (with_reducible apply Out.keeps_ite)
  all_goals (try simp (maxDischargeDepth := 30) [hs, hd, ht])
@[simp] theorem nvsWrite_keeps (o : Nat) (w : Word) (s : State) : Out.Keeps s (nvsWrite o w s) := by
  unfold nvsWrite
  try dsimp only
  repeat' split
  all_goals (try simp (maxDischargeDepth := 30))
@[simp] theorem recWrite_keeps (o : Nat) (w : Word) (s : State) : Out.Keeps s (recWrite o w s) := by
  unfold recWrite
  extract_lets _ str
  have hstr : ∀ k f, Out.Keeps s (str k f) := fun k f => by simp [str]
  clear_value str
  repeat' with_reducible apply Out.keeps_ite
  all_goals (try simp (maxDischargeDepth := 30) [hstr])
  all_goals (split <;> simp)
@[simp] theorem mtrWrite_keeps (o : Nat) (w : Word) (s : State) : Out.Keeps s (mtrWrite o w s) := by
  unfold mtrWrite
  try dsimp only
  repeat' split
  all_goals (try simp (maxDischargeDepth := 30))
@[simp] theorem fioWrite_keeps (o : Nat) (w : Word) (s : State) : Out.Keeps s (fioWrite o w s) := by
  unfold fioWrite
  try dsimp only
  repeat' split
  all_goals (try simp (maxDischargeDepth := 30))
@[simp] theorem ageWrite_keeps (o : Nat) (w : Word) (s : State) : Out.Keeps s (ageWrite o w s) := by
  unfold ageWrite
  try dsimp only
  repeat' split
  all_goals (try simp (maxDischargeDepth := 30))
@[simp] theorem lnkWrite_keeps (o : Nat) (w : Word) (s : State) : Out.Keeps s (lnkWrite o w s) := by
  unfold lnkWrite
  try dsimp only
  repeat' split
  all_goals (try simp (maxDischargeDepth := 30))
@[simp] theorem secCommand_keeps (w : Word) (s : State) : Out.Keeps s (secCommand w s) := by
  unfold secCommand
  try dsimp only
  repeat' split
  all_goals (try simp (maxDischargeDepth := 30))
@[simp] theorem secWrite_keeps (o : Nat) (w : Word) (s : State) : Out.Keeps s (secWrite o w s) := by
  unfold secWrite
  try dsimp only
  repeat' split
  all_goals (try simp (maxDischargeDepth := 30))
@[simp] theorem hsbWrite_keeps (o : Nat) (w : Word) (s : State) : Out.Keeps s (hsbWrite o w s) := by
  unfold hsbWrite
  try dsimp only
  repeat' split
  all_goals (try simp (maxDischargeDepth := 30))
@[simp] theorem lckWrite_keeps (o : Nat) (w : Word) (s : State) : Out.Keeps s (lckWrite o w s) := by
  unfold lckWrite
  try dsimp only
  repeat' split
  all_goals (try simp (maxDischargeDepth := 30))
@[simp] theorem State.regWrite_keeps (s : State) (a : Nat) (w : Word) : Out.Keeps s (State.regWrite s a w) := by
  unfold State.regWrite
  try dsimp only
  repeat' split
  all_goals (try simp (maxDischargeDepth := 30))
@[simp] theorem State.mailboxWrite_frame (s : State) (a : Nat) (lanes : BitVec 4) (w : Word) :
    (Memory.wf s.mem = true → Memory.wf (s.mailboxWrite a lanes w).mem = true) ∧ (s.mailboxWrite a lanes w).pending = s.pending :=
  ⟨fun h => Memory.putWord_wf _ _ h, rfl⟩
@[simp] theorem execRegisterWrite_keeps (bar2 : Bool) (offset : Nat) (lanes : BitVec 4) (data : Word) (s : State) :
    Out.Keeps s (execRegisterWrite bar2 offset lanes data s) := by
  unfold execRegisterWrite
  repeat' split
  all_goals (try simp)
  all_goals (first | exact State.mailboxWrite_frame _ _ _ _ | exact fun h => (State.mailboxWrite_frame _ _ _ _).1 h)
theorem execRegisterWrite_frame (bar2 : Bool) (offset : Nat) (lanes : BitVec 4) (data : Word) (s : State) (u : State)
    (ho : execRegisterWrite bar2 offset lanes data s = .next u) :
    (Memory.wf s.mem = true → Memory.wf u.mem = true) ∧ u.pending = s.pending := execRegisterWrite_keeps bar2 offset lanes data s u ho
@[simp] theorem execBarAccessError_keeps (bar : Fin 3) (offset bytes : Nat) (write : Bool) (s : State) : Out.Keeps s (execBarAccessError bar offset bytes write s) := by
  unfold execBarAccessError
  try dsimp only
  repeat' split
  all_goals (try simp (maxDischargeDepth := 30))
theorem execBarAccessError_frame (bar : Fin 3) (offset bytes : Nat) (write : Bool) (s : State) (u : State) (ho : execBarAccessError bar offset bytes write s = .next u) :
    (Memory.wf s.mem = true → Memory.wf u.mem = true) ∧ u.pending = s.pending := execBarAccessError_keeps bar offset bytes write s u ho
@[simp] theorem State.readEffect_keeps (s : State) (a : Nat) : Out.Keeps s (State.readEffect s a) := by
  unfold State.readEffect
  try dsimp only
  repeat' split
  all_goals (try simp (maxDischargeDepth := 30))
@[simp] theorem State.readWords_frame (s : State) (a k : Nat) :
    (Memory.wf s.mem = true → Memory.wf (s.readWords a k).1.mem = true) ∧ (s.readWords a k).1.pending = s.pending := by
  induction k generalizing s a with
  | zero => exact ⟨id, rfl⟩
  | succ k ih =>
    unfold State.readWords
    extract_lets w s1 r
    have h1 : (Memory.wf s.mem = true → Memory.wf s1.mem = true) ∧ s1.pending = s.pending := by
      simp only [s1]
      split
      · rename_i t ht
        exact State.readEffect_keeps s a t ht
      · exact ⟨id, rfl⟩
    have hr : (Memory.wf s1.mem = true → Memory.wf r.1.mem = true) ∧ r.1.pending = s1.pending := ih s1 (a + 4)
    exact ⟨fun h => hr.1 (h1.1 h), hr.2.trans h1.2⟩
end Sys2Proof.Machine
end

