-- ==== Sys2Proof/Laws/FrameEdivo.lean ====
section
/-!
SUPPORT. The frames of Machine/Edivo.lean: every operation keeps the canonical form of the image memory, or leaves it alone, and
keeps the queue of waiting commands.
-/
namespace Sys2Proof.Machine
open Sys2Proof
set_option linter.all false
set_option maxRecDepth 20000
@[simp] theorem execEdivoSessionOpen_keeps (s : State) : Out.Keeps s (execEdivoSessionOpen s) := by
  unfold execEdivoSessionOpen
  try dsimp only
  repeat' split
  all_goals (try simp (maxDischargeDepth := 30))
theorem execEdivoSessionOpen_frame (s : State) (u : State) (ho : execEdivoSessionOpen s = .next u) :
    (Memory.wf s.mem = true → Memory.wf u.mem = true) ∧ u.pending = s.pending := execEdivoSessionOpen_keeps s u ho
@[simp] theorem State.endSession_frame (s : State) (n : Fin 4) : (State.endSession s n).mem = s.mem ∧ (State.endSession s n).pending = s.pending := by
  unfold State.endSession
  dsimp only
  repeat' split
  all_goals simp
@[simp] theorem execEdivoSessionClose_keeps (n : Fin 4) (s : State) : Out.Keeps s (execEdivoSessionClose n s) := by
  unfold execEdivoSessionClose
  try dsimp only
  repeat' split
  all_goals (try simp (maxDischargeDepth := 30))
theorem execEdivoSessionClose_frame (n : Fin 4) (s : State) (u : State) (ho : execEdivoSessionClose n s = .next u) :
    (Memory.wf s.mem = true → Memory.wf u.mem = true) ∧ u.pending = s.pending := execEdivoSessionClose_keeps n s u ho
@[simp] theorem execEdivoSessionTimeout_keeps (n : Fin 4) (s : State) : Out.Keeps s (execEdivoSessionTimeout n s) := by
  unfold execEdivoSessionTimeout
  try dsimp only
  repeat' split
  all_goals (try simp (maxDischargeDepth := 30))
theorem execEdivoSessionTimeout_frame (n : Fin 4) (s : State) (u : State) (ho : execEdivoSessionTimeout n s = .next u) :
    (Memory.wf s.mem = true → Memory.wf u.mem = true) ∧ u.pending = s.pending := execEdivoSessionTimeout_keeps n s u ho
@[simp] theorem execEdivoBye_keeps (n : Fin 4) (s : State) : Out.Keeps s (execEdivoBye n s) := by
  unfold execEdivoBye
  try dsimp only
  repeat' split
  all_goals (try simp (maxDischargeDepth := 30))
theorem execEdivoBye_frame (n : Fin 4) (s : State) (u : State) (ho : execEdivoBye n s = .next u) :
    (Memory.wf s.mem = true → Memory.wf u.mem = true) ∧ u.pending = s.pending := execEdivoBye_keeps n s u ho
@[simp] theorem execEdivoBadFrame_keeps (n : Fin 4) (s : State) : Out.Keeps s (execEdivoBadFrame n s) := by
  unfold execEdivoBadFrame
  try dsimp only
  repeat' split
  all_goals (try simp (maxDischargeDepth := 30))
theorem execEdivoBadFrame_frame (n : Fin 4) (s : State) (u : State) (ho : execEdivoBadFrame n s = .next u) :
    (Memory.wf s.mem = true → Memory.wf u.mem = true) ∧ u.pending = s.pending := execEdivoBadFrame_keeps n s u ho
@[simp] theorem execEdivoHello_keeps (n : Fin 4) (s : State) : Out.Keeps s (execEdivoHello n s) := by
  unfold execEdivoHello
  try dsimp only
  repeat' split
  all_goals (try simp (maxDischargeDepth := 30))
theorem execEdivoHello_frame (n : Fin 4) (s : State) (u : State) (ho : execEdivoHello n s = .next u) :
    (Memory.wf s.mem = true → Memory.wf u.mem = true) ∧ u.pending = s.pending := execEdivoHello_keeps n s u ho
@[simp] theorem State.openReply_frame (s : State) (n : Fin 4) : (State.openReply s n).mem = s.mem ∧ (State.openReply s n).pending = s.pending := ⟨rfl, rfl⟩
@[simp] theorem execEdivoRead_keeps (n : Fin 4) (bar2 : Bool) (offset count : Nat) (s : State) :
    Out.Keeps s (execEdivoRead n bar2 offset count s) := by
  unfold execEdivoRead
  rw [Out.keeps_next]
  apply State.onSession_wf
  intro x s
  repeat' split
  · simp
  · simp
  · simp
  · exact ⟨fun h => by simp (maxDischargeDepth := 30) [h], by simp⟩
theorem execEdivoRead_frame (n : Fin 4) (bar2 : Bool) (offset count : Nat) (s : State) (u : State) (ho : execEdivoRead n bar2 offset count s = .next u) :
    (Memory.wf s.mem = true → Memory.wf u.mem = true) ∧ u.pending = s.pending := execEdivoRead_keeps n bar2 offset count s u ho
@[simp] theorem State.edivoRail_frame (s : State) (rail : RailN) (code : RailCode) : (Memory.wf s.mem = true → Memory.wf (State.edivoRail s rail code).mem = true) ∧ (State.edivoRail s rail code).pending = s.pending := by
  unfold State.edivoRail
  dsimp only
  repeat' split
  all_goals exact ⟨fun h => by simp (maxDischargeDepth := 30) [h], by simp⟩
@[simp] theorem State.edivoMargin_frame (s : State) (rail : RailN) (target : Option Int) : (State.edivoMargin s rail target).mem = s.mem ∧ (State.edivoMargin s rail target).pending = s.pending := by simp [State.edivoMargin]
@[simp] theorem State.edivoModule_frame (s : State) (off : Bool) : (Memory.wf s.mem = true → Memory.wf (State.edivoModule s off).mem = true) ∧ (State.edivoModule s off).pending = s.pending := by
  unfold State.edivoModule
  dsimp only
  repeat' split
  all_goals exact ⟨fun h => by simp (maxDischargeDepth := 30) [h], by simp⟩
@[simp] theorem State.edivoRerun_frame (s : State) : (State.edivoRerun s).mem = s.mem ∧ (State.edivoRerun s).pending = s.pending := by simp [State.edivoRerun]
@[simp] theorem State.answered_frame (s : State) (n : Fin 4) (a : Ans) (ws : List Word) : (State.answered s n a ws).mem = s.mem ∧ (State.answered s n a ws).pending = s.pending := ⟨rfl, rfl⟩
@[simp] theorem edivoUnit_keeps (n : Fin 4) (k : Fin 8) (w : Word) (s : State) : Out.Keeps s (edivoUnit n k w s) := by
  unfold edivoUnit
  exact andThen_keeps _ _ _ (Out.Keeps.trans (by simp) (unitCommand_keeps _ _ _)) (fun t => by simp)
@[simp] theorem edivoStore_keeps (n : Fin 4) (o : Nat) (w : Word) (s : State) : Out.Keeps s (edivoStore n o w s) := by
  unfold edivoStore
  try dsimp only
  repeat' split
  all_goals (try simp (maxDischargeDepth := 30))
@[simp] theorem edivoSequencer_keeps (n : Fin 4) (o : Nat) (w : Word) (s : State) : Out.Keeps s (edivoSequencer n o w s) := by
  unfold edivoSequencer
  apply Out.keeps_ite
  · rw [Out.keeps_next]
    split <;> simp
  · refine atSlot_keeps _ _ _ _ _ _ _ (fun i => ?_) (atSlot_keeps _ _ _ _ _ _ _ (fun i => ?_) (by simp))
    · split
      · rw [Out.keeps_next]
        exact State.edivoRail_frame _ _ _
      · simp
    · split <;> simp
@[simp] theorem edivoGlobal_keeps (n : Fin 4) (o : Nat) (w : Word) (s : State) : Out.Keeps s (edivoGlobal n o w s) := by
  unfold edivoGlobal
  repeat' split
  all_goals rw [Out.keeps_next]
  · exact State.edivoModule_frame _ _
  · exact State.edivoModule_frame _ _
  · simp
  · exact State.restartRequest_frame _ _
  · simp
  · simp
@[simp] theorem edivoWrite_keeps (n : Fin 4) (a : Nat) (w : Word) (s : State) : Out.Keeps s (edivoWrite n a w s) := by
  unfold edivoWrite
  try dsimp only
  repeat' split
  all_goals (try simp (maxDischargeDepth := 30))
@[simp] theorem execEdivoCommand_keeps (n : Fin 4) (offset : Nat) (data : Word) (s : State) :
    Out.Keeps s (execEdivoCommand n offset data s) := by
  unfold execEdivoCommand
  split
  · simp
  · extract_lets s1
    have h1 : (Memory.wf s.mem = true → Memory.wf s1.mem = true) ∧ s1.pending = s.pending := by simp [s1]
    clear_value s1
    split
    · exact Out.Keeps.trans h1 (by simp)
    · exact Out.Keeps.trans h1 (edivoWrite_keeps _ _ _ _)
theorem execEdivoCommand_frame (n : Fin 4) (offset : Nat) (data : Word) (s : State) (u : State) (ho : execEdivoCommand n offset data s = .next u) :
    (Memory.wf s.mem = true → Memory.wf u.mem = true) ∧ u.pending = s.pending := execEdivoCommand_keeps n offset data s u ho
@[simp] theorem execEdivoStageData_keeps (n : Fin 4) (data : List Byte) (s : State) : Out.Keeps s (execEdivoStageData n data s) := by
  unfold execEdivoStageData
  try dsimp only
  repeat' split
  all_goals (try simp (maxDischargeDepth := 30))
theorem execEdivoStageData_frame (n : Fin 4) (data : List Byte) (s : State) (u : State) (ho : execEdivoStageData n data s = .next u) :
    (Memory.wf s.mem = true → Memory.wf u.mem = true) ∧ u.pending = s.pending := execEdivoStageData_keeps n data s u ho
@[simp] theorem execEdivoRecordRead_keeps (n : Fin 4) (what : EdivoRecords) (s : State) : Out.Keeps s (execEdivoRecordRead n what s) := by
  unfold execEdivoRecordRead
  try dsimp only
  repeat' split
  all_goals (try simp (maxDischargeDepth := 30))
theorem execEdivoRecordRead_frame (n : Fin 4) (what : EdivoRecords) (s : State) (u : State) (ho : execEdivoRecordRead n what s = .next u) :
    (Memory.wf s.mem = true → Memory.wf u.mem = true) ∧ u.pending = s.pending := execEdivoRecordRead_keeps n what s u ho
@[simp] theorem execEdivoExport_keeps (n : Fin 4) (what : Export) (s : State) : Out.Keeps s (execEdivoExport n what s) := by
  unfold execEdivoExport
  rw [Out.keeps_next]
  apply State.onSession_wf
  intro x s
  dsimp only
  repeat' split
  all_goals simp
theorem execEdivoExport_frame (n : Fin 4) (what : Export) (s : State) (u : State) (ho : execEdivoExport n what s = .next u) :
    (Memory.wf s.mem = true → Memory.wf u.mem = true) ∧ u.pending = s.pending := execEdivoExport_keeps n what s u ho
@[simp] theorem execEdivoTestMode_keeps (n : Fin 4) (enter : Bool) (s : State) : Out.Keeps s (execEdivoTestMode n enter s) := by
  unfold execEdivoTestMode
  try dsimp only
  repeat' split
  all_goals (try simp (maxDischargeDepth := 30))
theorem execEdivoTestMode_frame (n : Fin 4) (enter : Bool) (s : State) (u : State) (ho : execEdivoTestMode n enter s = .next u) :
    (Memory.wf s.mem = true → Memory.wf u.mem = true) ∧ u.pending = s.pending := execEdivoTestMode_keeps n enter s u ho
end Sys2Proof.Machine
end

