-- ==== Sys2Proof/Laws/FrameTick.lean ====
section
/-!
SUPPORT. The frames of Machine/Tick.lean: every operation keeps the canonical form of the image memory, or leaves it alone, and
keeps the queue of waiting commands.
-/
namespace Sys2Proof.Machine
open Sys2Proof
set_option linter.all false
set_option maxRecDepth 20000
@[simp] theorem State.leapActs_frame (s : State) : (State.leapActs s).mem = s.mem ∧ (State.leapActs s).pending = s.pending := by simp [State.leapActs]
@[simp] theorem State.stepActs_frame (s : State) : (State.stepActs s).mem = s.mem ∧ (State.stepActs s).pending = s.pending := by
  unfold State.stepActs
  dsimp only
  repeat' split
  all_goals simp
@[simp] theorem State.fineTick_frame (s : State) : (Memory.wf s.mem = true → Memory.wf (State.fineTick s).mem = true) ∧ (State.fineTick s).pending = s.pending := by
  unfold State.fineTick
  try dsimp only
  repeat' split
  all_goals (refine ⟨fun h => ?_, ?_⟩ <;> (try simp (maxDischargeDepth := 30) [h]))
  all_goals (try with_reducible apply foldl_wf)
  all_goals (try (intros; (try dsimp only); (repeat' split) <;> simp (maxDischargeDepth := 30) [*]; done))
  all_goals (try simp (disch := ((try intros); (try dsimp only); (repeat' split) <;> (try simp (maxDischargeDepth := 30) [*]))) [*])
end Sys2Proof.Machine
end

