-- ==== Sys2Proof/Laws/State.lean ====
section
/-!
SUPPORT. The small laws of the state: each update of one part leaves every other field alone, and a table entry reads as it was
changed.
-/
namespace Sys2Proof.Machine
open Sys2Proof
set_option linter.all false

/-! ### Tables -/

@[simp] theorem tmod_get {α : Type} {n : Nat} (v : Vector α n) (i : Fin n) (f : α → α) : (tmod v i f)[i] = f v[i] := by
  simp [tmod]
theorem tmod_get_ne {α : Type} {n : Nat} (v : Vector α n) (i j : Fin n) (f : α → α) (h : j ≠ i) : (tmod v i f)[j] = v[j] := by
  have : i.val ≠ j.val := fun e => h (Fin.ext e.symm)
  simp [tmod, Vector.getElem_set_ne, this]
@[simp] theorem tset_get {α : Type} {n : Nat} (v : Vector α n) (i : Fin n) (x : α) : (tset v i x)[i] = x := by
  simp [tset]
theorem tset_get_ne {α : Type} {n : Nat} (v : Vector α n) (i j : Fin n) (x : α) (h : j ≠ i) : (tset v i x)[j] = v[j] := by
  have : i.val ≠ j.val := fun e => h (Fin.ext e.symm)
  simp [tset, Vector.getElem_set_ne, this]

/-! ### Updates of one part -/

@[simp] theorem State.modRail_others (s : State) (n : RailN) (f : Rail → Rail) :
    (s.modRail n f).g = s.g ∧ (s.modRail n f).time = s.time ∧ (s.modRail n f).sup = s.sup ∧ (s.modRail n f).key = s.key ∧
    (s.modRail n f).stg = s.stg ∧ (s.modRail n f).take = s.take ∧ (s.modRail n f).run = s.run ∧
    (s.modRail n f).cfg = s.cfg ∧ (s.modRail n f).prev = s.prev ∧ (s.modRail n f).jur = s.jur ∧
    (s.modRail n f).cyc = s.cyc ∧ (s.modRail n f).railReqs = s.railReqs ∧ (s.modRail n f).marginReqs = s.marginReqs ∧
    (s.modRail n f).answers = s.answers ∧ (s.modRail n f).planner = s.planner ∧ (s.modRail n f).seq = s.seq ∧
    (s.modRail n f).shut = s.shut ∧ (s.modRail n f).motion = s.motion ∧ (s.modRail n f).touch = s.touch ∧
    (s.modRail n f).mrst = s.mrst ∧ (s.modRail n f).scan = s.scan ∧ (s.modRail n f).trip = s.trip ∧
    (s.modRail n f).evt = s.evt ∧ (s.modRail n f).nv = s.nv ∧ (s.modRail n f).sealPg = s.sealPg ∧
    (s.modRail n f).inc = s.inc ∧ (s.modRail n f).mem = s.mem ∧ (s.modRail n f).ecc = s.ecc ∧ (s.modRail n f).spn = s.spn ∧
    (s.modRail n f).lck = s.lck ∧ (s.modRail n f).acc = s.acc ∧ (s.modRail n f).cmd = s.cmd ∧ (s.modRail n f).hds = s.hds ∧
    (s.modRail n f).hsb = s.hsb ∧ (s.modRail n f).fio = s.fio ∧ (s.modRail n f).mtr = s.mtr ∧
    (s.modRail n f).reng = s.reng ∧ (s.modRail n f).age = s.age ∧ (s.modRail n f).wdg = s.wdg ∧
    (s.modRail n f).lnk = s.lnk ∧ (s.modRail n f).sec = s.sec ∧ (s.modRail n f).fac = s.fac ∧
    (s.modRail n f).hostWr = s.hostWr ∧ (s.modRail n f).free = s.free ∧ (s.modRail n f).pending = s.pending := by
  and_intros <;> rfl
@[simp] theorem State.modEvt_others (s : State) (f : Evt → Evt) :
    (s.modEvt f).g = s.g ∧ (s.modEvt f).time = s.time ∧ (s.modEvt f).sup = s.sup ∧ (s.modEvt f).key = s.key ∧
    (s.modEvt f).stg = s.stg ∧ (s.modEvt f).take = s.take ∧ (s.modEvt f).run = s.run ∧ (s.modEvt f).cfg = s.cfg ∧
    (s.modEvt f).prev = s.prev ∧ (s.modEvt f).jur = s.jur ∧ (s.modEvt f).cyc = s.cyc ∧ (s.modEvt f).rails = s.rails ∧
    (s.modEvt f).railReqs = s.railReqs ∧ (s.modEvt f).marginReqs = s.marginReqs ∧ (s.modEvt f).answers = s.answers ∧
    (s.modEvt f).planner = s.planner ∧ (s.modEvt f).seq = s.seq ∧ (s.modEvt f).shut = s.shut ∧
    (s.modEvt f).motion = s.motion ∧ (s.modEvt f).touch = s.touch ∧ (s.modEvt f).mrst = s.mrst ∧
    (s.modEvt f).scan = s.scan ∧ (s.modEvt f).trip = s.trip ∧ (s.modEvt f).nv = s.nv ∧ (s.modEvt f).sealPg = s.sealPg ∧
    (s.modEvt f).inc = s.inc ∧ (s.modEvt f).mem = s.mem ∧ (s.modEvt f).ecc = s.ecc ∧ (s.modEvt f).spn = s.spn ∧
    (s.modEvt f).lck = s.lck ∧ (s.modEvt f).acc = s.acc ∧ (s.modEvt f).cmd = s.cmd ∧ (s.modEvt f).hds = s.hds ∧
    (s.modEvt f).hsb = s.hsb ∧ (s.modEvt f).fio = s.fio ∧ (s.modEvt f).mtr = s.mtr ∧ (s.modEvt f).reng = s.reng ∧
    (s.modEvt f).age = s.age ∧ (s.modEvt f).wdg = s.wdg ∧ (s.modEvt f).lnk = s.lnk ∧ (s.modEvt f).sec = s.sec ∧
    (s.modEvt f).fac = s.fac ∧ (s.modEvt f).hostWr = s.hostWr ∧ (s.modEvt f).free = s.free ∧
    (s.modEvt f).pending = s.pending := by
  and_intros <;> rfl
@[simp] theorem State.modAlert_others (s : State) (i : Fin 8) (f : AlertSt → AlertSt) :
    (s.modAlert i f).g = s.g ∧ (s.modAlert i f).time = s.time ∧ (s.modAlert i f).sup = s.sup ∧
    (s.modAlert i f).key = s.key ∧ (s.modAlert i f).stg = s.stg ∧ (s.modAlert i f).take = s.take ∧
    (s.modAlert i f).run = s.run ∧ (s.modAlert i f).cfg = s.cfg ∧ (s.modAlert i f).prev = s.prev ∧
    (s.modAlert i f).jur = s.jur ∧ (s.modAlert i f).cyc = s.cyc ∧ (s.modAlert i f).rails = s.rails ∧
    (s.modAlert i f).railReqs = s.railReqs ∧ (s.modAlert i f).marginReqs = s.marginReqs ∧
    (s.modAlert i f).answers = s.answers ∧ (s.modAlert i f).planner = s.planner ∧ (s.modAlert i f).seq = s.seq ∧
    (s.modAlert i f).shut = s.shut ∧ (s.modAlert i f).motion = s.motion ∧ (s.modAlert i f).touch = s.touch ∧
    (s.modAlert i f).mrst = s.mrst ∧ (s.modAlert i f).scan = s.scan ∧ (s.modAlert i f).trip = s.trip ∧
    (s.modAlert i f).nv = s.nv ∧ (s.modAlert i f).sealPg = s.sealPg ∧ (s.modAlert i f).inc = s.inc ∧
    (s.modAlert i f).mem = s.mem ∧ (s.modAlert i f).ecc = s.ecc ∧ (s.modAlert i f).spn = s.spn ∧
    (s.modAlert i f).lck = s.lck ∧ (s.modAlert i f).acc = s.acc ∧ (s.modAlert i f).cmd = s.cmd ∧
    (s.modAlert i f).hds = s.hds ∧ (s.modAlert i f).hsb = s.hsb ∧ (s.modAlert i f).fio = s.fio ∧
    (s.modAlert i f).mtr = s.mtr ∧ (s.modAlert i f).reng = s.reng ∧ (s.modAlert i f).age = s.age ∧
    (s.modAlert i f).wdg = s.wdg ∧ (s.modAlert i f).lnk = s.lnk ∧ (s.modAlert i f).sec = s.sec ∧
    (s.modAlert i f).fac = s.fac ∧ (s.modAlert i f).hostWr = s.hostWr ∧ (s.modAlert i f).free = s.free ∧
    (s.modAlert i f).pending = s.pending := by
  and_intros <;> rfl
@[simp] theorem State.modPoint_others (s : State) (p : PointN) (f : Point → Point) :
    (s.modPoint p f).g = s.g ∧ (s.modPoint p f).time = s.time ∧ (s.modPoint p f).sup = s.sup ∧
    (s.modPoint p f).key = s.key ∧ (s.modPoint p f).stg = s.stg ∧ (s.modPoint p f).take = s.take ∧
    (s.modPoint p f).run = s.run ∧ (s.modPoint p f).cfg = s.cfg ∧ (s.modPoint p f).prev = s.prev ∧
    (s.modPoint p f).jur = s.jur ∧ (s.modPoint p f).cyc = s.cyc ∧ (s.modPoint p f).rails = s.rails ∧
    (s.modPoint p f).railReqs = s.railReqs ∧ (s.modPoint p f).marginReqs = s.marginReqs ∧
    (s.modPoint p f).answers = s.answers ∧ (s.modPoint p f).planner = s.planner ∧ (s.modPoint p f).seq = s.seq ∧
    (s.modPoint p f).shut = s.shut ∧ (s.modPoint p f).motion = s.motion ∧ (s.modPoint p f).touch = s.touch ∧
    (s.modPoint p f).mrst = s.mrst ∧ (s.modPoint p f).scan = s.scan ∧ (s.modPoint p f).trip = s.trip ∧
    (s.modPoint p f).evt = s.evt ∧ (s.modPoint p f).nv = s.nv ∧ (s.modPoint p f).sealPg = s.sealPg ∧
    (s.modPoint p f).inc = s.inc ∧ (s.modPoint p f).mem = s.mem ∧ (s.modPoint p f).ecc = s.ecc ∧
    (s.modPoint p f).spn = s.spn ∧ (s.modPoint p f).lck = s.lck ∧ (s.modPoint p f).acc = s.acc ∧
    (s.modPoint p f).cmd = s.cmd ∧ (s.modPoint p f).hds = s.hds ∧ (s.modPoint p f).hsb = s.hsb ∧
    (s.modPoint p f).mtr = s.mtr ∧ (s.modPoint p f).reng = s.reng ∧ (s.modPoint p f).age = s.age ∧
    (s.modPoint p f).wdg = s.wdg ∧ (s.modPoint p f).lnk = s.lnk ∧ (s.modPoint p f).sec = s.sec ∧
    (s.modPoint p f).fac = s.fac ∧ (s.modPoint p f).hostWr = s.hostWr ∧ (s.modPoint p f).free = s.free ∧
    (s.modPoint p f).pending = s.pending := by
  and_intros <;> rfl
@[simp] theorem State.modFGroup_others (s : State) (g : Fin 8) (f : FGroup → FGroup) :
    (s.modFGroup g f).g = s.g ∧ (s.modFGroup g f).time = s.time ∧ (s.modFGroup g f).sup = s.sup ∧
    (s.modFGroup g f).key = s.key ∧ (s.modFGroup g f).stg = s.stg ∧ (s.modFGroup g f).take = s.take ∧
    (s.modFGroup g f).run = s.run ∧ (s.modFGroup g f).cfg = s.cfg ∧ (s.modFGroup g f).prev = s.prev ∧
    (s.modFGroup g f).jur = s.jur ∧ (s.modFGroup g f).cyc = s.cyc ∧ (s.modFGroup g f).rails = s.rails ∧
    (s.modFGroup g f).railReqs = s.railReqs ∧ (s.modFGroup g f).marginReqs = s.marginReqs ∧
    (s.modFGroup g f).answers = s.answers ∧ (s.modFGroup g f).planner = s.planner ∧ (s.modFGroup g f).seq = s.seq ∧
    (s.modFGroup g f).shut = s.shut ∧ (s.modFGroup g f).motion = s.motion ∧ (s.modFGroup g f).touch = s.touch ∧
    (s.modFGroup g f).mrst = s.mrst ∧ (s.modFGroup g f).scan = s.scan ∧ (s.modFGroup g f).trip = s.trip ∧
    (s.modFGroup g f).evt = s.evt ∧ (s.modFGroup g f).nv = s.nv ∧ (s.modFGroup g f).sealPg = s.sealPg ∧
    (s.modFGroup g f).inc = s.inc ∧ (s.modFGroup g f).mem = s.mem ∧ (s.modFGroup g f).ecc = s.ecc ∧
    (s.modFGroup g f).spn = s.spn ∧ (s.modFGroup g f).lck = s.lck ∧ (s.modFGroup g f).acc = s.acc ∧
    (s.modFGroup g f).cmd = s.cmd ∧ (s.modFGroup g f).hds = s.hds ∧ (s.modFGroup g f).hsb = s.hsb ∧
    (s.modFGroup g f).mtr = s.mtr ∧ (s.modFGroup g f).reng = s.reng ∧ (s.modFGroup g f).age = s.age ∧
    (s.modFGroup g f).wdg = s.wdg ∧ (s.modFGroup g f).lnk = s.lnk ∧ (s.modFGroup g f).sec = s.sec ∧
    (s.modFGroup g f).fac = s.fac ∧ (s.modFGroup g f).hostWr = s.hostWr ∧ (s.modFGroup g f).free = s.free ∧
    (s.modFGroup g f).pending = s.pending := by
  and_intros <;> rfl
@[simp] theorem State.modNet_others (s : State) (n : Fin 4) (f : NetPort → NetPort) :
    (s.modNet n f).g = s.g ∧ (s.modNet n f).time = s.time ∧ (s.modNet n f).sup = s.sup ∧ (s.modNet n f).key = s.key ∧
    (s.modNet n f).stg = s.stg ∧ (s.modNet n f).take = s.take ∧ (s.modNet n f).run = s.run ∧ (s.modNet n f).cfg = s.cfg ∧
    (s.modNet n f).prev = s.prev ∧ (s.modNet n f).jur = s.jur ∧ (s.modNet n f).cyc = s.cyc ∧
    (s.modNet n f).rails = s.rails ∧ (s.modNet n f).railReqs = s.railReqs ∧ (s.modNet n f).marginReqs = s.marginReqs ∧
    (s.modNet n f).answers = s.answers ∧ (s.modNet n f).planner = s.planner ∧ (s.modNet n f).seq = s.seq ∧
    (s.modNet n f).shut = s.shut ∧ (s.modNet n f).motion = s.motion ∧ (s.modNet n f).touch = s.touch ∧
    (s.modNet n f).mrst = s.mrst ∧ (s.modNet n f).scan = s.scan ∧ (s.modNet n f).trip = s.trip ∧
    (s.modNet n f).evt = s.evt ∧ (s.modNet n f).nv = s.nv ∧ (s.modNet n f).sealPg = s.sealPg ∧ (s.modNet n f).inc = s.inc ∧
    (s.modNet n f).mem = s.mem ∧ (s.modNet n f).ecc = s.ecc ∧ (s.modNet n f).spn = s.spn ∧ (s.modNet n f).lck = s.lck ∧
    (s.modNet n f).acc = s.acc ∧ (s.modNet n f).cmd = s.cmd ∧ (s.modNet n f).hds = s.hds ∧ (s.modNet n f).hsb = s.hsb ∧
    (s.modNet n f).fio = s.fio ∧ (s.modNet n f).mtr = s.mtr ∧ (s.modNet n f).reng = s.reng ∧ (s.modNet n f).age = s.age ∧
    (s.modNet n f).wdg = s.wdg ∧ (s.modNet n f).sec = s.sec ∧ (s.modNet n f).fac = s.fac ∧
    (s.modNet n f).hostWr = s.hostWr ∧ (s.modNet n f).free = s.free ∧ (s.modNet n f).pending = s.pending := by
  and_intros <;> rfl
@[simp] theorem State.modLock_others (s : State) (k : Fin 256) (f : LockSt → LockSt) :
    (s.modLock k f).g = s.g ∧ (s.modLock k f).time = s.time ∧ (s.modLock k f).sup = s.sup ∧ (s.modLock k f).key = s.key ∧
    (s.modLock k f).stg = s.stg ∧ (s.modLock k f).take = s.take ∧ (s.modLock k f).run = s.run ∧
    (s.modLock k f).cfg = s.cfg ∧ (s.modLock k f).prev = s.prev ∧ (s.modLock k f).jur = s.jur ∧
    (s.modLock k f).cyc = s.cyc ∧ (s.modLock k f).rails = s.rails ∧ (s.modLock k f).railReqs = s.railReqs ∧
    (s.modLock k f).marginReqs = s.marginReqs ∧ (s.modLock k f).answers = s.answers ∧ (s.modLock k f).planner = s.planner ∧
    (s.modLock k f).seq = s.seq ∧ (s.modLock k f).shut = s.shut ∧ (s.modLock k f).motion = s.motion ∧
    (s.modLock k f).touch = s.touch ∧ (s.modLock k f).mrst = s.mrst ∧ (s.modLock k f).scan = s.scan ∧
    (s.modLock k f).trip = s.trip ∧ (s.modLock k f).evt = s.evt ∧ (s.modLock k f).nv = s.nv ∧
    (s.modLock k f).sealPg = s.sealPg ∧ (s.modLock k f).inc = s.inc ∧ (s.modLock k f).mem = s.mem ∧
    (s.modLock k f).ecc = s.ecc ∧ (s.modLock k f).spn = s.spn ∧ (s.modLock k f).acc = s.acc ∧ (s.modLock k f).cmd = s.cmd ∧
    (s.modLock k f).hds = s.hds ∧ (s.modLock k f).hsb = s.hsb ∧ (s.modLock k f).fio = s.fio ∧ (s.modLock k f).mtr = s.mtr ∧
    (s.modLock k f).reng = s.reng ∧ (s.modLock k f).age = s.age ∧ (s.modLock k f).wdg = s.wdg ∧
    (s.modLock k f).lnk = s.lnk ∧ (s.modLock k f).sec = s.sec ∧ (s.modLock k f).fac = s.fac ∧
    (s.modLock k f).hostWr = s.hostWr ∧ (s.modLock k f).free = s.free ∧ (s.modLock k f).pending = s.pending := by
  and_intros <;> rfl
@[simp] theorem State.modSession_others (s : State) (n : Fin 4) (f : Session → Session) :
    (s.modSession n f).g = s.g ∧ (s.modSession n f).time = s.time ∧ (s.modSession n f).sup = s.sup ∧
    (s.modSession n f).key = s.key ∧ (s.modSession n f).stg = s.stg ∧ (s.modSession n f).take = s.take ∧
    (s.modSession n f).run = s.run ∧ (s.modSession n f).cfg = s.cfg ∧ (s.modSession n f).prev = s.prev ∧
    (s.modSession n f).jur = s.jur ∧ (s.modSession n f).cyc = s.cyc ∧ (s.modSession n f).rails = s.rails ∧
    (s.modSession n f).railReqs = s.railReqs ∧ (s.modSession n f).marginReqs = s.marginReqs ∧
    (s.modSession n f).answers = s.answers ∧ (s.modSession n f).planner = s.planner ∧ (s.modSession n f).seq = s.seq ∧
    (s.modSession n f).shut = s.shut ∧ (s.modSession n f).motion = s.motion ∧ (s.modSession n f).touch = s.touch ∧
    (s.modSession n f).mrst = s.mrst ∧ (s.modSession n f).scan = s.scan ∧ (s.modSession n f).trip = s.trip ∧
    (s.modSession n f).evt = s.evt ∧ (s.modSession n f).nv = s.nv ∧ (s.modSession n f).sealPg = s.sealPg ∧
    (s.modSession n f).inc = s.inc ∧ (s.modSession n f).mem = s.mem ∧ (s.modSession n f).ecc = s.ecc ∧
    (s.modSession n f).spn = s.spn ∧ (s.modSession n f).lck = s.lck ∧ (s.modSession n f).acc = s.acc ∧
    (s.modSession n f).cmd = s.cmd ∧ (s.modSession n f).hds = s.hds ∧ (s.modSession n f).hsb = s.hsb ∧
    (s.modSession n f).fio = s.fio ∧ (s.modSession n f).mtr = s.mtr ∧ (s.modSession n f).reng = s.reng ∧
    (s.modSession n f).age = s.age ∧ (s.modSession n f).wdg = s.wdg ∧ (s.modSession n f).sec = s.sec ∧
    (s.modSession n f).fac = s.fac ∧ (s.modSession n f).hostWr = s.hostWr ∧ (s.modSession n f).free = s.free ∧
    (s.modSession n f).pending = s.pending := by
  and_intros <;> rfl
@[simp] theorem State.modRegs_others (s : State) (l : LPairN) (f : Regs → Regs) :
    (s.modRegs l f).g = s.g ∧ (s.modRegs l f).time = s.time ∧ (s.modRegs l f).sup = s.sup ∧ (s.modRegs l f).key = s.key ∧
    (s.modRegs l f).stg = s.stg ∧ (s.modRegs l f).take = s.take ∧ (s.modRegs l f).run = s.run ∧
    (s.modRegs l f).cfg = s.cfg ∧ (s.modRegs l f).prev = s.prev ∧ (s.modRegs l f).jur = s.jur ∧
    (s.modRegs l f).cyc = s.cyc ∧ (s.modRegs l f).rails = s.rails ∧ (s.modRegs l f).railReqs = s.railReqs ∧
    (s.modRegs l f).marginReqs = s.marginReqs ∧ (s.modRegs l f).answers = s.answers ∧ (s.modRegs l f).planner = s.planner ∧
    (s.modRegs l f).seq = s.seq ∧ (s.modRegs l f).shut = s.shut ∧ (s.modRegs l f).motion = s.motion ∧
    (s.modRegs l f).touch = s.touch ∧ (s.modRegs l f).mrst = s.mrst ∧ (s.modRegs l f).scan = s.scan ∧
    (s.modRegs l f).trip = s.trip ∧ (s.modRegs l f).evt = s.evt ∧ (s.modRegs l f).nv = s.nv ∧
    (s.modRegs l f).sealPg = s.sealPg ∧ (s.modRegs l f).inc = s.inc ∧ (s.modRegs l f).mem = s.mem ∧
    (s.modRegs l f).ecc = s.ecc ∧ (s.modRegs l f).lck = s.lck ∧ (s.modRegs l f).acc = s.acc ∧ (s.modRegs l f).cmd = s.cmd ∧
    (s.modRegs l f).hds = s.hds ∧ (s.modRegs l f).hsb = s.hsb ∧ (s.modRegs l f).fio = s.fio ∧ (s.modRegs l f).mtr = s.mtr ∧
    (s.modRegs l f).reng = s.reng ∧ (s.modRegs l f).age = s.age ∧ (s.modRegs l f).wdg = s.wdg ∧
    (s.modRegs l f).lnk = s.lnk ∧ (s.modRegs l f).sec = s.sec ∧ (s.modRegs l f).fac = s.fac ∧
    (s.modRegs l f).hostWr = s.hostWr ∧ (s.modRegs l f).free = s.free ∧ (s.modRegs l f).pending = s.pending := by
  and_intros <;> rfl
@[simp] theorem State.modReplay_others (s : State) (l : LPairN) (f : Replay → Replay) :
    (s.modReplay l f).g = s.g ∧ (s.modReplay l f).time = s.time ∧ (s.modReplay l f).sup = s.sup ∧
    (s.modReplay l f).key = s.key ∧ (s.modReplay l f).stg = s.stg ∧ (s.modReplay l f).take = s.take ∧
    (s.modReplay l f).run = s.run ∧ (s.modReplay l f).cfg = s.cfg ∧ (s.modReplay l f).prev = s.prev ∧
    (s.modReplay l f).jur = s.jur ∧ (s.modReplay l f).cyc = s.cyc ∧ (s.modReplay l f).rails = s.rails ∧
    (s.modReplay l f).railReqs = s.railReqs ∧ (s.modReplay l f).marginReqs = s.marginReqs ∧
    (s.modReplay l f).answers = s.answers ∧ (s.modReplay l f).planner = s.planner ∧ (s.modReplay l f).seq = s.seq ∧
    (s.modReplay l f).shut = s.shut ∧ (s.modReplay l f).motion = s.motion ∧ (s.modReplay l f).touch = s.touch ∧
    (s.modReplay l f).mrst = s.mrst ∧ (s.modReplay l f).scan = s.scan ∧ (s.modReplay l f).trip = s.trip ∧
    (s.modReplay l f).evt = s.evt ∧ (s.modReplay l f).nv = s.nv ∧ (s.modReplay l f).sealPg = s.sealPg ∧
    (s.modReplay l f).inc = s.inc ∧ (s.modReplay l f).mem = s.mem ∧ (s.modReplay l f).ecc = s.ecc ∧
    (s.modReplay l f).lck = s.lck ∧ (s.modReplay l f).acc = s.acc ∧ (s.modReplay l f).cmd = s.cmd ∧
    (s.modReplay l f).hds = s.hds ∧ (s.modReplay l f).hsb = s.hsb ∧ (s.modReplay l f).fio = s.fio ∧
    (s.modReplay l f).mtr = s.mtr ∧ (s.modReplay l f).reng = s.reng ∧ (s.modReplay l f).age = s.age ∧
    (s.modReplay l f).wdg = s.wdg ∧ (s.modReplay l f).lnk = s.lnk ∧ (s.modReplay l f).sec = s.sec ∧
    (s.modReplay l f).fac = s.fac ∧ (s.modReplay l f).hostWr = s.hostWr ∧ (s.modReplay l f).free = s.free ∧
    (s.modReplay l f).pending = s.pending := by
  and_intros <;> rfl
@[simp] theorem State.modPair_others (s : State) (l : LPairN) (f : LPair → LPair) :
    (s.modPair l f).g = s.g ∧ (s.modPair l f).time = s.time ∧ (s.modPair l f).sup = s.sup ∧ (s.modPair l f).key = s.key ∧
    (s.modPair l f).stg = s.stg ∧ (s.modPair l f).take = s.take ∧ (s.modPair l f).run = s.run ∧
    (s.modPair l f).cfg = s.cfg ∧ (s.modPair l f).prev = s.prev ∧ (s.modPair l f).jur = s.jur ∧
    (s.modPair l f).cyc = s.cyc ∧ (s.modPair l f).rails = s.rails ∧ (s.modPair l f).railReqs = s.railReqs ∧
    (s.modPair l f).marginReqs = s.marginReqs ∧ (s.modPair l f).answers = s.answers ∧ (s.modPair l f).planner = s.planner ∧
    (s.modPair l f).seq = s.seq ∧ (s.modPair l f).shut = s.shut ∧ (s.modPair l f).motion = s.motion ∧
    (s.modPair l f).touch = s.touch ∧ (s.modPair l f).mrst = s.mrst ∧ (s.modPair l f).scan = s.scan ∧
    (s.modPair l f).trip = s.trip ∧ (s.modPair l f).evt = s.evt ∧ (s.modPair l f).nv = s.nv ∧
    (s.modPair l f).sealPg = s.sealPg ∧ (s.modPair l f).inc = s.inc ∧ (s.modPair l f).mem = s.mem ∧
    (s.modPair l f).ecc = s.ecc ∧ (s.modPair l f).lck = s.lck ∧ (s.modPair l f).acc = s.acc ∧ (s.modPair l f).cmd = s.cmd ∧
    (s.modPair l f).hds = s.hds ∧ (s.modPair l f).hsb = s.hsb ∧ (s.modPair l f).fio = s.fio ∧ (s.modPair l f).mtr = s.mtr ∧
    (s.modPair l f).reng = s.reng ∧ (s.modPair l f).age = s.age ∧ (s.modPair l f).wdg = s.wdg ∧
    (s.modPair l f).lnk = s.lnk ∧ (s.modPair l f).sec = s.sec ∧ (s.modPair l f).fac = s.fac ∧
    (s.modPair l f).hostWr = s.hostWr ∧ (s.modPair l f).free = s.free ∧ (s.modPair l f).pending = s.pending := by
  and_intros <;> rfl
@[simp] theorem State.modProg_others (s : State) (n : ProgN) (f : ProgSt → ProgSt) :
    (s.modProg n f).g = s.g ∧ (s.modProg n f).time = s.time ∧ (s.modProg n f).sup = s.sup ∧ (s.modProg n f).key = s.key ∧
    (s.modProg n f).stg = s.stg ∧ (s.modProg n f).take = s.take ∧ (s.modProg n f).run = s.run ∧
    (s.modProg n f).cfg = s.cfg ∧ (s.modProg n f).prev = s.prev ∧ (s.modProg n f).jur = s.jur ∧
    (s.modProg n f).cyc = s.cyc ∧ (s.modProg n f).rails = s.rails ∧ (s.modProg n f).railReqs = s.railReqs ∧
    (s.modProg n f).marginReqs = s.marginReqs ∧ (s.modProg n f).answers = s.answers ∧ (s.modProg n f).planner = s.planner ∧
    (s.modProg n f).seq = s.seq ∧ (s.modProg n f).shut = s.shut ∧ (s.modProg n f).motion = s.motion ∧
    (s.modProg n f).touch = s.touch ∧ (s.modProg n f).mrst = s.mrst ∧ (s.modProg n f).scan = s.scan ∧
    (s.modProg n f).trip = s.trip ∧ (s.modProg n f).evt = s.evt ∧ (s.modProg n f).nv = s.nv ∧
    (s.modProg n f).sealPg = s.sealPg ∧ (s.modProg n f).inc = s.inc ∧ (s.modProg n f).mem = s.mem ∧
    (s.modProg n f).ecc = s.ecc ∧ (s.modProg n f).lck = s.lck ∧ (s.modProg n f).acc = s.acc ∧ (s.modProg n f).cmd = s.cmd ∧
    (s.modProg n f).hds = s.hds ∧ (s.modProg n f).hsb = s.hsb ∧ (s.modProg n f).fio = s.fio ∧ (s.modProg n f).mtr = s.mtr ∧
    (s.modProg n f).reng = s.reng ∧ (s.modProg n f).age = s.age ∧ (s.modProg n f).wdg = s.wdg ∧
    (s.modProg n f).lnk = s.lnk ∧ (s.modProg n f).sec = s.sec ∧ (s.modProg n f).fac = s.fac ∧
    (s.modProg n f).hostWr = s.hostWr ∧ (s.modProg n f).free = s.free ∧ (s.modProg n f).pending = s.pending := by
  and_intros <;> rfl
@[simp] theorem State.modSync_others (s : State) (o : Fin 1024) (f : SyncSt → SyncSt) :
    (s.modSync o f).g = s.g ∧ (s.modSync o f).time = s.time ∧ (s.modSync o f).sup = s.sup ∧ (s.modSync o f).key = s.key ∧
    (s.modSync o f).stg = s.stg ∧ (s.modSync o f).take = s.take ∧ (s.modSync o f).run = s.run ∧
    (s.modSync o f).cfg = s.cfg ∧ (s.modSync o f).prev = s.prev ∧ (s.modSync o f).jur = s.jur ∧
    (s.modSync o f).cyc = s.cyc ∧ (s.modSync o f).rails = s.rails ∧ (s.modSync o f).railReqs = s.railReqs ∧
    (s.modSync o f).marginReqs = s.marginReqs ∧ (s.modSync o f).answers = s.answers ∧ (s.modSync o f).planner = s.planner ∧
    (s.modSync o f).seq = s.seq ∧ (s.modSync o f).shut = s.shut ∧ (s.modSync o f).motion = s.motion ∧
    (s.modSync o f).touch = s.touch ∧ (s.modSync o f).mrst = s.mrst ∧ (s.modSync o f).scan = s.scan ∧
    (s.modSync o f).trip = s.trip ∧ (s.modSync o f).evt = s.evt ∧ (s.modSync o f).nv = s.nv ∧
    (s.modSync o f).sealPg = s.sealPg ∧ (s.modSync o f).inc = s.inc ∧ (s.modSync o f).mem = s.mem ∧
    (s.modSync o f).ecc = s.ecc ∧ (s.modSync o f).spn = s.spn ∧ (s.modSync o f).acc = s.acc ∧ (s.modSync o f).cmd = s.cmd ∧
    (s.modSync o f).hds = s.hds ∧ (s.modSync o f).hsb = s.hsb ∧ (s.modSync o f).fio = s.fio ∧ (s.modSync o f).mtr = s.mtr ∧
    (s.modSync o f).reng = s.reng ∧ (s.modSync o f).age = s.age ∧ (s.modSync o f).wdg = s.wdg ∧
    (s.modSync o f).lnk = s.lnk ∧ (s.modSync o f).sec = s.sec ∧ (s.modSync o f).fac = s.fac ∧
    (s.modSync o f).hostWr = s.hostWr ∧ (s.modSync o f).free = s.free ∧ (s.modSync o f).pending = s.pending := by
  and_intros <;> rfl
@[simp] theorem State.modLckTgt_others (s : State) (t : TgtN) (f : LckTgt → LckTgt) :
    (s.modLckTgt t f).g = s.g ∧ (s.modLckTgt t f).time = s.time ∧ (s.modLckTgt t f).sup = s.sup ∧
    (s.modLckTgt t f).key = s.key ∧ (s.modLckTgt t f).stg = s.stg ∧ (s.modLckTgt t f).take = s.take ∧
    (s.modLckTgt t f).run = s.run ∧ (s.modLckTgt t f).cfg = s.cfg ∧ (s.modLckTgt t f).prev = s.prev ∧
    (s.modLckTgt t f).jur = s.jur ∧ (s.modLckTgt t f).cyc = s.cyc ∧ (s.modLckTgt t f).rails = s.rails ∧
    (s.modLckTgt t f).railReqs = s.railReqs ∧ (s.modLckTgt t f).marginReqs = s.marginReqs ∧
    (s.modLckTgt t f).answers = s.answers ∧ (s.modLckTgt t f).planner = s.planner ∧ (s.modLckTgt t f).seq = s.seq ∧
    (s.modLckTgt t f).shut = s.shut ∧ (s.modLckTgt t f).motion = s.motion ∧ (s.modLckTgt t f).touch = s.touch ∧
    (s.modLckTgt t f).mrst = s.mrst ∧ (s.modLckTgt t f).scan = s.scan ∧ (s.modLckTgt t f).trip = s.trip ∧
    (s.modLckTgt t f).evt = s.evt ∧ (s.modLckTgt t f).nv = s.nv ∧ (s.modLckTgt t f).sealPg = s.sealPg ∧
    (s.modLckTgt t f).inc = s.inc ∧ (s.modLckTgt t f).mem = s.mem ∧ (s.modLckTgt t f).ecc = s.ecc ∧
    (s.modLckTgt t f).spn = s.spn ∧ (s.modLckTgt t f).acc = s.acc ∧ (s.modLckTgt t f).cmd = s.cmd ∧
    (s.modLckTgt t f).hds = s.hds ∧ (s.modLckTgt t f).hsb = s.hsb ∧ (s.modLckTgt t f).fio = s.fio ∧
    (s.modLckTgt t f).mtr = s.mtr ∧ (s.modLckTgt t f).reng = s.reng ∧ (s.modLckTgt t f).age = s.age ∧
    (s.modLckTgt t f).wdg = s.wdg ∧ (s.modLckTgt t f).lnk = s.lnk ∧ (s.modLckTgt t f).sec = s.sec ∧
    (s.modLckTgt t f).fac = s.fac ∧ (s.modLckTgt t f).hostWr = s.hostWr ∧ (s.modLckTgt t f).free = s.free ∧
    (s.modLckTgt t f).pending = s.pending := by
  and_intros <;> rfl
@[simp] theorem State.modStream_others (s : State) (i : Fin 64) (f : Stream → Stream) :
    (s.modStream i f).g = s.g ∧ (s.modStream i f).time = s.time ∧ (s.modStream i f).sup = s.sup ∧
    (s.modStream i f).key = s.key ∧ (s.modStream i f).stg = s.stg ∧ (s.modStream i f).take = s.take ∧
    (s.modStream i f).run = s.run ∧ (s.modStream i f).cfg = s.cfg ∧ (s.modStream i f).prev = s.prev ∧
    (s.modStream i f).jur = s.jur ∧ (s.modStream i f).cyc = s.cyc ∧ (s.modStream i f).rails = s.rails ∧
    (s.modStream i f).railReqs = s.railReqs ∧ (s.modStream i f).marginReqs = s.marginReqs ∧
    (s.modStream i f).answers = s.answers ∧ (s.modStream i f).planner = s.planner ∧ (s.modStream i f).seq = s.seq ∧
    (s.modStream i f).shut = s.shut ∧ (s.modStream i f).motion = s.motion ∧ (s.modStream i f).touch = s.touch ∧
    (s.modStream i f).mrst = s.mrst ∧ (s.modStream i f).scan = s.scan ∧ (s.modStream i f).trip = s.trip ∧
    (s.modStream i f).evt = s.evt ∧ (s.modStream i f).nv = s.nv ∧ (s.modStream i f).sealPg = s.sealPg ∧
    (s.modStream i f).inc = s.inc ∧ (s.modStream i f).mem = s.mem ∧ (s.modStream i f).ecc = s.ecc ∧
    (s.modStream i f).spn = s.spn ∧ (s.modStream i f).lck = s.lck ∧ (s.modStream i f).acc = s.acc ∧
    (s.modStream i f).cmd = s.cmd ∧ (s.modStream i f).hds = s.hds ∧ (s.modStream i f).hsb = s.hsb ∧
    (s.modStream i f).fio = s.fio ∧ (s.modStream i f).mtr = s.mtr ∧ (s.modStream i f).age = s.age ∧
    (s.modStream i f).wdg = s.wdg ∧ (s.modStream i f).lnk = s.lnk ∧ (s.modStream i f).sec = s.sec ∧
    (s.modStream i f).fac = s.fac ∧ (s.modStream i f).hostWr = s.hostWr ∧ (s.modStream i f).free = s.free ∧
    (s.modStream i f).pending = s.pending := by
  and_intros <;> rfl
@[simp] theorem State.modSet_others (s : State) (m : Fin 4) (f : MSet → MSet) :
    (s.modSet m f).g = s.g ∧ (s.modSet m f).time = s.time ∧ (s.modSet m f).sup = s.sup ∧ (s.modSet m f).key = s.key ∧
    (s.modSet m f).stg = s.stg ∧ (s.modSet m f).take = s.take ∧ (s.modSet m f).run = s.run ∧ (s.modSet m f).cfg = s.cfg ∧
    (s.modSet m f).prev = s.prev ∧ (s.modSet m f).jur = s.jur ∧ (s.modSet m f).cyc = s.cyc ∧
    (s.modSet m f).rails = s.rails ∧ (s.modSet m f).railReqs = s.railReqs ∧ (s.modSet m f).marginReqs = s.marginReqs ∧
    (s.modSet m f).answers = s.answers ∧ (s.modSet m f).planner = s.planner ∧ (s.modSet m f).seq = s.seq ∧
    (s.modSet m f).shut = s.shut ∧ (s.modSet m f).motion = s.motion ∧ (s.modSet m f).touch = s.touch ∧
    (s.modSet m f).mrst = s.mrst ∧ (s.modSet m f).scan = s.scan ∧ (s.modSet m f).trip = s.trip ∧
    (s.modSet m f).evt = s.evt ∧ (s.modSet m f).nv = s.nv ∧ (s.modSet m f).sealPg = s.sealPg ∧ (s.modSet m f).inc = s.inc ∧
    (s.modSet m f).mem = s.mem ∧ (s.modSet m f).ecc = s.ecc ∧ (s.modSet m f).spn = s.spn ∧ (s.modSet m f).lck = s.lck ∧
    (s.modSet m f).acc = s.acc ∧ (s.modSet m f).cmd = s.cmd ∧ (s.modSet m f).hds = s.hds ∧ (s.modSet m f).hsb = s.hsb ∧
    (s.modSet m f).fio = s.fio ∧ (s.modSet m f).reng = s.reng ∧ (s.modSet m f).age = s.age ∧ (s.modSet m f).wdg = s.wdg ∧
    (s.modSet m f).lnk = s.lnk ∧ (s.modSet m f).sec = s.sec ∧ (s.modSet m f).fac = s.fac ∧
    (s.modSet m f).hostWr = s.hostWr ∧ (s.modSet m f).free = s.free ∧ (s.modSet m f).pending = s.pending := by
  and_intros <;> rfl
@[simp] theorem State.modQueue_others (s : State) (q : QueueN) (f : Queue → Queue) :
    (s.modQueue q f).g = s.g ∧ (s.modQueue q f).time = s.time ∧ (s.modQueue q f).sup = s.sup ∧
    (s.modQueue q f).key = s.key ∧ (s.modQueue q f).stg = s.stg ∧ (s.modQueue q f).take = s.take ∧
    (s.modQueue q f).run = s.run ∧ (s.modQueue q f).cfg = s.cfg ∧ (s.modQueue q f).prev = s.prev ∧
    (s.modQueue q f).jur = s.jur ∧ (s.modQueue q f).cyc = s.cyc ∧ (s.modQueue q f).rails = s.rails ∧
    (s.modQueue q f).railReqs = s.railReqs ∧ (s.modQueue q f).marginReqs = s.marginReqs ∧
    (s.modQueue q f).answers = s.answers ∧ (s.modQueue q f).planner = s.planner ∧ (s.modQueue q f).seq = s.seq ∧
    (s.modQueue q f).shut = s.shut ∧ (s.modQueue q f).motion = s.motion ∧ (s.modQueue q f).touch = s.touch ∧
    (s.modQueue q f).mrst = s.mrst ∧ (s.modQueue q f).scan = s.scan ∧ (s.modQueue q f).trip = s.trip ∧
    (s.modQueue q f).evt = s.evt ∧ (s.modQueue q f).nv = s.nv ∧ (s.modQueue q f).sealPg = s.sealPg ∧
    (s.modQueue q f).inc = s.inc ∧ (s.modQueue q f).mem = s.mem ∧ (s.modQueue q f).ecc = s.ecc ∧
    (s.modQueue q f).spn = s.spn ∧ (s.modQueue q f).lck = s.lck ∧ (s.modQueue q f).acc = s.acc ∧
    (s.modQueue q f).cmd = s.cmd ∧ (s.modQueue q f).hsb = s.hsb ∧ (s.modQueue q f).fio = s.fio ∧
    (s.modQueue q f).mtr = s.mtr ∧ (s.modQueue q f).reng = s.reng ∧ (s.modQueue q f).age = s.age ∧
    (s.modQueue q f).wdg = s.wdg ∧ (s.modQueue q f).lnk = s.lnk ∧ (s.modQueue q f).sec = s.sec ∧
    (s.modQueue q f).fac = s.fac ∧ (s.modQueue q f).hostWr = s.hostWr ∧ (s.modQueue q f).free = s.free ∧
    (s.modQueue q f).pending = s.pending := by
  and_intros <;> rfl
@[simp] theorem State.modDom_others (s : State) (d : Fin 16) (f : Dom → Dom) :
    (s.modDom d f).g = s.g ∧ (s.modDom d f).time = s.time ∧ (s.modDom d f).sup = s.sup ∧ (s.modDom d f).key = s.key ∧
    (s.modDom d f).stg = s.stg ∧ (s.modDom d f).take = s.take ∧ (s.modDom d f).run = s.run ∧ (s.modDom d f).cfg = s.cfg ∧
    (s.modDom d f).prev = s.prev ∧ (s.modDom d f).jur = s.jur ∧ (s.modDom d f).cyc = s.cyc ∧
    (s.modDom d f).rails = s.rails ∧ (s.modDom d f).railReqs = s.railReqs ∧ (s.modDom d f).marginReqs = s.marginReqs ∧
    (s.modDom d f).answers = s.answers ∧ (s.modDom d f).planner = s.planner ∧ (s.modDom d f).seq = s.seq ∧
    (s.modDom d f).shut = s.shut ∧ (s.modDom d f).motion = s.motion ∧ (s.modDom d f).touch = s.touch ∧
    (s.modDom d f).mrst = s.mrst ∧ (s.modDom d f).scan = s.scan ∧ (s.modDom d f).trip = s.trip ∧
    (s.modDom d f).evt = s.evt ∧ (s.modDom d f).nv = s.nv ∧ (s.modDom d f).sealPg = s.sealPg ∧ (s.modDom d f).inc = s.inc ∧
    (s.modDom d f).mem = s.mem ∧ (s.modDom d f).ecc = s.ecc ∧ (s.modDom d f).spn = s.spn ∧ (s.modDom d f).lck = s.lck ∧
    (s.modDom d f).acc = s.acc ∧ (s.modDom d f).cmd = s.cmd ∧ (s.modDom d f).hsb = s.hsb ∧ (s.modDom d f).fio = s.fio ∧
    (s.modDom d f).mtr = s.mtr ∧ (s.modDom d f).reng = s.reng ∧ (s.modDom d f).age = s.age ∧ (s.modDom d f).wdg = s.wdg ∧
    (s.modDom d f).lnk = s.lnk ∧ (s.modDom d f).sec = s.sec ∧ (s.modDom d f).fac = s.fac ∧
    (s.modDom d f).hostWr = s.hostWr ∧ (s.modDom d f).free = s.free ∧ (s.modDom d f).pending = s.pending := by
  and_intros <;> rfl
@[simp] theorem State.modUnit_others (s : State) (k : Fin 8) (f : StUnit → StUnit) :
    (s.modUnit k f).g = s.g ∧ (s.modUnit k f).time = s.time ∧ (s.modUnit k f).sup = s.sup ∧ (s.modUnit k f).key = s.key ∧
    (s.modUnit k f).stg = s.stg ∧ (s.modUnit k f).take = s.take ∧ (s.modUnit k f).run = s.run ∧
    (s.modUnit k f).cfg = s.cfg ∧ (s.modUnit k f).prev = s.prev ∧ (s.modUnit k f).jur = s.jur ∧
    (s.modUnit k f).cyc = s.cyc ∧ (s.modUnit k f).rails = s.rails ∧ (s.modUnit k f).railReqs = s.railReqs ∧
    (s.modUnit k f).marginReqs = s.marginReqs ∧ (s.modUnit k f).answers = s.answers ∧ (s.modUnit k f).planner = s.planner ∧
    (s.modUnit k f).seq = s.seq ∧ (s.modUnit k f).shut = s.shut ∧ (s.modUnit k f).motion = s.motion ∧
    (s.modUnit k f).touch = s.touch ∧ (s.modUnit k f).mrst = s.mrst ∧ (s.modUnit k f).scan = s.scan ∧
    (s.modUnit k f).trip = s.trip ∧ (s.modUnit k f).evt = s.evt ∧ (s.modUnit k f).nv = s.nv ∧
    (s.modUnit k f).sealPg = s.sealPg ∧ (s.modUnit k f).inc = s.inc ∧ (s.modUnit k f).mem = s.mem ∧
    (s.modUnit k f).ecc = s.ecc ∧ (s.modUnit k f).spn = s.spn ∧ (s.modUnit k f).lck = s.lck ∧ (s.modUnit k f).acc = s.acc ∧
    (s.modUnit k f).cmd = s.cmd ∧ (s.modUnit k f).hds = s.hds ∧ (s.modUnit k f).hsb = s.hsb ∧ (s.modUnit k f).fio = s.fio ∧
    (s.modUnit k f).mtr = s.mtr ∧ (s.modUnit k f).age = s.age ∧ (s.modUnit k f).wdg = s.wdg ∧ (s.modUnit k f).lnk = s.lnk ∧
    (s.modUnit k f).sec = s.sec ∧ (s.modUnit k f).fac = s.fac ∧ (s.modUnit k f).hostWr = s.hostWr ∧
    (s.modUnit k f).free = s.free ∧ (s.modUnit k f).pending = s.pending := by
  and_intros <;> rfl
@[simp] theorem State.modPhys_others (s : State) (q : PPairN) (f : PPair → PPair) :
    (s.modPhys q f).g = s.g ∧ (s.modPhys q f).time = s.time ∧ (s.modPhys q f).sup = s.sup ∧ (s.modPhys q f).key = s.key ∧
    (s.modPhys q f).stg = s.stg ∧ (s.modPhys q f).take = s.take ∧ (s.modPhys q f).run = s.run ∧
    (s.modPhys q f).cfg = s.cfg ∧ (s.modPhys q f).prev = s.prev ∧ (s.modPhys q f).jur = s.jur ∧
    (s.modPhys q f).cyc = s.cyc ∧ (s.modPhys q f).rails = s.rails ∧ (s.modPhys q f).railReqs = s.railReqs ∧
    (s.modPhys q f).marginReqs = s.marginReqs ∧ (s.modPhys q f).answers = s.answers ∧ (s.modPhys q f).planner = s.planner ∧
    (s.modPhys q f).seq = s.seq ∧ (s.modPhys q f).shut = s.shut ∧ (s.modPhys q f).motion = s.motion ∧
    (s.modPhys q f).touch = s.touch ∧ (s.modPhys q f).mrst = s.mrst ∧ (s.modPhys q f).scan = s.scan ∧
    (s.modPhys q f).trip = s.trip ∧ (s.modPhys q f).evt = s.evt ∧ (s.modPhys q f).nv = s.nv ∧
    (s.modPhys q f).sealPg = s.sealPg ∧ (s.modPhys q f).inc = s.inc ∧ (s.modPhys q f).mem = s.mem ∧
    (s.modPhys q f).ecc = s.ecc ∧ (s.modPhys q f).lck = s.lck ∧ (s.modPhys q f).acc = s.acc ∧ (s.modPhys q f).cmd = s.cmd ∧
    (s.modPhys q f).hds = s.hds ∧ (s.modPhys q f).hsb = s.hsb ∧ (s.modPhys q f).fio = s.fio ∧ (s.modPhys q f).mtr = s.mtr ∧
    (s.modPhys q f).reng = s.reng ∧ (s.modPhys q f).age = s.age ∧ (s.modPhys q f).wdg = s.wdg ∧
    (s.modPhys q f).lnk = s.lnk ∧ (s.modPhys q f).sec = s.sec ∧ (s.modPhys q f).fac = s.fac ∧
    (s.modPhys q f).hostWr = s.hostWr ∧ (s.modPhys q f).free = s.free ∧ (s.modPhys q f).pending = s.pending := by
  and_intros <;> rfl
@[simp] theorem State.modRepl_others (s : State) (f : Repl → Repl) :
    (s.modRepl f).g = s.g ∧ (s.modRepl f).time = s.time ∧ (s.modRepl f).sup = s.sup ∧ (s.modRepl f).key = s.key ∧
    (s.modRepl f).stg = s.stg ∧ (s.modRepl f).take = s.take ∧ (s.modRepl f).run = s.run ∧ (s.modRepl f).cfg = s.cfg ∧
    (s.modRepl f).prev = s.prev ∧ (s.modRepl f).jur = s.jur ∧ (s.modRepl f).cyc = s.cyc ∧ (s.modRepl f).rails = s.rails ∧
    (s.modRepl f).railReqs = s.railReqs ∧ (s.modRepl f).marginReqs = s.marginReqs ∧ (s.modRepl f).answers = s.answers ∧
    (s.modRepl f).planner = s.planner ∧ (s.modRepl f).seq = s.seq ∧ (s.modRepl f).shut = s.shut ∧
    (s.modRepl f).motion = s.motion ∧ (s.modRepl f).touch = s.touch ∧ (s.modRepl f).mrst = s.mrst ∧
    (s.modRepl f).scan = s.scan ∧ (s.modRepl f).trip = s.trip ∧ (s.modRepl f).evt = s.evt ∧ (s.modRepl f).nv = s.nv ∧
    (s.modRepl f).sealPg = s.sealPg ∧ (s.modRepl f).inc = s.inc ∧ (s.modRepl f).mem = s.mem ∧ (s.modRepl f).ecc = s.ecc ∧
    (s.modRepl f).lck = s.lck ∧ (s.modRepl f).acc = s.acc ∧ (s.modRepl f).cmd = s.cmd ∧ (s.modRepl f).hds = s.hds ∧
    (s.modRepl f).hsb = s.hsb ∧ (s.modRepl f).fio = s.fio ∧ (s.modRepl f).mtr = s.mtr ∧ (s.modRepl f).reng = s.reng ∧
    (s.modRepl f).age = s.age ∧ (s.modRepl f).wdg = s.wdg ∧ (s.modRepl f).lnk = s.lnk ∧ (s.modRepl f).sec = s.sec ∧
    (s.modRepl f).fac = s.fac ∧ (s.modRepl f).hostWr = s.hostWr ∧ (s.modRepl f).free = s.free ∧
    (s.modRepl f).pending = s.pending := by
  and_intros <;> rfl
@[simp] theorem State.modConv_others (s : State) (c : ConvN) (f : Conv → Conv) :
    (s.modConv c f).g = s.g ∧ (s.modConv c f).time = s.time ∧ (s.modConv c f).sup = s.sup ∧ (s.modConv c f).key = s.key ∧
    (s.modConv c f).stg = s.stg ∧ (s.modConv c f).take = s.take ∧ (s.modConv c f).run = s.run ∧
    (s.modConv c f).cfg = s.cfg ∧ (s.modConv c f).prev = s.prev ∧ (s.modConv c f).jur = s.jur ∧
    (s.modConv c f).cyc = s.cyc ∧ (s.modConv c f).rails = s.rails ∧ (s.modConv c f).railReqs = s.railReqs ∧
    (s.modConv c f).marginReqs = s.marginReqs ∧ (s.modConv c f).answers = s.answers ∧ (s.modConv c f).planner = s.planner ∧
    (s.modConv c f).seq = s.seq ∧ (s.modConv c f).shut = s.shut ∧ (s.modConv c f).motion = s.motion ∧
    (s.modConv c f).touch = s.touch ∧ (s.modConv c f).mrst = s.mrst ∧ (s.modConv c f).trip = s.trip ∧
    (s.modConv c f).evt = s.evt ∧ (s.modConv c f).nv = s.nv ∧ (s.modConv c f).sealPg = s.sealPg ∧
    (s.modConv c f).inc = s.inc ∧ (s.modConv c f).mem = s.mem ∧ (s.modConv c f).ecc = s.ecc ∧ (s.modConv c f).spn = s.spn ∧
    (s.modConv c f).lck = s.lck ∧ (s.modConv c f).acc = s.acc ∧ (s.modConv c f).cmd = s.cmd ∧ (s.modConv c f).hds = s.hds ∧
    (s.modConv c f).hsb = s.hsb ∧ (s.modConv c f).fio = s.fio ∧ (s.modConv c f).mtr = s.mtr ∧
    (s.modConv c f).reng = s.reng ∧ (s.modConv c f).age = s.age ∧ (s.modConv c f).wdg = s.wdg ∧
    (s.modConv c f).lnk = s.lnk ∧ (s.modConv c f).sec = s.sec ∧ (s.modConv c f).fac = s.fac ∧
    (s.modConv c f).hostWr = s.hostWr ∧ (s.modConv c f).free = s.free ∧ (s.modConv c f).pending = s.pending := by
  and_intros <;> rfl
@[simp] theorem State.modGroup_others (s : State) (g : Nat) (f : GroupSt → GroupSt) :
    (s.modGroup g f).g = s.g ∧ (s.modGroup g f).time = s.time ∧ (s.modGroup g f).sup = s.sup ∧
    (s.modGroup g f).key = s.key ∧ (s.modGroup g f).stg = s.stg ∧ (s.modGroup g f).take = s.take ∧
    (s.modGroup g f).run = s.run ∧ (s.modGroup g f).cfg = s.cfg ∧ (s.modGroup g f).prev = s.prev ∧
    (s.modGroup g f).jur = s.jur ∧ (s.modGroup g f).cyc = s.cyc ∧ (s.modGroup g f).rails = s.rails ∧
    (s.modGroup g f).railReqs = s.railReqs ∧ (s.modGroup g f).marginReqs = s.marginReqs ∧
    (s.modGroup g f).answers = s.answers ∧ (s.modGroup g f).planner = s.planner ∧ (s.modGroup g f).shut = s.shut ∧
    (s.modGroup g f).motion = s.motion ∧ (s.modGroup g f).touch = s.touch ∧ (s.modGroup g f).mrst = s.mrst ∧
    (s.modGroup g f).scan = s.scan ∧ (s.modGroup g f).trip = s.trip ∧ (s.modGroup g f).evt = s.evt ∧
    (s.modGroup g f).nv = s.nv ∧ (s.modGroup g f).sealPg = s.sealPg ∧ (s.modGroup g f).inc = s.inc ∧
    (s.modGroup g f).mem = s.mem ∧ (s.modGroup g f).ecc = s.ecc ∧ (s.modGroup g f).spn = s.spn ∧
    (s.modGroup g f).lck = s.lck ∧ (s.modGroup g f).acc = s.acc ∧ (s.modGroup g f).cmd = s.cmd ∧
    (s.modGroup g f).hds = s.hds ∧ (s.modGroup g f).hsb = s.hsb ∧ (s.modGroup g f).fio = s.fio ∧
    (s.modGroup g f).mtr = s.mtr ∧ (s.modGroup g f).reng = s.reng ∧ (s.modGroup g f).age = s.age ∧
    (s.modGroup g f).wdg = s.wdg ∧ (s.modGroup g f).lnk = s.lnk ∧ (s.modGroup g f).sec = s.sec ∧
    (s.modGroup g f).fac = s.fac ∧ (s.modGroup g f).hostWr = s.hostWr ∧ (s.modGroup g f).free = s.free ∧
    (s.modGroup g f).pending = s.pending := by
  and_intros <;> rfl
@[simp] theorem State.modStep_others (s : State) (g k : Nat) (f : StepSt → StepSt) :
    (s.modStep g k f).g = s.g ∧ (s.modStep g k f).time = s.time ∧ (s.modStep g k f).sup = s.sup ∧
    (s.modStep g k f).key = s.key ∧ (s.modStep g k f).stg = s.stg ∧ (s.modStep g k f).take = s.take ∧
    (s.modStep g k f).run = s.run ∧ (s.modStep g k f).cfg = s.cfg ∧ (s.modStep g k f).prev = s.prev ∧
    (s.modStep g k f).jur = s.jur ∧ (s.modStep g k f).cyc = s.cyc ∧ (s.modStep g k f).rails = s.rails ∧
    (s.modStep g k f).railReqs = s.railReqs ∧ (s.modStep g k f).marginReqs = s.marginReqs ∧
    (s.modStep g k f).answers = s.answers ∧ (s.modStep g k f).planner = s.planner ∧ (s.modStep g k f).shut = s.shut ∧
    (s.modStep g k f).motion = s.motion ∧ (s.modStep g k f).touch = s.touch ∧ (s.modStep g k f).mrst = s.mrst ∧
    (s.modStep g k f).scan = s.scan ∧ (s.modStep g k f).trip = s.trip ∧ (s.modStep g k f).evt = s.evt ∧
    (s.modStep g k f).nv = s.nv ∧ (s.modStep g k f).sealPg = s.sealPg ∧ (s.modStep g k f).inc = s.inc ∧
    (s.modStep g k f).mem = s.mem ∧ (s.modStep g k f).ecc = s.ecc ∧ (s.modStep g k f).spn = s.spn ∧
    (s.modStep g k f).lck = s.lck ∧ (s.modStep g k f).acc = s.acc ∧ (s.modStep g k f).cmd = s.cmd ∧
    (s.modStep g k f).hds = s.hds ∧ (s.modStep g k f).hsb = s.hsb ∧ (s.modStep g k f).fio = s.fio ∧
    (s.modStep g k f).mtr = s.mtr ∧ (s.modStep g k f).reng = s.reng ∧ (s.modStep g k f).age = s.age ∧
    (s.modStep g k f).wdg = s.wdg ∧ (s.modStep g k f).lnk = s.lnk ∧ (s.modStep g k f).sec = s.sec ∧
    (s.modStep g k f).fac = s.fac ∧ (s.modStep g k f).hostWr = s.hostWr ∧ (s.modStep g k f).free = s.free ∧
    (s.modStep g k f).pending = s.pending := by
  and_intros <;> rfl
@[simp] theorem State.modHsb_others (s : State) (f : Hsb → Hsb) :
    (s.modHsb f).g = s.g ∧ (s.modHsb f).time = s.time ∧ (s.modHsb f).sup = s.sup ∧ (s.modHsb f).key = s.key ∧
    (s.modHsb f).stg = s.stg ∧ (s.modHsb f).take = s.take ∧ (s.modHsb f).run = s.run ∧ (s.modHsb f).cfg = s.cfg ∧
    (s.modHsb f).prev = s.prev ∧ (s.modHsb f).jur = s.jur ∧ (s.modHsb f).cyc = s.cyc ∧ (s.modHsb f).rails = s.rails ∧
    (s.modHsb f).railReqs = s.railReqs ∧ (s.modHsb f).marginReqs = s.marginReqs ∧ (s.modHsb f).answers = s.answers ∧
    (s.modHsb f).planner = s.planner ∧ (s.modHsb f).seq = s.seq ∧ (s.modHsb f).shut = s.shut ∧
    (s.modHsb f).motion = s.motion ∧ (s.modHsb f).touch = s.touch ∧ (s.modHsb f).mrst = s.mrst ∧
    (s.modHsb f).scan = s.scan ∧ (s.modHsb f).trip = s.trip ∧ (s.modHsb f).evt = s.evt ∧ (s.modHsb f).nv = s.nv ∧
    (s.modHsb f).sealPg = s.sealPg ∧ (s.modHsb f).inc = s.inc ∧ (s.modHsb f).mem = s.mem ∧ (s.modHsb f).ecc = s.ecc ∧
    (s.modHsb f).spn = s.spn ∧ (s.modHsb f).lck = s.lck ∧ (s.modHsb f).acc = s.acc ∧ (s.modHsb f).cmd = s.cmd ∧
    (s.modHsb f).hds = s.hds ∧ (s.modHsb f).fio = s.fio ∧ (s.modHsb f).mtr = s.mtr ∧ (s.modHsb f).reng = s.reng ∧
    (s.modHsb f).age = s.age ∧ (s.modHsb f).wdg = s.wdg ∧ (s.modHsb f).lnk = s.lnk ∧ (s.modHsb f).sec = s.sec ∧
    (s.modHsb f).fac = s.fac ∧ (s.modHsb f).hostWr = s.hostWr ∧ (s.modHsb f).free = s.free ∧
    (s.modHsb f).pending = s.pending := by
  and_intros <;> rfl
@[simp] theorem State.modTouch_others (s : State) (f : Touch → Touch) :
    (s.modTouch f).g = s.g ∧ (s.modTouch f).time = s.time ∧ (s.modTouch f).sup = s.sup ∧ (s.modTouch f).key = s.key ∧
    (s.modTouch f).stg = s.stg ∧ (s.modTouch f).take = s.take ∧ (s.modTouch f).run = s.run ∧ (s.modTouch f).cfg = s.cfg ∧
    (s.modTouch f).prev = s.prev ∧ (s.modTouch f).jur = s.jur ∧ (s.modTouch f).cyc = s.cyc ∧
    (s.modTouch f).rails = s.rails ∧ (s.modTouch f).railReqs = s.railReqs ∧ (s.modTouch f).marginReqs = s.marginReqs ∧
    (s.modTouch f).answers = s.answers ∧ (s.modTouch f).planner = s.planner ∧ (s.modTouch f).seq = s.seq ∧
    (s.modTouch f).shut = s.shut ∧ (s.modTouch f).motion = s.motion ∧ (s.modTouch f).mrst = s.mrst ∧
    (s.modTouch f).scan = s.scan ∧ (s.modTouch f).trip = s.trip ∧ (s.modTouch f).evt = s.evt ∧ (s.modTouch f).nv = s.nv ∧
    (s.modTouch f).sealPg = s.sealPg ∧ (s.modTouch f).inc = s.inc ∧ (s.modTouch f).mem = s.mem ∧
    (s.modTouch f).ecc = s.ecc ∧ (s.modTouch f).spn = s.spn ∧ (s.modTouch f).lck = s.lck ∧ (s.modTouch f).acc = s.acc ∧
    (s.modTouch f).cmd = s.cmd ∧ (s.modTouch f).hds = s.hds ∧ (s.modTouch f).hsb = s.hsb ∧ (s.modTouch f).fio = s.fio ∧
    (s.modTouch f).mtr = s.mtr ∧ (s.modTouch f).reng = s.reng ∧ (s.modTouch f).age = s.age ∧ (s.modTouch f).wdg = s.wdg ∧
    (s.modTouch f).lnk = s.lnk ∧ (s.modTouch f).sec = s.sec ∧ (s.modTouch f).fac = s.fac ∧
    (s.modTouch f).hostWr = s.hostWr ∧ (s.modTouch f).free = s.free ∧ (s.modTouch f).pending = s.pending := by
  and_intros <;> rfl

end Sys2Proof.Machine
end

