-- ==== Sys2Proof/Laws/Ops.lean ====
section
/-!
SUPPORT. What the shared operations can do, said once: an event, a gathered write, a later fault and a juridical entry.
-/
namespace Sys2Proof.Machine
open Sys2Proof
set_option linter.all false

/-- `t` is `s` but for the router, the spindles and the locks. -/
def State.PostedFrom (s t : State) : Prop := ∃ e p l, t = { s with evt := e, spn := p, lck := l }
theorem State.PostedFrom.rfl' (s : State) : s.PostedFrom s := ⟨s.evt, s.spn, s.lck, rfl⟩
theorem State.PostedFrom.trans {s t u : State} (h : s.PostedFrom t) (k : t.PostedFrom u) : s.PostedFrom u := by
  obtain ⟨e, p, l, rfl⟩ := h
  obtain ⟨e', p', l', rfl⟩ := k
  exact ⟨e', p', l', rfl⟩
theorem State.PostedFrom.foldl {α : Type} {f : State → α → State} (hf : ∀ (s : State) x, s.PostedFrom (f s x)) (l : List α) (s : State) :
    s.PostedFrom (l.foldl f s) := by
  induction l generalizing s with
  | nil => exact State.PostedFrom.rfl' s
  | cons x l ih => exact (hf s x).trans (ih _)
theorem State.routed_posted (s : State) (n d : Nat) : s.PostedFrom (s.routed n d) := ⟨_, s.spn, s.lck, rfl⟩
theorem State.modPair_posted (s : State) (l : LPairN) (f : LPair → LPair) : s.PostedFrom (s.modPair l f) := ⟨s.evt, _, s.lck, rfl⟩
theorem State.modProg_posted (s : State) (n : ProgN) (f : ProgSt → ProgSt) : s.PostedFrom (s.modProg n f) := ⟨s.evt, _, s.lck, rfl⟩
theorem State.modSync_posted (s : State) (o : Fin 1024) (f : SyncSt → SyncSt) : s.PostedFrom (s.modSync o f) := ⟨s.evt, s.spn, _, rfl⟩
theorem State.modLckTgt_posted (s : State) (t : TgtN) (f : LckTgt → LckTgt) : s.PostedFrom (s.modLckTgt t f) := ⟨s.evt, s.spn, _, rfl⟩
theorem State.takeUp_posted (s : State) (l : LPairN) (n : ProgN) : s.PostedFrom (s.takeUp l n) :=
  (State.modProg_posted _ _ _).trans (State.modPair_posted _ _ _)
theorem State.startRun_posted (s : State) (n : ProgN) : s.PostedFrom (s.startRun n) := State.modProg_posted _ _ _
theorem State.pick_posted (s : State) (l : LPairN) : s.PostedFrom (s.pick l) := by
  unfold State.pick
  dsimp only
  split
  · exact State.PostedFrom.rfl' s
  · split
    · exact (State.modPair_posted _ _ _).trans (State.takeUp_posted _ _ _)
    · split
      · exact ((State.modPair_posted _ _ _).trans (State.startRun_posted _ _)).trans (State.takeUp_posted _ _ _)
      · split
        · split
          · exact (State.modPair_posted _ _ _).trans (State.takeUp_posted _ _ _)
          · exact State.PostedFrom.rfl' s
        · exact State.PostedFrom.rfl' s
theorem State.wake_posted (s : State) (n : ProgN) (b : Bool) : s.PostedFrom (s.wake n b) := by
  unfold State.wake
  split
  · exact State.PostedFrom.rfl' s
  · exact ((State.modProg_posted _ _ _).trans (State.modPair_posted _ _ _)).trans (State.pick_posted _ _)
theorem State.completeWait_posted (s : State) (out : State → Nat → State) (ho : ∀ (s : State) n, s.PostedFrom (out s n)) (w : Waiter)
    (b : Bool) : s.PostedFrom (s.completeWait out w b) := by
  unfold State.completeWait
  split
  · exact State.wake_posted _ _ _
  · split
    · exact State.PostedFrom.rfl' s
    · exact (State.modLckTgt_posted _ _ _).trans (ho _ _)
theorem State.signalWith_posted (s : State) (out : State → Nat → State) (ho : ∀ (s : State) n, s.PostedFrom (out s n)) (o : Fin 1024) :
    s.PostedFrom (s.signalWith out o) := by
  unfold State.signalWith
  split
  · exact (State.modSync_posted _ _ _).trans (State.completeWait_posted _ _ ho _ _)
  · exact State.modSync_posted _ _ _
theorem State.raiseTo_posted (k : Nat) (s : State) (n d : Nat) : s.PostedFrom (State.raiseTo k s n d) := by
  induction k generalizing s n d with
  | zero => exact State.routed_posted s n d
  | succ k ih =>
    exact (State.routed_posted s n d).trans
      (State.PostedFrom.foldl (fun s o => State.signalWith_posted s _ (fun s n => ih s n 0) o) _ _)
/-- An event changes the router, the spindles and the locks, and nothing else. -/
theorem State.raise_posted (s : State) (n : Nat) (d : Nat) : s.PostedFrom (s.raise n d) := by
  unfold State.raise
  split
  · exact State.raiseTo_posted _ _ _ _
  · exact State.PostedFrom.rfl' s
/-- A signal changes the router, the spindles and the locks, and nothing else. -/
theorem State.signal_posted (s : State) (o : Fin 1024) : s.PostedFrom (s.signal o) :=
  State.signalWith_posted s _ (fun s n => State.raise_posted s n 0) o
@[simp] theorem State.raise_others (s : State) (n : Nat) (d : Nat) :
    (s.raise n d).g = s.g ∧ (s.raise n d).time = s.time ∧ (s.raise n d).sup = s.sup ∧ (s.raise n d).key = s.key ∧
    (s.raise n d).stg = s.stg ∧ (s.raise n d).take = s.take ∧ (s.raise n d).run = s.run ∧ (s.raise n d).cfg = s.cfg ∧
    (s.raise n d).prev = s.prev ∧ (s.raise n d).jur = s.jur ∧ (s.raise n d).cyc = s.cyc ∧ (s.raise n d).rails = s.rails ∧
    (s.raise n d).railReqs = s.railReqs ∧ (s.raise n d).marginReqs = s.marginReqs ∧ (s.raise n d).answers = s.answers ∧
    (s.raise n d).planner = s.planner ∧ (s.raise n d).seq = s.seq ∧ (s.raise n d).shut = s.shut ∧
    (s.raise n d).motion = s.motion ∧ (s.raise n d).touch = s.touch ∧ (s.raise n d).mrst = s.mrst ∧
    (s.raise n d).scan = s.scan ∧ (s.raise n d).trip = s.trip ∧ (s.raise n d).nv = s.nv ∧
    (s.raise n d).sealPg = s.sealPg ∧ (s.raise n d).inc = s.inc ∧ (s.raise n d).mem = s.mem ∧ (s.raise n d).ecc = s.ecc ∧
    (s.raise n d).acc = s.acc ∧ (s.raise n d).cmd = s.cmd ∧ (s.raise n d).hds = s.hds ∧ (s.raise n d).hsb = s.hsb ∧
    (s.raise n d).fio = s.fio ∧ (s.raise n d).mtr = s.mtr ∧ (s.raise n d).reng = s.reng ∧ (s.raise n d).age = s.age ∧
    (s.raise n d).wdg = s.wdg ∧ (s.raise n d).lnk = s.lnk ∧ (s.raise n d).sec = s.sec ∧ (s.raise n d).fac = s.fac ∧
    (s.raise n d).hostWr = s.hostWr ∧ (s.raise n d).free = s.free ∧ (s.raise n d).pending = s.pending := by
  obtain ⟨e, p, l, h⟩ := State.raise_posted s n d
  rw [h]
  and_intros <;> rfl
@[simp] theorem State.signal_others (s : State) (o : Fin 1024) :
    (s.signal o).g = s.g ∧ (s.signal o).time = s.time ∧ (s.signal o).sup = s.sup ∧ (s.signal o).key = s.key ∧
    (s.signal o).stg = s.stg ∧ (s.signal o).take = s.take ∧ (s.signal o).run = s.run ∧ (s.signal o).cfg = s.cfg ∧
    (s.signal o).prev = s.prev ∧ (s.signal o).jur = s.jur ∧ (s.signal o).cyc = s.cyc ∧ (s.signal o).rails = s.rails ∧
    (s.signal o).railReqs = s.railReqs ∧ (s.signal o).marginReqs = s.marginReqs ∧ (s.signal o).answers = s.answers ∧
    (s.signal o).planner = s.planner ∧ (s.signal o).seq = s.seq ∧ (s.signal o).shut = s.shut ∧
    (s.signal o).motion = s.motion ∧ (s.signal o).touch = s.touch ∧ (s.signal o).mrst = s.mrst ∧
    (s.signal o).scan = s.scan ∧ (s.signal o).trip = s.trip ∧ (s.signal o).nv = s.nv ∧ (s.signal o).sealPg = s.sealPg ∧
    (s.signal o).inc = s.inc ∧ (s.signal o).mem = s.mem ∧ (s.signal o).ecc = s.ecc ∧ (s.signal o).acc = s.acc ∧
    (s.signal o).cmd = s.cmd ∧ (s.signal o).hds = s.hds ∧ (s.signal o).hsb = s.hsb ∧ (s.signal o).fio = s.fio ∧
    (s.signal o).mtr = s.mtr ∧ (s.signal o).reng = s.reng ∧ (s.signal o).age = s.age ∧ (s.signal o).wdg = s.wdg ∧
    (s.signal o).lnk = s.lnk ∧ (s.signal o).sec = s.sec ∧ (s.signal o).fac = s.fac ∧ (s.signal o).hostWr = s.hostWr ∧
    (s.signal o).free = s.free ∧ (s.signal o).pending = s.pending := by
  obtain ⟨e, p, l, h⟩ := State.signal_posted s o
  rw [h]
  and_intros <;> rfl
/-- A gathered write changes the store alone, and its content as it says. -/
theorem State.nvWrite_form (s : State) (b : Nat) (f : NvData → NvData) :
    ∃ v, s.nvWrite b f = { s with nv := v } ∧ v.cur = f s.nv.cur := by
  unfold State.nvWrite State.gather State.commitStart
  dsimp only
  repeat' split
  all_goals exact ⟨_, rfl, rfl⟩
@[simp] theorem State.nvWrite_cur (s : State) (b : Nat) (f : NvData → NvData) : (s.nvWrite b f).nv.cur = f s.nv.cur := by
  obtain ⟨v, h, hv⟩ := State.nvWrite_form s b f
  rw [h, ← hv]
@[simp] theorem State.nvWrite_others (s : State) (b : Nat) (f : NvData → NvData) :
    (s.nvWrite b f).g = s.g ∧ (s.nvWrite b f).time = s.time ∧ (s.nvWrite b f).sup = s.sup ∧ (s.nvWrite b f).key = s.key ∧
    (s.nvWrite b f).stg = s.stg ∧ (s.nvWrite b f).take = s.take ∧ (s.nvWrite b f).run = s.run ∧
    (s.nvWrite b f).cfg = s.cfg ∧ (s.nvWrite b f).prev = s.prev ∧ (s.nvWrite b f).jur = s.jur ∧
    (s.nvWrite b f).cyc = s.cyc ∧ (s.nvWrite b f).rails = s.rails ∧ (s.nvWrite b f).railReqs = s.railReqs ∧
    (s.nvWrite b f).marginReqs = s.marginReqs ∧ (s.nvWrite b f).answers = s.answers ∧
    (s.nvWrite b f).planner = s.planner ∧ (s.nvWrite b f).seq = s.seq ∧ (s.nvWrite b f).shut = s.shut ∧
    (s.nvWrite b f).motion = s.motion ∧ (s.nvWrite b f).touch = s.touch ∧ (s.nvWrite b f).mrst = s.mrst ∧
    (s.nvWrite b f).scan = s.scan ∧ (s.nvWrite b f).trip = s.trip ∧ (s.nvWrite b f).evt = s.evt ∧
    (s.nvWrite b f).sealPg = s.sealPg ∧ (s.nvWrite b f).inc = s.inc ∧ (s.nvWrite b f).mem = s.mem ∧
    (s.nvWrite b f).ecc = s.ecc ∧ (s.nvWrite b f).spn = s.spn ∧ (s.nvWrite b f).lck = s.lck ∧
    (s.nvWrite b f).acc = s.acc ∧ (s.nvWrite b f).cmd = s.cmd ∧ (s.nvWrite b f).hds = s.hds ∧
    (s.nvWrite b f).hsb = s.hsb ∧ (s.nvWrite b f).fio = s.fio ∧ (s.nvWrite b f).mtr = s.mtr ∧
    (s.nvWrite b f).reng = s.reng ∧ (s.nvWrite b f).age = s.age ∧ (s.nvWrite b f).wdg = s.wdg ∧
    (s.nvWrite b f).lnk = s.lnk ∧ (s.nvWrite b f).sec = s.sec ∧ (s.nvWrite b f).fac = s.fac ∧
    (s.nvWrite b f).hostWr = s.hostWr ∧ (s.nvWrite b f).free = s.free ∧ (s.nvWrite b f).pending = s.pending := by
  obtain ⟨v, h, hv⟩ := State.nvWrite_form s b f
  rw [h]
  and_intros <;> rfl
@[simp] theorem State.listLfl_others (s : State) (e : Lfl) :
    (s.listLfl e).g = s.g ∧ (s.listLfl e).time = s.time ∧ (s.listLfl e).sup = s.sup ∧ (s.listLfl e).key = s.key ∧
    (s.listLfl e).stg = s.stg ∧ (s.listLfl e).take = s.take ∧ (s.listLfl e).run = s.run ∧ (s.listLfl e).cfg = s.cfg ∧
    (s.listLfl e).prev = s.prev ∧ (s.listLfl e).jur = s.jur ∧ (s.listLfl e).cyc = s.cyc ∧ (s.listLfl e).rails = s.rails ∧
    (s.listLfl e).railReqs = s.railReqs ∧ (s.listLfl e).marginReqs = s.marginReqs ∧ (s.listLfl e).answers = s.answers ∧
    (s.listLfl e).planner = s.planner ∧ (s.listLfl e).seq = s.seq ∧ (s.listLfl e).shut = s.shut ∧
    (s.listLfl e).motion = s.motion ∧ (s.listLfl e).mrst = s.mrst ∧ (s.listLfl e).scan = s.scan ∧
    (s.listLfl e).trip = s.trip ∧ (s.listLfl e).evt = s.evt ∧ (s.listLfl e).sealPg = s.sealPg ∧
    (s.listLfl e).inc = s.inc ∧ (s.listLfl e).mem = s.mem ∧ (s.listLfl e).ecc = s.ecc ∧ (s.listLfl e).spn = s.spn ∧
    (s.listLfl e).lck = s.lck ∧ (s.listLfl e).acc = s.acc ∧ (s.listLfl e).cmd = s.cmd ∧ (s.listLfl e).hds = s.hds ∧
    (s.listLfl e).hsb = s.hsb ∧ (s.listLfl e).fio = s.fio ∧ (s.listLfl e).mtr = s.mtr ∧ (s.listLfl e).reng = s.reng ∧
    (s.listLfl e).age = s.age ∧ (s.listLfl e).wdg = s.wdg ∧ (s.listLfl e).lnk = s.lnk ∧ (s.listLfl e).sec = s.sec ∧
    (s.listLfl e).fac = s.fac ∧ (s.listLfl e).hostWr = s.hostWr ∧ (s.listLfl e).free = s.free ∧
    (s.listLfl e).pending = s.pending := by
  unfold State.listLfl
  simp
@[simp] theorem State.laterFault_others (s : State) (src cls : Option Nat) (name : String) (l : List Nat) :
    (s.laterFault src cls name l).g = s.g ∧ (s.laterFault src cls name l).time = s.time ∧
    (s.laterFault src cls name l).sup = s.sup ∧ (s.laterFault src cls name l).key = s.key ∧
    (s.laterFault src cls name l).stg = s.stg ∧ (s.laterFault src cls name l).take = s.take ∧
    (s.laterFault src cls name l).run = s.run ∧ (s.laterFault src cls name l).cfg = s.cfg ∧
    (s.laterFault src cls name l).prev = s.prev ∧ (s.laterFault src cls name l).jur = s.jur ∧
    (s.laterFault src cls name l).cyc = s.cyc ∧ (s.laterFault src cls name l).rails = s.rails ∧
    (s.laterFault src cls name l).railReqs = s.railReqs ∧ (s.laterFault src cls name l).marginReqs = s.marginReqs ∧
    (s.laterFault src cls name l).answers = s.answers ∧ (s.laterFault src cls name l).planner = s.planner ∧
    (s.laterFault src cls name l).seq = s.seq ∧ (s.laterFault src cls name l).shut = s.shut ∧
    (s.laterFault src cls name l).motion = s.motion ∧ (s.laterFault src cls name l).mrst = s.mrst ∧
    (s.laterFault src cls name l).scan = s.scan ∧ (s.laterFault src cls name l).trip = s.trip ∧
    (s.laterFault src cls name l).evt = s.evt ∧ (s.laterFault src cls name l).sealPg = s.sealPg ∧
    (s.laterFault src cls name l).inc = s.inc ∧ (s.laterFault src cls name l).mem = s.mem ∧
    (s.laterFault src cls name l).ecc = s.ecc ∧ (s.laterFault src cls name l).spn = s.spn ∧
    (s.laterFault src cls name l).lck = s.lck ∧ (s.laterFault src cls name l).acc = s.acc ∧
    (s.laterFault src cls name l).cmd = s.cmd ∧ (s.laterFault src cls name l).hds = s.hds ∧
    (s.laterFault src cls name l).hsb = s.hsb ∧ (s.laterFault src cls name l).fio = s.fio ∧
    (s.laterFault src cls name l).mtr = s.mtr ∧ (s.laterFault src cls name l).reng = s.reng ∧
    (s.laterFault src cls name l).age = s.age ∧ (s.laterFault src cls name l).wdg = s.wdg ∧
    (s.laterFault src cls name l).lnk = s.lnk ∧ (s.laterFault src cls name l).sec = s.sec ∧
    (s.laterFault src cls name l).fac = s.fac ∧ (s.laterFault src cls name l).hostWr = s.hostWr ∧
    (s.laterFault src cls name l).free = s.free ∧ (s.laterFault src cls name l).pending = s.pending := by
  unfold State.laterFault
  dsimp only
  repeat' split
  all_goals simp
@[simp] theorem State.putEntry_others (s : State) (i : Fin 64) (typ : Byte) (p : List Byte) (n : Nat) (m u : DWord) (q : Nat)
    (w : BitVec 16) (b : Bool) :
    (s.putEntry i typ p n m u q w b).g = s.g ∧ (s.putEntry i typ p n m u q w b).time = s.time ∧
    (s.putEntry i typ p n m u q w b).sup = s.sup ∧ (s.putEntry i typ p n m u q w b).key = s.key ∧
    (s.putEntry i typ p n m u q w b).stg = s.stg ∧ (s.putEntry i typ p n m u q w b).take = s.take ∧
    (s.putEntry i typ p n m u q w b).run = s.run ∧ (s.putEntry i typ p n m u q w b).cfg = s.cfg ∧
    (s.putEntry i typ p n m u q w b).prev = s.prev ∧ (s.putEntry i typ p n m u q w b).jur = s.jur ∧
    (s.putEntry i typ p n m u q w b).cyc = s.cyc ∧ (s.putEntry i typ p n m u q w b).rails = s.rails ∧
    (s.putEntry i typ p n m u q w b).railReqs = s.railReqs ∧ (s.putEntry i typ p n m u q w b).marginReqs = s.marginReqs ∧
    (s.putEntry i typ p n m u q w b).answers = s.answers ∧ (s.putEntry i typ p n m u q w b).planner = s.planner ∧
    (s.putEntry i typ p n m u q w b).seq = s.seq ∧ (s.putEntry i typ p n m u q w b).shut = s.shut ∧
    (s.putEntry i typ p n m u q w b).motion = s.motion ∧ (s.putEntry i typ p n m u q w b).touch = s.touch ∧
    (s.putEntry i typ p n m u q w b).mrst = s.mrst ∧ (s.putEntry i typ p n m u q w b).scan = s.scan ∧
    (s.putEntry i typ p n m u q w b).trip = s.trip ∧ (s.putEntry i typ p n m u q w b).evt = s.evt ∧
    (s.putEntry i typ p n m u q w b).sealPg = s.sealPg ∧ (s.putEntry i typ p n m u q w b).inc = s.inc ∧
    (s.putEntry i typ p n m u q w b).mem = s.mem ∧ (s.putEntry i typ p n m u q w b).ecc = s.ecc ∧
    (s.putEntry i typ p n m u q w b).spn = s.spn ∧ (s.putEntry i typ p n m u q w b).lck = s.lck ∧
    (s.putEntry i typ p n m u q w b).acc = s.acc ∧ (s.putEntry i typ p n m u q w b).cmd = s.cmd ∧
    (s.putEntry i typ p n m u q w b).hds = s.hds ∧ (s.putEntry i typ p n m u q w b).hsb = s.hsb ∧
    (s.putEntry i typ p n m u q w b).fio = s.fio ∧ (s.putEntry i typ p n m u q w b).mtr = s.mtr ∧
    (s.putEntry i typ p n m u q w b).age = s.age ∧ (s.putEntry i typ p n m u q w b).wdg = s.wdg ∧
    (s.putEntry i typ p n m u q w b).lnk = s.lnk ∧ (s.putEntry i typ p n m u q w b).sec = s.sec ∧
    (s.putEntry i typ p n m u q w b).fac = s.fac ∧ (s.putEntry i typ p n m u q w b).hostWr = s.hostWr ∧
    (s.putEntry i typ p n m u q w b).free = s.free ∧ (s.putEntry i typ p n m u q w b).pending = s.pending := by
  unfold State.putEntry
  dsimp only
  split <;> simp
@[simp] theorem State.juridical_others (s : State) (name : String) (l : List Nat) (src : Option Nat) :
    (s.juridical name l src).g = s.g ∧ (s.juridical name l src).time = s.time ∧ (s.juridical name l src).sup = s.sup ∧
    (s.juridical name l src).key = s.key ∧ (s.juridical name l src).stg = s.stg ∧ (s.juridical name l src).take = s.take ∧
    (s.juridical name l src).run = s.run ∧ (s.juridical name l src).cfg = s.cfg ∧ (s.juridical name l src).prev = s.prev ∧
    (s.juridical name l src).cyc = s.cyc ∧ (s.juridical name l src).rails = s.rails ∧
    (s.juridical name l src).railReqs = s.railReqs ∧ (s.juridical name l src).marginReqs = s.marginReqs ∧
    (s.juridical name l src).answers = s.answers ∧ (s.juridical name l src).planner = s.planner ∧
    (s.juridical name l src).seq = s.seq ∧ (s.juridical name l src).shut = s.shut ∧
    (s.juridical name l src).motion = s.motion ∧ (s.juridical name l src).mrst = s.mrst ∧
    (s.juridical name l src).scan = s.scan ∧ (s.juridical name l src).trip = s.trip ∧
    (s.juridical name l src).sealPg = s.sealPg ∧ (s.juridical name l src).inc = s.inc ∧
    (s.juridical name l src).mem = s.mem ∧ (s.juridical name l src).ecc = s.ecc ∧ (s.juridical name l src).acc = s.acc ∧
    (s.juridical name l src).cmd = s.cmd ∧ (s.juridical name l src).hds = s.hds ∧ (s.juridical name l src).hsb = s.hsb ∧
    (s.juridical name l src).fio = s.fio ∧ (s.juridical name l src).mtr = s.mtr ∧ (s.juridical name l src).age = s.age ∧
    (s.juridical name l src).wdg = s.wdg ∧ (s.juridical name l src).lnk = s.lnk ∧ (s.juridical name l src).sec = s.sec ∧
    (s.juridical name l src).fac = s.fac ∧ (s.juridical name l src).hostWr = s.hostWr ∧
    (s.juridical name l src).free = s.free ∧ (s.juridical name l src).pending = s.pending := by
  unfold State.juridical State.jurAdmit
  dsimp only
  repeat' split
  all_goals simp
/-- A link noted lost is lost, and no other link's standing changes. -/
theorem State.noteLost_contains (s : State) (src n : Nat) :
    (s.noteLost src).lnk.lost.contains n = (s.lnk.lost.contains n || n == src) := by
  unfold State.noteLost
  split
  · rename_i h
    by_cases e : n = src
    · subst e; rw [h]; rfl
    · simp [e]
  · rw [Bool.eq_iff_iff]; simp [or_comm]
/-- A link found again is lost no longer, and no other link's standing changes. -/
theorem State.linkFound_contains (s : State) (src n : Nat) :
    (s.linkFound src).lnk.lost.contains n = (s.lnk.lost.contains n && n != src) := by
  rw [Bool.eq_iff_iff]; simp [State.linkFound]
/-- A key counts as present when its supply is not shorted and its identity page is whole. -/
theorem KeySt.present_eq_some (k : KeySt) (x : Key) :
    k.present = some x ↔ k.key = some x ∧ x.vkeyShort = false ∧ x.identityOk = true := by
  simp [KeySt.present, Option.filter_eq_some_iff]


end Sys2Proof.Machine
end

