-- ==== Sys2Proof/Tests/Slice0.lean ====
section
/-!
SUPPORT. Small tests: a state and operands that meet the hypotheses of each statement, the ill-formed terms that are refused, and
one step of single commands.
-/
namespace Sys2Proof.Tests
open Sys2Proof Sys2Proof.Machine
set_option linter.all false
set_option maxRecDepth 20000
set_option Elab.async false

/-! ### States of the tests -/

/-- A configuration of the module for tests. -/
def mod0 : CModule := {
  cycleUs := 1000, faultLimit := 8, wakeEn := 0x7F, pfwUsed := true, wakeTimerMin := 0, longPressS := 3, netSpeedRequired := false
  restartWhileMoving := false, touchUsed := true, networkOffAllowed := true, standstillConfirm := 10, probeStep := 1
  marginGuard := 0, probeHoldMs := 10, probeIntervalH := 1, holdMaxS := 60, holdSlew := 1, probingEnabled := true
  holdWhileMoving := true, healthWarn := 0, probesMax := 4, faultClasses := 0xFFFF, syncs := [] }
/-- A state whose module is configured. -/
def cfgSt : State := { State.reset with cfg := { State.reset.cfg with module := some mod0 } }
/-- A key with a valid selector copy A naming bank 0. -/
def key0 : Key := { vkeyShort := false, identity := [], selA := selectorPage 1 false [], selB := [], bank0 := [], bank1 := [] }
/-- A section of a type and instance. -/
def sec0 (typ inst : Nat) : Sec := { typ := typ, inst := inst, fmt := 1, serial := 0, digest := [], recCount := 0, recSize := 0, body := [] }
/-- A rail of a test configuration. -/
def rail0 : CRail := {
  used := true, pushPull := false, pgUsed := true, trimAllowed := true, trimPol := false, probeAllowed := true, warmRestart := false
  ocUsed := false, range := 0, sets := 0, nominal := 1000000, upLo := 900000, upHi := 1100000, warnLo := 920000, warnHi := 1080000
  faultLo := 800000, faultHi := 1200000, imonFs := 0, ocLimit := 0, ocRampLimit := 0, ocCount := 1, pgFilter := 1, rampDelay := 0
  rampSlope := 1, rampTol := 1, pgDelay := 1, drainThresh := 100000, drainTimeout := 10, prebiasMin := 0, trimMin := 0 - 100
  trimMax := 100, trimGain := 1, serial := 0 }
/-- A state in which rail `n` is configured and stands as given. -/
def railSt (n : RailN) (st : ModSt) (r : Rail) : State := { cfgSt with
  g := { st := st }, cfg := { cfgSt.cfg with rail := tset cfgSt.cfg.rail n (some rail0) }, rails := tset State.reset.rails n r }
/-- A key with no valid selector. -/
def key3 : Key := { key0 with selA := [] }
/-- A valid identity sector. -/
def identity0 : List Byte := withCrc (padTo 252 [1])
/-- A key with a valid identity and a valid selector. -/
def key1 : Key := { key0 with identity := identity0 }
/-- A key with a valid identity and no selector. -/
def key2 : Key := { key0 with selA := [], identity := identity0 }
/-- A module in which a take of one part, program 0, is accepted. -/
def takeSt : State := { State.reset with
  g := { st := .run }, stg := { st := .staged, owner := some .host }, key := { key := some key1, selValid := true }, run := [sec0 9 0]
  take := { parts := Vector.replicate 32 { typ := 9, inst := 0 } } }
/-- RUN with `key1` loaded and taken out. -/
def keyInSt : State := { State.reset with g := { st := .run }, key := { wasRead := true, selValid := true, loadedDigest := List.replicate 48 0, loadedSerial := key1.serial } }
/-- RUN with the inactive bank of `key1` under verification. -/
def verifySt : State := { State.reset with g := { st := .run }, stg := { st := .verifying }, key := { key := some key1 } }
def verifyT : State := { verifySt with stg := { verifySt.stg with stagedSerial := serialOf (key1.bank verifySt.target) } }
def verifyU : State := { verifyT with key := verifySt.key.setBank verifySt.target .verified }
/-- What KEY_LOAD_COMPLETE makes of a load state with `key1` before its bank is checked. -/
def keyLoadSt : State := { State.reset with g := { st := .load }, key := (({ ({ key := some key1 } : KeySt) with
  wasRead := true, keySerial := key1.serial, loadedSerial := key1.serial, activeBank := false, selCopy := false, selValid := true
  selGen := 1 } : KeySt).setBank false .active).setBank (!false) (bankSeen (key1.bank !false)) }
/-- Measurements of a re-plan. -/
def replan0 : ReplanIn := { factors := List.replicate 13 4096, offsets := List.replicate 320 (0, 0), kR := List.replicate 8 none, kC := List.replicate 8 none }
/-- CHECK, with or without a finding of the time base that is kept. -/
def checkSt (b : Bool) : State := { cfgSt with
  g := { st := .check }
  nv := { State.reset.nv with cur := { State.reset.nv.cur with tbFinding := b, capUf := 100000 } } }
/-- The states on the way from CHECK to SEQUENCE. -/
def checkT : State := ((checkSt true).replanEnd 1 replan0).markFailed ⟨0, [], 0, false⟩
def checkU : State := { checkT with age := { checkT.age with refFail := false } }
def checkV : State := (checkU.parkFailed ⟨0, [], 0, false⟩).fieldCheckEnd
def checkW : State := { checkV with cyc := { checkV.cyc with phase := 3, closeAt := checkV.now, first := true, late := false } }
/-- The state that SELECTOR_WRITE_DONE makes of `takeSt` with a switch under way, before it is noted. -/
def switchSt : State := { takeSt with
  key := { ((takeSt.key.setBank false .verified).setBank true .active) with
    key := some { key1 with selB := selectorPage 1 true [] }, activeBank := true, selCopy := true, selValid := true, selGen := 1 }
  stg := { st := .idle, owner := none, result := 0, switching := false } }
/-- A plan of one group of one step of rail 3. -/
def plan0 : CPlan := { retries := 0, retryPause := 0, groups := [{ after := none, inChain := some 2, outChain := none, domain := none, allowance := 5, inFilter := 0, steps := [{ rails := [3], priorUp := false, hasDelay := false, cascade := false, field := false, flagCond := false, fieldPol := false, flagPol := false, chains := 0, delay := 1, timeout := 5, waitRail := none, point := 0, flag := 0 }] }] }
/-- A running shut-down of group 0 that waits its allowance. -/
def job0 : Shut := { kind := .group, scope := [3], plan := 0, groups := [(0, .allowance)], heldBack := [], unplanned := false }
/-- A sequence of `plan0` in which the only step is eligible. -/
def seqSt (st : ModSt) : State := { cfgSt with
  g := { st := st }, cfg := { cfgSt.cfg with plan := Vector.replicate 8 (some plan0) }
  seq := { casIn := 0xFFFF, groups := Vector.replicate 64 { st := .running, steps := [{ eligible := true }] } } }
/-- A SCAN section whose only entry is rail 3. -/
def scan0 : CScan := { avg := 1, snapInput := 3, lowPower := 0, calIntervalMin := 60, entries := [{ input := 3, winEn := false, currentMode := false, winLo := 0, winHi := 0 }] }
/-- A state in which converter 15 scans rail 3, which is being probed. -/
def scanSt (st : ModSt) : State := { railSt 3 st { st := .up, mg := { mode := .probe, snapping := true } } with
  cfg := { (railSt 3 st { st := .up }).cfg with scan := tset State.reset.cfg.scan 15 (some scan0) } }
/-- A METER section of four LINE_SENSE sets. -/
def meter0 : CMeter := { lossPct := 50, locMaxAge := 0, sets := List.replicate 4 { used := true, lineSense := true, reverse := false, vScale := 1, iScale := 1, vGain := 0, vOffset := 0, iGain := 0, iOffset := 0, iDelay := 0 } }
/-- RUN with a meter of which no set is sampled yet. -/
def meterSt : State := { cfgSt with g := { st := .run, loadOk := true }, cfg := { cfgSt.cfg with meter := some meter0 }, scan := { conv := Vector.replicate 16 { st := .scanning } } }
/-- RUN, scanning with converter 15 over rail 3. -/
def scanRunSt : State := { railSt 3 .run { st := .off } with
  g := { st := .run, loadOk := true }, scan := { conv := Vector.replicate 16 { st := .scanning } }
  cfg := { (railSt 3 .run { st := .off }).cfg with scan := tset State.reset.cfg.scan 15 (some scan0) } }
/-- RUN with every converter in one state. -/
def convSt (c : ConvState) : State := { State.reset with g := { st := .run }, scan := { conv := Vector.replicate 16 { st := c } } }
/-- A common burst, and the state at its end. -/
def burstSt : State := { State.reset with scan := { burst := true } }
def burstEndSt : State := (((List.finRange 16).filter (fun c : ConvN => burstSt.scan.conv[c].burst)).foldl State.reRun { burstSt with scan := { burstSt.scan with
  burst := false, lastBuf := burstSt.scan.cur
  buf := tmod State.reset.scan.buf 0 (fun b => { b with snaps := Vector.ofFn (fun c : Fin 16 => b.snaps[c].fill ((List.replicate 16 ([] : List (Option Int))).getD c.val [])) })
  conv := tmap (fun c : Conv => { c with burst := false }) burstSt.scan.conv } }).raise 22
/-- An alert input that is used in both directions and wakes. -/
def alert0 : CAlert := { filter := 0, used := true, pol := true, rise := true, fall := true, wake := true }
/-- A state with eight such alert inputs. -/
def alertSt (m : ModSt) : State := { State.reset with g := { st := m, loadOk := true }, cfg := { State.reset.cfg with event := some { holdoff := [], alert := List.replicate 8 alert0, route := [] } } }
/-- A configured module whose alert inputs are all unused. -/
def unusedAlertSt : State := { State.reset with g := { st := .run, loadOk := true }, cfg := { State.reset.cfg with event := some { holdoff := [], alert := List.replicate 8 { alert0 with used := false }, route := [] } } }
/-- A data set. -/
def dataSet0 : DataSet := { absence := false, shadow := false, periodSeq := 0, dsSeq := 0, label := 0, startUtc := 0, endUtc := 0, startM := 0, endM := 0, flags := 0, system := 0, sets := 0, poweron := 0, energy := [], lat := 0, lon := 0, locAge := 0, absentSlots := 0, signature := [], streamed := false, opNsEnd := 0 }
/-- A stream record that is used. -/
def stream0 : CStream := { used := true, prot := false, copies := 1, units := 1, retainH := 0, bufMib := 1 }
/-- A user region of one page without protection. -/
def region0 : CRegion := { trace := false, readProt := false, writeProt := false, pages := 1 }
/-- RUN with sixteen such regions. -/
def nvSt : State := { State.reset with g := { st := .run }, nv := { State.reset.nv with st := .idle }, cfg := { State.reset.cfg with security := some { minLen := 8, hostRelease := false, regions := List.replicate 16 region0 } } }
/-- An entry of the later-fault list. -/
def lfl0 : Lfl := { seq := 1, src := none, cls := none, st := .run, poweron := 1, time := 0, utc := 0, cycle := 0, name := "TOUCH_STUCK", detail := [] }
/-- RUN with every program in one state. -/
def progSt (p : PSt) : State := { State.reset with g := { st := .run }, spn := { State.reset.spn with prog := Vector.replicate 256 { st := p } } }
/-- RUN with every physical pair in one state. -/
def physSt (p : PPSt) : State := { State.reset with g := { st := .run }, spn := { State.reset.spn with phys := tmap (fun x => { x with st := p }) State.reset.spn.phys } }
/-- A replay with nothing left. -/
def replay0 : Replay := { rest := [], whole := [] }
/-- RUN in EXECUTE with the bead of program 5 running on every logical pair. -/
def beadSt : State := { State.reset with g := { st := .run }, cyc := { phase := 1 }, spn := { State.reset.spn with
  lpair := tmap (fun x => { x with cur := some 5 }) State.reset.spn.lpair, prog := Vector.replicate 256 { st := .running } } }
/-- A sync object that every host target signals, with a timer. -/
def sync0 : CSync := { used := true, timer := true, external := false, programs := BitVec.allOnes 256, hosts := BitVec.allOnes 64, source := 0, timerUs := 100 }
/-- RUN with sixteen such objects. -/
def syncSt : State := { cfgSt with g := { st := .run }, cfg := { cfgSt.cfg with module := some { mod0 with syncs := List.replicate 16 sync0 } } }
/-- A queue of host domain 3. -/
def queue0 : CQueue := { used := true, prio := 0, dom := some 3, therm := 0, notify := none, est := 0, latency := 0, depth := 4 }
/-- A host domain. -/
def dom0 : CDom := { used := true, therm := 0, alwaysOn := false, maxInflight := 1, wakeUj := 0, idleMs := 1 }
/-- A HEADSTOCK section with one queue. -/
def hds0 : CHds := { upHold := 0, hyst := 0, fanSrc := 0, fanPoint := 0, lineMeter := false, battTimeout := 1, depth := 0, pairMw := 0, urgent := none, lookahead := 0, levels := [], therms := [], doms := List.replicate 16 dom0, queues := [(7, queue0)] }
/-- RUN with such a headstock and every queue enabled. -/
def hdsSt : State := { cfgSt with g := { st := .run }, cfg := { cfgSt.cfg with hds := some hds0 }, hds := { queue := Vector.replicate 4096 { enable := true } } }
/-- `hdsSt` with its supply, line and fans judged. -/
def hdsT : State := ({ hdsSt with hds := { hdsSt.hds with supplyOk := hdsSt.supplyCounts, line := hdsSt.lineCounts, fans := hdsSt.fansRun } }).sampleLoad
def hdsU : State := hdsT.judgeLevel (hdsT.targetLevel hdsT.pMeas 7 0) (hdsT.targetLevel hdsT.pMeas 7 hds0.hyst) hds0.upHold
/-- A queued item. -/
def item0 : Item := { index := 3, arg := 0, pushed := 0 }
/-- A LINKS section with every link and the tailstock enabled. -/
def links0 : CLinks := { linkEn := 0xFF, storageEn := 0xFF, netEn := 0xF, wakeEn := 0xF, ptpEn := 0xF, ptpDomain := 0, roles := 0, prefix_ := 0, addrs := [], speedComId := 1, speedOffset := 0, locOffset := 0, locComId := 2, cmdComId := 3, statusComId := 4, edivoAddr := 0, edivoPrefix := 0, edivoTcp := 0, sessionTimeout := 60, hsbEnabled := true, preferPrimary := false, seekMs := 1, mirrorBase := 0, mirrorLen := 0, pairId := 0, syncLead := 2 }
/-- SEQUENCE in a pair's given tailstock state. -/
def hsbSt (h : HsbSt) : State := { cfgSt with g := { st := .sequence, loadOk := true }, cfg := { cfgSt.cfg with links := some links0 }, hsb := { st := h } }
/-- A heartbeat on link 1 of module 7. -/
def beat0 : Heartbeat := { serial := 7, link := 1, pairId := 0, state := 1, mod := 6, epoch := 0, prefer := false, cycle := 0, close := 0, echo := 0, mirrorOk := 0, prep := .none, relinquish := false, crcOk := true }
/-- A mirror of cycle 0. -/
def mirror0 : Mirror := { cycle := 0, region := [], runSerial := 0, banks := 0, applied := [], periodSeq := 0, label := 0, dsSeq := 0, recMarker := 0, cmds := [], take := none }
/-- A FIELD section of sixteen outputs. -/
def field0 : CField := { used := true, sampleUs := 1, timeoutMs := 1, points := List.replicate 16 { mode := .output, safe := .off, debounceUs := 0 } }
/-- RUN with eight such groups, latched, with or without supply. -/
def fieldSt (b : Bool) : State := { cfgSt with g := { st := .run, loadOk := true }, cfg := { cfgSt.cfg with field := Vector.replicate 8 (some field0) }, fio := { group := Vector.replicate 8 { supplyOk := b, latched := true, everOk := true }, point := Vector.replicate 128 { timerAt := some 0 }, outputsOff := false } }
/-- RUN with 64 streams that are used, enabled, and have a descriptor waiting. -/
def recSt : State := { cfgSt with g := { st := .run, loadOk := true }, cfg := { cfgSt.cfg with record := some (List.replicate 64 { stream0 with units := 0xFF }) }, reng := { State.reset.reng with stream := Vector.replicate 64 { enable := true, tail := 1 } } }
/-- A record of stream 0. -/
def rec0 : Rec := { seq := 0, stream := 0, mtime := 0, utc := 0, utcQual := 0, shadow := false, rewritten := false, leap := false, poweron := 0, typ := 16, payloadLen := 0, payload := [] }
/-- RUN with data waiting in every stream, and no unit. -/
def recBufSt : State := { recSt with reng := { recSt.reng with stream := Vector.replicate 64 { buf := [{ rcd := rec0, left := 64 }] } } }
/-- RUN with data waiting and an open chunk of stream 63 on unit 7. -/
def recUnitSt : State := { recSt with reng := { recSt.reng with
  unit := tset recSt.reng.unit 7 { st := .inService, capChunks := 4, chunks := [{ stream := 63, copy := 0, open_ := true, first := 0, last := 0, newestUtc := 0, bytes := 0, recs := [] }] }
  stream := Vector.replicate 64 { buf := [{ rcd := rec0, left := 64 }], units := [7] } } }
/-- `recUnitSt` with its chunk ready. -/
def recUnitT : State := (recUnitSt.ensureChunks 63).1
/-- `recUnitT` with its block written. -/
def recUnitU : State := recUnitT.reng.stream[(63 : Fin 64)].units.foldl (fun (s : State) k => s.modUnit k (fun u => { u with chunks := u.chunks.map (fun c => if c.stream = 63 && c.open_ then chunkBlock c (fillBlock 4096 (recUnitT.reng.stream[(63 : Fin 64)].units.foldl (fun b k => b ||| (1#8 <<< k.val)) 0) recUnitT.reng.stream[(63 : Fin 64)].buf).2 else c) })) (recUnitT.modStream 63 (fun x => { x with buf := (fillBlock 4096 (recUnitT.reng.stream[(63 : Fin 64)].units.foldl (fun b k => b ||| (1#8 <<< k.val)) 0) recUnitT.reng.stream[(63 : Fin 64)].buf).1 }))
/-- A read of stream 0 under way, whose record stands on unit 7. -/
def recReadSt : State := { recSt with reng := { recSt.reng with rdState := 1, rdLen := 4096
                                                                unit := tset recSt.reng.unit 7 { st := .inService, chunks := [{ stream := 0, copy := 0, open_ := false, first := 0, last := 0, newestUtc := 0, bytes := 64, recs := [rec0] }] } } }
/-- RUN with every train network port linked. -/
def netSt : State := { cfgSt with g := { st := .run, loadOk := true }, cfg := { cfgSt.cfg with links := some links0 }, lnk := { State.reset.lnk with net := Vector.replicate 4 { link := true } } }
/-- An Announce. -/
def ann0 : Announce := { priority1 := 1, clockClass := 6, accuracy := 0x20, variance := 1, priority2 := 1, identity := 9, utcOffsetValid := true, leap61 := false, leap59 := false }
/-- A history record. -/
def hist0 : HistRec := { kind := 1, mtime := 0, utc := 0, utcQual := 0, opHours := 0, poweron := 0, coreOffset := 0, factor := 0, f60 := 0, dAb := 0, dBc := 0, dCa := 0, cellMv := 0, cap := 0, esr := 0, fullDj := 0, retired := 0, wearPct := 0, trimLimit := 0, estCorr := 0, corr24 := 0, kR := [], kC := [], forecasts := [], rail := 0, health := 0, healths := [] }
/-- RUN with session 3 open at one level. -/
def sessSt (v : SLevel) : State := { cfgSt with g := { st := .run, loadOk := true }, lnk := { State.reset.lnk with sessions := tset State.reset.lnk.sessions 3 (some { level := v }) } }
/-- RUN with a challenge of session 3 for password 33 open. -/
def loginSt : State := { sessSt .view with
  lnk := { State.reset.lnk with sessions := tset State.reset.lnk.sessions 3 (some { level := .view, nonce := some ([], 33, 0) }) }
  sec := { State.reset.sec with wrapKey := true, verifiers := Vector.replicate 35 (some { salt := [], verifier := [] }) }
  nv := { State.reset.nv with st := .idle } }
/-- A program whose first word is given. -/
def prog0 (w : Word) : CProg := { task := false, pair := 7, order := 0, crit := 0, div := 1, phase := 0, init := false, stopOnFault := false, wcetCycle := 1, dataBase := 0, dataLen := 0, locBase := 0, locLen := 0, queue := none, flagOwn := 0, eventOwn := BitVec.allOnes 224, fieldOwn := 0, hostBase := 0, hostLen := 0, beads := [(0, 1), (1, 1)], subs := [(0, 1)], code := [w, 0], digest := [] }
/-- RUN in EXECUTE with that program running on every logical pair, at its first word. -/
def spinSt (w : Word) : State := { beadSt with cfg := { beadSt.cfg with module := some mod0, prog := Vector.replicate 256 (some (prog0 w)) } }

/-- States on the way through an input freeze and a closing tick. -/
def freeze0 : State := { State.reset with g := { st := .sequence } }
def freeze0t : State := ({ freeze0 with cyc := { freeze0.cyc with closeAt := freeze0.now + freeze0.cycleNs } }).replaceAtFreeze
def freeze0u : State := { freeze0t with cyc := { freeze0t.cyc with num := freeze0t.cyc.num + 1, first := decide (freeze0t.cyc.num = 0), freezeAt := freeze0t.now, phase := 1 } }
def freeze3 : State := { State.reset with g := { st := .run }, cyc := { phase := 3 } }
def freeze3t : State := freeze3.nextTick.replaceAtFreeze
def freeze3u : State := { freeze3t with cyc := { freeze3t.cyc with num := freeze3t.cyc.num + 1, first := decide (freeze3t.cyc.num = 0), freezeAt := freeze3t.now, phase := 1 } }
def tickS : State := { State.reset with g := { st := .run }, cyc := { phase := 2 } }
def tickT : State := { tickS with cyc := { tickS.cyc with closeAt := tickS.now } }
def tickU : State := ((List.finRange 256).filter (fun n => tickT.waitsOpen n && (match tickT.cfg.prog[n] with
  | some p => !tickT.pairsLanding.contains p.pair | none => false))).foldl State.waitExpired tickT
def tickV : State := (tickU.cutPairs.foldl State.cutShort tickU).timePairs
/-- A module whose host link is powered. -/
def hostSt : State := { State.reset with g := { st := .run } }
/-- States on the way through a recompute of the level and a dispatch round. -/
def lvlT : State := ({ hostSt with hds := { hostSt.hds with supplyOk := hostSt.supplyCounts, line := hostSt.lineCounts, fans := hostSt.fansRun } }).sampleLoad
def lvlU : State := lvlT.judgeLevel (lvlT.targetLevel lvlT.pMeas 7 0) (lvlT.targetLevel lvlT.pMeas 7 0) 0
def roundT : State := (hdsSt.applyCancels hds0.queues).noteMissed hds0.queues
def roundU : State := roundT.noteDenials (roundT.judgeQueues hds0.queues)
def roundV : State := { roundU with hds := { roundU.hds with reserving := roundU.reservation (roundT.judgeQueues hds0.queues) } }
/-- A headstock whose rail 3 stays up at every level and is measured. -/
def loadSt : State := { hdsSt with
  cfg := { hdsSt.cfg with rail := tset hdsSt.cfg.rail 3 (some { rail0 with sets := 1 })
                          scan := tset hdsSt.cfg.scan 15 (some { scan0 with entries := scan0.entries.map (fun e => { e with input := 0x103 }) }) }
  rails := tset State.reset.rails 3 { st := .up, lastClean := some 1 } }

/-! ### Witnesses of the statements: `test_<statement>_<clause>` -/

theorem test_EmptyQueueIsOneFineTick_1 : ∃ (s : State), s.pending = [] :=
  ⟨State.reset, by decide⟩
theorem test_EmptyQueueIsOneFineTick_2 : ∃ (s : State), s.g.st ≠ .off :=
  ⟨{ State.reset with g := { st := .run } }, by decide⟩
theorem test_EmptyQueueIsOneFineTick_3 : ∃ (s : State), s.g.st = .off :=
  ⟨State.reset, by decide⟩
theorem test_StepKeepsInvariant_1 : ∃ (s t : State), (Safety.Inv s) ∧ (step s = .next t) :=
  ⟨State.reset, State.reset.fineTick, by unfold Safety.Inv; decide, rfl⟩
theorem test_ExecKeepsQueue_1 : ∃ (c : Instr) (s t : State), exec c s = .next t :=
  ⟨.vinAbsenceBegin, State.reset, State.reset.absent, rfl⟩
theorem test_WellFormedCommandsComplete_1 : ∃ (c : Instr) (s : State), c.wellFormed = true :=
  ⟨.vinAbsenceBegin, State.reset, by decide⟩
theorem test_IllFormedCommandsAreRefused_1 : ∃ (c : Instr) (s : State), c.wellFormed = false :=
  ⟨.internalTempMeasure [], State.reset, by decide⟩
theorem test_IllFormedCommandsAreRefused_2 : ∃ (c : Instr) (s : State) (r : Refusal), exec c s = .refused r :=
  ⟨.internalTempMeasure [], State.reset, .illFormed, rfl⟩
theorem test_SupplyCommandsAct_1 : ∃ (s : State), s.g.st = .off :=
  ⟨State.reset, by decide⟩
theorem test_SupplyCommandsAct_2 : ∃ (s : State), s.sup.present = true :=
  ⟨{ State.reset with sup := { State.reset.sup with present := true } }, by decide⟩
theorem test_SupplyCommandsAct_3 : ∃ (s : State), s.sup.present = true :=
  ⟨{ State.reset with sup := { State.reset.sup with present := true } }, by decide⟩
theorem test_SupplyCommandsAct_4 : ∃ (s : State), s.sup.present = false :=
  ⟨State.reset, by decide⟩
theorem test_SupplyCommandsAct_5 : ∃ (s : State), (s.sup.present = false) ∧ (s.g.st ∈ [ModSt.unprovisioned, .sequence, .run, .runDown, .safeHold, .lastGasp]) :=
  ⟨{ State.reset with g := { st := .run } }, by decide⟩
theorem test_SupplyCommandsAct_6 : ∃ (s : State), (s.sup.present = false) ∧ (s.g.st ∈ [ModSt.load, .check] ∨ (s.g.st = .start ∧ s.g.wokeAt ≠ some (s.now / 1000))) :=
  ⟨{ State.reset with g := { st := .check } }, by decide⟩
theorem test_SupplyCommandsAct_7 : ∃ (s : State), (s.sup.present = false) ∧ (s.g.st = .start) ∧ (s.g.wokeAt = some (s.now / 1000)) :=
  ⟨{ State.reset with g := { st := .start, wokeAt := some 0 } }, by decide⟩
theorem test_SupplyCommandsAct_8 : ∃ (s : State), (s.sup.present = false) ∧ (s.g.st = .stabled) :=
  ⟨{ State.reset with g := { st := .stabled } }, by decide⟩
theorem test_SupplyCommandsAct_9 : ∃ (s : State), (s.sup.present = false) ∧ (s.sup.lossDeclared = false) :=
  ⟨State.reset, by decide⟩
theorem test_SupplyCommandsAct_10 : ∃ (s : State), (s.sup.present = false) ∧ (s.sup.lossDeclared = true) :=
  ⟨{ State.reset with sup := { State.reset.sup with lossDeclared := true } }, by decide⟩
theorem test_PfwAndInternalRail_1 : ∃ (s : State) (m : CModule), (s.modCfg = some m) ∧ (m.pfwUsed = true) ∧ (s.sup.pfwPin = false) ∧ (s.g.st ≠ .stabled) :=
  ⟨{ cfgSt with g := { st := .run } }, mod0, by decide⟩
theorem test_PfwAndInternalRail_2 : ∃ (s : State) (m : CModule), (s.modCfg = some m) ∧ (m.pfwUsed = true) ∧ (s.sup.pfwPin = true) ∧ (s.g.st ≠ .stabled) :=
  ⟨{ cfgSt with g := { st := .run }, sup := { pfwPin := true } }, mod0, by decide⟩
theorem test_PfwAndInternalRail_3 : ∃ (s : State) (m : CModule), (s.modCfg = some m) ∧ (m.pfwUsed = true) ∧ (s.sup.pfwPin = true) ∧ (s.sup.pfwAssertedInStabled = true) ∧ (s.g.st = .stabled) :=
  ⟨{ cfgSt with g := { st := .stabled }, sup := { pfwPin := true, pfwAssertedInStabled := true } }, mod0, by decide⟩
theorem test_PfwAndInternalRail_4 : ∃ (s t : State), (s.g.st ≠ .off) ∧ (t = s.startEntry 6 0) :=
  ⟨{ State.reset with g := { st := .run } }, { State.reset with g := { st := .run } }.startEntry 6 0, by decide, rfl⟩
theorem test_InternalTemperature_1 : ∃ (s : State) (a b c d e f t : Int), (s.g.st ≠ .off) ∧ (s.g.st ≠ .stabled) ∧ (t = max a (max b (max c (max d (max e f))))) ∧ (t ≤ 80) :=
  ⟨{ State.reset with g := { st := .run } }, 1, 2, 3, 80, 5, 6, 80, by decide⟩
theorem test_InternalTemperature_2 : ∃ (s : State) (a b c d e f t : Int), (s.g.st ≠ .off) ∧ (s.g.st ≠ .stabled) ∧ (t = max a (max b (max c (max d (max e f))))) ∧ (80 < t) ∧ (t ≤ 85) ∧ (s.g.overtemp = false) :=
  ⟨{ State.reset with g := { st := .run } }, 1, 85, 3, 80, 5, 6, 85, by decide⟩
theorem test_InternalTemperature_3 : ∃ (s : State) (a b c d e f t : Int), (s.g.st ≠ .off) ∧ (s.g.st ≠ .stabled) ∧ (t = max a (max b (max c (max d (max e f))))) ∧ (85 < t) ∧ (t ≤ 95) ∧ (s.g.hot = false) ∧ (s.g.overtemp = false) :=
  ⟨{ State.reset with g := { st := .run } }, 1, 86, 3, 80, 5, 6, 86, by decide⟩
theorem test_InternalTemperature_4 : ∃ (s : State) (a b c d e f t : Int), (s.g.st ≠ .off) ∧ (s.g.st ≠ .stabled) ∧ (t = max a (max b (max c (max d (max e f))))) ∧ (100 < t) ∧ (s.g.hot = true) ∧ (s.g.overtemp = false) :=
  ⟨{ State.reset with g := { st := .run, hot := true } }, 101, 86, 3, 80, 5, 6, 101, by decide⟩
theorem test_InternalTemperature_5 : ∃ (s : State) (a b c d e f t : Int) (hot ov : Bool), (s.g.st ≠ .off) ∧ (s.g.st ≠ .stabled) ∧ (t = max a (max b (max c (max d (max e f))))) ∧ (hot = (decide (85 < t) || (s.g.hot && decide (80 < t)))) ∧ (ov = (decide (100 < t) || (s.g.overtemp && decide (95 < t)))) :=
  ⟨{ State.reset with g := { st := .run } }, 1, 2, 3, 101, 5, 6, 101, true, true, by decide⟩
theorem test_InternalTemperature_6 : ∃ (s : State) (temps : List Int), (s.g.st ∈ [ModSt.off, .stabled]) ∧ (temps.length = 6) :=
  ⟨State.reset, [1, 2, 3, 4, 5, 6], by decide⟩
theorem test_HoldupStoreAndStart_1 : ∃ (v b : Nat) (g : Bool) (s : State), s.g.st = .off :=
  ⟨0, 0, false, State.reset, by decide⟩
theorem test_HoldupStoreAndStart_2 : ∃ (v b : Nat) (g : Bool) (s : State), s.g.st ≠ .off :=
  ⟨0, 0, false, { State.reset with g := { st := .start } }, by decide⟩
theorem test_HoldupStoreAndStart_3 : ∃ (s : State), (s.g.st = .start) ∧ (s.sup.railsGood = true) ∧ (5000 ≤ s.sup.usableMj) ∧ (s.nv.cur.releasing = 0) ∧ (s.hasKey = false) :=
  ⟨{ State.reset with g := { st := .start }, sup := { railsGood := true, usableMj := 5000 } }, by decide⟩
theorem test_HoldupStoreAndStart_4 : ∃ (s : State), (s.g.st = .start) ∧ (s.sup.railsGood = true) ∧ (5000 ≤ s.sup.usableMj) ∧ (s.nv.cur.releasing = 0) ∧ (s.hasKey = true) :=
  ⟨{ State.reset with g := { st := .start }, sup := { railsGood := true, usableMj := 5000 }, sec := { State.reset.sec with custKey := List.replicate 97 1, wrapKey := true } }, by decide⟩
theorem test_HoldupStoreAndStart_5 : ∃ (s : State), (s.g.st = .start) ∧ (s.sup.present = true) ∧ (s.sup.usableMj < 5000) ∧ (s.sup.stalled = false) :=
  ⟨{ State.reset with g := { st := .start }, sup := { present := true } }, by decide⟩
theorem test_TimeBaseCheckActs_1 : ∃ (s : State) (p : Int), (s.g.st ≠ .off) ∧ (p.natAbs ≤ 1000) :=
  ⟨{ State.reset with g := { st := .run } }, -1000, by decide⟩
theorem test_TimeBaseCheckActs_2 : ∃ (s : State) (p : Int), (s.g.st ∈ [ModSt.start, .load, .check]) ∧ (1000 < p.natAbs) ∧ (s.time.tbFault = false) :=
  ⟨{ State.reset with g := { st := .load } }, 1001, by decide⟩
theorem test_TimeBaseCheckActs_3 : ∃ (s : State) (p : Int), (s.g.st ∈ [ModSt.sequence, .run, .runDown]) ∧ (1000 < p.natAbs) ∧ (s.time.tbFault = false) :=
  ⟨{ State.reset with g := { st := .run } }, -1001, by decide⟩
theorem test_TimeBaseCheckActs_4 : ∃ (s : State) (p : Int), (s.g.st ∈ [ModSt.stabled, .unprovisioned, .safeHold, .lastGasp]) ∧ (1000 < p.natAbs) ∧ (s.time.tbFault = false) :=
  ⟨{ State.reset with g := { st := .safeHold } }, 1001, by decide⟩
theorem test_LowWordReadsCaptureHighWord_4 : ∃ (s : State) (src : Fin 64) (i : Fin 5), src.val = i.val :=
  ⟨State.reset, 4, 4, by decide⟩
theorem test_LowWordReadsCaptureHighWord_5 : ∃ (s : State) (src : Fin 64) (i : Fin 5), src.val = i.val :=
  ⟨State.reset, 0, 0, by decide⟩
theorem test_LowWordReadsCaptureHighWord_6 : ∃ (s : State) (src : Fin 64) (issued : Bool), 5 ≤ src.val :=
  ⟨State.reset, 5, true, by decide⟩
theorem test_UtcQualityAndLeap_1 : ∃ (s : State), s.time.utcQual = 1 :=
  ⟨{ State.reset with time := { utcQual := 1 } }, by decide⟩
theorem test_UtcQualityAndLeap_2 : ∃ (s : State) (p : Bool), (s.time.utcQual ≠ 0) ∧ (s.lnk.leap = some p) :=
  ⟨{ State.reset with time := { utcQual := 1 }, lnk := { State.reset.lnk with leap := some true } }, true, by decide⟩
theorem test_UtcQualityAndLeap_3 : ∃ (s : State) (p : Bool), s.time.utcQual = 0 ∨ s.lnk.leap ≠ some p :=
  ⟨State.reset, false, by decide⟩
theorem test_UtcQualityAndLeap_4 : ∃ (t : TimeSt), (t.utcQual ≠ 0) ∧ (t.leapLeft = 0) ∧ (t.leapDue = some true) ∧ (86399999999990 ≤ t.utc.toNat % 86400000000000) :=
  ⟨{ utcQual := 1, leapDue := some true, utc := 86399999999990#64 }, by decide⟩
theorem test_UtcQualityAndLeap_5 : ∃ (t : TimeSt), (t.utcQual ≠ 0) ∧ (t.leapLeft = 0) ∧ (t.leapDue = some false) ∧ (86398999999990 ≤ t.utc.toNat % 86400000000000) :=
  ⟨{ utcQual := 2, leapDue := some false, utc := 86398999999990#64 }, by decide⟩
theorem test_UtcQualityAndLeap_6 : ∃ (t : TimeSt), (t.utcQual ≠ 0) ∧ (10 < t.leapLeft) :=
  ⟨{ utcQual := 1, leapLeft := 20 }, by decide⟩
theorem test_UtcQualityAndLeap_7 : ∃ (s u : State), (s.g.st = .stabled) ∧ (s.g.timerMin ≠ 0) ∧ (s.modCfg.isSome = true) ∧ (s.wakeEnabled 6 = true) ∧ (u = s.startEntry 1 6) :=
  ⟨{ cfgSt with g := { st := .stabled, timerMin := 1 } }, { cfgSt with g := { st := .stabled, timerMin := 1 } }.startEntry 1 6, by decide, by decide, by decide, by decide, rfl⟩
theorem test_HostModuleRequests_1 : ∃ (s : State) (off : Bool), s.g.st.cycleRuns = true :=
  ⟨{ State.reset with g := { st := .run } }, true, by decide⟩
theorem test_HostModuleRequests_2 : ∃ (s : State), s.g.st.cycleRuns = false :=
  ⟨{ State.reset with g := { st := .safeHold } }, by decide⟩
theorem test_HostModuleRequests_3 : ∃ (s : State), s.g.st.cycleRuns = false :=
  ⟨{ State.reset with g := { st := .safeHold } }, by decide⟩
theorem test_MotionCommands_1 : ∃ (s : State), (s.g.st ≠ .off) ∧ (s.g.st ≠ .stabled) ∧ (s.motion.standstillIn = true) :=
  ⟨{ State.reset with g := { st := .run }, motion := { standstillIn := true } }, by decide⟩
theorem test_MotionCommands_2 : ∃ (s : State) (a : Bool), (s.g.st ≠ .off) ∧ (s.g.st ≠ .stabled) ∧ (a = true ∨ s.motion.standstillIn = false) :=
  ⟨{ State.reset with g := { st := .run } }, true, by decide⟩
theorem test_MotionCommands_3 : ∃ (s : State), (s.g.st ∉ [ModSt.off, .stabled, .lastGasp]) ∧ (s.judgeMoving = s.motion.moving) ∧ (s.motion.moving = true) :=
  ⟨{ State.reset with g := { st := .run }, motion := { moving := true }, cfg := { module := some mod0 } }, by decide⟩
theorem test_MotionCommands_4 : ∃ (s : State), (s.g.st ∉ [ModSt.off, .stabled, .lastGasp]) ∧ (s.judgeMoving = false) ∧ (s.motion.moving = true) :=
  ⟨{ State.reset with g := { st := .run }, motion := { moving := true, standstillIn := true }, cfg := { module := some mod0 } }, by decide⟩
theorem test_MotionCommands_5 : ∃ (s : State), (s.motion.stillSince.isSome = true) ∧ (s.motion.confirmed = false) ∧ (s.g.st ≠ .runDown) :=
  ⟨{ State.reset with g := { st := .run }, motion := { stillSince := some 0 } }, by decide⟩
theorem test_MotionCommands_6 : ∃ (s : State), (s.shut.kind = 1) ∧ (s.shut.phase = 3) ∧ (s.shut.flushed = false) :=
  ⟨{ State.reset with shut := { kind := 1, phase := 3 } }, by decide⟩
theorem test_KeyPresenceActs_1 : ∃ (s : State) (k : Key), s.g.st = .off :=
  ⟨State.reset, key0, by decide⟩
theorem test_KeyPresenceActs_2 : ∃ (s : State) (k : Key), k.vkeyShort = true ∨ k.identityOk = false :=
  ⟨State.reset, key0, by decide +kernel⟩
theorem test_KeyPresenceActs_3 : ∃ (s t : State) (k : Key), (s.g.st ≠ .off) ∧ (k.vkeyShort = false) ∧ (k.identityOk = true) ∧ (t = { s with key := { s.key with key := some k } }.raise 18 1) ∧ (t.key.differs = true) ∧ (s.key.mismatch = false) :=
  ⟨{ State.reset with g := { st := .run }, key := { loadedDigest := [1] } }, ({ { State.reset with g := { st := .run }, key := { loadedDigest := [1] } } with key := { loadedDigest := [1], key := some key1 } }).raise 18 1, key1, by decide, by decide, by decide +kernel, rfl, by decide +kernel, by decide⟩
theorem test_KeyPresenceActs_4 : ∃ (s t : State) (k : Key), (s.g.st ≠ .off) ∧ (k.vkeyShort = false) ∧ (k.identityOk = true) ∧ (t = { s with key := { s.key with key := some k } }.raise 18 1) ∧ (t.key.differs = false) ∧ (t.key.wasRead = true) ∧ (t.key.selValid = true) ∧ (k.selector.isSome = true) :=
  ⟨keyInSt, ({ keyInSt with key := { keyInSt.key with key := some key1 } }).raise 18 1, key1, by decide, by decide, by decide +kernel, rfl, by decide +kernel, by decide, by decide, by decide +kernel⟩
theorem test_KeyPresenceActs_5 : ∃ (s : State), (s.key.present.isSome = true) ∧ (s.g.st = .off) :=
  ⟨{ State.reset with key := { key := some key1 } }, by decide +kernel, by decide⟩
theorem test_KeyPresenceActs_6 : ∃ (s : State), s.key.present = none :=
  ⟨State.reset, by decide⟩
theorem test_KeyPresenceActs_7 : ∃ (s : State), (s.key.present.isSome = true) ∧ (s.g.st = .load) :=
  ⟨{ State.reset with g := { st := .load }, key := { key := some key1 } }, by decide +kernel, by decide⟩
theorem test_KeyPresenceActs_8 : ∃ (s t : State), (s.key.present.isSome = true) ∧ (s.g.st ≠ .off) ∧ (s.g.st ≠ .load) ∧ (t = { s with key := { s.key with key := none } }.raise 18 0) :=
  ⟨{ State.reset with g := { st := .run }, key := { key := some key1 } }, { State.reset with g := { st := .run } }.raise 18 0, by decide +kernel, by decide, by decide, rfl⟩
theorem test_KeyPresenceActs_9 : ∃ (t : State), (t.stg.st ∈ [StgState.writing, .verifying]) ∧ (t.take.st ≠ .preparing) :=
  ⟨{ State.reset with g := { st := .run }, stg := { st := .verifying } }, by decide⟩
theorem test_KeyLoadEndsLoad_1 : ∃ (s : State), (s.g.st = .load) ∧ (s.key.key = none) :=
  ⟨{ State.reset with g := { st := .load } }, by decide⟩
theorem test_KeyLoadEndsLoad_2 : ∃ (s : State) (k : Key), (s.g.st = .load) ∧ (s.key.key = some k) ∧ ((k.vkeyShort || !k.identityOk) = true) :=
  ⟨{ State.reset with g := { st := .load }, key := { key := some key0 } }, key0, by decide, rfl, by decide +kernel⟩
theorem test_KeyLoadEndsLoad_3 : ∃ (s : State) (k : Key), (s.g.st = .load) ∧ (s.key.present = some k) ∧ (k.selector = none) :=
  ⟨{ State.reset with g := { st := .load }, key := { key := some key2 } }, key2, by decide, by decide +kernel, by decide +kernel⟩
theorem test_KeyLoadEndsLoad_4 : ∃ (s t : State) (k : Key) (sel : Selector) (copyB : Bool), (s.g.st = .load) ∧ (s.key.present = some k) ∧ (k.selector = some (sel, copyB, false)) ∧ (t = { s with key := ({ s.key with wasRead := true, keySerial := k.serial, loadedSerial := k.serial, activeBank := sel.bank, selCopy := copyB, selValid := true, selGen := sel.gen }.setBank sel.bank .active).setBank (!sel.bank) (bankSeen (k.bank !sel.bank)) }) :=
  ⟨{ State.reset with g := { st := .load }, key := { key := some key1 } }, keyLoadSt, key1, ⟨1, false, List.replicate 48 0⟩, false, by decide, by decide +kernel, by decide +kernel, rfl⟩
theorem test_SelftestEndsCheck_1 : ∃ (s t u v w : State) (x : SelfTest) (m : ReplanIn), (m.wellFormed = true) ∧ (s.g.st = .check) ∧ (t = (s.replanEnd 1 m).markFailed x) ∧ (u = { t with age := { t.age with refFail := false } }) ∧ (v = (u.parkFailed x).fieldCheckEnd) ∧ (w = { v with cyc := { v.cyc with phase := 3, closeAt := v.now, first := true, late := false } }) :=
  ⟨checkSt true, checkT, checkU, checkV, checkW, ⟨0, [], 0, false⟩, replan0, by decide, by decide, rfl, rfl, rfl, rfl⟩
theorem test_SelftestEndsCheck_2 : ∃ (s : State) (x : SelfTest) (m : ReplanIn), (m.wellFormed = true) ∧ (s.g.st ≠ .check) :=
  ⟨State.reset, ⟨0, [], 0, false⟩, replan0, by decide⟩
theorem test_StagingCommandsAct_1 : ∃ (s : State) (o : Owner) (d : Bool), s.stageRefusal = none :=
  ⟨{ State.reset with g := { st := .run }, key := { key := some key1 } }, .host, true, by decide +kernel⟩
theorem test_StagingCommandsAct_2 : ∃ (s : State) (o : Owner), s.stageRefusal = none :=
  ⟨{ State.reset with g := { st := .run }, key := { key := some key1 } }, .session 0, by decide +kernel⟩
theorem test_StagingCommandsAct_3 : ∃ (s : State) (o : Owner) (d : Bool) (c : BitVec 8), s.stageRefusal = some c :=
  ⟨State.reset, .host, true, 0x13, by decide⟩
theorem test_StagingCommandsAct_4 : ∃ (s : State) (given image : List Byte), (s.stg.st = .writing) ∧ (s.stg.owner = some .host) ∧ (image = (padTo s.stg.source.2.toNat given).take 31457280) :=
  ⟨{ State.reset with g := { st := .run }, stg := { st := .writing, owner := some .host, source := (0, 1) } }, [1], [1], by decide, by decide, by decide +kernel⟩
theorem test_StagingCommandsAct_5 : ∃ (s : State) (image : List Byte) (n : Fin 4), (s.stg.st = .writing) ∧ (s.stg.owner = some (.session n)) :=
  ⟨{ State.reset with g := { st := .run }, stg := { st := .writing, owner := some (.session 3) } }, [1], 3, by decide⟩
theorem test_StagingCommandsAct_6 : ∃ (s : State), s.stg.st = .writing :=
  ⟨{ State.reset with g := { st := .run }, stg := { st := .writing } }, by decide⟩
theorem test_StagingCommandsAct_7 : ∃ (s t u : State) (k : Key), (s.stg.st = .verifying) ∧ (s.key.present = some k) ∧ (t = { s with stg := { s.stg with stagedSerial := serialOf (k.bank s.target) } }) ∧ (u = { t with key := s.key.setBank s.target .verified }) :=
  ⟨verifySt, verifyT, verifyU, key1, by decide, by decide +kernel, rfl, rfl⟩
theorem test_StagingCommandsAct_8 : ∃ (s : State), (s.stg.st = .verifying) ∧ (s.key.present = none) :=
  ⟨{ State.reset with g := { st := .run }, stg := { st := .verifying } }, by decide⟩
theorem test_StagingCommandsAct_9 : ∃ (s : State) (o : Owner), (s.stg.owner = some o) ∧ (s.stg.st ≠ .idle) ∧ (s.stg.switching = false) :=
  ⟨{ State.reset with g := { st := .run }, stg := { st := .staged, owner := some .host } }, .host, by decide⟩
theorem test_SwitchActivatesStagedBank_1 : ∃ (s : State) (o : Owner), s.switchOk o = true :=
  ⟨takeSt, .host, by decide +kernel⟩
theorem test_SwitchActivatesStagedBank_2 : ∃ (s : State) (o : Owner), s.switchOk o = false :=
  ⟨State.reset, .host, by decide⟩
theorem test_SwitchActivatesStagedBank_3 : ∃ (s t : State) (k : Key), (s.stg.switching = true) ∧ (s.key.present = some k) ∧ (s.key.selValid = true) ∧ (t = { s with key := { ((s.key.setBank s.key.activeBank .verified).setBank s.target .active) with key := some (if s.key.selCopy then { k with selA := selectorPage (s.key.selGen + 1) s.target s.stg.stagedDigest } else { k with selB := selectorPage (s.key.selGen + 1) s.target s.stg.stagedDigest }), activeBank := s.target, selCopy := !s.key.selCopy, selValid := true, selGen := s.key.selGen + 1, loadedDigest := s.stg.stagedDigest, runSerial := s.stg.stagedSerial, pendingRestart := s.key.pendingRestart || s.stg.diffs.any (fun d => restartClass d.typ) }, stg := { s.stg with st := .idle, owner := none, result := 0, switching := false, stagedSecs := [], diffs := [] } }) :=
  ⟨{ takeSt with stg := { st := .staged, owner := some .host, switching := true } }, switchSt, key1, by decide, by decide +kernel, by decide, rfl⟩
theorem test_SwitchActivatesStagedBank_4 : ∃ (s t : State), (s.stg.switching = true) ∧ (s.key.present = none) ∧ (s.stg.st = .staged) ∧ (t = { s with stg := { s.stg with st := .failed, owner := none, result := 0x10, switching := false } }.raise 19) :=
  ⟨{ State.reset with g := { st := .run }, stg := { st := .staged, switching := true } }, { { State.reset with g := { st := .run }, stg := { st := .failed, result := 0x10 } } with g := { st := .run } }.raise 19, by decide, by decide, by decide, rfl⟩
theorem test_TakePreparesASet_1 : ∃ (s : State) (count : BitVec 6), (0 < count.toNat) ∧ (count.toNat ≤ 32) ∧ (s.standby = false) ∧ (s.hsb.st ≠ .primary) ∧ (s.take.st ≠ .preparing) ∧ (s.take.st ≠ .ready) ∧ (s.g.st ∈ [ModSt.sequence, .run]) ∧ (s.stg.st = .staged) ∧ (s.stg.switching = false) ∧ (s.key.present.isSome = true) ∧ (s.key.mismatch = false) ∧ (s.sec.breachSinceStart = false) ∧ ((s.take.parts.toList.take count.toNat).all (fun p => (s.partRefusal p).isNone) = true) :=
  ⟨takeSt, 32, by decide +kernel⟩
theorem test_TakePreparesASet_2 : ∃ (s : State) (count : BitVec 6), (0 < count.toNat) ∧ (count.toNat ≤ 32) ∧ (s.standby = false) ∧ (s.hsb.st ≠ .primary) ∧ (s.take.st ∈ [TakeState.preparing, .ready]) :=
  ⟨{ takeSt with take := { takeSt.take with st := .ready } }, 1, by decide⟩
theorem test_TakePreparesASet_3 : ∃ (s : State), s.take.st = .preparing :=
  ⟨{ State.reset with take := { st := .preparing } }, by decide⟩
theorem test_TakePreparesASet_4 : ∃ (s : State), (s.take.st = .preparing) ∧ (s.take.prepared = []) :=
  ⟨{ State.reset with take := { st := .preparing } }, by decide⟩
theorem test_HostRailCommands_1 : ∃ (s : State) (n : RailN) (code : RailCode), s.g.st.cycleRuns = true :=
  ⟨{ State.reset with g := { st := .run } }, 255, .park, by decide⟩
theorem test_HostRailCommands_2 : ∃ (s : State) (n : RailN) (code : RailCode), (s.g.st = .safeHold) ∧ (s.g.loadOk = true) ∧ (code ∈ [RailCode.park, .unpark, .release]) :=
  ⟨{ State.reset with g := { st := .safeHold, loadOk := true } }, 0, .unpark, by decide⟩
theorem test_HostRailCommands_3 : ∃ (s : State) (n : RailN), s.g.st.cycleRuns = false :=
  ⟨{ State.reset with g := { st := .unprovisioned } }, 7, by decide⟩
theorem test_RailInputsAndDeadlines_1 : ∃ (s : State) (i : Fin 320) (level : Int), s.cmpPowered = false :=
  ⟨State.reset, 319, 0, by decide⟩
theorem test_RailInputsAndDeadlines_2 : ∃ (s : State) (i : Fin 320) (level : Int), s.cmpPowered = true :=
  ⟨{ State.reset with g := { st := .run, loadOk := true } }, 319, 0, by decide⟩
theorem test_RailInputsAndDeadlines_3 : ∃ (s : State) (n : RailN), ((s.rail n).st = .ramp) ∧ ((s.rail n).delayEndAt = none) :=
  ⟨railSt 3 .run { st := .ramp }, 3, by decide⟩
theorem test_RailInputsAndDeadlines_4 : ∃ (s : State) (n : RailN), (s.rail n).judged s.now = .ramp :=
  ⟨railSt 3 .run { st := .ramp }, 3, by decide⟩
theorem test_RailInputsAndDeadlines_6 : ∃ (s : State) (n : RailN), ((s.rail n).judged s.now = .ramp) ∧ ((s.rail n).upSeen = true) ∧ ((s.rail n).pg = false) ∧ (s.pgUsed n = true) :=
  ⟨railSt 3 .run { st := .ramp, upSeen := true }, 3, by decide⟩
theorem test_RailInputsAndDeadlines_7 : ∃ (s : State) (n : RailN), ((s.rail n).judged s.now ∈ [RailSt.up, .margin]) ∧ ((s.rail n).pg = false) ∧ (s.pgUsed n = true) :=
  ⟨railSt 3 .run { st := .up }, 3, by decide⟩
theorem test_RailInputsAndDeadlines_8 : ∃ (s : State) (n : RailN), ((s.rail n).judged s.now = .off) ∧ ((s.rail n).pg = true) ∧ ((s.rail n).drained = true) ∧ ((s.rail n).pgStuck = false) ∧ (s.pgUsed n = true) :=
  ⟨railSt 3 .run { st := .off, pg := true, drained := true }, 3, by decide⟩
theorem test_RailInputsAndDeadlines_9 : ∃ (s : State) (n : RailN), ((s.rail n).discharge = .running) ∧ ((s.rail n).st = .drain ∨ ((s.rail n).st = .fault ∧ (s.rail n).drained = false)) :=
  ⟨railSt 3 .run { st := .drain, discharge := .running }, 3, by decide⟩
theorem test_SequencerEventsAct_1 : ∃ (g : GroupN) (k : Fin 32) (s : State) (x : StepSt), ((s.group g).steps[k.val]? = some x) ∧ (x.eligible = true) ∧ (x.started = false) :=
  ⟨63, 0, seqSt .sequence, { eligible := true }, by decide⟩
theorem test_SequencerEventsAct_2 : ∃ (g : GroupN) (k : Fin 32) (s : State) (p : CPlan) (x : StepSt) (c : CGroup) (y : CStep) (n : RailN), (s.g.st ≠ .run) ∧ (s.heldPlan = some p) ∧ ((s.group g).steps[k.val]? = some x) ∧ (p.groups[g.val]? = some c) ∧ (c.steps[k.val]? = some y) ∧ ((s.group g).st = .running) ∧ (x.eligible = true) ∧ (x.done = false) ∧ ((y.rails.filter (fun n => !(s.rail n).st.isUp && !x.skipped.contains n) ++ y.rails).headD 0 = n) :=
  ⟨0, 0, seqSt .sequence, plan0, { eligible := true }, plan0.groups[0], plan0.groups[0].steps[0], 3, by decide⟩
theorem test_SequencerEventsAct_3 : ∃ (g : GroupN) (k : Fin 32) (s t : State) (p : CPlan) (x : StepSt) (c : CGroup) (y : CStep) (n : RailN), (s.g.st = .run) ∧ (s.heldPlan = some p) ∧ ((s.group g).steps[k.val]? = some x) ∧ (p.groups[g.val]? = some c) ∧ (c.steps[k.val]? = some y) ∧ ((s.group g).st = .running) ∧ (x.eligible = true) ∧ (x.done = false) ∧ (y.rails = [n]) ∧ (t = ({ s with seq := { s.seq with fails := s.seq.fails ++ [(FailReason.stepTimeout, n)] } }).evalFails) ∧ (t.g.st = .run) ∧ ((t.rail n).st = .ramp) :=
  ⟨0, 0, { seqSt .run with rails := tset State.reset.rails 3 { st := .ramp } }, ({ ({ seqSt .run with rails := tset State.reset.rails 3 { st := .ramp } } : State) with seq := { ({ seqSt .run with rails := tset State.reset.rails 3 { st := .ramp } } : State).seq with fails := [(FailReason.stepTimeout, 3)] } } : State).evalFails, plan0, { eligible := true }, plan0.groups[0], plan0.groups[0].steps[0], 3, by decide, by decide, by decide, by decide, by decide, by decide, by decide, by decide, by decide, rfl, by decide, by decide⟩
theorem test_SequencerEventsAct_4 : ∃ (c : ChainN) (s : State), s.g.st.cycleRuns = true :=
  ⟨15, { State.reset with g := { st := .run } }, by decide⟩
theorem test_SequencerEventsAct_5 : ∃ (c : ChainN) (s : State) (p : CPlan) (hit : List (Nat × CGroup)), (s.g.st.cycleRuns = true) ∧ (s.heldPlan = some p) ∧ (s.seq.casIn.getLsbD c.val = true) ∧ (s.seq.st ≠ .retryPause) ∧ (hit = ((List.range p.groups.length).zip p.groups).filter (fun x => x.2.inChain == some c && (match (s.group x.1).st with | .running | .up => true | _ => false))) ∧ (hit ≠ []) :=
  ⟨2, seqSt .run, plan0, [(0, plan0.groups[0])], by decide, rfl, by decide, by decide, by decide, by decide⟩
theorem test_SequencerEventsAct_6 : ∃ (c : ChainN) (s : State) (p : CPlan) (hit : List (Nat × CGroup)), (s.g.st.cycleRuns = true) ∧ (s.heldPlan = some p) ∧ (s.seq.casIn.getLsbD c.val = true) ∧ (s.seq.st = .retryPause) ∧ (hit = ((List.range p.groups.length).zip p.groups).filter (fun x => x.2.inChain == some c && (match (s.group x.1).st with | .running | .up | .idle => true | _ => false))) ∧ (hit ≠ []) :=
  ⟨2, { seqSt .sequence with seq := { (seqSt .sequence).seq with st := .retryPause } }, plan0, [(0, plan0.groups[0])], by decide, rfl, by decide, by decide, by decide, by decide⟩
theorem test_SequencerEventsAct_7 : ∃ (g : GroupN) (s t : State) (j : Shut) (p : CPlan) (c : CGroup) (q : State × GroupProg × Bool), (s.shut.jobs = [j]) ∧ (j.groups.any (fun x => x.1 == g.val && x.2 == .allowance) = true) ∧ (s.cfg.plan[j.plan] = some p) ∧ (p.groups[g.val]? = some c) ∧ (q = s.downFrom j.scope c.steps c.steps.length) ∧ (t = { q.1 with shut := { q.1.shut with jobs := q.1.shut.jobs.map (fun y => if y = j then { j with groups := j.groups.map (fun z => if z.1 = g.val then (z.1, q.2.1) else z) } else y) } }) ∧ (q.2.1 ≠ .finished) ∧ (j.kind ≠ .toStabled) :=
  ⟨0, { (railSt 3 .run { st := .up }) with cfg := { (railSt 3 .run { st := .up }).cfg with plan := Vector.replicate 8 (some plan0) }, shut := { jobs := [job0] } }, { (({ (railSt 3 .run { st := .up }) with cfg := { (railSt 3 .run { st := .up }).cfg with plan := Vector.replicate 8 (some plan0) }, shut := { jobs := [job0] } } : State).downFrom [3] plan0.groups[0].steps 1).1 with shut := { (({ (railSt 3 .run { st := .up }) with cfg := { (railSt 3 .run { st := .up }).cfg with plan := Vector.replicate 8 (some plan0) }, shut := { jobs := [job0] } } : State).downFrom [3] plan0.groups[0].steps 1).1.shut with jobs := (({ (railSt 3 .run { st := .up }) with cfg := { (railSt 3 .run { st := .up }).cfg with plan := Vector.replicate 8 (some plan0) }, shut := { jobs := [job0] } } : State).downFrom [3] plan0.groups[0].steps 1).1.shut.jobs.map (fun y => if y = job0 then { job0 with groups := job0.groups.map (fun z => if z.1 = 0 then (z.1, (({ (railSt 3 .run { st := .up }) with cfg := { (railSt 3 .run { st := .up }).cfg with plan := Vector.replicate 8 (some plan0) }, shut := { jobs := [job0] } } : State).downFrom [3] plan0.groups[0].steps 1).2.1) else z) } else y) } }, job0, plan0, plan0.groups[0], ({ (railSt 3 .run { st := .up }) with cfg := { (railSt 3 .run { st := .up }).cfg with plan := Vector.replicate 8 (some plan0) }, shut := { jobs := [job0] } } : State).downFrom [3] plan0.groups[0].steps 1, rfl, by decide, rfl, rfl, rfl, rfl, by decide, by decide⟩
theorem test_SequencerEventsAct_8 : ∃ (s : State), s.seq.st = .retryPause :=
  ⟨{ State.reset with g := { st := .sequence }, seq := { st := .retryPause } }, by decide⟩
theorem test_SequencerEventsAct_9 : ∃ (s : State), s.g.st.cycleRuns = true :=
  ⟨{ State.reset with g := { st := .run } }, by decide⟩
theorem test_SequencerEventsAct_10 : ∃ (s : State), s.g.st.cycleRuns = false :=
  ⟨{ State.reset with g := { st := .safeHold } }, by decide⟩
theorem test_TouchKeyActs_1 : ∃ (count : Int) (s : State), (s.g.st ≠ .off) ∧ (s.touch.first ≠ 0) :=
  ⟨700, { State.reset with g := { st := .run }, touch := { first := 3 } }, by decide⟩
theorem test_TouchKeyActs_2 : ∃ (count : Int) (s : State), (s.g.st ≠ .off) ∧ (s.touch.first = 0) ∧ (s.touch.st = .idle) ∧ (s.touched count = true) :=
  ⟨70000, { State.reset with g := { st := .run } }, by decide⟩
theorem test_TouchKeyActs_3 : ∃ (s t : State), (s.touch.st = .touched) ∧ (s.touch.forced = false) ∧ (s.g.st ∉ [ModSt.off, .stabled, .lastGasp]) ∧ (t = (s.modTouch (fun t => { t with forced := true })).touchAct 2 "TOUCH_FORCE_OFF") :=
  ⟨{ State.reset with g := { st := .run }, touch := { st := .touched } }, (({ State.reset with g := { st := .run }, touch := { st := .touched } } : State).modTouch (fun t => { t with forced := true })).touchAct 2 "TOUCH_FORCE_OFF", by decide, by decide, by decide, rfl⟩
theorem test_TouchKeyActs_4 : ∃ (s : State), (s.touch.st = .touched) ∧ (s.g.st ≠ .runDown) :=
  ⟨{ State.reset with g := { st := .run }, touch := { st := .touched } }, by decide⟩
theorem test_TouchKeyActs_5 : ∃ (s t : State), (s.touch.st = .touched) ∧ (s.g.st = .runDown) ∧ (s.stabling = false) ∧ (t = (s.modTouch (fun t => { t with st := .waitRelease })).touchAct 3 "TOUCH_RUNDOWN_OFF") ∧ (t.shut.kind ≠ 3) :=
  ⟨{ State.reset with g := { st := .runDown }, touch := { st := .touched } }, (({ State.reset with g := { st := .runDown }, touch := { st := .touched } } : State).modTouch (fun t => { t with st := .waitRelease })).touchAct 3 "TOUCH_RUNDOWN_OFF", by decide, by decide, by decide, rfl, by decide⟩
theorem test_TouchKeyActs_6 : ∃ (s : State), s.touch.st ∈ [TouchState.touched, .waitRelease, .heldAtPowerup] :=
  ⟨{ State.reset with g := { st := .run }, touch := { st := .touched } }, by decide⟩
theorem test_TouchKeyActs_7 : ∃ (s : State), s.touch.st = .heldAtPowerup :=
  ⟨{ State.reset with g := { st := .run }, touch := { st := .heldAtPowerup } }, by decide⟩
theorem test_ManualResetActs_1 : ∃ (s : State), (s.g.st.readsMrst = true) ∧ (s.mrst.st = 0) :=
  ⟨{ State.reset with g := { st := .run } }, by decide⟩
theorem test_ManualResetActs_2 : ∃ (s : State), (s.g.st.readsMrst = true) ∧ (s.mrst.st = 1) ∧ (s.mrst.fired = false) ∧ (20000000 ≤ s.now - 9000 - s.mrst.pressAt) ∧ (s.now - 9000 - s.mrst.pressAt < 8000000000) :=
  ⟨{ State.reset with g := { st := .run }, mrst := { st := 1 }, time := { mtime := 20009000 } }, by decide⟩
theorem test_ManualResetActs_3 : ∃ (s : State), (s.mrst.st = 1) ∧ (s.mrst.fired = false) ∧ (s.g.st.readsMrst = true) :=
  ⟨{ State.reset with g := { st := .run }, mrst := { st := 1 } }, by decide⟩
theorem test_ManualResetActs_4 : ∃ (s : State), s.mrst.st = 1 :=
  ⟨{ State.reset with g := { st := .run }, mrst := { st := 1 } }, by decide⟩
theorem test_ManualResetActs_5 : ∃ (s : State), s.mrst.st = 2 :=
  ⟨{ State.reset with g := { st := .run }, mrst := { st := 2 } }, by decide⟩
theorem test_ManualResetActs_6 : ∃ (s : State), (s.mrst.hostRst = true) ∧ (s.wdg.st ∈ [WdgSt.first, .window]) :=
  ⟨{ State.reset with g := { st := .run }, mrst := { hostRst := true } }, by decide⟩
theorem test_ManualResetActs_7 : ∃ (s : State), (s.mrst.hostRst = true) ∧ (s.wdg.st ∈ [WdgSt.disabled, .stopped]) :=
  ⟨{ State.reset with g := { st := .run }, mrst := { hostRst := true }, wdg := { st := .stopped } }, by decide⟩
theorem test_HostWatchdogActs_1 : ∃ (w : Word) (s : State), (s.wdg.st = .first) ∧ (s.wdg.started = true) :=
  ⟨7#32, { State.reset with g := { st := .run }, wdg := { started := true } }, by decide⟩
theorem test_HostWatchdogActs_2 : ∃ (w : Word) (s : State), s.wdg.st ∈ [WdgSt.disabled, .stopped] ∨ (s.wdg.st = .first ∧ s.wdg.started = false) :=
  ⟨7#32, { State.reset with g := { st := .run } }, by decide⟩
theorem test_HostWatchdogActs_3 : ∃ (w : Word) (s : State), (s.wdg.st = .window) ∧ (s.wdg.since + s.wdgCfg.openMs * 1000000 ≤ s.now) :=
  ⟨7#32, { State.reset with g := { st := .run }, wdg := { st := .window } }, by decide⟩
theorem test_HostWatchdogActs_4 : ∃ (w : Word) (s : State), (s.wdg.st = .window) ∧ (s.now < s.wdg.since + s.wdgCfg.openMs * 1000000) :=
  ⟨7#32, { State.reset with g := { st := .run }, wdg := { st := .window, since := 1 } }, by decide⟩
theorem test_HostWatchdogActs_5 : ∃ (s : State), s.wdg.st = .window :=
  ⟨{ State.reset with g := { st := .run }, wdg := { st := .window } }, by decide⟩
theorem test_HostWatchdogActs_6 : ∃ (s : State), (s.wdg.st = .first) ∧ (s.wdg.started = true) :=
  ⟨{ State.reset with g := { st := .run }, wdg := { started := true } }, by decide⟩
theorem test_HostWatchdogActs_8 : ∃ (s : State) (which : BitVec 2) (t : Ns), (s.wdg.armed = some t) ∧ (s.now ≤ t + 1000000) ∧ (s.nv.cur.wdgLock = false) ∧ (s.wdgMayDisable = true) :=
  ⟨{ State.reset with g := { st := .check }, wdg := { armed := some 0 } }, 3#2, 0, by decide⟩
theorem test_HostWatchdogActs_9 : ∃ (s : State) (which : BitVec 2) (t : Ns), (s.wdg.armed = some t) ∧ (s.now ≤ t + 1000000) ∧ (s.nv.cur.wdgLock = true) :=
  ⟨{ State.reset with wdg := { armed := some 0 }, nv := { State.reset.nv with cur := { State.reset.nv.cur with wdgLock := true } } }, 3#2, 0, by decide⟩
theorem test_HostWatchdogActs_10 : ∃ (s : State) (which : BitVec 2) (t : Ns), (s.wdg.armed = some t) ∧ (s.now ≤ t + 1000000) ∧ (s.nv.cur.wdgLock = false) ∧ (s.wdgMayDisable = false) :=
  ⟨{ State.reset with g := { st := .run }, wdg := { armed := some 0 } }, 1#2, 0, by decide⟩
theorem test_MarginsAndProbesAct_1 : ∃ (n : RailN) (target : BitVec 8) (s : State), s.g.st.cycleRuns = true :=
  ⟨255, 0x80#8, { State.reset with g := { st := .run } }, by decide⟩
theorem test_MarginsAndProbesAct_2 : ∃ (n : RailN) (target : BitVec 8) (s : State), s.g.st.cycleRuns = false :=
  ⟨255, 0x80#8, { State.reset with g := { st := .safeHold } }, by decide⟩
theorem test_MarginsAndProbesAct_3 : ∃ (n : RailN) (s : State), ((s.rail n).mg.mode ∈ [MarginMode.hold, .ret]) ∧ ((s.rail n).mg.code ≠ (s.rail n).mg.target) :=
  ⟨3, railSt 3 .run { st := .up, mg := { mode := .hold, target := 0 - 5 } }, by decide⟩
theorem test_MarginsAndProbesAct_4 : ∃ (n : RailN) (s : State), (s.rail n).mg.mode = .hold :=
  ⟨3, railSt 3 .run { st := .up, mg := { mode := .hold } }, by decide⟩
theorem test_MarginsAndProbesAct_6 : ∃ (n : RailN) (s : State) (src : Src), ((s.rail n).mg.mode = .hold) ∧ ((s.rail n).mg.holder = some src) :=
  ⟨3, railSt 3 .run { st := .up, mg := { mode := .hold, holder := some .host } }, .host, by decide⟩
theorem test_MarginsAndProbesAct_7 : ∃ (n : RailN) (s : State), (s.rail n).mg.mode = .probe :=
  ⟨3, railSt 3 .run { st := .up, mg := { mode := .probe } }, by decide⟩
theorem test_MarginsAndProbesAct_10 : ∃ (n : RailN) (s : State), ((s.rail n).mg.mode = .probe) ∧ ((s.rail n).mg.snapping = true) ∧ ((s.rail n).mg.stepped = false) :=
  ⟨3, railSt 3 .run { st := .up, mg := { mode := .probe, snapping := true } }, by decide⟩
theorem test_MarginsAndProbesAct_11 : ∃ (n : RailN) (s t : State) (samples : List (Option Int)) (cv : ConvN) (b : Snap), (samples.length = 4096) ∧ ((s.rail n).mg.mode = .probe) ∧ ((s.rail n).mg.snapping = true) ∧ (s.homeConv n = some cv) ∧ (b = (s.scan.probeBuf[cv]).fill samples) ∧ (t = s.modRail n (fun r => { r with mg := { r.mg with snapping := false, samples := b.samples } })) :=
  ⟨3, scanSt .run, (scanSt .run).modRail 3 (fun r => { r with mg := { r.mg with snapping := false, samples := (((scanSt .run).scan.probeBuf[15]).fill (List.replicate 4096 none)).samples } }), List.replicate 4096 none, 15, ((scanSt .run).scan.probeBuf[15]).fill (List.replicate 4096 none), List.length_replicate, by decide, by decide, by decide, rfl, rfl⟩
theorem test_MarginsAndProbesAct_12 : ∃ (n : RailN) (s t : State), ((s.rail n).mg.mode = .probe) ∧ ((s.rail n).mg.stepped = true) ∧ ((s.rail n).mg.snapping = false) ∧ (t = (s.endMargin n .probeDone).modRail n (fun r => { r with mg := { r.mg with resultDue := true } })) ∧ (t.planner.requested ≠ some n) :=
  ⟨3, railSt 3 .run { st := .up, mg := { mode := .probe, stepped := true } }, ((railSt 3 .run { st := .up, mg := { mode := .probe, stepped := true } }).endMargin 3 .probeDone).modRail 3 (fun r => { r with mg := { r.mg with resultDue := true } }), by decide, by decide, by decide, rfl, by decide⟩
theorem test_MarginsAndProbesAct_13 : ∃ (n : RailN) (s t : State), ((s.rail n).mg.mode = .probe) ∧ ((s.rail n).mg.stepped = true) ∧ ((s.rail n).mg.snapping = false) ∧ (t = (s.endMargin n .probeDone).modRail n (fun r => { r with mg := { r.mg with resultDue := true } })) ∧ (t.planner.requested = some n) :=
  ⟨3, { railSt 3 .run { st := .up, mg := { mode := .probe, stepped := true } } with planner := { requested := some 3 } }, (({ railSt 3 .run { st := .up, mg := { mode := .probe, stepped := true } } with planner := { requested := some 3 } } : State).endMargin 3 .probeDone).modRail 3 (fun r => { r with mg := { r.mg with resultDue := true } }), by decide, by decide, by decide, rfl, by decide⟩
theorem test_MeterCommandsAct_1 : ∃ (samples : List MeterSample) (wins : List (Option MeterWin)) (s t u : State), (samples.length = 4) ∧ (wins.length = 4) ∧ (s.metering = true) ∧ (t = (if !s.mtr.open_ then s.openPeriod 1 else if !s.mtr.untimed && s.mtr.slotEnd.toNat ≤ s.time.utc.toNat then (s.closePeriod 0).openPeriod 0 else s)) ∧ (u = (List.finRange 4).foldl (fun (s : State) (m : Fin 4) => match s.setCfg m, samples[m.val]? with | some c, some a => (match (wins[m.val]?).getD none with | some w => (s.modSet m (fun x => x.integrate c a)).modSet m (fun x => x.window w (match nominal (s.systemOf m) with | some n => n.2 | none => false)) | none => s.modSet m (fun x => x.integrate c a)) | _, _ => s) t) :=
  ⟨List.replicate 4 { v := 0, i := 0, sat := false }, List.replicate 4 none, meterSt, meterSt.openPeriod 1, meterSt.openPeriod 1, by decide, by decide, by decide, rfl, by rfl⟩
theorem test_MeterCommandsAct_2 : ∃ (levels : List Nat) (s : State) (c : CMeter), (levels.length = 4) ∧ (s.cfg.meter = some c) ∧ (s.judgesLine = true) :=
  ⟨[0, 0, 0, 0], meterSt, meter0, by decide⟩
theorem test_MeterCommandsAct_3 : ∃ (wins : List LineWin) (s t : State) (c : CMeter), (wins.length = 4) ∧ (s.cfg.meter = some c) ∧ (s.judgesLine = true) ∧ (t = s.senseSets.foldl (fun (s : State) (m : Fin 4) => match wins[m.val]? with | some w => s.classify c.lossPct m w | none => s) s) :=
  ⟨List.replicate 4 { freqMin := 0, freqMax := 0, rmsMin := 0, rmsMax := 0, meanMin := 0, meanMax := 0, dc := false, peak := 0 }, meterSt, meterSt, meter0, by decide, by decide, by decide, by rfl⟩
theorem test_MeterCommandsAct_5 : ∃ (s : State) (d : DataSet) (l : List DataSet), (s.mtr.unsigned_ = d :: l) ∧ (s.canSign = true) ∧ (s.nv.cur.dataSets.length < 9216) ∧ ((s.streamCfg 1).isSome = true) :=
  ⟨{ meterSt with mtr := { unsigned_ := [dataSet0] }, sec := { State.reset.sec with meterKey := true, wrapKey := true }, cfg := { meterSt.cfg with record := some (List.replicate 64 stream0) } }, dataSet0, [], by decide⟩
theorem test_MeterCommandsAct_6 : ∃ (ds : Word) (s : State) (d : DataSet), s.nv.cur.dataSets.find? (fun d => d.dsSeq == ds) = some d :=
  ⟨0, { State.reset with nv := { State.reset.nv with cur := { State.reset.nv.cur with dataSets := [dataSet0] } } }, dataSet0, by decide +kernel⟩
theorem test_MeterCommandsAct_7 : ∃ (ds : Word) (s : State), s.nv.cur.dataSets.find? (fun d => d.dsSeq == ds) = none :=
  ⟨7, State.reset, by decide⟩
theorem test_ScanCommandsAct_1 : ∃ (c : ConvN) (x : Int) (s t : State) (k : Slot) (g : ResReg), (s.noSlot c = false) ∧ (s.slotNow c = some k) ∧ (k.own = true) ∧ (g = s.scan.res[resIndex c k.pos].write k.entry x s.scan.conv[c].overPrev false (s.outside k.entry x) (s.ageStamp s.scan.conv[c].lowPower)) ∧ (t = { s with scan := { s.scan with res := tset s.scan.res (resIndex c k.pos) g } }) ∧ (t.winSource k.entry = none) :=
  ⟨15, 100, scanRunSt, { scanRunSt with scan := { scanRunSt.scan with res := tset scanRunSt.scan.res (resIndex 15 0) (scanRunSt.scan.res[resIndex 15 0].write scan0.entries[0] 100 false false (scanRunSt.outside scan0.entries[0] 100) (scanRunSt.ageStamp false)) } }, ⟨true, 0, scan0.entries[0]⟩, scanRunSt.scan.res[resIndex 15 0].write scan0.entries[0] 100 false false (scanRunSt.outside scan0.entries[0] 100) (scanRunSt.ageStamp false), by decide, by decide, by decide, rfl, rfl, by decide⟩
theorem test_ScanCommandsAct_2 : ∃ (c : ConvN) (x : Int) (s : State), s.noSlot c = true :=
  ⟨15, 100, State.reset, by decide⟩
theorem test_ScanCommandsAct_4 : ∃ (c : ConvN) (s : State), (s.scan.conv[c].calDue = true) ∧ (s.scan.conv[c].overdue = false) :=
  ⟨15, { State.reset with scan := { conv := Vector.replicate 16 { calDue := true } } }, by decide⟩
theorem test_ScanCommandsAct_5 : ∃ (c : ConvN) (gain offset : Int) (s t : State), (s.scan.conv[c].st = .calibrating) ∧ (gain.natAbs ≤ 2000) ∧ (offset.natAbs ≤ 256) ∧ (s.age.refDisagree = false) ∧ (t = s.modConv c (fun x => { x with st := .rejoining, joinDue := true, calCount := satInc 65535 x.calCount, overdue := false, calDue := false })) :=
  ⟨15, -2000, 256, convSt .calibrating, (convSt .calibrating).modConv 15 (fun x => { x with st := .rejoining, joinDue := true, calCount := satInc 65535 x.calCount, overdue := false, calDue := false }), by decide, by decide, by decide, by decide, rfl⟩
theorem test_ScanCommandsAct_6 : ∃ (c : ConvN) (gain offset : Int) (agree : Bool) (s : State), (s.scan.conv[c].st = .calibrating) ∧ (2000 < gain.natAbs ∨ 256 < offset.natAbs ∨ agree = false ∨ s.age.refDisagree = true) :=
  ⟨15, -2001, 256, true, convSt .calibrating, by decide⟩
theorem test_ScanCommandsAct_7 : ∃ (c : ConvN) (s : State), (s.g.st.calibrates = true) ∧ (s.scan.conv[c].st = .scanning) ∧ (s.partnerAway c = false) ∧ (s.scan.conv[c].burst = false) :=
  ⟨15, convSt .scanning, by decide⟩
theorem test_ScanCommandsAct_8 : ∃ (c : ConvN) (s : State), (s.g.st.calibrates = true) ∧ (s.scan.conv[c].st = .scanning) ∧ (s.partnerAway c = true) :=
  ⟨15, { convSt .out with scan := { (convSt .out).scan with conv := tset (convSt .out).scan.conv 15 { st := .scanning } } }, by decide⟩
theorem test_ScanCommandsAct_9 : ∃ (c : ConvN) (s : State) (x : ConvState), (s.scan.conv[c].st = .scanning) ∧ (s.scan.conv[partner c].st = .scanning) ∧ (s.scan.conv[c].leaveDue = some x) :=
  ⟨15, { convSt .scanning with scan := { (convSt .scanning).scan with conv := tset (convSt .scanning).scan.conv 15 { st := .scanning, leaveDue := some .out } } }, .out, by decide⟩
theorem test_ScanCommandsAct_10 : ∃ (c : ConvN) (s : State), (s.g.st.calibrates = true) ∧ (s.scan.conv[c].st = .out) :=
  ⟨15, convSt .out, by decide⟩
theorem test_ScanCommandsAct_11 : ∃ (c : ConvN) (s : State), s.g.st.calibrates = false :=
  ⟨15, State.reset, by decide⟩
theorem test_ScanCommandsAct_12 : ∃ (s : State), s.scan.burst = true :=
  ⟨{ State.reset with scan := { burst := true } }, by decide⟩
theorem test_ScanCommandsAct_13 : ∃ (s : State), (s.scan.burst = false) ∧ (s.scanPowered = true) :=
  ⟨{ State.reset with g := { st := .run } }, by decide⟩
theorem test_ScanCommandsAct_14 : ∃ (samples : List (List (Option Int))) (s t : State) (b : Vector SnapBuf 2), (samples.length = 16) ∧ (s.scan.burst = true) ∧ (b = tmod s.scan.buf s.scan.cur (fun b => { b with snaps := Vector.ofFn (fun c : Fin 16 => b.snaps[c].fill (samples.getD c.val [])) })) ∧ (t = (((List.finRange 16).filter (fun c : ConvN => s.scan.conv[c].burst)).foldl State.reRun { s with scan := { s.scan with burst := false, lastBuf := s.scan.cur, buf := b, conv := tmap (fun c : Conv => { c with burst := false }) s.scan.conv } }).raise 22) ∧ (t.inc.st ≠ .capturing) :=
  ⟨List.replicate 16 [], burstSt, burstEndSt, tmod State.reset.scan.buf 0 (fun b => { b with snaps := Vector.ofFn (fun c : Fin 16 => b.snaps[c].fill ((List.replicate 16 ([] : List (Option Int))).getD c.val [])) }), by decide, by decide, rfl, by rfl, by decide⟩
theorem test_ScanCommandsAct_16 : ∃ (levels : List Int) (s t : State), (levels.length = 16) ∧ (s.g.st ≠ .off) ∧ (t = ((((List.finRange 16).zip levels).take 1).foldl (fun (s : State) (p : Fin 16 × Int) => if s.g.st = .off then s else s.sampleOne p.1 p.2) s).s0Effect) :=
  ⟨List.replicate 16 0, { State.reset with g := { st := .safeHold } }, (((((List.finRange 16).zip (List.replicate 16 0)).take 1).foldl (fun (s : State) (p : Fin 16 × Int) => if s.g.st = .off then s else s.sampleOne p.1 p.2) ({ State.reset with g := { st := .safeHold } } : State)).s0Effect), by decide, by decide, rfl⟩
theorem test_EventRouterCommandsAct_1 : ∃ (t : TgtN) (s : State) (n : Nat), s.evt.tgt[t].source = some n :=
  ⟨63, { State.reset with evt := { tgt := Vector.replicate 64 { source := some 719 } } }, 719, by decide⟩
theorem test_EventRouterCommandsAct_2 : ∃ (t : TgtN) (s : State), s.evt.tgt[t].source = none :=
  ⟨63, State.reset, by decide⟩
theorem test_EventRouterCommandsAct_3 : ∃ (t : TgtN) (src : BitVec 10) (s : State), s.evt.tgt[t].source = some src.toNat :=
  ⟨63, 719#10, { State.reset with evt := { tgt := Vector.replicate 64 { source := some 719 } } }, by decide⟩
theorem test_EventRouterCommandsAct_4 : ∃ (t : TgtN) (src : BitVec 10) (s : State), s.evt.tgt[t].source ≠ some src.toNat :=
  ⟨63, 719#10, State.reset, by decide⟩
theorem test_EventRouterCommandsAct_9 : ∃ (i : Fin 8) (high : Bool) (s t : State) (a : CAlert), (s.g.st ≠ .off) ∧ (s.evt.alert[i].level ≠ alertAsserts a high) ∧ (s.judgesAlerts = true) ∧ (s.alertRec i = some a) ∧ (t = (if (if alertAsserts a high then a.rise else a.fall) then (s.modAlert i (fun x => { x with level := alertAsserts a high, raw := high })).raise (352 + i.val) else s.modAlert i (fun x => { x with level := alertAsserts a high, raw := high }))) :=
  ⟨7, true, alertSt .run, ((alertSt .run).modAlert 7 (fun x => { x with level := true, raw := true })).raise 359, alert0, by decide, by decide, by decide, by decide, by rfl⟩
theorem test_EventRouterCommandsAct_10 : ∃ (i : Fin 8) (high : Bool) (s : State), (s.g.st ≠ .off) ∧ (s.alertRec i = none) ∧ (s.alertCfg.isNone = false) :=
  ⟨7, true, unusedAlertSt, by decide⟩
theorem test_EventRouterCommandsAct_11 : ∃ (i : Fin 8) (high : Bool) (s : State) (a : CAlert), (s.g.st = .stabled) ∧ (s.evt.alert[i].raw ≠ high) ∧ (s.alertRec i = some a) ∧ (a.wake = true) :=
  ⟨7, true, alertSt .stabled, alert0, by decide⟩
theorem test_NvStoreCommandsAct_1 : ∃ (s : State), s.nv.gathered ≠ 0 :=
  ⟨{ State.reset with nv := { State.reset.nv with gathered := 1 } }, by decide⟩
theorem test_NvStoreCommandsAct_2 : ∃ (o : Owner) (s : State), s.nv.gathered ≠ 0 :=
  ⟨.session 3, { State.reset with nv := { State.reset.nv with gathered := 1 } }, by decide⟩
theorem test_NvStoreCommandsAct_3 : ∃ (o : Owner) (s : State) (p f : Nat) (m : Fin 16) (r : CRegion), (s.nvBarred = false) ∧ (s.nvAddr o = (p, f, m)) ∧ (s.region m = some r) ∧ (p < r.pages) ∧ (r.readProt = false ∨ s.unlocked o m.castSucc false = true) :=
  ⟨.host, nvSt, 0, 0, 0, region0, by decide⟩
theorem test_NvStoreCommandsAct_4 : ∃ (o : Owner) (s : State) (p f : Nat) (m : Fin 16) (r : CRegion), (s.nvBarred = false) ∧ (s.nvAddr o = (p, f, m)) ∧ (s.region m = some r) ∧ (p < r.pages) ∧ (r.readProt = true) ∧ (s.unlocked o m.castSucc false = false) :=
  ⟨.host, { nvSt with cfg := { nvSt.cfg with security := some { minLen := 8, hostRelease := false, regions := List.replicate 16 { region0 with readProt := true } } } }, 0, 0, 0, { region0 with readProt := true }, by decide⟩
theorem test_NvStoreCommandsAct_5 : ∃ (o : Owner) (len : BitVec 9) (s : State) (p f : Nat) (m : Fin 16) (r : CRegion), (s.g.st.noNvWrite = false) ∧ (s.nvAddr o = (p, f, m)) ∧ (s.region m = some r) ∧ (0 < len.toNat) ∧ (len.toNat ≤ 256) ∧ (p < r.pages) ∧ (f + len.toNat ≤ 256 ∨ p + 1 < r.pages ∨ r.trace = true) ∧ (r.writeProt = false ∨ s.unlocked o m.castSucc true = true) :=
  ⟨.host, 256#9, nvSt, 0, 0, 0, region0, by decide⟩
theorem test_NvStoreCommandsAct_6 : ∃ (o : Owner) (s : State) (r : CRegion), s.region (s.nvAddr o).2.2 = some r :=
  ⟨.host, nvSt, region0, by decide⟩
theorem test_NvStoreCommandsAct_8 : ∃ (o : Owner) (s : State), s.nv.incPage.toNat < 768 :=
  ⟨.host, State.reset, by decide⟩
theorem test_NvStoreCommandsAct_9 : ∃ (o : Owner) (s : State) (e : Lfl), (s.nvBarred = false) ∧ (s.nv.lflSel ≠ 255) ∧ (s.nv.cur.lfl[s.nv.lflSel.toNat]? = some e) :=
  ⟨.host, { State.reset with nv := { State.reset.nv with st := .idle, cur := { State.reset.nv.cur with lfl := [lfl0] } } }, lfl0, by decide⟩
theorem test_NvStoreCommandsAct_10 : ∃ (o : Owner) (scope : BitVec 3) (force : Bool) (n : RailN) (s : State), (s.nvBarred = false) ∧ (s.clearAuth o = true) ∧ (scope = 2 ∨ scope = 3 ∨ (scope = 4 ∧ s.railUsed n = true) ∨ (scope = 1 ∧ s.inc.st = .frozen ∧ s.nv.cur.clears = [] ∧ (s.inc.exported = true ∨ force = true))) :=
  ⟨.host, 2#3, false, 0, { nvSt with nv := { nvSt.nv with unlocks := [⟨.host, 16, true⟩] } }, by decide⟩
theorem test_NvStoreCommandsAct_11 : ∃ (o : Owner) (scope : BitVec 3) (force : Bool) (n : RailN) (s : State), (s.nvBarred = false) ∧ (s.clearAuth o = false) :=
  ⟨.host, 1#3, true, 0, nvSt, by decide⟩
theorem test_NvStoreCommandsAct_12 : ∃ (o : Owner) (scope : BitVec 3) (force : Bool) (n : RailN) (s : State), s.nvBarred = true :=
  ⟨.host, 1#3, true, 0, { State.reset with nv := { State.reset.nv with st := .recovering } }, by decide⟩
theorem test_NvStoreCommandsAct_14 : ∃ (r : ScrubResult) (s : State), (r.retired = 0) ∧ (r.bad = []) ∧ (r.badSys = 0) ∧ (r.badCal = []) ∧ (r.badA = []) ∧ (r.badB = []) :=
  ⟨⟨7, 0, 3, [], [], 0, [], []⟩, State.reset, by decide⟩
theorem test_NvStoreCommandsAct_15 : ∃ (r : ScrubResult) (s : State) (m : Fin 16) (p : Nat) (l : Option (List Byte)), (r.retired ≠ 0) ∧ (r.bad = [(m, p, l)]) ∧ (r.badSys = 0) ∧ (r.badCal = []) ∧ (r.badA = []) ∧ (r.badB = []) :=
  ⟨⟨7, 1, 3, [(0, 0, none)], [], 0, [], []⟩, State.reset, 0, 0, none, by decide⟩
theorem test_CommitAndLastGaspAct_1 : ∃ (s : State) (d : NvData), (s.nv.committing = some d) ∧ ((s.groupDurable d).nv.committing = none) ∧ ((s.groupDurable d).g.st = .lastGasp) ∧ ((s.groupDurable d).g.lgStep = 2) :=
  ⟨{ State.reset with g := { st := .lastGasp, lgStep := 2 }, nv := { State.reset.nv with committing := some {} } }, {}, rfl, rfl, rfl, rfl⟩
theorem test_CommitAndLastGaspAct_2 : ∃ (s : State) (d : NvData), (s.nv.committing = some d) ∧ ((s.groupDurable d).nv.committing = none) ∧ ((s.groupDurable d).g.st = .run) ∧ ((s.groupDurable d).shut.kind ≠ 1) :=
  ⟨{ State.reset with g := { st := .run }, nv := { State.reset.nv with committing := some {} } }, {}, rfl, rfl, rfl, by decide⟩
theorem test_CommitAndLastGaspAct_3 : ∃ (s : State) (d : NvData), (s.nv.committing = some d) ∧ ((s.groupDurable d).nv.committing = none) ∧ ((s.groupDurable d).g.st = .run) ∧ ((s.groupDurable d).shut.kind = 1) ∧ ((s.groupDurable d).shut.phase = 3) ∧ ((s.groupDurable d).shut.flushed = true) :=
  ⟨{ State.reset with g := { st := .run }, nv := { State.reset.nv with committing := some {} }, shut := { kind := 1, phase := 3, flushed := true } }, {}, rfl, rfl, rfl, rfl, rfl, rfl⟩
theorem test_CommitAndLastGaspAct_4 : ∃ (s : State), s.inc.st = .commitA :=
  ⟨{ State.reset with inc := { State.reset.inc with st := .commitA } }, by decide⟩
theorem test_CommitAndLastGaspAct_5 : ∃ (s : State), (s.inc.st = .commitB) ∧ (s.g.st = .run) :=
  ⟨{ State.reset with g := { st := .run }, inc := { State.reset.inc with st := .commitB } }, by decide⟩
theorem test_CommitAndLastGaspAct_6 : ∃ (s : State), s.inc.st = .clearing :=
  ⟨{ State.reset with inc := { State.reset.inc with st := .clearing } }, by decide⟩
theorem test_CommitAndLastGaspAct_7 : ∃ (s : State) (p : Seal), (s.g.st = .lastGasp) ∧ (s.g.lgStep = 3) ∧ (p = { valid := true, time := s.time.mtime, utc := s.utcNow, poweron := s.nv.cur.poweron, flushDone := s.g.lgFlushOk, commitDone := s.g.lgCommitOk, unflushedMib := s.g.lgUnflushed, incState := s.inc.st, pendingInc := s.inc.st.copying, recordNo := s.inc.recordNo, kept := s.nv.sealPending, further := s.nv.sealOverflow, no := s.sealPg.no + 1, history := (List.finRange 256).filterMap (fun n => if s.nv.cur.rail[n].seen = s.nv.durable.rail[n].seen && s.nv.cur.rail[n].count = s.nv.durable.rail[n].count then none else some (n, s.nv.cur.rail[n].seen, s.nv.cur.rail[n].count)) }) :=
  ⟨{ State.reset with g := { st := .lastGasp, lgStep := 3 } }, { valid := true, time := 0, utc := State.reset.utcNow, poweron := 0, flushDone := false, commitDone := false, unflushedMib := 0, incState := State.reset.inc.st, pendingInc := State.reset.inc.st.copying, recordNo := State.reset.inc.recordNo, kept := [], further := 0, no := State.reset.sealPg.no + 1, history := (List.finRange 256).filterMap (fun n => if State.reset.nv.cur.rail[n].seen = State.reset.nv.durable.rail[n].seen && State.reset.nv.cur.rail[n].count = State.reset.nv.durable.rail[n].count then none else some (n, State.reset.nv.cur.rail[n].seen, State.reset.nv.cur.rail[n].count)) }, by decide, by decide, by rfl⟩
theorem test_CommitAndLastGaspAct_8 : ∃ (s : State), (s.g.st = .lastGasp) ∧ (s.g.lgStep = 4) :=
  ⟨{ State.reset with g := { st := .lastGasp, lgStep := 4 } }, by decide⟩
theorem test_CommitAndLastGaspAct_9 : ∃ (s : State), (s.g.st = .lastGasp) ∧ (s.g.lgStep = 1) :=
  ⟨{ State.reset with g := { st := .lastGasp, lgStep := 1 } }, by decide⟩
theorem test_CycleAndProgramsAct_1 : ∃ (s t u : State), (s.g.st.cycleRuns = true) ∧ (s.cyc.phase = 0) ∧ (t = ({ s with cyc := { s.cyc with closeAt := s.now + s.cycleNs } }).replaceAtFreeze) ∧ (u = { t with cyc := { t.cyc with num := t.cyc.num + 1, first := decide (t.cyc.num = 0), freezeAt := t.now, phase := 1 } }) :=
  ⟨freeze0, freeze0t, freeze0u, by decide, by decide, rfl, rfl⟩
theorem test_CycleAndProgramsAct_2 : ∃ (s t u : State), (s.g.st.cycleRuns = true) ∧ (s.cyc.phase = 3) ∧ (t = s.nextTick.replaceAtFreeze) ∧ (u = { t with cyc := { t.cyc with num := t.cyc.num + 1, first := decide (t.cyc.num = 0), freezeAt := t.now, phase := 1 } }) :=
  ⟨freeze3, freeze3t, freeze3u, by decide, by decide, rfl, rfl⟩
theorem test_CycleAndProgramsAct_3 : ∃ (s : State), s.g.st.cycleRuns = false ∨ s.cyc.phase = 1 ∨ s.cyc.phase = 2 :=
  ⟨State.reset, by decide⟩
theorem test_CycleAndProgramsAct_4 : ∃ (s t u v : State), (s.g.st.cycleRuns = true) ∧ (s.cyc.late = false) ∧ (s.cyc.phase = 1 ∨ s.cyc.phase = 2) ∧ (t = { s with cyc := { s.cyc with closeAt := s.now } }) ∧ (u = ((((List.finRange 256).filter (fun n => t.waitsOpen n && (match t.cfg.prog[n] with | some p => !t.pairsLanding.contains p.pair | none => false))).foldl State.waitExpired t))) ∧ (v = (u.cutPairs.foldl State.cutShort u).timePairs) :=
  ⟨tickS, tickT, tickU, tickV, by decide, by decide, by decide, rfl, rfl, rfl⟩
theorem test_CycleAndProgramsAct_5 : ∃ (n : ProgN) (s : State), s.spn.prog[n].st = .stopped :=
  ⟨255, progSt .stopped, by decide⟩
theorem test_CycleAndProgramsAct_6 : ∃ (n : ProgN) (s : State), s.spn.prog[n].st ≠ .stopped :=
  ⟨255, progSt .inactive, by decide⟩
theorem test_CycleAndProgramsAct_7 : ∃ (n : ProgN) (s : State), s.spn.prog[n].st ∉ [PSt.stopped, .absent, .dropped] :=
  ⟨255, progSt .inactive, by decide⟩
theorem test_PhysicalPairCommandsAct_1 : ∃ (q : PPairN) (kind : MKind) (ok : Bool) (s : State), (s.spn.phys[q].st = .active) ∧ (s.g.st.operating = true) :=
  ⟨8, .store, true, physSt .active, by decide⟩
theorem test_PhysicalPairCommandsAct_2 : ∃ (l : LPairN) (s : State) (r : Replay), (s.spn.lpair[l].replay = some r) ∧ (s.spn.lpair[l].cur = none) ∧ (r.diverged = false) ∧ (r.rest = []) :=
  ⟨7, { State.reset with spn := { State.reset.spn with lpair := tmap (fun x => { x with replay := some replay0 }) State.reset.spn.lpair } }, replay0, by decide⟩
theorem test_PhysicalPairCommandsAct_3 : ∃ (l : LPairN) (s : State) (r : Replay), (s.spn.lpair[l].replay = some r) ∧ (s.spn.lpair[l].cur = none) ∧ (r.diverged = true) :=
  ⟨7, { State.reset with spn := { State.reset.spn with lpair := tmap (fun x => { x with replay := some { replay0 with diverged := true } }) State.reset.spn.lpair } }, { replay0 with diverged := true }, by decide⟩
theorem test_PhysicalPairCommandsAct_4 : ∃ (q : PPairN) (s : State), s.spn.phys[q].st = .retired :=
  ⟨8, physSt .retired, by decide⟩
theorem test_PhysicalPairCommandsAct_5 : ∃ (q : PPairN) (s : State), (s.spn.phys[q].st ≠ .retired) ∧ (s.spn.phys[q].st ≠ .selftest) :=
  ⟨8, physSt .active, by decide⟩
theorem test_PhysicalPairCommandsAct_6 : ∃ (q : PPairN) (s : State), (s.motion.moving = false) ∧ (s.spn.phys.toList.any (fun x => decide (x.st = .spare)) = true) ∧ (s.spn.phys[q].st = .active) ∧ (s.spn.phys[q].inject = false) :=
  ⟨7, { physSt .active with motion := { moving := false }, spn := { (physSt .active).spn with phys := tset (physSt .active).spn.phys 8 { (physSt .active).spn.phys[8] with st := .spare } } }, by decide⟩
theorem test_PhysicalPairCommandsAct_7 : ∃ (q : PPairN) (s : State), s.motion.moving = true :=
  ⟨7, State.reset, by decide⟩
theorem test_PhysicalPairCommandsAct_8 : ∃ (q : PPairN) (s : State), (s.spn.phys[q].st = .retired) ∧ (s.g.st.cycleRuns = true) ∧ (s.cyc.phase = 2) :=
  ⟨8, { physSt .retired with cyc := { phase := 2 } }, by decide⟩
theorem test_PhysicalPairCommandsAct_9 : ∃ (q : PPairN) (s : State), (s.spn.phys[q].st = .selftest) ∧ (s.g.st.cycleRuns = true) ∧ (s.cyc.phase = 2) :=
  ⟨8, { physSt .selftest with cyc := { phase := 2 } }, by decide⟩
theorem test_PhysicalPairCommandsAct_10 : ∃ (q : PPairN) (s : State), (s.spn.phys[q].st = .shadowing) ∧ (s.g.st.cycleRuns = true) :=
  ⟨8, physSt .shadowing, by decide⟩
theorem test_PhysicalPairCommandsAct_11 : ∃ (q : PPairN) (s : State), (s.spn.phys[q].st = .spare) ∧ (s.g.st.operating = true) ∧ (s.g.st ≠ .lastGasp) :=
  ⟨8, physSt .spare, by decide⟩
theorem test_PhysicalPairCommandsAct_12 : ∃ (q : PPairN) (s t : State) (l : LPairN) (n : ProgN), (s.spn.phys[q].serves.find? (fun l => s.spn.lpair[l].cur.isSome) = some l) ∧ (s.wdg.spn[q].enabled = true) ∧ (s.spn.phys[q].st = .active) ∧ (s.g.st.cycleRuns = true) ∧ (s.spn.lpair[l].cur = some n) ∧ (t = { s with wdg := { s.wdg with spn := tmod s.wdg.spn q (fun w => { w with expiredSeen := true, expiries := satInc 65535 w.expiries, word := min 65535 s.spn.lpair[l].regs.pc, prog := n.val, bead := s.spn.lpair[l].bead }) } }) :=
  ⟨3, beadSt, { beadSt with wdg := { beadSt.wdg with spn := tmod beadSt.wdg.spn 3 (fun w => { w with expiredSeen := true, expiries := satInc 65535 w.expiries, word := min 65535 beadSt.spn.lpair[(3 : Fin 8)].regs.pc, prog := 5, bead := beadSt.spn.lpair[(3 : Fin 8)].bead }) } }, 3, 5, by decide, by decide, by decide, by decide, by decide, rfl⟩
theorem test_LocksAndSyncsAct_1 : ∃ (t : TgtN) (o : Fin 1024) (s : State) (k : Fin 256), lockOf o = some k :=
  ⟨63, 255, State.reset, 255, by decide⟩
theorem test_LocksAndSyncsAct_2 : ∃ (t : TgtN) (o : Fin 1024) (s : State), 256 ≤ o.val :=
  ⟨63, 256, State.reset, by decide⟩
theorem test_LocksAndSyncsAct_3 : ∃ (t : TgtN) (o : Fin 1024) (s : State) (r : CSync), (s.syncRec o = some r) ∧ (r.hosts.getLsbD t.val = true) :=
  ⟨63, 1, syncSt, sync0, by decide⟩
theorem test_LocksAndSyncsAct_4 : ∃ (t : TgtN) (o : Fin 1024) (s : State), s.syncRec o = none :=
  ⟨63, 1, State.reset, by decide⟩
theorem test_LocksAndSyncsAct_5 : ∃ (t : TgtN) (o : Fin 1024) (i : Fin 32) (p : BitVec 8) (s : State), (s.lck.tgt[t].wait = none) ∧ (0 < s.lck.sync[o].count) :=
  ⟨63, 1, 31, 0, { State.reset with lck := { State.reset.lck with sync := Vector.replicate 1024 { count := 1 } } }, by decide⟩
theorem test_LocksAndSyncsAct_6 : ∃ (t : TgtN) (o : Fin 1024) (i : Fin 32) (p : BitVec 8) (s : State), (s.lck.tgt[t].wait = none) ∧ (s.lck.sync[o].count = 0) :=
  ⟨63, 1, 31, 0, State.reset, by decide⟩
theorem test_LocksAndSyncsAct_7 : ∃ (t : TgtN) (s : State), s.lck.tgt[t].wait.isSome = true :=
  ⟨63, { State.reset with lck := { State.reset.lck with tgt := Vector.replicate 64 { wait := some (1, 0, 0) } } }, by decide⟩
theorem test_LocksAndSyncsAct_9 : ∃ (o : Fin 1024) (s : State) (r : CSync), (s.syncRec o = some r) ∧ (r.timer = true) :=
  ⟨1, syncSt, sync0, by decide⟩
theorem test_HostWritesAct_1 : ∃ (b : Bool) (a : Nat) (l : BitVec 4) (d : Word) (bar : Fin 3) (n : Nat) (w : Bool) (s : State), s.linksPowered = false :=
  ⟨true, 5, 15#4, 0#32, 0, 4, true, State.reset, by decide⟩
theorem test_HostWritesAct_3 : ∃ (b : Bool) (a : Nat) (l : BitVec 4) (d : Word) (s : State), (s.linksPowered = true) ∧ (l ≠ 0#4) ∧ (a % 4 ≠ 0) :=
  ⟨true, 5, 15#4, 0#32, hostSt, by decide⟩
theorem test_HostWritesAct_4 : ∃ (a : Nat) (l : BitVec 4) (d : Word) (s : State), (s.linksPowered = true) ∧ (l ≠ 0#4) ∧ (a % 4 = 0) ∧ (inMailbox a = true) :=
  ⟨0x33FFC, 15#4, 0#32, hostSt, by decide⟩
theorem test_HostWritesAct_5 : ∃ (a : Nat) (l : BitVec 4) (d : Word) (s : State), (s.linksPowered = true) ∧ (l ≠ 0#4) ∧ (a % 4 = 0) ∧ (inMailbox a = false) :=
  ⟨0x3FFFFC, 15#4, 0#32, hostSt, by decide⟩
theorem test_HostWritesAct_6 : ∃ (a : Nat) (l : BitVec 4) (d : Word) (s : State), (s.linksPowered = true) ∧ (l ≠ 0#4) ∧ (a % 4 = 0) ∧ (s.bar0 a = none) :=
  ⟨0x3FFFFC, 15#4, 0#32, hostSt, by decide⟩
theorem test_HostWritesAct_7 : ∃ (a : Nat) (l : BitVec 4) (d w : Word) (s : State), (a % 4 = 0) ∧ (s.bar0 a = some (.ro, w)) :=
  ⟨16, 15#4, 0#32, 257#32, hostSt, by decide⟩
theorem test_HostWritesAct_8 : ∃ (a : Nat) (l : BitVec 4) (d w : Word) (s : State), (s.linksPowered = true) ∧ (l ≠ 0#4) ∧ (l ≠ 15#4) ∧ (a % 4 = 0) ∧ (s.bar0 a = some (.cmd, w)) :=
  ⟨40, 7#4, 0#32, 0#32, hostSt, by decide⟩
theorem test_HostWritesAct_9 : ∃ (a : Nat) (d w : Word) (s : State), (s.linksPowered = true) ∧ (a % 4 = 0) ∧ (s.bar0 a = some (.cmd, w)) :=
  ⟨40, 0#32, 0#32, hostSt, by decide⟩
theorem test_HostWritesAct_10 : ∃ (a : Nat) (l : BitVec 4) (d w : Word) (s : State), (s.linksPowered = true) ∧ (l ≠ 0#4) ∧ (a % 4 = 0) ∧ (s.bar0 a = some (.rw, w)) :=
  ⟨80, 7#4, 0#32, 0#32, hostSt, by decide⟩
theorem test_HostWritesAct_11 : ∃ (bar : Fin 3) (a n : Nat) (w : Bool) (s : State) (c k : Nat), (s.linksPowered = true) ∧ (s.accessCause bar.val a n w = some (c, k)) :=
  ⟨0, 5, 4, true, hostSt, 1, 5, by decide⟩
theorem test_HeadstockCommandsAct_1 : ∃ (p : Nat) (s t u : State), (s.g.st.computes = true) ∧ (t = { s with hds := { s.hds with supplyOk := s.supplyCounts, line := s.lineCounts, fans := s.fansRun } }.sampleLoad) ∧ (t.cfg.hds = none) ∧ (s.cfg.hds = none) ∧ (u = t.judgeLevel (t.targetLevel t.pMeas p 0) (t.targetLevel t.pMeas p 0) 0) ∧ (u.cfg.hds = none) :=
  ⟨7, hostSt, lvlT, lvlU, by decide, rfl, by decide, by decide, rfl, by decide +kernel⟩
theorem test_HeadstockCommandsAct_2 : ∃ (p : Nat) (s t u : State) (h k : CHds), (s.g.st.computes = true) ∧ (s.cfg.hds = some h) ∧ (t = { s with hds := { s.hds with supplyOk := s.supplyCounts, line := s.lineCounts, fans := s.fansRun } }.sampleLoad) ∧ (u = t.judgeLevel (t.targetLevel t.pMeas p 0) (t.targetLevel t.pMeas p h.hyst) h.upHold) ∧ (u.cfg.hds = some k) :=
  ⟨7, hdsSt, hdsT, hdsU, hds0, hds0, by decide, rfl, rfl, rfl, by decide +kernel⟩
theorem test_HeadstockCommandsAct_4 : ∃ (s : State), s.hds.battValid = true :=
  ⟨{ State.reset with hds := { State.reset.hds with battValid := true } }, by decide⟩
theorem test_HeadstockCommandsAct_5 : ∃ (q : QueueN) (w : Word) (s : State) (c : CQueue), (s.queueCfg q = some c) ∧ (s.hds.queue[q].enable = true) :=
  ⟨7, 5#32, hdsSt, queue0, by decide⟩
theorem test_HeadstockCommandsAct_6 : ∃ (q : QueueN) (i : BitVec 16) (a : Bool) (s : State) (c : CQueue) (x : Item), (s.queueCfg q = some c) ∧ (s.hds.queue[q].enable = true) ∧ (c.dom.isSome = true) ∧ (s.hds.queue[q].items.find? (fun x => x.index == i.toNat && decide (x.st ≠ ItemSt.queued)) = some x) :=
  ⟨7, 3#16, true, { hdsSt with hds := { hdsSt.hds with queue := Vector.replicate 4096 { enable := true, items := [{ item0 with st := .dispatched }] } } }, queue0, { item0 with st := .dispatched }, by decide⟩
theorem test_HeadstockCommandsAct_7 : ∃ (q : QueueN) (i : BitVec 16) (s : State), ((s.queueCfg q).isSome = true) ∧ (s.hds.queue[q].enable = true) :=
  ⟨7, 3#16, hdsSt, by decide⟩
theorem test_HeadstockCommandsAct_9 : ∃ (q : QueueN) (est : Word) (s : State) (c : CQueue) (x : Item), (s.queueCfg q = some c) ∧ (s.hds.queue[q].headItem = some x) ∧ (c.dom.isSome = true) ∧ (x.desc = none) :=
  ⟨7, 900#32, { hdsSt with hds := { hdsSt.hds with queue := Vector.replicate 4096 { enable := true, items := [item0] } } }, queue0, item0, by decide⟩
theorem test_HeadstockCommandsAct_10 : ∃ (s : State), (s.cfg.hds = none) ∧ (s.g.st.cycleRuns = true) :=
  ⟨{ State.reset with g := { st := .run } }, by decide⟩
theorem test_HeadstockCommandsAct_11 : ∃ (s : State), s.g.st.cycleRuns = false :=
  ⟨{ State.reset with g := { st := .safeHold } }, by decide⟩
theorem test_HeadstockCommandsAct_12 : ∃ (s t u v : State) (h : CHds), (s.cfg.hds = some h) ∧ (s.g.st.cycleRuns = true) ∧ (t = (s.applyCancels h.queues).noteMissed h.queues) ∧ (u = t.noteDenials (t.judgeQueues h.queues)) ∧ (v = { u with hds := { u.hds with reserving := u.reservation (t.judgeQueues h.queues) } }) :=
  ⟨hdsSt, roundT, roundU, roundV, hds0, rfl, by decide, rfl, rfl, rfl⟩
theorem test_HeadstockCommandsAct_13 : ∃ (d : Fin 16) (s t : State) (k : CDom), (s.domCfg d = some k) ∧ (s.hds.dom[d].st = .on) ∧ (k.alwaysOn = false) ∧ (s.hds.dom[d].inflight = 0) ∧ ((s.domQueues d).any (fun y => s.hds.queue[y.1].enable && (s.hds.queue[y.1].readyItem y.2).isSome) = false) ∧ (s.g.st.cycleRuns = true) ∧ (t = s.modDom d (fun y => { y with st := .reqDown })) :=
  ⟨3, { hdsSt with hds := { hdsSt.hds with dom := Vector.replicate 16 { st := .on } } }, ({ hdsSt with hds := { hdsSt.hds with dom := Vector.replicate 16 { st := .on } } } : State).modDom 3 (fun y => { y with st := .reqDown }), dom0, by decide, by decide, by decide, by decide, by decide, by decide, rfl⟩
theorem test_TailstockCommandsAct_1 : ∃ (k : Fin 2) (b : Heartbeat) (s : State), (s.hsbRuns = true) ∧ (s.tailEn k = true) ∧ (s.noRetrain (716 + k.val) = false) ∧ (b.crcOk = false) :=
  ⟨1, { beat0 with crcOk := false }, hsbSt .primary, by decide⟩
theorem test_TailstockCommandsAct_2 : ∃ (k : Fin 2) (b : Heartbeat) (s t : State), (s.hsbRuns = true) ∧ (s.tailEn k = true) ∧ (s.noRetrain (716 + k.val) = false) ∧ (b.crcOk = true) ∧ (t = s.modHsb (fun h => { h with linkSerial := tset h.linkSerial k b.serial, linkNo := if b.link = 0 then h.linkNo &&& ~~~ (1#2 <<< k.val) else h.linkNo ||| (1#2 <<< k.val) })) :=
  ⟨1, beat0, hsbSt .primary, (hsbSt .primary).modHsb (fun h => { h with linkSerial := tset h.linkSerial 1 7, linkNo := h.linkNo ||| (1#2 <<< 1) }), by decide, by decide, by decide, by decide, rfl⟩
theorem test_TailstockCommandsAct_3 : ∃ (k : Fin 2) (b : Heartbeat) (s : State), s.noRetrain (716 + k.val) = true :=
  ⟨1, beat0, { State.reset with time := { tbFault := true }, lnk := { State.reset.lnk with lost := [717] } }, by decide⟩
theorem test_TailstockCommandsAct_4 : ∃ (s : State), (s.hsbRuns = true) ∧ (s.g.st.cycleRuns = true ∨ s.hsb.st = .seeking) :=
  ⟨hsbSt .seeking, by decide⟩
theorem test_TailstockCommandsAct_5 : ∃ (k : Fin 2) (s : State), s.hsbRuns = true :=
  ⟨1, hsbSt .primary, by decide⟩
theorem test_TailstockCommandsAct_6 : ∃ (s : State), s.hsbRuns = true :=
  ⟨hsbSt .primary, by decide⟩
theorem test_TailstockCommandsAct_7 : ∃ (s : State), (s.hsbRuns = true) ∧ (s.hsb.st = .seeking) ∧ (s.g.st.cycleRuns = true) ∧ (s.hsb.eligible = false) :=
  ⟨hsbSt .seeking, by decide⟩
theorem test_TailstockCommandsAct_8 : ∃ (s : State), (s.hsb.st = .primary) ∧ (s.partnerIn .standbyReady = true) :=
  ⟨{ hsbSt .primary with hsb := { (hsbSt .primary).hsb with eligible := true, partner := some { st := .standbyReady } } }, by decide⟩
theorem test_TailstockCommandsAct_9 : ∃ (s : State), s.hsb.st ≠ .primary :=
  ⟨hsbSt .seeking, by decide⟩
theorem test_TailstockCommandsAct_10 : ∃ (n : RailN) (s : State), (s.hsb.st = .primary) ∧ (s.hsb.eligible = true) ∧ (s.hsb.arbitrated = true) ∧ (s.hsb.queue = []) :=
  ⟨9, { hsbSt .primary with hsb := { (hsbSt .primary).hsb with eligible := true, arbitrated := true } }, by decide⟩
theorem test_TailstockCommandsAct_11 : ∃ (m : Mirror) (s : State), (s.standby = true) ∧ (s.hsb.arbitrated = true) ∧ (s.hsb.got = none) ∧ (s.hsb.lastApplied = 0) ∧ (s.hsb.aligned = false ∨ s.cyc.num ≤ m.cycle + 1) :=
  ⟨mirror0, { hsbSt .standbySync with hsb := { (hsbSt .standbySync).hsb with arbitrated := true } }, by decide⟩
theorem test_TailstockCommandsAct_12 : ∃ (m : Mirror) (s : State), (s.standby = true) ∧ (s.hsb.arbitrated = true) ∧ (s.hsb.got = none) ∧ (s.hsb.lastApplied = 0) ∧ (s.hsb.aligned = true) ∧ (m.cycle + 1 < s.cyc.num) :=
  ⟨mirror0, { hsbSt .standbySync with cyc := { num := 3 }, hsb := { (hsbSt .standbySync).hsb with arbitrated := true, aligned := true } }, by decide⟩
theorem test_FieldCommandsAct_1 : ∃ (g : Fin 8) (x : BitVec 16) (i : Nat) (s : State) (c : CField), (s.fieldCfg g = some c) ∧ (s.cmpPowered = true) ∧ (s.fio.group[g].supplyOk = true) :=
  ⟨7, 3#16, 5, fieldSt true, field0, by decide⟩
theorem test_FieldCommandsAct_2 : ∃ (g : Fin 8) (x : BitVec 16) (i : Nat) (s : State) (c : CField), (s.fieldCfg g = some c) ∧ (s.cmpPowered = true) ∧ (s.fio.group[g].supplyOk = false) :=
  ⟨7, 3#16, 5, fieldSt false, field0, by decide⟩
theorem test_FieldCommandsAct_3 : ∃ (p : PointN) (s : State), (s.isOutput p = true) ∧ (s.fio.point[p].timerAt.isSome = true) ∧ (s.fio.outputsOff = false) ∧ (s.fio.point[p].inSafe = false) :=
  ⟨113, fieldSt true, by decide⟩
theorem test_FieldCommandsAct_4 : ∃ (g : Fin 8) (s : State), ((s.fieldCfg g).isSome = true) ∧ (s.cmpPowered = true) ∧ (s.fio.group[g].supplyOk = true) :=
  ⟨7, fieldSt true, by decide⟩
theorem test_FieldCommandsAct_5 : ∃ (g : Fin 8) (s : State), ((s.fieldCfg g).isSome = true) ∧ (s.cmpPowered = true) ∧ (s.fio.group[g].supplyOk = false) :=
  ⟨7, fieldSt false, by decide⟩
theorem test_FieldCommandsAct_6 : ∃ (g : Fin 8) (s : State), (s.cmpPowered = true) ∧ ((s.fieldCfg g).isSome = true) :=
  ⟨7, fieldSt true, by decide⟩
theorem test_FieldCommandsAct_7 : ∃ (p : PointN) (t : Bool) (s : State), (s.cmpPowered = true) ∧ (s.isOutput p = true) ∧ (s.fio.point[p].ovl = false) :=
  ⟨113, true, fieldSt true, by decide⟩
theorem test_FieldCommandsAct_9 : ∃ (g : Fin 8) (s : State), (s.fio.group[g].latched = true) ∧ (s.fio.group[g].supplyOk = true) ∧ (s.g.st.cycleRuns = true) :=
  ⟨7, fieldSt true, by decide⟩
theorem test_FieldCommandsAct_10 : ∃ (g : Fin 8) (s : State), (s.fio.group[g].latched = true) ∧ (s.fio.group[g].supplyOk = false) :=
  ⟨7, fieldSt false, by decide⟩
theorem test_RecordStreamsAct_1 : ∃ (i : Fin 64) (t : BitVec 16) (s : State), (3 ≤ i.val) ∧ ((t - s.reng.stream[i].head).toNat ≤ 2 ^ s.reng.stream[i].ringLog2.toNat) :=
  ⟨63, 1#16, State.reset, by decide⟩
theorem test_RecordStreamsAct_2 : ∃ (i : Fin 64) (t : BitVec 16) (s : State), (3 ≤ i.val) ∧ (2 ^ s.reng.stream[i].ringLog2.toNat < (t - s.reng.stream[i].head).toNat) :=
  ⟨3, 2#16, State.reset, by decide⟩
theorem test_RecordStreamsAct_3 : ∃ (i : Fin 64) (len : Word) (typ : Byte) (sync : Bool) (b : List Byte) (s : State), (b.length = len.toNat) ∧ (1 ≤ len.toNat) ∧ (len.toNat ≤ 1048512) ∧ (16 ≤ typ.toNat) ∧ (3 ≤ i.val) ∧ ((s.streamCfg i).isSome = true) ∧ (s.reng.stream[i].enable = true) ∧ (s.reng.stream[i].head ≠ s.reng.stream[i].tail) ∧ (s.reng.hostStopped = false) ∧ (s.recState = 1) ∧ (s.hasRoom i (64 + (len.toNat + 15) / 16 * 16) = true) :=
  ⟨63, 1#32, 16#8, true, [7], recSt, by decide⟩
theorem test_RecordStreamsAct_4 : ∃ (i : Fin 64) (len : Word) (typ : Byte) (sync : Bool) (b : List Byte) (s : State), (len.toNat = 0 ∨ 1048512 < len.toNat ∨ typ.toNat < 16) ∧ (3 ≤ i.val) ∧ ((s.streamCfg i).isSome = true) ∧ (s.reng.stream[i].enable = true) ∧ (s.reng.stream[i].head ≠ s.reng.stream[i].tail) ∧ (s.reng.hostStopped = false) ∧ (s.recState = 1) :=
  ⟨63, 1#32, 15#8, true, [7], recSt, by decide⟩
theorem test_RecordStreamsAct_5 : ∃ (i : Fin 64) (s t : State), (s.writesUnits = true) ∧ (s.reng.stream[i].buf.any (fun r => decide (0 < r.left)) = true) ∧ ((s.ensureChunks i).2 = false) ∧ (t = (s.ensureChunks i).1) :=
  ⟨63, recBufSt, (recBufSt.ensureChunks 63).1, by decide, by decide, by decide +kernel, rfl⟩
theorem test_RecordStreamsAct_6 : ∃ (i : Fin 64) (s t u : State) (b : List BufRec × List Rec), (s.writesUnits = true) ∧ (s.reng.stream[i].buf.any (fun r => decide (0 < r.left)) = true) ∧ ((s.ensureChunks i).2 = true) ∧ (t = (s.ensureChunks i).1) ∧ (b = fillBlock 4096 (t.reng.stream[i].units.foldl (fun b k => b ||| (1#8 <<< k.val)) 0) t.reng.stream[i].buf) ∧ (u = t.reng.stream[i].units.foldl (fun (s : State) k => s.modUnit k (fun u => { u with chunks := u.chunks.map (fun c => if c.stream = i && c.open_ then chunkBlock c b.2 else c) })) (t.modStream i (fun x => { x with buf := b.1 }))) :=
  ⟨63, recUnitSt, recUnitT, recUnitU, fillBlock 4096 (recUnitT.reng.stream[(63 : Fin 64)].units.foldl (fun b k => b ||| (1#8 <<< k.val)) 0) recUnitT.reng.stream[(63 : Fin 64)].buf, by decide, by decide, by decide +kernel, rfl, rfl, by unfold recUnitU; rfl⟩
theorem test_RecordStreamsAct_7 : ∃ (w n : Nat) (s : State), s.writesUnits = true :=
  ⟨100, 3, recSt, by decide⟩
theorem test_RecordStreamsAct_9 : ∃ (i : Fin 64) (s : State), s.reng.rdState ≠ 1 :=
  ⟨63, State.reset, by decide⟩
theorem test_RecordStreamsAct_10 : ∃ (i : Fin 64) (s : State), s.reng.rdState = 1 :=
  ⟨63, { State.reset with g := { st := .run, loadOk := true }, reng := { State.reset.reng with rdState := 1 } }, by decide⟩
theorem test_RecordStreamsAct_11 : ∃ (s : State), (s.reng.rdState = 1) ∧ (s.readRecs s.reng.rdStream s.reng.rdSeq.toNat s.reng.rdLen.toNat none = ([], false)) :=
  ⟨{ State.reset with g := { st := .run, loadOk := true }, reng := { State.reset.reng with rdState := 1 } }, by decide⟩
theorem test_RecordStreamsAct_12 : ∃ (s : State) (l : List Rec) (r : Rec), (s.reng.rdState = 1) ∧ (s.readRecs s.reng.rdStream s.reng.rdSeq.toNat s.reng.rdLen.toNat none = (l, false)) ∧ (l.getLast? = some r) ∧ (l.flatMap recBytes ≠ []) :=
  ⟨recReadSt, [rec0], rec0, by decide, by decide +kernel, by decide, by decide +kernel⟩
theorem test_RecordStreamsAct_13 : ∃ (s : State) (d : Option Nat), s.reng.rdState = 1 :=
  ⟨{ State.reset with g := { st := .run, loadOk := true }, reng := { State.reset.reng with rdState := 1 } }, some 5, by decide⟩
theorem test_StorageUnitsAct_1 : ∃ (k : Fin 8) (s : State), (s.g.st ≠ .off) ∧ (s.g.st ≠ .stabled) ∧ (s.reng.unit[k].st = .absent) ∧ (s.storageOn k = true) :=
  ⟨7, { State.reset with g := { st := .run, loadOk := true }, reng := { State.reset.reng with unit := Vector.replicate 8 { st := .absent } } }, by decide⟩
theorem test_StorageUnitsAct_2 : ∃ (k : Fin 8) (met : Bool) (c w : Nat) (s : State), (s.reng.unit[k].st = .training) ∧ (s.noRetrain (704 + k.val) = false) :=
  ⟨7, false, 0, 0, { State.reset with g := { st := .run, loadOk := true }, reng := { State.reset.reng with unit := Vector.replicate 8 { st := .training } } }, by decide⟩
theorem test_StorageUnitsAct_3 : ∃ (k : Fin 8) (l : List Chunk) (s : State), (s.reng.unit[k].st = .verifying) ∧ (s.g.st ≠ .safeHold) ∧ (s.g.st ≠ .unprovisioned) ∧ (s.g.loadOk = true) :=
  ⟨7, [], { State.reset with g := { st := .run, loadOk := true }, reng := { State.reset.reng with unit := Vector.replicate 8 { st := .verifying } } }, by decide⟩
theorem test_StorageUnitsAct_4 : ∃ (k : Fin 8) (l : List Chunk) (s : State), (s.reng.unit[k].st = .verifying) ∧ (s.g.st = .safeHold) :=
  ⟨7, [], { { State.reset with g := { st := .run, loadOk := true }, reng := { State.reset.reng with unit := Vector.replicate 8 { st := .verifying } } } with g := { st := .safeHold } }, by decide⟩
theorem test_StorageUnitsAct_5 : ∃ (k : Fin 8) (s : State), (s.reng.unit[k].st = .releasing) ∧ (s.g.st ≠ .lastGasp) :=
  ⟨7, { State.reset with g := { st := .run, loadOk := true }, reng := { State.reset.reng with unit := Vector.replicate 8 { st := .releasing } } }, by decide⟩
theorem test_StorageUnitsAct_6 : ∃ (k : Fin 8) (s t : State), (s.reng.unit[k].st = .removable) ∧ (t = s.modUnit k (fun u => { u with st := .absent, present := false, perst := true, failCause := none, linkDown := false, chunks := [], capChunks := 0 })) :=
  ⟨7, { State.reset with g := { st := .run, loadOk := true }, reng := { State.reset.reng with unit := Vector.replicate 8 { st := .removable } } }, ({ State.reset with g := { st := .run, loadOk := true }, reng := { State.reset.reng with unit := Vector.replicate 8 { st := .removable } } } : State).modUnit 7 (fun u => { u with st := .absent, present := false, perst := true, failCause := none, linkDown := false, chunks := [], capChunks := 0 }), by decide, rfl⟩
theorem test_StorageUnitsAct_7 : ∃ (k : Fin 8) (s t : State), (s.reng.unit[k].st = .inService) ∧ (t = (s.unwrite k).modUnit k (fun u => { u with st := .absent, present := false, perst := true, failCause := none, linkDown := false, chunks := [], capChunks := 0, surpriseSeen := true })) :=
  ⟨7, { State.reset with g := { st := .run, loadOk := true }, reng := { State.reset.reng with unit := Vector.replicate 8 { st := .inService } } }, (({ State.reset with g := { st := .run, loadOk := true }, reng := { State.reset.reng with unit := Vector.replicate 8 { st := .inService } } } : State).unwrite 7).modUnit 7 (fun u => { u with st := .absent, present := false, perst := true, failCause := none, linkDown := false, chunks := [], capChunks := 0, surpriseSeen := true }), by decide, rfl⟩
theorem test_StorageUnitsAct_8 : ∃ (k : Fin 8) (s : State), s.reng.unit[k].st = .inService :=
  ⟨7, { State.reset with g := { st := .run, loadOk := true }, reng := { State.reset.reng with unit := Vector.replicate 8 { st := .inService } } }, by decide⟩
theorem test_StorageUnitsAct_9 : ∃ (k : Fin 8) (s t : State), (s.reng.unit[k].st = .inService) ∧ (s.reng.unit[k].linkDown = false) ∧ (t = s.modUnit k (fun u => { u with linkDown := true })) :=
  ⟨7, { State.reset with g := { st := .run, loadOk := true }, reng := { State.reset.reng with unit := Vector.replicate 8 { st := .inService } } }, ({ State.reset with g := { st := .run, loadOk := true }, reng := { State.reset.reng with unit := Vector.replicate 8 { st := .inService } } } : State).modUnit 7 (fun u => { u with linkDown := true }), by decide, by decide, rfl⟩
theorem test_StorageUnitsAct_10 : ∃ (k : Fin 8) (s : State), (s.reng.unit[k].linkDown = true) ∧ (s.time.tbFault = false) :=
  ⟨7, { State.reset with g := { st := .run, loadOk := true }, reng := { State.reset.reng with unit := Vector.replicate 8 { linkDown := true } } }, by decide⟩
theorem test_StorageUnitsAct_11 : ∃ (k : Fin 8) (f : Bool) (s t : State), (s.reng.unit[k].st = .inService) ∧ (s.unitsOf 0 ≠ [k] ∨ f = true) ∧ (t = s.modUnit k (fun u => { u with st := .releasing, chunks := u.chunks.map (fun c => { c with open_ := false }) })) :=
  ⟨7, false, { State.reset with g := { st := .run, loadOk := true }, reng := { State.reset.reng with unit := Vector.replicate 8 { st := .inService } } }, ({ State.reset with g := { st := .run, loadOk := true }, reng := { State.reset.reng with unit := Vector.replicate 8 { st := .inService } } } : State).modUnit 7 (fun u => { u with st := .releasing, chunks := u.chunks.map (fun c => { c with open_ := false }) }), by decide, by decide, rfl⟩
theorem test_StorageUnitsAct_12 : ∃ (k : Fin 8) (s : State), (s.reng.unit[k].st = .inService) ∧ (s.unitsOf 0 = [k]) :=
  ⟨7, { recSt with reng := { recSt.reng with unit := tset recSt.reng.unit 7 { st := .inService } } }, by decide⟩
theorem test_StorageUnitsAct_13 : ∃ (k : Fin 8) (s : State), s.reng.unit[k].st = .failed :=
  ⟨7, { State.reset with g := { st := .run, loadOk := true }, reng := { State.reset.reng with unit := Vector.replicate 8 { st := .failed } } }, by decide⟩
theorem test_StorageUnitsAct_14 : ∃ (k : Fin 8) (f : Bool) (s : State), (s.recState = 1) ∧ (s.reng.unit[k].st = .blank) :=
  ⟨7, false, { State.reset with g := { st := .run, loadOk := true }, reng := { State.reset.reng with unit := Vector.replicate 8 { st := .blank } } }, by decide⟩
theorem test_AgeingCommandsAct_1 : ∃ (f : BitVec 16) (s : State), (s.g.st.operating = true) ∧ (s.nv.cur.coreOffset < 60) ∧ (s.nv.cur.beyond = false) ∧ ((s.keep (fun d => { d with factor := f })).nv.cur.coreOffset < 60) ∧ ((s.keep (fun d => { d with factor := f })).nv.cur.beyond = false) :=
  ⟨4097#16, { State.reset with g := { st := .run } }, by decide⟩
theorem test_AgeingCommandsAct_2 : ∃ (s : State), (s.g.st.operating = true) ∧ (s.nv.cur.coreOffset < s.age.coreTarget) :=
  ⟨{ State.reset with g := { st := .run }, age := { State.reset.age with coreTarget := 5 } }, by decide⟩
theorem test_AgeingCommandsAct_3 : ∃ (ab bc ca : Int) (s : State), (s.g.st.operating = true) ∧ (ab.natAbs ≤ 200) ∧ (bc.natAbs ≤ 200) ∧ (ca.natAbs ≤ 200) ∧ (s.age.outvoted = 0) :=
  ⟨200, -200, 0, { State.reset with g := { st := .run } }, by decide⟩
theorem test_AgeingCommandsAct_4 : ∃ (ab bc ca : Int) (s : State), (s.g.st.operating = true) ∧ (200 < ab.natAbs) ∧ (bc.natAbs ≤ 200) ∧ (200 < ca.natAbs) ∧ (s.age.outvoted = 0) :=
  ⟨201, -200, 201, { State.reset with g := { st := .run } }, by decide⟩
theorem test_AgeingCommandsAct_5 : ∃ (mv : Nat) (s : State), s.g.st ≠ .off :=
  ⟨2900, { State.reset with g := { st := .stabled } }, by decide⟩
theorem test_AgeingCommandsAct_6 : ∃ (s : State) (h : CHds), (s.cfg.hds = some h) ∧ (s.g.level = .normal) ∧ (s.g.st.operating = true) ∧ (s.countsRail = true) :=
  ⟨loadSt, hds0, by decide, by decide, by decide, by decide +kernel⟩
theorem test_AgeingCommandsAct_7 : ∃ (s : State), (s.testOk = true) ∧ (s.age.testing = false) ∧ (s.age.state = 1 ∨ s.age.state = 2) :=
  ⟨{ State.reset with g := { st := .run }, sup := { present := true, bankMv := 27000 }, age := { State.reset.age with state := 2 } }, by decide⟩
theorem test_AgeingCommandsAct_8 : ∃ (dv x : Nat) (s : State), (s.age.testing = true) ∧ (dv ≠ 0) ∧ (s.age.state = 1) :=
  ⟨1000000, 3, { State.reset with age := { State.reset.age with state := 1, testing := true } }, by decide⟩
theorem test_AgeingCommandsAct_9 : ∃ (dv x : Nat) (s : State), (s.age.testing = true) ∧ (dv ≠ 0) ∧ (s.age.state = 2) :=
  ⟨1000000, 3, { State.reset with age := { State.reset.age with state := 2, testing := true } }, by decide⟩
theorem test_AgeingCommandsAct_10 : ∃ (s : State), (s.g.st.replans = true) ∧ (s.age.state ≠ 1) :=
  ⟨{ State.reset with g := { st := .run } }, by decide⟩
theorem test_AgeingCommandsAct_11 : ∃ (s : State), s.g.st.replans = false :=
  ⟨{ State.reset with g := { st := .off } }, by decide⟩
theorem test_AgeingCommandsAct_12 : ∃ (m : ReplanIn) (s : State), (m.wellFormed = true) ∧ (s.age.state = 1) ∧ (s.g.st.replans = true) :=
  ⟨replan0, { State.reset with g := { st := .run }, age := { State.reset.age with state := 1 } }, by decide⟩
theorem test_AgeingCommandsAct_13 : ∃ (sel : BitVec 13) (s : State) (r : HistRec), (if sel.getLsbD 12 then s.nv.cur.perm else s.nv.cur.ring)[sel.toNat % 4096]? = some r :=
  ⟨0#13, { State.reset with nv := { State.reset.nv with cur := { State.reset.nv.cur with ring := [hist0] } } }, hist0, by decide⟩
theorem test_AgeingCommandsAct_14 : ∃ (sel : BitVec 13) (s : State), (if sel.getLsbD 12 then s.nv.cur.perm else s.nv.cur.ring)[sel.toNat % 4096]? = none :=
  ⟨0x1FFF#13, State.reset, by decide⟩
theorem test_LinksAct_1 : ∃ (w r : Nat) (s t : State), (s.hostLinkMay = true) ∧ (s.lnk.lostAt = none) ∧ (s.lnk.trainedSinceStart = true) ∧ (t = { s.linkFound 719 with lnk := { (s.linkFound 719).lnk with up := true, width := w, rate := r, perst := false, trainedSinceStart := true, lostAt := none } }) :=
  ⟨16, 5, { { State.reset with g := { st := .run } } with lnk := { State.reset.lnk with trainedSinceStart := true } }, { { State.reset with g := { st := .run } } with lnk := { State.reset.lnk with trainedSinceStart := true, up := true, width := 16, rate := 5 } }, by decide, by decide, by decide, rfl⟩
theorem test_LinksAct_2 : ∃ (s : State), (s.g.st ≠ .off) ∧ (s.g.st ≠ .stabled) :=
  ⟨{ State.reset with g := { st := .run } }, by decide⟩
theorem test_LinksAct_3 : ∃ (n : Fin 4) (g : Bool) (s : State), (s.g.st.operating = true) ∧ (s.lnk.net[n].link = false) ∧ (s.noRetrain (712 + n.val) = false) ∧ (s.portBit CLinks.netEn n = true) :=
  ⟨3, true, { netSt with lnk := { State.reset.lnk with lost := [715] } }, by decide⟩
theorem test_LinksAct_4 : ∃ (n : Fin 4) (g : Bool) (s : State), s.portBit CLinks.netEn n = false ∨ s.noRetrain (712 + n.val) = true :=
  ⟨3, true, State.reset, by decide⟩
theorem test_LinksAct_5 : ∃ (n : Fin 4) (g : Bool) (s : State), (s.g.st.operating = true) ∧ (s.lnk.net[n].link = true) :=
  ⟨3, true, netSt, by decide⟩
theorem test_LinksAct_6 : ∃ (n : Fin 4) (a : Announce) (s : State), (s.g.st.operating = true) ∧ (s.portBit CLinks.ptpEn n = true) ∧ (s.portBit CLinks.netEn n = true) ∧ (s.lnk.net[n].link = true) ∧ (s.lnk.net[n].qualified = none) ∧ (s.lnk.net[n].heard = none) :=
  ⟨3, ann0, netSt, by decide⟩
theorem test_LinksAct_7 : ∃ (n : Fin 4) (a b : Announce) (s : State), (s.g.st.operating = true) ∧ (s.portBit CLinks.ptpEn n = true) ∧ (s.portBit CLinks.netEn n = true) ∧ (s.lnk.net[n].link = true) ∧ (s.lnk.net[n].qualified = none) ∧ (s.lnk.net[n].heard = some b) ∧ ((b.identity == a.identity) = true) :=
  ⟨3, ann0, ann0, { netSt with lnk := { netSt.lnk with net := Vector.replicate 4 { link := true, heard := some ann0 } } }, by decide⟩
theorem test_LinksAct_9 : ∃ (n : Fin 4) (o : Int) (d : Nat) (u : DWord) (s : State), (s.g.st.operating = true) ∧ (s.lnk.ptpMaster = true) ∧ (n = s.lnk.ptpPort) ∧ (s.lnk.net[n].link = true) ∧ (s.lnk.goodSyncs = 0) ∧ (s.time.utcQual = 1) :=
  ⟨0, 5, 7, 0, { netSt with time := { utcQual := 1 }, lnk := { netSt.lnk with ptpMaster := true } }, by decide⟩
theorem test_LinksAct_10 : ∃ (n : Fin 4) (o : Int) (d : Nat) (u : DWord) (s : State) (a : Announce), (s.g.st.operating = true) ∧ (s.lnk.ptpMaster = true) ∧ (n = s.lnk.ptpPort) ∧ (s.lnk.net[n].link = true) ∧ (7 ≤ s.lnk.goodSyncs) ∧ (s.lnk.goodSyncs < 255) ∧ ((o - s.lnk.ptpOffset).natAbs ≤ 1000) ∧ (s.lnk.net[n].qualified = some a) ∧ (a.utcOffsetValid = true) ∧ (s.time.tbFault = false) ∧ (s.time.utcQual = 0) :=
  ⟨0, 5, 7, 0, { netSt with lnk := { netSt.lnk with ptpMaster := true, goodSyncs := 7, net := Vector.replicate 4 { link := true, qualified := some ann0 } } }, ann0, by decide⟩
theorem test_LinksAct_11 : ∃ (n : Fin 4) (b : List Byte) (s : State) (l : CLinks) (v : Nat), (s.cfg.links = some l) ∧ (s.portTakes n = true) ∧ (l.speedComId ≠ 0#32) ∧ (beAt b l.speedOffset 2 = some v) ∧ (beAt b (l.speedOffset + 2) 1 = some 1) ∧ (v ≠ 0xFFFF) :=
  ⟨3, [0, 51, 1], netSt, links0, 51, by decide⟩
theorem test_LinksAct_12 : ∃ (n : Fin 4) (b : List Byte) (s : State) (l : CLinks) (x y : Int), (s.cfg.links = some l) ∧ (s.portTakes n = true) ∧ (l.locComId ≠ 0#32) ∧ (beInt b l.locOffset = some x) ∧ (beInt b (l.locOffset + 4) = some y) ∧ (beAt b (l.locOffset + 8) 1 = some 1) ∧ (x.natAbs ≤ 900000000) ∧ (y.natAbs ≤ 1800000000) :=
  ⟨3, [0, 0, 0, 7, 0xFF, 0xFF, 0xFF, 0xFF, 1], netSt, links0, 7, -1, by decide⟩
theorem test_LinksAct_13 : ∃ (s : State) (l : CLinks), (s.cfg.links = some l) ∧ (s.g.st.operating = true) ∧ (s.primaryDuties = true) ∧ (l.statusComId ≠ 0#32) :=
  ⟨{ netSt with hsb := { st := .disabled } }, links0, by decide⟩
theorem test_LinksAct_14 : ∃ (n : Fin 4) (b : List Byte) (s : State) (l : CLinks), (s.cfg.links = some l) ∧ (l.netEn.getLsbD n.val = true) ∧ (l.wakeEn.getLsbD n.val = true) ∧ (s.g.st = .stabled) ∧ (holdsRun (s.wakePattern n) b = true) :=
  ⟨3, ({ netSt with g := { st := .stabled } } : State).wakePattern 3, { netSt with g := { st := .stabled } }, links0, by decide⟩
theorem test_LinksAct_15 : ∃ (s : State) (l : CLinks), (s.cfg.links = some l) ∧ (l.cmdComId ≠ 0#32) ∧ (s.g.st.cycleRuns = true) :=
  ⟨netSt, links0, by decide⟩
theorem test_LinksAct_16 : ∃ (n : RailN) (b : BitVec 8) (c : RailCode) (s : State) (l : CLinks), (s.cfg.links = some l) ∧ (railCodeOf b.toNat = some c) ∧ (l.cmdComId ≠ 0#32) ∧ (s.g.st.cycleRuns = true) :=
  ⟨255, 1#8, .on, netSt, links0, by decide⟩
theorem test_EdivoSessionsAct_1 : ∃ (n : Fin 4) (s : State), (s.linksPowered = true) ∧ (s.portEn = true) ∧ ((List.finRange 4).find? (fun n => (s.lnk.sessions[n]).isNone) = some n) :=
  ⟨0, { State.reset with g := { st := .run } }, by decide⟩
theorem test_EdivoSessionsAct_3 : ∃ (n : Fin 4) (s t : State) (x : Session), (s.lnk.sessions[n] = some x) ∧ (t = s.modSession n (fun y => { y with lastAt := s.now })) :=
  ⟨3, sessSt .view, (sessSt .view : State).modSession 3 (fun y => { y with lastAt := (sessSt .view : State).now }), { level := .view }, rfl, rfl⟩
theorem test_EdivoSessionsAct_4 : ∃ (n : Fin 4) (a k : Nat) (s t : State) (x : Session), (s.lnk.sessions[n] = some x) ∧ (t = s.modSession n (fun y => { y with lastAt := s.now })) ∧ (k ≤ 256) ∧ (a % 4 = 0) :=
  ⟨3, 16, 256, sessSt .view, (sessSt .view : State).modSession 3 (fun y => { y with lastAt := (sessSt .view : State).now }), { level := .view }, rfl, rfl, by decide, by decide⟩
theorem test_EdivoSessionsAct_5 : ∃ (n : Fin 4) (a k : Nat) (s t : State) (x : Session), (s.lnk.sessions[n] = some x) ∧ (t = s.modSession n (fun y => { y with lastAt := s.now })) ∧ (k ≤ 1024) :=
  ⟨3, 5, 1024, sessSt .view, (sessSt .view : State).modSession 3 (fun y => { y with lastAt := (sessSt .view : State).now }), { level := .view }, rfl, rfl, by decide⟩
theorem test_EdivoSessionsAct_6 : ∃ (n : Fin 4) (a : Nat) (w : Word) (s t : State) (x : Session), (s.lnk.sessions[n] = some x) ∧ (t = s.modSession n (fun y => { y with lastAt := s.now })) ∧ (x.level = .view) :=
  ⟨3, 0x34, 0xA5C3#32, sessSt .view, (sessSt .view : State).modSession 3 (fun y => { y with lastAt := (sessSt .view : State).now }), { level := .view }, rfl, rfl, by decide⟩
theorem test_EdivoSessionsAct_7 : ∃ (n : Fin 4) (w : Word) (s t : State) (x : Session), (s.lnk.sessions[n] = some x) ∧ (t = s.modSession n (fun y => { y with lastAt := s.now })) ∧ (x.level ≠ .view) ∧ (bitsOf w 0 16 = 0xA5C3) :=
  ⟨3, 0xA5C3#32, sessSt .maintenance, (sessSt .maintenance : State).modSession 3 (fun y => { y with lastAt := (sessSt .maintenance : State).now }), { level := .maintenance }, rfl, rfl, by decide, by decide⟩
theorem test_EdivoSessionsAct_8 : ∃ (n : Fin 4) (b : List Byte) (s t : State) (x : Session), (s.lnk.sessions[n] = some x) ∧ (t = s.modSession n (fun y => { y with lastAt := s.now })) ∧ (b.length ≤ 65536) ∧ (x.level ≠ .view) ∧ (s.stg.st = .writing) ∧ (s.stg.owner = some (.session n)) :=
  ⟨3, [7], { sessSt .maintenance with stg := { st := .writing, owner := some (.session 3) } }, ({ sessSt .maintenance with stg := { st := .writing, owner := some (.session 3) } } : State).modSession 3 (fun y => { y with lastAt := ({ sessSt .maintenance with stg := { st := .writing, owner := some (.session 3) } } : State).now }), { level := .maintenance }, rfl, rfl, by decide, by decide, by decide, by decide⟩
theorem test_EdivoSessionsAct_9 : ∃ (n : Fin 4) (i : Fin 64) (q : DWord) (len : Nat) (s t : State) (x : Session) (l : List Rec), (s.lnk.sessions[n] = some x) ∧ (t = s.modSession n (fun y => { y with lastAt := s.now })) ∧ (l = (t.readRecs i q.toNat (min len 65536) none).1) :=
  ⟨3, 63, 0#64, 64, sessSt .view, (sessSt .view : State).modSession 3 (fun y => { y with lastAt := (sessSt .view : State).now }), { level := .view }, [], rfl, rfl, by decide⟩
theorem test_EdivoSessionsAct_10 : ∃ (n : Fin 4) (c : Bool) (k : Nat) (s t : State) (x : Session), (s.lnk.sessions[n] = some x) ∧ (t = s.modSession n (fun y => { y with lastAt := s.now })) ∧ (k < 768) :=
  ⟨3, true, 767, sessSt .view, (sessSt .view : State).modSession 3 (fun y => { y with lastAt := (sessSt .view : State).now }), { level := .view }, rfl, rfl, by decide⟩
theorem test_EdivoSessionsAct_11 : ∃ (n : Fin 4) (k : Nat) (s t : State) (x : Session) (e : Lfl), (s.lnk.sessions[n] = some x) ∧ (t = s.modSession n (fun y => { y with lastAt := s.now })) ∧ (k < 255) ∧ (t.nv.cur.lfl[k]? = some e) :=
  ⟨3, 0, { sessSt .view with nv := { State.reset.nv with cur := { State.reset.nv.cur with lfl := [lfl0] } } }, ({ sessSt .view with nv := { State.reset.nv with cur := { State.reset.nv.cur with lfl := [lfl0] } } } : State).modSession 3 (fun y => { y with lastAt := ({ sessSt .view with nv := { State.reset.nv with cur := { State.reset.nv.cur with lfl := [lfl0] } } } : State).now }), { level := .view }, lfl0, rfl, rfl, by decide, rfl⟩
theorem test_EdivoSessionsAct_12 : ∃ (n : Fin 4) (s t : State) (x : Session), (s.lnk.sessions[n] = some x) ∧ (t = s.modSession n (fun y => { y with lastAt := s.now })) ∧ (x.level ≠ .view) ∧ (s.g.st.tests = true) ∧ (s.motion.moving = false) ∧ (x.testMode = false) :=
  ⟨3, { sessSt .maintenance with motion := { moving := false } }, ({ sessSt .maintenance with motion := { moving := false } } : State).modSession 3 (fun y => { y with lastAt := ({ sessSt .maintenance with motion := { moving := false } } : State).now }), { level := .maintenance }, rfl, rfl, by decide, by decide, by decide, by decide⟩
theorem test_EdivoSessionsAct_13 : ∃ (n : Fin 4) (s t : State) (x : Session), (s.lnk.sessions[n] = some x) ∧ (t = s.modSession n (fun y => { y with lastAt := s.now })) ∧ (x.level ≠ .view) :=
  ⟨3, sessSt .maintenance, (sessSt .maintenance : State).modSession 3 (fun y => { y with lastAt := (sessSt .maintenance : State).now }), { level := .maintenance }, rfl, rfl, by decide⟩
theorem test_SecurityCommandsAct_1 : ∃ (n : Fin 4) (i : Byte) (s t : State) (x : Session) (k : Fin 35) (v : Verifier), (s.lnk.sessions[n] = some x) ∧ (t = s.modSession n (fun y => { y with lastAt := s.now })) ∧ (pwdIndex i = some k) ∧ (t.sec.verifiers[k] = some v) :=
  ⟨3, 34#8, { sessSt .provisioning with sec := { State.reset.sec with wrapKey := true, custKey := [1], verifiers := Vector.replicate 35 (some { salt := [], verifier := [] }) } }, ({ sessSt .provisioning with sec := { State.reset.sec with wrapKey := true, custKey := [1], verifiers := Vector.replicate 35 (some { salt := [], verifier := [] }) } } : State).modSession 3 (fun y => { y with lastAt := ({ sessSt .provisioning with sec := { State.reset.sec with wrapKey := true, custKey := [1], verifiers := Vector.replicate 35 (some { salt := [], verifier := [] }) } } : State).now }), { level := .provisioning }, 34, { salt := [], verifier := [] }, rfl, rfl, by decide, rfl⟩
theorem test_SecurityCommandsAct_2 : ∃ (n : Fin 4) (i : Byte) (b : List Byte) (s t : State) (x : Session) (k : Fin 35), (s.lnk.sessions[n] = some x) ∧ (t = s.modSession n (fun y => { y with lastAt := s.now })) ∧ (pwdIndex i = some k) ∧ (33 ≤ k.val) ∧ (t.levelTaken n = false) ∧ (t.pwdBarred k = none) ∧ (t.proofOk x k b = true) :=
  ⟨3, 33#8, hmac384 [] [], loginSt, (loginSt : State).modSession 3 (fun y => { y with lastAt := (loginSt : State).now }), { level := .view, nonce := some ([], 33, 0) }, 33, rfl, rfl, by decide, by decide, by decide +kernel, by decide +kernel, by show ((33 : Nat) == 33 && decide (hmac384 [] [] = hmac384 [] [])) = true; simp⟩
theorem test_SecurityCommandsAct_3 : ∃ (n : Fin 4) (s t : State) (x : Session), (s.lnk.sessions[n] = some x) ∧ (t = s.modSession n (fun y => { y with lastAt := s.now })) :=
  ⟨3, sessSt .maintenance, (sessSt .maintenance : State).modSession 3 (fun y => { y with lastAt := (sessSt .maintenance : State).now }), { level := .maintenance }, rfl, rfl⟩
theorem test_SecurityCommandsAct_4 : ∃ (n : Fin 4) (f : PwdFields) (s t : State) (x : Session) (k : Fin 35), (s.lnk.sessions[n] = some x) ∧ (t = s.modSession n (fun y => { y with lastAt := s.now })) ∧ (pwdIndex f.index = some k) ∧ (x.level = .provisioning) ∧ (t.sec.wrapKey = true) ∧ (t.sec.breachSinceStart = false) ∧ (t.minLen ≤ f.len.toNat) :=
  ⟨3, ⟨34, [], [], 8⟩, { sessSt .provisioning with sec := { State.reset.sec with wrapKey := true, custKey := [1], verifiers := Vector.replicate 35 (some { salt := [], verifier := [] }) } }, ({ sessSt .provisioning with sec := { State.reset.sec with wrapKey := true, custKey := [1], verifiers := Vector.replicate 35 (some { salt := [], verifier := [] }) } } : State).modSession 3 (fun y => { y with lastAt := ({ sessSt .provisioning with sec := { State.reset.sec with wrapKey := true, custKey := [1], verifiers := Vector.replicate 35 (some { salt := [], verifier := [] }) } } : State).now }), { level := .provisioning }, 34, rfl, rfl, by decide, by decide, by decide, by decide, by decide⟩
theorem test_SecurityCommandsAct_5 : ∃ (n : Fin 4) (key : List Byte) (f : List PwdFields) (s t : State) (x : Session), (s.lnk.sessions[n] = some x) ∧ (t = s.modSession n (fun y => { y with lastAt := s.now })) ∧ (s.g.st = .unprovisioned) ∧ (s.nv.cur.releasing = 0) ∧ (s.sec.waiting = none) ∧ (f.map (fun x => x.index.toNat) = [32, 33, 34]) ∧ (f.all (fun x => decide (t.minLen ≤ x.len.toNat)) = true) :=
  ⟨3, [], [⟨32, [], [], 8⟩, ⟨33, [], [], 8⟩, ⟨34, [], [], 8⟩], { sessSt .view with g := { st := .unprovisioned } }, ({ sessSt .view with g := { st := .unprovisioned } } : State).modSession 3 (fun y => { y with lastAt := ({ sessSt .view with g := { st := .unprovisioned } } : State).now }), { level := .view }, rfl, rfl, by decide, by decide, by decide, by decide, by decide⟩
theorem test_SecurityCommandsAct_6 : ∃ (s : State) (n : Fin 4) (key : List Byte) (v : List Verifier) (a : Ns), s.sec.waiting = some (.provision n key v, a) :=
  ⟨{ State.reset with sec := { State.reset.sec with waiting := some (.provision 3 [] [], 0) } }, 3, [], [], 0, by decide⟩
theorem test_SecurityCommandsAct_7 : ∃ (n : Fin 4) (key sig : List Byte) (s t : State) (x : Session), (s.lnk.sessions[n] = some x) ∧ (t = s.modSession n (fun y => { y with lastAt := s.now })) ∧ (x.level = .provisioning) ∧ (s.g.st = .safeHold) ∧ (s.nv.cur.releasing = 0) ∧ (t.hasKey = true) ∧ (s.sec.breachSinceStart = false) :=
  ⟨3, [2], [3], { sessSt .provisioning with g := { st := .safeHold }, sec := { State.reset.sec with wrapKey := true, custKey := [1], verifiers := Vector.replicate 35 (some { salt := [], verifier := [] }) } }, ({ sessSt .provisioning with g := { st := .safeHold }, sec := { State.reset.sec with wrapKey := true, custKey := [1], verifiers := Vector.replicate 35 (some { salt := [], verifier := [] }) } } : State).modSession 3 (fun y => { y with lastAt := ({ sessSt .provisioning with g := { st := .safeHold }, sec := { State.reset.sec with wrapKey := true, custKey := [1], verifiers := Vector.replicate 35 (some { salt := [], verifier := [] }) } } : State).now }), { level := .provisioning }, rfl, rfl, by decide, by decide, by decide, by decide, by decide⟩
theorem test_SecurityCommandsAct_8 : ∃ (f : Bool) (s t : State), t = { s with sec := { s.sec with pwd := Vector.replicate 8 0 } } :=
  ⟨true, State.reset, { State.reset with sec := { State.reset.sec with pwd := Vector.replicate 8 0 } }, rfl⟩
theorem test_SecurityCommandsAct_9 : ∃ (n : Fin 4) (f : Bool) (s t : State) (x : Session), (s.lnk.sessions[n] = some x) ∧ (t = s.modSession n (fun y => { y with lastAt := s.now })) ∧ (x.level ≠ .view ∨ s.g.st = .unprovisioned) :=
  ⟨3, true, sessSt .maintenance, (sessSt .maintenance : State).modSession 3 (fun y => { y with lastAt := (sessSt .maintenance : State).now }), { level := .maintenance }, rfl, rfl, by decide⟩
theorem test_SecurityCommandsAct_10 : ∃ (s t : State), (s.nv.cur.releasing ≠ 0) ∧ (s.g.st ∈ [ModSt.start, .safeHold, .unprovisioned]) ∧ (t = s.eraseUser) :=
  ⟨{ State.reset with g := { st := .safeHold }, nv := { State.reset.nv with cur := { State.reset.nv.cur with releasing := 8 } } }, ({ State.reset with g := { st := .safeHold }, nv := { State.reset.nv with cur := { State.reset.nv.cur with releasing := 8 } } } : State).eraseUser, by decide, by decide, rfl⟩
theorem test_SecurityCommandsAct_11 : ∃ (n : Fin 4) (k : List Byte) (s t u : State) (x : Session), (s.lnk.sessions[n] = some x) ∧ (t = s.modSession n (fun y => { y with lastAt := s.now })) ∧ (s.g.st = .unprovisioned) ∧ (u = t.modSession n (fun y => { y with nonce := none })) :=
  ⟨3, [5], { loginSt with g := { st := .unprovisioned } }, ({ loginSt with g := { st := .unprovisioned } } : State).modSession 3 (fun y => { y with lastAt := ({ loginSt with g := { st := .unprovisioned } } : State).now }), (({ loginSt with g := { st := .unprovisioned } } : State).modSession 3 (fun y => { y with lastAt := ({ loginSt with g := { st := .unprovisioned } } : State).now }) : State).modSession 3 (fun y => { y with nonce := none }), { level := .view, nonce := some ([], 33, 0) }, rfl, rfl, by decide, rfl⟩
theorem test_SecurityCommandsAct_12 : ∃ (b : Breach) (s : State), s.g.st = .off :=
  ⟨.light, State.reset, by decide⟩
theorem test_SecurityCommandsAct_13 : ∃ (b : Breach) (s t : State), (s.g.st ≠ .off) ∧ (s.sec.waiting = none) ∧ (t = { s with sec := { (({ s.sec with wrapKey := false, breached := true, cause := Breach.code b, breaches := satInc 65535 s.sec.breaches } : Sec_).eraseArea) with breachSinceStart := true } }) ∧ (t.sec.waiting = none) :=
  ⟨.supply, { State.reset with g := { st := .run } }, { { State.reset with g := { st := .run } } with sec := { (({ State.reset.sec with wrapKey := false, breached := true, cause := 4, breaches := satInc 65535 State.reset.sec.breaches } : Sec_).eraseArea) with breachSinceStart := true } }, by decide, by decide, rfl, by decide⟩
theorem test_WordOperandInstructions_1 : ∃ (op : BitVec 8) (i : LPairN → Instr) (f : Regs → Word → Regs) (l : LPairN) (n : ProgN) (w : Word) (s : State) (k : Fin 32), ((op, i, f) ∈ ([(0x20#8, Instr.iLdw, fun r v => r.setAcc v), (0x24#8, Instr.iAdd, fun r v => r.setSat (r.acc.toInt + v.toInt)), (0x25#8, Instr.iSub, fun r v => r.setSat (r.acc.toInt - v.toInt)), (0x26#8, Instr.iMul, fun r v => r.setSat (r.acc.toInt * v.toInt)), (0x27#8, Instr.iDiv, fun r v => r.divide v), (0x28#8, Instr.iAndw, fun r v => r.setAcc (r.acc &&& v)), (0x29#8, Instr.iOrw, fun r v => r.setAcc (r.acc ||| v)), (0x2A#8, Instr.iXorw, fun r v => r.setAcc (r.acc ^^^ v)), (0x30#8, Instr.iCmpeq, fun r v => r.setBa (r.acc == v)), (0x31#8, Instr.iCmpne, fun r v => r.setBa (r.acc != v)), (0x32#8, Instr.iCmpgt, fun r v => r.setBa (decide (v.toInt < r.acc.toInt))), (0x33#8, Instr.iCmplt, fun r v => r.setBa (decide (r.acc.toInt < v.toInt)))] : List (BitVec 8 × (LPairN → Instr) × (Regs → Word → Regs)))) ∧ (s.fetched l = some (n, w)) ∧ (w.extractLsb' 24 8 = op) ∧ (s.wordAt l (w.extractLsb' 0 24) 0 = some (.reg k)) :=
  ⟨0x24#8, Instr.iAdd, fun r v => r.setSat (r.acc.toInt + v.toInt), 7, 5, 0x2480001F#32, spinSt 0x2480001F#32, 31, by simp, by decide, by decide, by decide⟩
theorem test_WordOperandInstructions_2 : ∃ (op : BitVec 8) (i : LPairN → Instr) (f : Regs → Word → Regs) (l : LPairN) (n : ProgN) (w : Word) (s : State) (a : Nat) (u : State) (b : List Byte), ((op, i, f) ∈ ([(0x20#8, Instr.iLdw, fun r v => r.setAcc v), (0x24#8, Instr.iAdd, fun r v => r.setSat (r.acc.toInt + v.toInt)), (0x25#8, Instr.iSub, fun r v => r.setSat (r.acc.toInt - v.toInt)), (0x26#8, Instr.iMul, fun r v => r.setSat (r.acc.toInt * v.toInt)), (0x27#8, Instr.iDiv, fun r v => r.divide v), (0x28#8, Instr.iAndw, fun r v => r.setAcc (r.acc &&& v)), (0x29#8, Instr.iOrw, fun r v => r.setAcc (r.acc ||| v)), (0x2A#8, Instr.iXorw, fun r v => r.setAcc (r.acc ^^^ v)), (0x30#8, Instr.iCmpeq, fun r v => r.setBa (r.acc == v)), (0x31#8, Instr.iCmpne, fun r v => r.setBa (r.acc != v)), (0x32#8, Instr.iCmpgt, fun r v => r.setBa (decide (v.toInt < r.acc.toInt))), (0x33#8, Instr.iCmplt, fun r v => r.setBa (decide (r.acc.toInt < v.toInt)))] : List (BitVec 8 × (LPairN → Instr) × (Regs → Word → Regs)))) ∧ (s.fetched l = some (n, w)) ∧ (w.extractLsb' 24 8 = op) ∧ (s.wordAt l (w.extractLsb' 0 24) 0 = some (.mem a)) ∧ (s.loadBytes l a 4 0xFF = (u, some b)) :=
  ⟨0x20#8, Instr.iLdw, fun r v => r.setAcc v, 7, 5, 0x20400003#32, spinSt 0x20400003#32, 0x4000C, spinSt 0x20400003#32, [0, 0, 0, 0], by simp, by decide, by decide, by decide, by rfl⟩
theorem test_WordOperandInstructions_3 : ∃ (op : BitVec 8) (i : LPairN → Instr) (f : Regs → Word → Regs) (l : LPairN) (n : ProgN) (w : Word) (s : State), ((op, i, f) ∈ ([(0x20#8, Instr.iLdw, fun r v => r.setAcc v), (0x24#8, Instr.iAdd, fun r v => r.setSat (r.acc.toInt + v.toInt)), (0x25#8, Instr.iSub, fun r v => r.setSat (r.acc.toInt - v.toInt)), (0x26#8, Instr.iMul, fun r v => r.setSat (r.acc.toInt * v.toInt)), (0x27#8, Instr.iDiv, fun r v => r.divide v), (0x28#8, Instr.iAndw, fun r v => r.setAcc (r.acc &&& v)), (0x29#8, Instr.iOrw, fun r v => r.setAcc (r.acc ||| v)), (0x2A#8, Instr.iXorw, fun r v => r.setAcc (r.acc ^^^ v)), (0x30#8, Instr.iCmpeq, fun r v => r.setBa (r.acc == v)), (0x31#8, Instr.iCmpne, fun r v => r.setBa (r.acc != v)), (0x32#8, Instr.iCmpgt, fun r v => r.setBa (decide (v.toInt < r.acc.toInt))), (0x33#8, Instr.iCmplt, fun r v => r.setBa (decide (r.acc.toInt < v.toInt)))] : List (BitVec 8 × (LPairN → Instr) × (Regs → Word → Regs)))) ∧ (s.fetched l = some (n, w)) ∧ (w.extractLsb' 24 8 = op) ∧ (s.wordAt l (w.extractLsb' 0 24) 0 = none) :=
  ⟨0x27#8, Instr.iDiv, fun r v => r.divide v, 7, 5, 0x27A00000#32, spinSt 0x27A00000#32, by simp, by decide, by decide, by decide⟩
theorem test_WordOperandInstructions_4 : ∃ (op : BitVec 8) (i : LPairN → Instr) (f : Regs → Word → Regs) (l : LPairN) (n : ProgN) (w : Word) (s : State) (a : Nat) (u : State), ((op, i, f) ∈ ([(0x20#8, Instr.iLdw, fun r v => r.setAcc v), (0x24#8, Instr.iAdd, fun r v => r.setSat (r.acc.toInt + v.toInt)), (0x25#8, Instr.iSub, fun r v => r.setSat (r.acc.toInt - v.toInt)), (0x26#8, Instr.iMul, fun r v => r.setSat (r.acc.toInt * v.toInt)), (0x27#8, Instr.iDiv, fun r v => r.divide v), (0x28#8, Instr.iAndw, fun r v => r.setAcc (r.acc &&& v)), (0x29#8, Instr.iOrw, fun r v => r.setAcc (r.acc ||| v)), (0x2A#8, Instr.iXorw, fun r v => r.setAcc (r.acc ^^^ v)), (0x30#8, Instr.iCmpeq, fun r v => r.setBa (r.acc == v)), (0x31#8, Instr.iCmpne, fun r v => r.setBa (r.acc != v)), (0x32#8, Instr.iCmpgt, fun r v => r.setBa (decide (v.toInt < r.acc.toInt))), (0x33#8, Instr.iCmplt, fun r v => r.setBa (decide (r.acc.toInt < v.toInt)))] : List (BitVec 8 × (LPairN → Instr) × (Regs → Word → Regs)))) ∧ (s.fetched l = some (n, w)) ∧ (w.extractLsb' 24 8 = op) ∧ (s.wordAt l (w.extractLsb' 0 24) 0 = some (.mem a)) ∧ (s.loadBytes l a 4 0xFF = (u, none)) :=
  ⟨0x30#8, Instr.iCmpeq, fun r v => r.setBa (r.acc == v), 7, 5, 0x30400003#32, { spinSt 0x30400003#32 with ecc := [0x4000C] }, 0x4000C, { spinSt 0x30400003#32 with ecc := [0x4000C] }, by simp, by decide, by decide, by decide, by rfl⟩
theorem test_RegisterInstructions_1 : ∃ (op : BitVec 8) (i : LPairN → Instr) (f : BitVec 24 → Regs → Regs) (l : LPairN) (n : ProgN) (w : Word) (s : State), ((op, i, f) ∈ ([(0x0B#8, Instr.iNot, fun _ r => r.setBa (!r.ba)), (0x21#8, Instr.iLdi, fun o r => r.setAcc (o.signExtend 32)), (0x22#8, Instr.iLdih, fun o r => r.setAcc (o.extractLsb' 0 16 ++ r.acc.extractLsb' 0 16)), (0x2B#8, Instr.iShl, fun o r => r.setAcc (r.acc <<< field o 0 5)), (0x2C#8, Instr.iShr, fun o r => r.setAcc (r.acc.sshiftRight (field o 0 5))), (0x2D#8, Instr.iMova, fun o r => r.setW (regField o 0) r.acc), (0x2E#8, Instr.iMovw, fun o r => r.setAcc r.w[regField o 0]), (0x2F#8, Instr.iAddi, fun o r => r.setSat (r.acc.toInt + o.toInt)), (0x34#8, Instr.iLim, fun o r => r.limit (regField o 5) (regField o 0)), (0x35#8, Instr.iScale, fun o r => r.scale (regField o 10) (regField o 5) (regField o 0)), (0x36#8, Instr.iAbs, fun _ r => r.setSat r.acc.toInt.natAbs)] : List (BitVec 8 × (LPairN → Instr) × (BitVec 24 → Regs → Regs)))) ∧ (s.fetched l = some (n, w)) ∧ (w.extractLsb' 24 8 = op) :=
  ⟨0x35#8, Instr.iScale, fun o r => r.scale (regField o 10) (regField o 5) (regField o 0), 7, 5, 0x35001F1F#32, spinSt 0x35001F1F#32, by simp, by decide, by decide⟩
theorem test_RegisterInstructions_2 : ∃ (l : LPairN) (n : ProgN) (w : Word) (s : State), (s.fetched l = some (n, w)) ∧ (w.extractLsb' 24 8 = 0x5F#8) :=
  ⟨7, 5, 0x5F000000#32, spinSt 0x5F000000#32, by decide⟩
theorem test_RegisterInstructions_3 : ∃ (l : LPairN) (n : ProgN) (w : Word) (s : State), (s.fetched l = some (n, w)) ∧ (listedOps.contains (w.extractLsb' 24 8).toNat = false) :=
  ⟨7, 5, 0x42000000#32, spinSt 0x42000000#32, by decide⟩
theorem test_RegisterInstructions_4 : ∃ (l : LPairN) (s : State), s.fetched l = none :=
  ⟨7, State.reset, by decide⟩
theorem test_ArithmeticOfTheSpindles_1 : ∃ (r : Regs) (x : Int), (-2147483648 ≤ x) ∧ (x ≤ 2147483647) :=
  ⟨{}, -2147483648, by decide⟩
theorem test_ArithmeticOfTheSpindles_2 : ∃ (r : Regs) (x : Int), 2147483647 < x :=
  ⟨{}, 2147483648, by decide⟩
theorem test_ArithmeticOfTheSpindles_3 : ∃ (r : Regs) (x : Int), x < -2147483648 :=
  ⟨{}, -2147483649, by decide⟩
theorem test_ArithmeticOfTheSpindles_4 : ∃ (r : Regs), r.acc.toInt < 0 :=
  ⟨{ acc := 0xFFFFFFFF }, by decide⟩
theorem test_ArithmeticOfTheSpindles_5 : ∃ (r : Regs), 0 ≤ r.acc.toInt :=
  ⟨{}, by decide⟩
theorem test_ArithmeticOfTheSpindles_6 : ∃ (r : Regs) (v : Word), v ≠ 0#32 :=
  ⟨{}, 1, by decide⟩
theorem test_ArithmeticOfTheSpindles_7 : ∃ (r : Regs), r.acc = 0x80000000#32 :=
  ⟨{ acc := 0x80000000 }, by decide⟩
theorem test_BitInstructions_1 : ∃ (op : BitVec 8) (i : LPairN → Instr) (f : Bool → Bool → Bool) (l : LPairN) (n : ProgN) (w : Word) (s : State) (k b : Fin 32), ((op, i, f) ∈ ([(0x01#8, Instr.iLd, fun _ b => b), (0x02#8, Instr.iLdn, fun _ b => !b), (0x03#8, Instr.iAnd, fun a b => a && b), (0x04#8, Instr.iAndn, fun a b => a && !b), (0x05#8, Instr.iOr, fun a b => a || b), (0x06#8, Instr.iOrn, fun a b => a || !b), (0x07#8, Instr.iXor, fun a b => a != b)] : List (BitVec 8 × (LPairN → Instr) × (Bool → Bool → Bool)))) ∧ (s.fetched l = some (n, w)) ∧ (w.extractLsb' 24 8 = op) ∧ (s.bitAt l (w.extractLsb' 0 24) = some (.reg k b)) :=
  ⟨0x07#8, Instr.iXor, fun a b => a != b, 7, 5, 0x078003FF#32, spinSt 0x078003FF#32, 31, 31, by simp, by decide, by decide, by decide⟩
theorem test_BitInstructions_2 : ∃ (op : BitVec 8) (i : LPairN → Instr) (f : Bool → Bool → Bool) (l : LPairN) (n : ProgN) (w : Word) (s : State), ((op, i, f) ∈ ([(0x01#8, Instr.iLd, fun _ b => b), (0x02#8, Instr.iLdn, fun _ b => !b), (0x03#8, Instr.iAnd, fun a b => a && b), (0x04#8, Instr.iAndn, fun a b => a && !b), (0x05#8, Instr.iOr, fun a b => a || b), (0x06#8, Instr.iOrn, fun a b => a || !b), (0x07#8, Instr.iXor, fun a b => a != b)] : List (BitVec 8 × (LPairN → Instr) × (Bool → Bool → Bool)))) ∧ (s.fetched l = some (n, w)) ∧ (w.extractLsb' 24 8 = op) ∧ (s.bitAt l (w.extractLsb' 0 24) = some .ovf) :=
  ⟨0x01#8, Instr.iLd, fun _ b => b, 7, 5, 0x01800400#32, spinSt 0x01800400#32, by simp, by decide, by decide, by decide⟩
theorem test_BitInstructions_3 : ∃ (op : BitVec 8) (i : LPairN → Instr) (f : Bool → Bool → Bool) (l : LPairN) (n : ProgN) (w : Word) (s : State) (a : Nat) (b : Fin 8) (u : State) (y : List Byte), ((op, i, f) ∈ ([(0x01#8, Instr.iLd, fun _ b => b), (0x02#8, Instr.iLdn, fun _ b => !b), (0x03#8, Instr.iAnd, fun a b => a && b), (0x04#8, Instr.iAndn, fun a b => a && !b), (0x05#8, Instr.iOr, fun a b => a || b), (0x06#8, Instr.iOrn, fun a b => a || !b), (0x07#8, Instr.iXor, fun a b => a != b)] : List (BitVec 8 × (LPairN → Instr) × (Bool → Bool → Bool)))) ∧ (s.fetched l = some (n, w)) ∧ (w.extractLsb' 24 8 = op) ∧ (s.bitAt l (w.extractLsb' 0 24) = some (.mem a b)) ∧ (s.loadBytes l a 1 (1#8 <<< b.val) = (u, some y)) :=
  ⟨0x02#8, Instr.iLdn, fun _ b => !b, 7, 5, 0x02000009#32, spinSt 0x02000009#32, 1, 1, spinSt 0x02000009#32, [0], by simp, by decide, by decide, by decide, by rfl⟩
theorem test_BitInstructions_4 : ∃ (op : BitVec 8) (i : LPairN → Instr) (f : Bool → Bool → Bool) (l : LPairN) (n : ProgN) (w : Word) (s : State), ((op, i, f) ∈ ([(0x01#8, Instr.iLd, fun _ b => b), (0x02#8, Instr.iLdn, fun _ b => !b), (0x03#8, Instr.iAnd, fun a b => a && b), (0x04#8, Instr.iAndn, fun a b => a && !b), (0x05#8, Instr.iOr, fun a b => a || b), (0x06#8, Instr.iOrn, fun a b => a || !b), (0x07#8, Instr.iXor, fun a b => a != b)] : List (BitVec 8 × (LPairN → Instr) × (Bool → Bool → Bool)))) ∧ (s.fetched l = some (n, w)) ∧ (w.extractLsb' 24 8 = op) ∧ (s.bitAt l (w.extractLsb' 0 24) = none) :=
  ⟨0x03#8, Instr.iAnd, fun a b => a && b, 7, 5, 0x03800401#32, spinSt 0x03800401#32, by simp, by decide, by decide, by decide⟩
theorem test_BitInstructions_5 : ∃ (l : LPairN) (n : ProgN) (w : Word) (s : State), (s.fetched l = some (n, w)) ∧ (w.extractLsb' 24 8 = 0x08#8) :=
  ⟨7, 5, 0x08400000#32, spinSt 0x08400000#32, by decide⟩
theorem test_BitInstructions_6 : ∃ (l : LPairN) (n : ProgN) (w : Word) (s : State), (s.fetched l = some (n, w)) ∧ (w.extractLsb' 24 8 = 0x09#8) :=
  ⟨7, 5, 0x09400000#32, spinSt 0x09400000#32, by decide⟩
theorem test_BitInstructions_7 : ∃ (l : LPairN) (n : ProgN) (w : Word) (s : State), (s.fetched l = some (n, w)) ∧ (w.extractLsb' 24 8 = 0x0A#8) :=
  ⟨7, 5, 0x0A400000#32, spinSt 0x0A400000#32, by decide⟩
theorem test_BitInstructions_8 : ∃ (l : LPairN) (n : ProgN) (w : Word) (s : State) (k b : Fin 32), (s.fetched l = some (n, w)) ∧ (s.bitAt l (w.extractLsb' 0 24) = some (.reg k b)) :=
  ⟨7, 5, 0x10800001#32, spinSt 0x10800001#32, 0, 1, by decide⟩
theorem test_BitInstructions_9 : ∃ (l : LPairN) (n : ProgN) (w : Word) (s : State), (s.fetched l = some (n, w)) ∧ (w.extractLsb' 24 8 = 0x0C#8) ∧ ((s.regs l).bits.length < 8) :=
  ⟨7, 5, 0x0C000000#32, spinSt 0x0C000000#32, by decide⟩
theorem test_BitInstructions_10 : ∃ (l : LPairN) (n : ProgN) (w : Word) (s : State) (b : Bool) (z : List Bool), (s.fetched l = some (n, w)) ∧ ((s.regs l).bits = b :: z) :=
  ⟨7, 5, 0x0E000000#32, (spinSt 0x0E000000#32).modRegs 7 (fun r => { r with bits := [true] }), true, [], by decide⟩
theorem test_BitInstructions_11 : ∃ (l : LPairN) (n : ProgN) (w : Word) (s : State), (s.fetched l = some (n, w)) ∧ (w.extractLsb' 24 8 = 0x0D#8) ∧ ((s.regs l).bits = []) :=
  ⟨7, 5, 0x0D000000#32, spinSt 0x0D000000#32, by decide⟩
theorem test_TimerCounterAndStoreInstructions_1 : ∃ (l : LPairN) (n : ProgN) (w : Word) (s : State) (k : Fin 32), (s.fetched l = some (n, w)) ∧ (w.extractLsb' 24 8 = 0x23#8) ∧ (s.wordAt l (w.extractLsb' 0 24) 0 = some (.reg k)) :=
  ⟨7, 5, 0x2380001F#32, spinSt 0x2380001F#32, 31, by decide⟩
theorem test_TimerCounterAndStoreInstructions_2 : ∃ (l : LPairN) (n : ProgN) (w : Word) (s : State) (a : Nat) (p : CProg), (s.fetched l = some (n, w)) ∧ (w.extractLsb' 24 8 = 0x23#8) ∧ (s.wordAt l (w.extractLsb' 0 24) 0 = some (.mem a)) ∧ (s.cfg.prog[n] = some p) ∧ (s.mayStore p a 0xFFFFFFFF = true) ∧ (s.injected l = none) :=
  ⟨7, 5, 0x23400000#32, spinSt 0x23400000#32, 0x40000, prog0 0x23400000#32, by decide, by decide, by decide, by rfl, by decide, by decide⟩
theorem test_TimerCounterAndStoreInstructions_3 : ∃ (l : LPairN) (n : ProgN) (w : Word) (s : State) (a : Nat) (p : CProg), (s.fetched l = some (n, w)) ∧ (w.extractLsb' 24 8 = 0x23#8) ∧ (s.wordAt l (w.extractLsb' 0 24) 0 = some (.mem a)) ∧ (s.cfg.prog[n] = some p) ∧ (s.mayStore p a 0xFFFFFFFF = false) :=
  ⟨7, 5, 0x23000000#32, spinSt 0x23000000#32, 0, prog0 0x23000000#32, by decide, by decide, by decide, by rfl, by decide⟩
theorem test_TimerCounterAndStoreInstructions_4 : ∃ (l : LPairN) (n : ProgN) (w : Word) (s : State) (k j : Fin 32), (s.fetched l = some (n, w)) ∧ (w.extractLsb' 24 8 = 0x1E#8) ∧ ((s.regs l).ba = true) ∧ (s.wordAt l (w.extractLsb' 0 24) 0 = some (.reg k)) ∧ (s.wordAt l (w.extractLsb' 0 24) 1 = some (.reg j)) :=
  ⟨7, 5, 0x1E800000#32, (spinSt 0x1E800000#32).modRegs 7 (fun r => { r with ba := true }), 0, 1, by decide⟩
theorem test_TimerCounterAndStoreInstructions_5 : ∃ (op : BitVec 8) (i : LPairN → Instr) (f : Timer → Bool → Word → Word → Timer) (l : LPairN) (n : ProgN) (w : Word) (s : State) (k j m : Fin 32) (y : Timer), ((op, i, f) ∈ ([(0x18#8, Instr.iTon, Timer.ton), (0x19#8, Instr.iTof, Timer.tof), (0x1A#8, Instr.iTp, Timer.tp)] : List (BitVec 8 × (LPairN → Instr) × (Timer → Bool → Word → Word → Timer)))) ∧ (s.fetched l = some (n, w)) ∧ (w.extractLsb' 24 8 = op) ∧ (s.wordAt l (w.extractLsb' 0 24) 0 = some (.reg k)) ∧ (s.wordAt l (w.extractLsb' 0 24) 1 = some (.reg j)) ∧ (s.wordAt l (w.extractLsb' 0 24) 3 = some (.reg m)) ∧ (0 ≤ (s.regs l).acc.toInt) ∧ (y = f { start := (s.regs l).w[k], q := ((s.regs l).w[j]).getLsbD 0, prev := ((s.regs l).w[j]).getLsbD 1 } (s.regs l).ba s.spn.lpair[l].t (s.regs l).acc) ∧ (y.start = (s.regs l).w[k]) :=
  ⟨0x18#8, Instr.iTon, Timer.ton, 7, 5, 0x18800000#32, spinSt 0x18800000#32, 0, 1, 3, Timer.ton { start := 0, q := false, prev := false } false 0 0, by simp, by decide, by decide, by decide, by decide, by decide, by decide, by decide, by decide⟩
theorem test_TimerCounterAndStoreInstructions_6 : ∃ (l : LPairN) (n : ProgN) (w : Word) (s : State) (k j : Fin 32) (c : Word), (s.fetched l = some (n, w)) ∧ (w.extractLsb' 24 8 = 0x1C#8) ∧ (s.wordAt l (w.extractLsb' 0 24) 0 = some (.reg k)) ∧ (s.wordAt l (w.extractLsb' 0 24) 1 = some (.reg j)) ∧ (c = countUp (s.regs l).w[k] (s.regs l).ba (((s.regs l).w[j]).getLsbD 0)) ∧ (c = (s.regs l).w[k]) :=
  ⟨7, 5, 0x1C800000#32, spinSt 0x1C800000#32, 0, 1, 0, by decide⟩
theorem test_TimerCounterAndStoreInstructions_7 : ∃ (l : LPairN) (n : ProgN) (w : Word) (s : State) (k j : Fin 32) (c : Word), (s.fetched l = some (n, w)) ∧ (w.extractLsb' 24 8 = 0x1D#8) ∧ (s.wordAt l (w.extractLsb' 0 24) 0 = some (.reg k)) ∧ (s.wordAt l (w.extractLsb' 0 24) 1 = some (.reg j)) ∧ (c = countDown (s.regs l).w[k] (s.regs l).ba (((s.regs l).w[j]).getLsbD 0)) ∧ (c = (s.regs l).w[k]) :=
  ⟨7, 5, 0x1D800000#32, spinSt 0x1D800000#32, 0, 1, 0, by decide⟩
theorem test_TimerCounterAndStoreInstructions_8 : ∃ (l : LPairN) (n : ProgN) (w : Word) (s : State) (k j m : Fin 32) (y z : Timer) (u v : State), (s.fetched l = some (n, w)) ∧ (w.extractLsb' 24 8 = 0x18#8) ∧ (s.wordAt l (w.extractLsb' 0 24) 0 = some (.reg k)) ∧ (s.wordAt l (w.extractLsb' 0 24) 1 = some (.reg j)) ∧ (s.wordAt l (w.extractLsb' 0 24) 3 = some (.reg m)) ∧ (y = Timer.ton { start := (s.regs l).w[k], q := ((s.regs l).w[j]).getLsbD 0, prev := ((s.regs l).w[j]).getLsbD 1 } (s.regs l).ba s.spn.lpair[l].t (s.regs l).acc) ∧ (z = (if (s.regs l).acc.toInt < 0 then { y with q := (freeNat s.free).testBit 0 } else y)) ∧ (u = (if (s.regs l).acc.toInt < 0 then s.tickFree else s)) ∧ (v = (if y.start = (s.regs l).w[k] then u else u.modRegs l (fun r => r.setW k y.start))) :=
  ⟨7, 5, 0x18800000#32, spinSt 0x18800000#32, 0, 1, 3, Timer.ton { start := 0, q := false, prev := false } false 0 0, Timer.ton { start := 0, q := false, prev := false } false 0 0, spinSt 0x18800000#32, spinSt 0x18800000#32, by decide, by decide, by decide, by decide, by decide, by decide, by decide, rfl, rfl⟩
theorem test_TimerCounterAndStoreInstructions_9 : ∃ (l : LPairN) (n : ProgN) (w : Word) (s : State) (a e d : Nat) (y : Timer) (u v x : State) (b c : List Byte) (p : CProg), (s.fetched l = some (n, w)) ∧ (w.extractLsb' 24 8 = 0x18#8) ∧ (s.wordAt l (w.extractLsb' 0 24) 0 = some (.mem a)) ∧ ((s.wordAt l (w.extractLsb' 0 24) 3).isSome = true) ∧ (s.loadBytes l a 4 0xFF = (u, some b)) ∧ (u.wordAt l (w.extractLsb' 0 24) 1 = some (.mem e)) ∧ (u.loadBytes l e 4 0xFF = (v, some c)) ∧ (y = Timer.ton { start := BitVec.ofNat 32 (leNat b), q := (BitVec.ofNat 32 (leNat c)).getLsbD 0, prev := (BitVec.ofNat 32 (leNat c)).getLsbD 1 } (v.regs l).ba v.spn.lpair[l].t (v.regs l).acc) ∧ (0 ≤ (v.regs l).acc.toInt) ∧ (v.wordAt l (w.extractLsb' 0 24) 0 = some (.mem a)) ∧ (v.cfg.prog[n] = some p) ∧ (v.mayStore p a 0xFFFFFFFF = true) ∧ (v.injected l = none) ∧ (x = (if y.start = BitVec.ofNat 32 (leNat b) then v else v.doStore l (wordBytes a y.start))) ∧ (x.wordAt l (w.extractLsb' 0 24) 1 = some (.mem d)) ∧ (x.cfg.prog[n] = some p) ∧ (x.mayStore p d 0xFFFFFFFF = true) ∧ (x.injected l = none) :=
  ⟨7, 5, 0x18400000#32, spinSt 0x18400000#32, 0x40000, 0x40004, 0x40004, Timer.ton { start := 0, q := false, prev := false } false 0 0, spinSt 0x18400000#32, spinSt 0x18400000#32, spinSt 0x18400000#32, [0, 0, 0, 0], [0, 0, 0, 0], prog0 0x18400000#32, by decide, by decide, by decide, by decide, by rfl, by decide, by rfl, by decide, by decide, by decide, by rfl, by decide, by decide, rfl, by decide, by rfl, by decide, by decide⟩
theorem test_TimerCounterAndStoreInstructions_10 : ∃ (l : LPairN) (n : ProgN) (w : Word) (s : State) (k j m : Fin 32) (y z : Timer) (u v : State), (s.fetched l = some (n, w)) ∧ (w.extractLsb' 24 8 = 0x19#8) ∧ (s.wordAt l (w.extractLsb' 0 24) 0 = some (.reg k)) ∧ (s.wordAt l (w.extractLsb' 0 24) 1 = some (.reg j)) ∧ (s.wordAt l (w.extractLsb' 0 24) 3 = some (.reg m)) ∧ (y = Timer.tof { start := (s.regs l).w[k], q := ((s.regs l).w[j]).getLsbD 0, prev := ((s.regs l).w[j]).getLsbD 1 } (s.regs l).ba s.spn.lpair[l].t (s.regs l).acc) ∧ (z = (if (s.regs l).acc.toInt < 0 then { y with q := (freeNat s.free).testBit 0 } else y)) ∧ (u = (if (s.regs l).acc.toInt < 0 then s.tickFree else s)) ∧ (v = (if y.start = (s.regs l).w[k] then u else u.modRegs l (fun r => r.setW k y.start))) :=
  ⟨7, 5, 0x19800000#32, spinSt 0x19800000#32, 0, 1, 3, Timer.tof { start := 0, q := false, prev := false } false 0 0, Timer.tof { start := 0, q := false, prev := false } false 0 0, spinSt 0x19800000#32, spinSt 0x19800000#32, by decide, by decide, by decide, by decide, by decide, by decide, by decide, rfl, rfl⟩
theorem test_TimerCounterAndStoreInstructions_11 : ∃ (l : LPairN) (n : ProgN) (w : Word) (s : State) (a e d : Nat) (y : Timer) (u v x : State) (b c : List Byte) (p : CProg), (s.fetched l = some (n, w)) ∧ (w.extractLsb' 24 8 = 0x19#8) ∧ (s.wordAt l (w.extractLsb' 0 24) 0 = some (.mem a)) ∧ ((s.wordAt l (w.extractLsb' 0 24) 3).isSome = true) ∧ (s.loadBytes l a 4 0xFF = (u, some b)) ∧ (u.wordAt l (w.extractLsb' 0 24) 1 = some (.mem e)) ∧ (u.loadBytes l e 4 0xFF = (v, some c)) ∧ (y = Timer.tof { start := BitVec.ofNat 32 (leNat b), q := (BitVec.ofNat 32 (leNat c)).getLsbD 0, prev := (BitVec.ofNat 32 (leNat c)).getLsbD 1 } (v.regs l).ba v.spn.lpair[l].t (v.regs l).acc) ∧ (0 ≤ (v.regs l).acc.toInt) ∧ (v.wordAt l (w.extractLsb' 0 24) 0 = some (.mem a)) ∧ (v.cfg.prog[n] = some p) ∧ (v.mayStore p a 0xFFFFFFFF = true) ∧ (v.injected l = none) ∧ (x = (if y.start = BitVec.ofNat 32 (leNat b) then v else v.doStore l (wordBytes a y.start))) ∧ (x.wordAt l (w.extractLsb' 0 24) 1 = some (.mem d)) ∧ (x.cfg.prog[n] = some p) ∧ (x.mayStore p d 0xFFFFFFFF = true) ∧ (x.injected l = none) :=
  ⟨7, 5, 0x19400000#32, spinSt 0x19400000#32, 0x40000, 0x40004, 0x40004, Timer.tof { start := 0, q := false, prev := false } false 0 0, spinSt 0x19400000#32, spinSt 0x19400000#32, spinSt 0x19400000#32, [0, 0, 0, 0], [0, 0, 0, 0], prog0 0x19400000#32, by decide, by decide, by decide, by decide, by rfl, by decide, by rfl, by decide, by decide, by decide, by rfl, by decide, by decide, rfl, by decide, by rfl, by decide, by decide⟩
theorem test_TimerCounterAndStoreInstructions_12 : ∃ (l : LPairN) (n : ProgN) (w : Word) (s : State) (k j m : Fin 32) (y z : Timer) (u v : State), (s.fetched l = some (n, w)) ∧ (w.extractLsb' 24 8 = 0x1A#8) ∧ (s.wordAt l (w.extractLsb' 0 24) 0 = some (.reg k)) ∧ (s.wordAt l (w.extractLsb' 0 24) 1 = some (.reg j)) ∧ (s.wordAt l (w.extractLsb' 0 24) 3 = some (.reg m)) ∧ (y = Timer.tp { start := (s.regs l).w[k], q := ((s.regs l).w[j]).getLsbD 0, prev := ((s.regs l).w[j]).getLsbD 1 } (s.regs l).ba s.spn.lpair[l].t (s.regs l).acc) ∧ (z = (if (s.regs l).acc.toInt < 0 then { y with q := (freeNat s.free).testBit 0 } else y)) ∧ (u = (if (s.regs l).acc.toInt < 0 then s.tickFree else s)) ∧ (v = (if y.start = (s.regs l).w[k] then u else u.modRegs l (fun r => r.setW k y.start))) :=
  ⟨7, 5, 0x1A800000#32, spinSt 0x1A800000#32, 0, 1, 3, Timer.tp { start := 0, q := false, prev := false } false 0 0, Timer.tp { start := 0, q := false, prev := false } false 0 0, spinSt 0x1A800000#32, spinSt 0x1A800000#32, by decide, by decide, by decide, by decide, by decide, by decide, by decide, rfl, rfl⟩
theorem test_TimerCounterAndStoreInstructions_13 : ∃ (l : LPairN) (n : ProgN) (w : Word) (s : State) (a e d : Nat) (y : Timer) (u v x : State) (b c : List Byte) (p : CProg), (s.fetched l = some (n, w)) ∧ (w.extractLsb' 24 8 = 0x1A#8) ∧ (s.wordAt l (w.extractLsb' 0 24) 0 = some (.mem a)) ∧ ((s.wordAt l (w.extractLsb' 0 24) 3).isSome = true) ∧ (s.loadBytes l a 4 0xFF = (u, some b)) ∧ (u.wordAt l (w.extractLsb' 0 24) 1 = some (.mem e)) ∧ (u.loadBytes l e 4 0xFF = (v, some c)) ∧ (y = Timer.tp { start := BitVec.ofNat 32 (leNat b), q := (BitVec.ofNat 32 (leNat c)).getLsbD 0, prev := (BitVec.ofNat 32 (leNat c)).getLsbD 1 } (v.regs l).ba v.spn.lpair[l].t (v.regs l).acc) ∧ (0 ≤ (v.regs l).acc.toInt) ∧ (v.wordAt l (w.extractLsb' 0 24) 0 = some (.mem a)) ∧ (v.cfg.prog[n] = some p) ∧ (v.mayStore p a 0xFFFFFFFF = true) ∧ (v.injected l = none) ∧ (x = (if y.start = BitVec.ofNat 32 (leNat b) then v else v.doStore l (wordBytes a y.start))) ∧ (x.wordAt l (w.extractLsb' 0 24) 1 = some (.mem d)) ∧ (x.cfg.prog[n] = some p) ∧ (x.mayStore p d 0xFFFFFFFF = true) ∧ (x.injected l = none) :=
  ⟨7, 5, 0x1A400000#32, spinSt 0x1A400000#32, 0x40000, 0x40004, 0x40004, Timer.tp { start := 0, q := false, prev := false } false 0 0, spinSt 0x1A400000#32, spinSt 0x1A400000#32, spinSt 0x1A400000#32, [0, 0, 0, 0], [0, 0, 0, 0], prog0 0x1A400000#32, by decide, by decide, by decide, by decide, by rfl, by decide, by rfl, by decide, by decide, by decide, by rfl, by decide, by decide, rfl, by decide, by rfl, by decide, by decide⟩
theorem test_TimerCounterAndStoreInstructions_14 : ∃ (l : LPairN) (n : ProgN) (w : Word) (s : State) (a : Nat) (p : CProg), (s.fetched l = some (n, w)) ∧ (w.extractLsb' 24 8 = 0x1E#8) ∧ ((s.regs l).ba = true) ∧ (s.wordAt l (w.extractLsb' 0 24) 0 = some (.mem a)) ∧ ((s.wordAt l (w.extractLsb' 0 24) 1).isSome = true) ∧ (s.cfg.prog[n] = some p) ∧ (s.mayStore p a 0xFFFFFFFF = true) ∧ (s.injected l = none) :=
  ⟨7, 5, 0x1E400000#32, (spinSt 0x1E400000#32).modRegs 7 (fun r => { r with ba := true }), 0x40000, prog0 0x1E400000#32, by decide, by decide, by decide, by decide, by decide, by rfl, by decide, by decide⟩
theorem test_TimerCounterAndStoreInstructions_15 : ∃ (l : LPairN) (n : ProgN) (w : Word) (s : State), (s.fetched l = some (n, w)) ∧ (w.extractLsb' 24 8 = 0x1E#8) ∧ ((s.regs l).ba = false) :=
  ⟨7, 5, 0x1E800000#32, spinSt 0x1E800000#32, by decide⟩
theorem test_TimerCounterAndStoreInstructions_16 : ∃ (l : LPairN) (n : ProgN) (w : Word) (s : State), (w.extractLsb' 24 8 = 0x18#8 ∨ w.extractLsb' 24 8 = 0x19#8 ∨ w.extractLsb' 24 8 = 0x1A#8) ∧ (s.fetched l = some (n, w)) ∧ (s.wordAt l (w.extractLsb' 0 24) 3 = none) :=
  ⟨7, 5, 0x1A80001D#32, spinSt 0x1A80001D#32, by decide⟩
theorem test_SharedObjectInstructions_1 : ∃ (l : LPairN) (n : ProgN) (w : Word) (s : State) (u : State) (b : List Byte), (s.fetched l = some (n, w)) ∧ (w.extractLsb' 24 8 = 0x37#8) ∧ (s.loadBytes l (0x2000 + 4 * field (w.extractLsb' 0 24) 0 10) 4 0xFF = (u, some b)) :=
  ⟨7, 5, 0x370003FF#32, spinSt 0x370003FF#32, spinSt 0x370003FF#32, [0, 0, 0, 0], by decide, by decide, by rfl⟩
theorem test_SharedObjectInstructions_2 : ∃ (l : LPairN) (n : ProgN) (w : Word) (s : State), (s.fetched l = some (n, w)) ∧ (w.extractLsb' 24 8 = 0x40#8) ∧ ((s.regs l).ba = true) ∧ (s.spn.lpair[l].replay = none) ∧ (field (w.extractLsb' 0 24) 8 4 = 1) :=
  ⟨7, 5, 0x40000105#32, (spinSt 0x40000105#32).modRegs 7 (fun r => { r with ba := true }), by decide⟩
theorem test_SharedObjectInstructions_3 : ∃ (l : LPairN) (n : ProgN) (w : Word) (s : State), (s.fetched l = some (n, w)) ∧ (w.extractLsb' 24 8 = 0x41#8) ∧ ((s.regs l).ba = true) ∧ (s.spn.lpair[l].replay = none) :=
  ⟨7, 5, 0x41000105#32, (spinSt 0x41000105#32).modRegs 7 (fun r => { r with ba := true }), by decide⟩
theorem test_SharedObjectInstructions_4 : ∃ (l : LPairN) (n : ProgN) (w : Word) (s : State) (e : Fin 256), (s.fetched l = some (n, w)) ∧ (w.extractLsb' 24 8 = 0x43#8) ∧ ((s.regs l).ba = true) ∧ (s.spn.lpair[l].replay = none) ∧ (e = Fin.ofNat 256 (field (w.extractLsb' 0 24) 0 8)) ∧ (s.ownsEvent n e = true) :=
  ⟨7, 5, 0x43000005#32, (spinSt 0x43000005#32).modRegs 7 (fun r => { r with ba := true }), 5, by decide⟩
theorem test_SharedObjectInstructions_5 : ∃ (l : LPairN) (n : ProgN) (w : Word) (s : State) (e : Fin 256), (s.fetched l = some (n, w)) ∧ (w.extractLsb' 24 8 = 0x43#8) ∧ ((s.regs l).ba = true) ∧ (e = Fin.ofNat 256 (field (w.extractLsb' 0 24) 0 8)) ∧ (s.ownsEvent n e = false) :=
  ⟨7, 5, 0x430000F0#32, (spinSt 0x430000F0#32).modRegs 7 (fun r => { r with ba := true }), 240, by decide⟩
theorem test_SharedObjectInstructions_6 : ∃ (l : LPairN) (n : ProgN) (w : Word) (s : State), (s.fetched l = some (n, w)) ∧ ((s.regs l).ba = false) :=
  ⟨7, 5, 0x48000000#32, spinSt 0x48000000#32, by decide⟩
theorem test_SharedObjectInstructions_7 : ∃ (l : LPairN) (n : ProgN) (w : Word) (s : State), (s.fetched l = some (n, w)) ∧ (w.extractLsb' 24 8 = 0x48#8) ∧ ((s.regs l).ba = true) ∧ ((s.drain l).spn.lpair[l].replay = none) :=
  ⟨7, 5, 0x48000005#32, (spinSt 0x48000005#32).modRegs 7 (fun r => { r with ba := true }), by decide⟩
theorem test_SharedObjectInstructions_8 : ∃ (l : LPairN) (n : ProgN) (w : Word) (s : State) (k : Fin 256), (s.fetched l = some (n, w)) ∧ (w.extractLsb' 24 8 = 0x4A#8) ∧ (s.spn.lpair[l].replay = none) ∧ (k = Fin.ofNat 256 (field (w.extractLsb' 0 24) 0 8)) :=
  ⟨7, 5, 0x4A0000FF#32, spinSt 0x4A0000FF#32, 255, by decide⟩
theorem test_SharedObjectInstructions_9 : ∃ (l : LPairN) (n : ProgN) (w : Word) (s : State) (k : Fin 256), (s.fetched l = some (n, w)) ∧ (w.extractLsb' 24 8 = 0x4B#8) ∧ ((s.drain l).spn.lpair[l].replay = none) ∧ (k = Fin.ofNat 256 (field (w.extractLsb' 0 24) 0 8)) :=
  ⟨7, 5, 0x4B0000FF#32, spinSt 0x4B0000FF#32, 255, by decide⟩
theorem test_SharedObjectInstructions_10 : ∃ (l : LPairN) (n : ProgN) (w : Word) (s : State), (s.fetched l = some (n, w)) ∧ (w.extractLsb' 24 8 = 0x49#8) ∧ ((s.regs l).calls = []) ∧ ((s.regs l).pc + 1 = (s.extent l n).2) ∧ (s.spn.lpair[l].bead + 1 < s.beadCount n) :=
  ⟨7, 5, 0x49000001#32, spinSt 0x49000001#32, by decide⟩
theorem test_FlowInstructions_1 : ∃ (l : LPairN) (n : ProgN) (w : Word) (s : State) (a : Nat), (s.fetched l = some (n, w)) ∧ (w.extractLsb' 24 8 = 0x50#8) ∧ (0 < field (w.extractLsb' 0 24) 0 16) ∧ (a = (s.regs l).pc + field (w.extractLsb' 0 24) 0 16) ∧ ((s.extent l n).1 ≤ a) ∧ (a < (s.extent l n).2) :=
  ⟨7, 5, 0x50000001#32, { spinSt 0x50000001#32 with cfg := { (spinSt 0x50000001#32).cfg with prog := Vector.replicate 256 (some { prog0 0x50000001#32 with code := [0x50000001#32, 0, 0], beads := [(0, 1)] }) } }, 1, by decide⟩
theorem test_FlowInstructions_2 : ∃ (l : LPairN) (n : ProgN) (w : Word) (s : State), s.fetched l = some (n, w) :=
  ⟨7, 5, 0x51000001#32, spinSt 0x51000001#32, by decide⟩
theorem test_FlowInstructions_3 : ∃ (l : LPairN) (n : ProgN) (w : Word) (s : State) (k : Fin 32) (v : Word), (s.fetched l = some (n, w)) ∧ (w.extractLsb' 24 8 = 0x53#8) ∧ (k = regField (w.extractLsb' 0 24) 16) ∧ (v = (s.regs l).w[k] - 1) ∧ (v.toInt ≤ 0) :=
  ⟨7, 5, 0x53000001#32, spinSt 0x53000001#32, 0, 0xFFFFFFFF#32, by decide⟩
theorem test_FlowInstructions_4 : ∃ (l : LPairN) (n : ProgN) (w : Word) (s : State) (k : Fin 32) (v : Word) (a : Nat), (s.fetched l = some (n, w)) ∧ (w.extractLsb' 24 8 = 0x53#8) ∧ (k = regField (w.extractLsb' 0 24) 16) ∧ (v = (s.regs l).w[k] - 1) ∧ (0 < v.toInt) ∧ ((s.regs l).loops = []) ∧ (0 < field (w.extractLsb' 0 24) 8 8) ∧ (a + field (w.extractLsb' 0 24) 0 8 = (s.regs l).pc) :=
  ⟨7, 5, 0x53000300#32, (spinSt 0x53000300#32).modRegs 7 (fun r => r.setW 0 2), 0, 1, 0, by decide⟩
theorem test_FlowInstructions_5 : ∃ (l : LPairN) (n : ProgN) (w : Word) (s : State) (p : CProg) (e : Nat × Nat), (s.fetched l = some (n, w)) ∧ (w.extractLsb' 24 8 = 0x54#8) ∧ ((s.regs l).calls.length < 8) ∧ (s.cfg.prog[n] = some p) ∧ (p.subs[field (w.extractLsb' 0 24) 0 16]? = some e) :=
  ⟨7, 5, 0x54000000#32, spinSt 0x54000000#32, prog0 0x54000000#32, (0, 1), by decide, by decide, by decide, by rfl, by decide⟩
theorem test_FlowInstructions_6 : ∃ (l : LPairN) (n : ProgN) (w : Word) (s : State), (s.fetched l = some (n, w)) ∧ (w.extractLsb' 24 8 = 0x54#8) ∧ (8 ≤ (s.regs l).calls.length) :=
  ⟨7, 5, 0x54000000#32, (spinSt 0x54000000#32).modRegs 7 (fun r => { r with calls := List.replicate 8 0 }), by decide⟩
theorem test_FlowInstructions_7 : ∃ (l : LPairN) (n : ProgN) (w : Word) (s : State) (a : Nat) (z : List Nat), (s.fetched l = some (n, w)) ∧ (w.extractLsb' 24 8 = 0x55#8) ∧ ((s.regs l).calls = a :: z) :=
  ⟨7, 5, 0x55000000#32, (spinSt 0x55000000#32).modRegs 7 (fun r => { r with calls := [1] }), 1, [], by decide⟩
theorem test_FlowInstructions_8 : ∃ (l : LPairN) (n : ProgN) (w : Word) (s : State), (s.fetched l = some (n, w)) ∧ (w.extractLsb' 24 8 = 0x55#8) ∧ ((s.regs l).calls = []) :=
  ⟨7, 5, 0x55000000#32, spinSt 0x55000000#32, by decide⟩
theorem test_FlowInstructions_9 : ∃ (l : LPairN) (n : ProgN) (w : Word) (s : State) (k : Nat), (s.fetched l = some (n, w)) ∧ (w.extractLsb' 24 8 = 0x56#8) ∧ ((s.regs l).calls = []) ∧ (k = (if field (w.extractLsb' 0 24) 0 16 = 0xFFFF then s.spn.lpair[l].bead + 1 else field (w.extractLsb' 0 24) 0 16)) ∧ (k < s.beadCount n) :=
  ⟨7, 5, 0x5600FFFF#32, spinSt 0x5600FFFF#32, 1, by decide⟩
theorem test_FlowInstructions_10 : ∃ (l : LPairN) (n : ProgN) (w : Word) (s : State) (k : Nat), (s.fetched l = some (n, w)) ∧ (w.extractLsb' 24 8 = 0x56#8) ∧ ((s.regs l).calls = []) ∧ (k = (if field (w.extractLsb' 0 24) 0 16 = 0xFFFF then s.spn.lpair[l].bead + 1 else field (w.extractLsb' 0 24) 0 16)) ∧ (s.beadCount n ≤ k) :=
  ⟨7, 5, 0x56000002#32, spinSt 0x56000002#32, 2, by decide⟩
theorem test_FlowInstructions_11 : ∃ (l : LPairN) (n : ProgN) (w : Word) (s : State), (s.fetched l = some (n, w)) ∧ (w.extractLsb' 24 8 = 0x57#8) ∧ ((s.regs l).calls = []) :=
  ⟨7, 5, 0x57000000#32, spinSt 0x57000000#32, by decide⟩
theorem test_ImageMemoryFrame_1 : ∃ (c : Instr) (s t : State) (a : Nat), (Safety.mayWriteImage c = false) ∧ (exec c s = .next t) :=
  ⟨.vinAbsenceBegin, State.reset, State.reset.absent, 0x40000, by decide, rfl⟩
theorem test_MemoryReadAfterWrite_1 : ∃ (m : List Host.Cell) (a i : Nat) (l : List Byte), (Memory.wf m = true) ∧ (i < l.length) :=
  ⟨[], 0x40000, 3, [1, 2, 3, 4], by decide⟩
theorem test_MemoryReadAfterWrite_2 : ∃ (m : List Host.Cell) (a x : Nat) (l : List Byte), (Memory.wf m = true) ∧ (x < a ∨ a + l.length ≤ x) :=
  ⟨[(0x40004, 9)], 0x40000, 0x40004, [1, 2, 3, 4], by decide⟩
theorem test_MemoryReadAfterWrite_3 : ∃ (m : List Host.Cell) (a n : Nat) (l : List Byte), Memory.wf m = true :=
  ⟨[(0, 1)], 0, 1, [0], by decide⟩
theorem test_MemoryReadAfterWrite_4 : ∃ (m : List Host.Cell) (a : Nat) (w : Word), Memory.wf m = true :=
  ⟨[], 0x40000, 0xFFFFFFFF, by decide⟩
theorem test_MemoryReadAfterWrite_6 : ∃ (m : List Host.Cell) (src dst n x : Nat), Memory.wf m = true :=
  ⟨[(0x10000, 5)], 0x10000, 0x20000, 65536, 0x20000, by decide⟩
theorem test_CounterBlocks_1 : ∃ (count : Word), count.toInt < 2147483647 :=
  ⟨0x7FFFFFFE, by decide⟩
theorem test_CounterBlocks_2 : ∃ (count : Word), count.toInt = 2147483647 :=
  ⟨0x7FFFFFFF, by decide⟩
theorem test_CounterBlocks_3 : ∃ (count : Word), -2147483648 < count.toInt :=
  ⟨0x80000001, by decide⟩
theorem test_CounterBlocks_4 : ∃ (count : Word), count.toInt = -2147483648 :=
  ⟨0x80000000, by decide⟩
theorem test_CounterBlocks_5 : ∃ (count : Word) (ba edge : Bool), (ba && !edge) = false :=
  ⟨7, true, true, by decide⟩
theorem test_CounterBlocks_6 : ∃ (l : LPairN) (n : ProgN) (w : Word) (s : State), (s.fetched l = some (n, w)) ∧ (w.extractLsb' 24 8 = 0x1C#8) ∧ ((s.wordAt l (w.extractLsb' 0 24) 1).isNone = false) :=
  ⟨7, 5, 0x1C800000#32, spinSt 0x1C800000#32, by decide⟩
theorem test_CounterBlocks_7 : ∃ (l : LPairN) (n : ProgN) (w : Word) (s : State), (s.fetched l = some (n, w)) ∧ (w.extractLsb' 24 8 = 0x1D#8) ∧ ((s.wordAt l (w.extractLsb' 0 24) 1).isNone = false) :=
  ⟨7, 5, 0x1D800000#32, spinSt 0x1D800000#32, by decide⟩
theorem test_CounterBlocks_8 : ∃ (l : LPairN) (n : ProgN) (w : Word) (s : State) (k j : Fin 32) (c : Word), (s.fetched l = some (n, w)) ∧ (w.extractLsb' 24 8 = 0x1C#8) ∧ (s.wordAt l (w.extractLsb' 0 24) 0 = some (.reg k)) ∧ (s.wordAt l (w.extractLsb' 0 24) 1 = some (.reg j)) ∧ (c = countUp (s.regs l).w[k] (s.regs l).ba (((s.regs l).w[j]).getLsbD 0)) ∧ (c ≠ (s.regs l).w[k]) :=
  ⟨7, 5, 0x1C800000#32, (spinSt 0x1C800000#32).modRegs 7 (fun r => { r with ba := true }), 0, 1, 1, by decide⟩
theorem test_CounterBlocks_9 : ∃ (l : LPairN) (n : ProgN) (w : Word) (s : State), (s.fetched l = some (n, w)) ∧ (w.extractLsb' 24 8 = 0x1C#8) ∧ (s.wordAt l (w.extractLsb' 0 24) 1 = none) :=
  ⟨7, 5, 0x1C80001F#32, spinSt 0x1C80001F#32, by decide⟩
theorem test_CounterBlocks_10 : ∃ (l : LPairN) (n : ProgN) (w : Word) (s : State), (s.fetched l = some (n, w)) ∧ (w.extractLsb' 24 8 = 0x1D#8) ∧ (s.wordAt l (w.extractLsb' 0 24) 1 = none) :=
  ⟨7, 5, 0x1D80001F#32, spinSt 0x1D80001F#32, by decide⟩
theorem test_LaterFaultListKeepsItsPlaces_1 : ∃ (d : NvData) (e : Lfl), d.lfl.length < 255 :=
  ⟨State.reset.nv.cur, lfl0, by decide⟩
theorem test_LaterFaultListKeepsItsPlaces_2 : ∃ (d : NvData) (e : Lfl), d.lfl.length = 255 :=
  ⟨{ State.reset.nv.cur with lfl := List.replicate 255 lfl0 }, lfl0, by simp⟩
theorem test_LaterFaultListKeepsItsPlaces_3 : ∃ (d : NvData) (e : Lfl), d.lfl.length ≤ 255 :=
  ⟨State.reset.nv.cur, lfl0, by decide⟩
theorem test_LaterFaultListKeepsItsPlaces_4 : ∃ (s : State) (src cls : Option Nat) (name : String) (detail : List Nat), s.g.st ≠ .lastGasp :=
  ⟨State.reset, some 20, none, "TOUCH_STUCK", [], by decide⟩
theorem test_LaterFaultListKeepsItsPlaces_5 : ∃ (s : State) (a : Nat) (rest : List Nat), (s.touch.alerts = a :: rest) ∧ (s.touch.page = 2) ∧ (s.sec.waiting = none) ∧ ((s.jurOpen = true → s.hasRoom 0 128 = true)) :=
  ⟨{ State.reset with touch := { alerts := [7, 8], page := 2 } }, 7, [8], by decide, by decide, by decide, by decide⟩
theorem test_ClaimAndComplete_1 : ∃ (x : Tgt) (n : Nat), (x.source = some n) ∧ (n < 1024) :=
  ⟨{ source := some 1023 }, 1023, by decide⟩
theorem test_ClaimAndComplete_2 : ∃ (x : Tgt), x.source = none :=
  ⟨{}, by decide⟩
theorem test_ClaimAndComplete_3 : ∃ (t : TgtN) (s : State) (n : Nat), s.evt.tgt[t].source = some n :=
  ⟨63, { State.reset with evt := { tgt := Vector.replicate 64 { source := some 719 } } }, 719, by decide⟩
theorem test_ClaimAndComplete_4 : ∃ (t : TgtN) (s : State), s.evt.tgt[t].source = none :=
  ⟨63, State.reset, by decide⟩
theorem test_ClaimAndComplete_5 : ∃ (e : Evt) (n : Nat) (t : TgtN) (stamp : Ns), (e.find n = some ⟨false, stamp⟩) ∧ (e.masked n = false) ∧ (e.barred.getLsbD (srcGroup n) = false) ∧ (e.best e.route[Fin.ofNat 1024 n] = some t) :=
  ⟨{ srcs := [(719, ⟨false, 5⟩)], mask := Vector.replicate 32 0, route := Vector.replicate 1024 (BitVec.allOnes 64), tgt := Vector.replicate 64 { prio := 1 }, msixEn := true, fnMask := false, vecMask := 0x7FFFFFFFFFFFFFFF }, 719, 63, 5, by decide⟩
theorem test_ClaimAndComplete_6 : ∃ (t : TgtN) (src : BitVec 10) (s : State), (s.evt.tgt[t].source = some src.toNat) ∧ ((∀ x ∈ s.evt.lostNow, x.stamp = s.stamp → x.src ≠ src.toNat)) :=
  ⟨63, 719#10, { State.reset with evt := { tgt := Vector.replicate 64 { source := some 719 } } }, by decide⟩
theorem test_ClaimAndComplete_7 : ∃ (t : TgtN) (src : BitVec 10) (s : State) (x : LostEv), (s.evt.tgt[t].source = some src.toNat) ∧ (x ∈ s.evt.lostNow) ∧ (x.stamp = s.stamp) ∧ (x.src = src.toNat) :=
  ⟨63, 719#10, { State.reset with evt := { tgt := Vector.replicate 64 { source := some 719 }, lostNow := [⟨719, 10, false, 0⟩] } }, ⟨719, 10, false, 0⟩, by decide⟩
theorem test_ClaimAndComplete_8 : ∃ (t : TgtN) (src : BitVec 10) (s : State), s.evt.tgt[t].source ≠ some src.toNat :=
  ⟨63, 719#10, State.reset, by decide⟩
theorem test_LockTableRows_1 : ∃ (s : State) (k : Fin 256) (w : LockOwner), s.lck.lock[k].st = .free :=
  ⟨State.reset, 255, .pair 7, by decide⟩
theorem test_LockTableRows_2 : ∃ (s : State) (k : Fin 256) (w : LockOwner), (s.lck.lock[k].st = .held) ∧ (s.lck.lock[k].owner = w) :=
  ⟨{ State.reset with lck := { State.reset.lck with lock := Vector.replicate 256 { st := .held, owner := .host 63 } } }, 255, .host 63, by decide⟩
theorem test_LockTableRows_3 : ∃ (s : State) (k : Fin 256) (w : LockOwner), (s.lck.lock[k].st = .held) ∧ (s.lck.lock[k].owner ≠ w) :=
  ⟨{ State.reset with lck := { State.reset.lck with lock := Vector.replicate 256 { st := .held, owner := .host 63 } } }, 255, .pair 7, by decide⟩
theorem test_LockTableRows_4 : ∃ (s : State) (k : Fin 256) (w : LockOwner), s.lck.lock[k].st = .orphaned :=
  ⟨{ State.reset with lck := { State.reset.lck with lock := Vector.replicate 256 { st := .orphaned, owner := .host 63 } } }, 255, .pair 7, by decide⟩
theorem test_LockTableRows_5 : ∃ (s : State) (k : Fin 256) (w : LockOwner) (clear : Bool), (s.lck.lock[k].st = .held) ∧ (s.lck.lock[k].owner = w) :=
  ⟨{ State.reset with lck := { State.reset.lck with lock := Vector.replicate 256 { st := .held, owner := .host 63 } } }, 255, .host 63, true, by decide⟩
theorem test_LockTableRows_6 : ∃ (s : State) (k : Fin 256) (w : LockOwner) (clear : Bool), s.lck.lock[k].st ≠ .held ∨ s.lck.lock[k].owner ≠ w :=
  ⟨{ State.reset with lck := { State.reset.lck with lock := Vector.replicate 256 { st := .orphaned, owner := .host 63 } } }, 255, .host 63, true, by decide⟩
theorem test_LockTableRows_7 : ∃ (s : State) (w : LockOwner), (∀ k : Fin 256, s.lck.lock[k].st ≠ .held ∨ s.lck.lock[k].owner ≠ w) :=
  ⟨State.reset, .pair 7, by decide +kernel⟩

/-! ### Ill-formed terms, which the check refuses -/

theorem test_illFormed_temps : exec (.internalTempMeasure [1, 2, 3]) State.reset = .refused .illFormed := rfl
theorem test_illFormed_selftest (b : SelfTest) : (Instr.selftestComplete b { replan0 with factors := [] }).wellFormed = false := rfl
theorem test_illFormed_replan : exec (.replanEnd { replan0 with kC := [] }) State.reset = .refused .illFormed := rfl
theorem test_illFormed_probe : exec (.probeSnapshotEnd 255 [none]) State.reset = .refused .illFormed := rfl
theorem test_illFormed_burst : exec (.meterBurst [] []) State.reset = .refused .illFormed := rfl
theorem test_illFormed_snapshotBurst : exec (.snapshotBurstEnd []) State.reset = .refused .illFormed := rfl
theorem test_illFormed_sampled : exec (.sampledSampling [1]) State.reset = .refused .illFormed := rfl
theorem test_illFormed_line : exec (.lineJudgement []) State.reset = .refused .illFormed := rfl
theorem test_illFormed_classify : exec (.systemClassify []) State.reset = .refused .illFormed := rfl
theorem test_illFormed_payload : (Instr.streamPayloadAdmitted 2 1 16 0 []).wellFormed = false := rfl

/-! ### The interlock bead: words of the example that closes the spindles' chapter -/

/-- ACC and BA of pair 7 after a command, where it answers a next state. -/
def accBa (o : Host.Outcome State Fault Refusal) : Option (Word × Bool) :=
  match o with | .next u => some ((u.regs 7).acc, (u.regs 7).ba) | _ => none
theorem test_bead_ldi : accBa (exec (.iLdi 7) (spinSt 0x21006000#32)) = some (24576#32, false) := by decide
theorem test_bead_preset : accBa (exec (.iLdi 7) (spinSt 0x21030D40#32)) = some (200000#32, false) := by decide
theorem test_bead_cmpgt : accBa (exec (.iCmpgt 7) ((spinSt 0x32800005#32).modRegs 7 (fun r => { r.setW 5 0x6000#32 with
    acc := 0x6001#32 }))) = some (0x6001#32, true) := by decide
theorem test_bead_enBit : State.reset.bitAt 2 0x00A40A#24 = some (.mem 0x1481 2) := by decide
theorem test_bead_timerBlock : State.reset.wordAt 2 0x600000#24 0 = some (.mem (locBase 2)) := by decide
theorem test_bead_otherRow : exec (.iLdw 7) (spinSt 0x21006000#32) = .next (spinSt 0x21006000#32) := rfl
theorem test_div_truncates : ({ acc := 0xFFFFFFF9#32 } : Regs).divide 2#32 = { acc := 0xFFFFFFFD#32 } := by decide

/-! ### The 0.90 V core rail of the examples under R116 and R192 -/

/-- Rail 72 of the examples. -/
def exRail : CRail := { rail0 with nominal := 900000, faultLo := 846000, faultHi := 954000, trimGain := 97660, range := 0 }
/-- The Workbench defaults of its module. -/
def exMod : CModule := { mod0 with probeStep := 5, marginGuard := 10 }
theorem test_example_faultCodes : exRail.loCode = 541 ∧ exRail.hiCode = 611 := by decide
theorem test_example_marginWindow : marginLo exMod exRail = 8543125 * 25600 ∧ marginHi exMod exRail = 9456875 * 25600 := by decide
theorem test_example_probeStep : probeOffset exMod exRail (900400 * 256) = some (0 - 5) ∧ trimCode exRail (0 - 5) = 46 := by decide

/-! ### Register addresses and reset values -/

theorem test_claim5_address : State.reset.bar0Word 0x410A4 = 0x80000000#32 := by decide
theorem test_marginStat72_address : (State.reset.bar0 0x12244).isSome = true := by decide
theorem test_cell_lost : (({ wrapKey := true, custKey := [1] } : Sec_).cellAtStart true 2199).wrapKey = false ∧
    (({ wrapKey := true, custKey := [1] } : Sec_).cellAtStart true 2200).wrapKey = true := by decide

end Sys2Proof.Tests
end

section
/-!
# Supply (R21, R59, R73, R82, R271)

What the supply commands do, one rule for each outcome.
-/
namespace Sys2Proof.Machine
open Sys2Proof

/-! ### Operations that leave the module's state and time alone -/

@[simp] theorem State.abandonTest_g (s : State) : s.abandonTest.g = s.g := by
  unfold State.abandonTest
  split <;> rfl

@[simp] theorem State.abandonTest_time (s : State) : s.abandonTest.time = s.time := by
  unfold State.abandonTest
  split <;> rfl

/-! ### Start and absence -/

theorem execSupplyStartThreshold_off {s : State} (h : s.g.st = .off) :
    execSupplyStartThreshold s =
      .next ({ s with sup := { s.sup with present := true, lossDeclared := false } }.startEntry 0 0) :=
  if_pos h

theorem execVinAbsenceBegin_present {s : State} (h : s.sup.present = true) :
    execVinAbsenceBegin s = .next { s with sup := { s.sup with present := false, lossDeclared := false } } := by
  simp [execVinAbsenceBegin, State.absent, h]

theorem execVinAbsenceBegin_not_present {s : State} (h : s.sup.present = false) : execVinAbsenceBegin s = .next s := by
  simp [execVinAbsenceBegin, State.absent, h]

/-- VIN that leaves the fluctuation band too late is absent as VIN below it is (R59). -/
theorem execFluctuationExpiry_eq (s : State) : execFluctuationExpiry s = execVinAbsenceBegin s := rfl

/-! ### A declared loss -/

/-- The state in which a declared loss is judged: the loss is noted and a hold-up test given up (R59, R449). -/
def State.lossNoted (s : State) : State :=
  { s with sup := { s.sup with lossDeclared := true, lossSeen := true } }.abandonTest

/-- From START, LOAD and CHECK a declared loss leads to LAST_GASP (R82). -/
theorem execSupplyLossDeclared_starting {s : State} (hp : s.sup.present = false)
    (h : s.g.st ∈ [ModSt.load, .check] ∨ (s.g.st = .start ∧ s.g.wokeAt ≠ some (s.now / 1000))) :
    execSupplyLossDeclared s = .next (s.lossNoted.raise 10).enterLastGasp := by
  rcases h with h | ⟨h, hw⟩
  · simp only [List.mem_cons, List.not_mem_nil, or_false] at h
    rcases h with h | h <;> simp [execSupplyLossDeclared, hp, h, State.lossNoted]
  · simp only [State.now] at hw
    simp [execSupplyLossDeclared, hp, h, hw, State.lossNoted, State.now]

/-- A loss in the coarse tick of a wake wins over the wake (R85). -/
theorem execSupplyLossDeclared_waking {s : State} (hp : s.sup.present = false) (h : s.g.st = .start)
    (hw : s.g.wokeAt = some (s.now / 1000)) :
    execSupplyLossDeclared s = .next s.lossNoted.enterOff := by
  simp only [State.now] at hw
  simp [execSupplyLossDeclared, hp, h, hw, State.lossNoted, State.now]

theorem execSupplyLossDeclared_stabled {s : State} (hp : s.sup.present = false) (h : s.g.st = .stabled) :
    execSupplyLossDeclared s = .next s.lossNoted.enterOff := by
  simp [execSupplyLossDeclared, hp, h, State.lossNoted]

/-- Once the module has started the loss is only reported: the store bridges it. -/
theorem execSupplyLossDeclared_started {s : State} (hp : s.sup.present = false)
    (h : s.g.st ∈ [ModSt.unprovisioned, .sequence, .run, .runDown, .safeHold, .lastGasp]) :
    execSupplyLossDeclared s = .next (s.lossNoted.raise 10) := by
  simp only [List.mem_cons, List.not_mem_nil, or_false] at h
  rcases h with h | h | h | h | h | h <;> simp [execSupplyLossDeclared, hp, h, State.lossNoted]

/-! ### Return -/

theorem execVinReturn_interruption {s : State} (hp : s.sup.present = false) (hl : s.sup.lossDeclared = false) :
    execVinReturn s = .next ({ s with sup := { s.sup with
      present := true, lossDeclared := false, interruptionSeen := true } }.raise 10).deferredRetry := by
  simp [execVinReturn, hp, hl]

theorem execVinReturn_after_loss {s : State} (hp : s.sup.present = false) (hl : s.sup.lossDeclared = true) :
    execVinReturn s = .next ({ s with sup := { s.sup with
      present := true, lossDeclared := false } }).deferredRetry := by
  simp [execVinReturn, hp, hl]

/-- Settles O8: one rule for each outcome of a supply command, a declared loss judged by the module's state. -/
theorem supplyCommandsAct : Obligations.SupplyCommandsAct := by
  unfold Obligations.SupplyCommandsAct
  exact ⟨fun _ => execSupplyStartThreshold_off, fun _ => execVinAbsenceBegin_present,
    fun s hp => (execFluctuationExpiry_eq s).trans (execVinAbsenceBegin_present hp),
    fun s hp => ⟨execVinAbsenceBegin_not_present hp,
      (execFluctuationExpiry_eq s).trans (execVinAbsenceBegin_not_present hp)⟩,
    fun _ => execSupplyLossDeclared_started, fun _ => execSupplyLossDeclared_starting,
    fun _ => execSupplyLossDeclared_waking, fun _ => execSupplyLossDeclared_stabled,
    fun _ => execVinReturn_interruption, fun _ => execVinReturn_after_loss⟩

end Sys2Proof.Machine
end

section
/-!
# The hold-up store and the end of START (R21, R76, R81, R273)
-/
namespace Sys2Proof.Machine
open Sys2Proof

/-- The state with the supply's measurements taken (R76); 5 J in the store end the note of a stalled charge (R81). -/
def State.supplyMeasured (s : State) (v b : Nat) (g : Bool) : State :=
  { s with sup := { s.sup with
    vinMv := v, bankMv := b, usableMj := usableMj s.nv.cur.capUf b, railsGood := g,
    stalled := s.sup.stalled && decide (usableMj s.nv.cur.capUf b < 5000) } }

theorem execHoldupEnergyUpdate_off {v b : Nat} {g : Bool} {s : State} (h : s.g.st = .off) :
    execHoldupEnergyUpdate v b g s = .next (s.supplyMeasured v b g) :=
  if_pos h

theorem execHoldupEnergyUpdate_powered {v b : Nat} {g : Bool} {s : State} (h : s.g.st ≠ .off) :
    execHoldupEnergyUpdate v b g s = .next ((s.supplyMeasured v b g).recovered.deferredRetry).startComplete :=
  if_neg h

/-- START ends once the rails are good, 5 J are stored and no release is pending (R21, R496). -/
theorem State.startComplete_ready {s : State} (hst : s.g.st = .start) (hr : s.sup.railsGood = true)
    (hu : 5000 ≤ s.sup.usableMj) (hn : s.nv.cur.releasing = 0) :
    s.startComplete = (if s.hasKey then s.setMod .load else s.setMod .unprovisioned).wdgFromStart :=
  if_pos (by simp [hst, hr, hu, hn])

theorem execHoldupChargeStalled_noted {s : State} (hst : s.g.st = .start) (hp : s.sup.present = true)
    (hu : s.sup.usableMj < 5000) (hs : s.sup.stalled = false) :
    execHoldupChargeStalled s = .next ({ s with sup := { s.sup with stalled := true } }.raise 11) :=
  if_pos (by simp [hst, hp, hu, hs])

/-- Settles O11: the two rules of the energy update, and the end of START by the customer key. -/
theorem holdupStoreAndStart : Obligations.HoldupStoreAndStart := by
  unfold Obligations.HoldupStoreAndStart
  refine ⟨fun _ _ _ _ => execHoldupEnergyUpdate_off, fun _ _ _ _ => execHoldupEnergyUpdate_powered, ?noKey, ?key,
    fun _ => execHoldupChargeStalled_noted⟩
  case noKey =>
    intro s hst hr hu hn hk
    rw [State.startComplete_ready hst hr hu hn, hk]
    rfl
  case key =>
    intro s hst hr hu hn hk
    rw [State.startComplete_ready hst hr hu hn, if_pos hk]

end Sys2Proof.Machine
end

section
/-!
# The end of CHECK (R21, R79, R82)
-/
namespace Sys2Proof.Machine
open Sys2Proof

/-- An off request that CHECK held back is taken in SEQUENCE, under the plan of the level (R82). -/
def State.takeHeldOff (w : State) (src : Src) : State :=
  ((((({ w with
    g := { w.g with heldOff := none }
    seq := { w.seq with held := w.planOf w.g.level, level := w.g.level, levelPlan := w.planOf w.g.level } } :
      State).admitKept.enableWdgs).convModes).setMod .sequence).offRequest src).settle

/-- Where CHECK leads (R21): `t` holds what the self-test found, `u` is the state that SAFE_HOLD is entered from, and `w` the one
with what failed parked and the grid started, that SEQUENCE is entered from. -/
def checkEnd (t u w : State) (x : SelfTest) : State :=
  if t.nv.cur.tbFinding then ((u.setFinding false).nvWrite 16 id).enterSafeHold "TIME_BASE_FAULT"
  else match t.checkFails x with
  | some n => u.enterSafeHold "SELFTEST_FAILED" [n]
  | none => match w.g.heldOff with
    | none => w.enterSequence
    | some src => w.takeHeldOff src

section
variable {s t u v w : State} {x : SelfTest} {m : ReplanIn}

/-- The re-plan of a well-formed command is not refused for a length. -/
theorem ReplanIn.rightLengths (hm : m.wellFormed = true) :
    ¬ (m.factors.length ≠ 13 || m.offsets.length ≠ 320 || m.kR.length ≠ 8 || m.kC.length ≠ 8) = true := by
  simpa [ReplanIn.wellFormed, and_assoc] using hm

theorem execSelftestComplete_not_check (hm : m.wellFormed = true) (hs : s.g.st ≠ .check) :
    execSelftestComplete x m s = .next s :=
  (if_neg (ReplanIn.rightLengths hm)).trans (if_pos hs)

/-- In CHECK the command passes through the states `t`, `u`, `v` and `w`, each made from the one before. -/
theorem execSelftestComplete_check (hm : m.wellFormed = true) (hs : s.g.st = .check)
    (ht : t = (s.replanEnd 1 m).markFailed x) (hu : u = { t with age := { t.age with refFail := false } })
    (hv : v = (u.parkFailed x).fieldCheckEnd)
    (hw : w = { v with cyc := { v.cyc with phase := 3, closeAt := v.now, first := true, late := false } }) :
    execSelftestComplete x m s = .next (checkEnd t u w x) := by
  have hn : u.nv = t.nv := by rw [hu]
  unfold execSelftestComplete checkEnd
  rw [if_neg (ReplanIn.rightLengths hm), if_neg (not_not_intro hs), ← hn]
  extract_lets t' fails age u' v' cyc w'
  -- the command's own intermediate states are the named ones; each is made opaque before the next is compared
  have et : t' = t := ht.symm
  have ef : fails = t'.checkFails x := rfl
  clear_value fails t'
  subst ef et
  have eu : u' = u := hu.symm
  clear_value u'
  subst eu
  have ev : v' = v := hv.symm
  clear_value v'
  subst ev
  have ew : w' = w := hw.symm
  clear_value w'
  subst ew
  by_cases hf : u'.nv.cur.tbFinding = true
  · rw [if_pos hf, if_pos hf]
  · rw [if_neg hf, if_neg hf]
    cases t'.checkFails x with
    | some n => rfl
    | none =>
      cases w'.g.heldOff with
      | none => rfl
      | some src => rfl
end

/-- Settles O19: CHECK ends as `checkEnd` says, and outside CHECK the command does nothing. -/
theorem selftestEndsCheck : Obligations.SelftestEndsCheck := by
  unfold Obligations.SelftestEndsCheck
  exact ⟨fun _ _ _ _ _ _ _ => execSelftestComplete_check, fun _ _ _ => execSelftestComplete_not_check⟩

end Sys2Proof.Machine
end

section
/-!
# Security over Edivo (R24, R483-R496)

A message of an open session acts on the state in which its time has been noted: `State.onSession_open` says so once, and each
command's rule starts there.
-/
namespace Sys2Proof.Machine
open Sys2Proof

/-! ### A message of an open session (R477) -/

section
variable {n : Fin 4} {s t u : State} {x : Session} {k : Fin 35} {i : Byte} {v : Verifier} {b key sig : List Byte}
  {f : PwdFields} {l : List PwdFields} {force : Bool}
  (hx : s.lnk.sessions[n] = some x) (ht : t = s.modSession n (fun y => { y with lastAt := s.now }))

include ht in
/-- Noting the time of a message leaves the module's state, the store and the secrets alone. -/
theorem State.noted_others : t.g = s.g ∧ t.nv = s.nv ∧ t.sec = s.sec := by
  subst ht
  simp

include hx ht

theorem State.onSession_open (f : Session → State → State) : s.onSession n f = f x t := by
  unfold State.onSession
  rw [hx, ht]

/-! ### Challenge, login, logout and passwords (R487, R489) -/

theorem execChallenge_open (hk : pwdIndex i = some k) (hv : t.sec.verifiers[k] = some v) :
    execChallenge n i s = .next { ((t.modSession n (fun y => { y with nonce := some (nonce t.free, i.toNat, t.tickUs) })).auth n
      .accepted (bytesToWords 8 (nonce t.free) ++ bytesToWords 4 v.salt)) with free := t.free + 4 } := by
  unfold execChallenge
  rw [State.onSession_open hx ht]
  simp only [hk, hv]

theorem execLogin_accepted (hk : pwdIndex i = some k) (hi : 33 ≤ k.val)
    (hl : t.levelTaken n = false) (hb : t.pwdBarred k = none) (hp : t.proofOk x k b = true) :
    execLogin n i b s = .next ((((t.modSession n (fun y => { y with nonce := none })).pwdPass k).modSession n
      (fun y => { y with level := if k = 33 then .maintenance else .provisioning })).auth n .accepted) := by
  unfold execLogin
  rw [State.onSession_open hx ht]
  simp only [hk, hb, hl, hp, Nat.not_lt.2 hi, decide_false, Bool.or_self, Bool.false_eq_true, if_false, if_true]

theorem execLogout_open :
    execLogout n s = .next ((t.modSession n (fun y => { y with level := .view })).auth n .accepted) := by
  unfold execLogout
  rw [State.onSession_open hx ht]

/-- A session at PROVISIONING may set every password (R489). -/
theorem execSetPassword_accepted (hk : pwdIndex f.index = some k)
    (hl : x.level = .provisioning) (hw : t.sec.wrapKey = true) (hb : t.sec.breachSinceStart = false)
    (hm : t.minLen ≤ f.len.toNat) :
    execSetPassword n f s = .next (({ t with sec := { t.sec with
      verifiers := tset t.sec.verifiers k (some ⟨f.salt, f.verifier⟩) } }).auth n .accepted) := by
  unfold execSetPassword
  rw [State.onSession_open hx ht]
  simp [hk, hl, hw, hb, Nat.not_lt.2 hm]

/-! ### Provisioning, rekeying, release and MAKER (R490-R494) -/

theorem execProvision_waits (hs : s.g.st = .unprovisioned)
    (hr : s.nv.cur.releasing = 0) (hw : s.sec.waiting = none) (hi : l.map (fun x => x.index.toNat) = [32, 33, 34])
    (hl : l.all (fun x => decide (t.minLen ≤ x.len.toNat)) = true) :
    execProvision n key l s = .next { t with sec := { t.sec with
      waiting := some (.provision n key (l.map (fun x => ⟨x.salt, x.verifier⟩)), t.tickUs) } } := by
  obtain ⟨hg, hnv, hsec⟩ := State.noted_others ht
  have hany : l.any (fun x => decide (x.len.toNat < t.minLen)) = false := by
    simpa using hl
  unfold execProvision
  rw [State.onSession_open hx ht]
  simp [hg, hnv, hsec, hs, hr, hw, hi, hany]

theorem execRekey_judged (hl : x.level = .provisioning)
    (hs : s.g.st = .safeHold) (hr : s.nv.cur.releasing = 0) (hk : t.hasKey = true)
    (hb : s.sec.breachSinceStart = false) :
    execRekey n key sig s = .next (if ecdsaP384 t.sec.custKey (t.serialBytes ++ key) sig then
      ({ t with sec := { t.sec with custKey := key } }).auth n .accepted else t.auth n .badSignature) := by
  obtain ⟨hg, hnv, hsec⟩ := State.noted_others ht
  unfold execRekey
  rw [State.onSession_open hx ht]
  cases ecdsaP384 t.sec.custKey (t.serialBytes ++ key) sig with
  | true => simp [hg, hnv, hl, hs, hr, hk, hsec, hb]
  | false => simp [hg, hnv, hl, hs, hr, hk, hsec, hb]

theorem execReleaseForReturn_session (hm : x.level ≠ .view ∨ s.g.st = .unprovisioned) :
    execReleaseForReturn (.session n) force s = .next (t.releaseAsk (.session n) force []) := by
  obtain ⟨hg, -, -⟩ := State.noted_others ht
  unfold execReleaseForReturn
  dsimp only
  rw [State.onSession_open hx ht, if_neg]
  rw [hg]
  rcases hm with hm | hm <;> simp [hm]

theorem execMaker_judged (hs : s.g.st = .unprovisioned)
    (hu : u = t.modSession n (fun y => { y with nonce := none })) :
    execMaker n b s = .next (if t.tokenOk x b then
      (({ u with sec := { u.sec with factory := true } }).modSession n (fun y => { y with maker := true })).auth n .accepted
      else u.auth n .badSignature) := by
  obtain ⟨hg, -, -⟩ := State.noted_others ht
  unfold execMaker
  rw [State.onSession_open hx ht, hg, hs, hu]
  rfl
end

/-! ### What needs no session (R484, R485, R490, R492, R496) -/

section
variable {s t : State} {b : Breach}

theorem execPresenceTimeout_provision {n : Fin 4} {key : List Byte} {v : List Verifier} {a : Ns}
    (h : s.sec.waiting = some (.provision n key v, a)) :
    execPresenceTimeout s = .next (({ s with sec := { s.sec with waiting := none } }).auth n .noPresence) := by
  unfold execPresenceTimeout
  rw [h]

theorem execReleaseForReturn_host {f : Bool} (ht : t = { s with sec := { s.sec with pwd := Vector.replicate 8 0 } }) :
    execReleaseForReturn .host f s = .next (if t.hostMayRelease then
      t.releaseAsk .host f (wordsToBytes s.sec.pwd.toList) else t.secAnswer .host .refusedLevel) := by
  rw [ht]
  rfl

theorem execReleaseDone_releasing (hr : s.nv.cur.releasing ≠ 0)
    (hs : s.g.st ∈ [ModSt.start, .safeHold, .unprovisioned]) (ht : t = s.eraseUser) :
    execReleaseDone s = .next (({ t with
      nv := { t.nv with
        cur := { t.nv.cur with releasing := 0 }, durable := { t.nv.durable with releasing := 0 }
        committing := t.nv.committing.map (fun (d : NvData) => { d with releasing := 0 }) }
      sec := { t.sec.eraseArea with
        wrapKey := false, releases := satInc 65535 s.sec.releases, releaseTime := s.time.mtime, releaseUtc := s.utcNow
        released := true } }).startEntry s.nv.cur.releasing 0) := by
  subst ht
  unfold execReleaseDone
  rw [if_neg hr]
  simp only [List.mem_cons, List.not_mem_nil, or_false] at hs
  rcases hs with hs | hs | hs <;> rw [hs]

theorem execGirdleBreach_off (hs : s.g.st = .off) :
    execGirdleBreach b s = .next { s with sec := { s.sec with
      wrapKey := false, breached := true, cause := Breach.code b, breaches := satInc 65535 s.sec.breaches } } := by
  unfold execGirdleBreach
  rw [hs]

theorem execGirdleBreach_powered (hs : s.g.st ≠ .off)
    (ht : t = { s with sec := { (({ s.sec with
      wrapKey := false, breached := true, cause := Breach.code b
      breaches := satInc 65535 s.sec.breaches } : Sec_).eraseArea) with breachSinceStart := true } })
    (hw : t.sec.waiting = none) :
    execGirdleBreach b s = .next (((((t.raise 1 (Breach.code b)).faultLogged 16 1 "GIRDLE_BREACH" [Breach.code b]).juridical
      "GIRDLE_BREACH" [Breach.code b] (some 1)).abandonTake).relinquish false) := by
  subst ht
  unfold execGirdleBreach
  split
  · contradiction
  · dsimp only at hw ⊢
    rw [hw]
end

/-- Settles O47: one rule for each command, and for a message of a session on the state that notes its time. -/
theorem securityCommandsAct : Obligations.SecurityCommandsAct := by
  unfold Obligations.SecurityCommandsAct
  exact ⟨fun _ _ _ _ _ _ _ => execChallenge_open, fun _ _ _ _ _ _ _ => execLogin_accepted,
    fun _ _ _ _ => execLogout_open, fun _ _ _ _ _ _ => execSetPassword_accepted,
    fun _ _ _ _ _ _ => execProvision_waits, fun _ _ _ _ _ => execPresenceTimeout_provision,
    fun _ _ _ _ _ _ => execRekey_judged, fun _ _ _ => execReleaseForReturn_host,
    fun _ _ _ _ _ => execReleaseForReturn_session, fun _ _ => execReleaseDone_releasing,
    fun _ _ _ _ _ _ => execMaker_judged, fun _ _ => execGirdleBreach_off,
    fun _ _ _ hs _ => execGirdleBreach_powered hs⟩

end Sys2Proof.Machine
end

section
/-!
# The fine tick (R5, R31, R34)

What 10 ns of time leave alone: whatever a leap second, a step of UTC or the drain of a store buffer does at the tick, the module's
state stays and module time runs on.
-/
namespace Sys2Proof.Machine
open Sys2Proof

/-! ### Meter periods leave the module's state and time alone (R413-R422) -/

@[simp] theorem State.landed_g_time (s : State) (x : Sec) : (s.landed x).g = s.g ∧ (s.landed x).time = s.time := by
  simp [State.landed, State.takeEntry]

@[simp] theorem State.landMeter_g_time (s : State) : s.landMeter.g = s.g ∧ s.landMeter.time = s.time := by
  unfold State.landMeter
  split <;> simp

@[simp] theorem State.absence_g_time (s : State) (before after : DWord) (cause : Nat) :
    (s.absence before after cause).g = s.g ∧ (s.absence before after cause).time = s.time := by
  unfold State.absence
  dsimp only
  split <;> exact ⟨rfl, rfl⟩

@[simp] theorem State.closePeriod_g_time (s : State) (cause : BitVec 32) :
    (s.closePeriod cause).g = s.g ∧ (s.closePeriod cause).time = s.time := by
  unfold State.closePeriod
  dsimp only
  split
  · exact ⟨rfl, rfl⟩
  · split <;> simp

@[simp] theorem State.openPeriod_g_time (s : State) (cause : BitVec 32) :
    (s.openPeriod cause).g = s.g ∧ (s.openPeriod cause).time = s.time := by
  unfold State.openPeriod
  dsimp only
  split
  · split <;> simp
  · simp

/-! ### The parts of a fine tick -/

/-- A step of UTC steps no module time (R34, R37). -/
theorem State.stepUtc_g_mtime (s : State) (delta : Int) :
    (s.stepUtc delta).g = s.g ∧ (s.stepUtc delta).time.mtime = s.time.mtime := by
  unfold State.stepUtc
  dsimp only
  split
  · split <;> simp
  · split <;> simp

theorem State.stepActs_g_mtime (s : State) : s.stepActs.g = s.g ∧ s.stepActs.time.mtime = s.time.mtime := by
  unfold State.stepActs
  split
  · exact ⟨rfl, rfl⟩
  · split
    · exact State.stepUtc_g_mtime _ _
    · exact ⟨rfl, rfl⟩

theorem State.leapActs_g (s : State) : s.leapActs.g = s.g := by
  unfold State.leapActs
  split
  · rfl
  · simp

theorem State.drainOne_g_time (s : State) (l : LPairN) : (s.drainOne l).g = s.g ∧ (s.drainOne l).time = s.time := by
  unfold State.drainOne
  split <;> exact ⟨rfl, rfl⟩

theorem State.drainOne_foldl_g_time (ls : List LPairN) (s : State) :
    (ls.foldl State.drainOne s).g = s.g ∧ (ls.foldl State.drainOne s).time = s.time :=
  foldl_inv (fun u => u.g = s.g ∧ u.time = s.time) State.drainOne
    (fun u l hu => ⟨(u.drainOne_g_time l).1.trans hu.1, (u.drainOne_g_time l).2.trans hu.2⟩) ls s ⟨rfl, rfl⟩

/-- Time passes while the module stays in its state: the command that leaves it comes through the queue. -/
theorem State.fineTick_g_mtime (s : State) (h : s.g.st ≠ .off) :
    s.fineTick.g = s.g ∧ s.fineTick.time.mtime = s.time.mtime + 10 := by
  unfold State.fineTick
  rw [if_neg h]
  dsimp only
  obtain ⟨hg, hm⟩ := State.stepActs_g_mtime { s.leapActs with time := s.time.tick }
  rw [(State.drainOne_foldl_g_time _ _).1, (State.drainOne_foldl_g_time _ _).2]
  split
  · exact ⟨hg.trans s.leapActs_g, hm⟩
  · exact ⟨hg.trans s.leapActs_g, hm⟩

theorem State.fineTick_off (s : State) (h : s.g.st = .off) : s.fineTick = s := if_pos h

theorem step_empty (s : State) (h : s.pending = []) : step s = .next s.fineTick := by
  unfold step
  rw [h]

/-- Settles O2: the rules of the fine tick. -/
theorem emptyQueueIsOneFineTick : Obligations.EmptyQueueIsOneFineTick := by
  unfold Obligations.EmptyQueueIsOneFineTick
  refine ⟨step_empty, fun s h => ?_, State.fineTick_off⟩
  obtain ⟨hg, hm⟩ := s.fineTick_g_mtime h
  exact ⟨hm, hg, s.fineTick_frame.2⟩

end Sys2Proof.Machine
end

section
/-!
# The time base, UTC and the wake timer (R32, R36, R39, R85)
-/
namespace Sys2Proof.Machine
open Sys2Proof

section
variable {s u : State} {p : Int} {t : TimeSt} {b : Bool} {c : Nat}

/-! ### The time base check (R32) -/

theorem execTimeBaseCheck_within (hs : s.g.st ≠ .off) (hp : p.natAbs ≤ 1000) :
    execTimeBaseCheck p s = .next ({ s with
      time := { s.time with tbFault := false }, lnk := { s.lnk with refLost := false } }.updFault) :=
  (if_neg hs).trans (if_pos hp)

/-- The state in which a time base fault first found is answered: the fault is noted and raised (R32). -/
def State.timeBaseFaultNoted (s : State) : State :=
  { s with time := { s.time with tbFault := true, tbSeen := true } }.raise 2

theorem execTimeBaseCheck_starting (hs : s.g.st ∈ [ModSt.start, .load, .check]) (hp : 1000 < p.natAbs)
    (hf : s.time.tbFault = false) :
    execTimeBaseCheck p s = .next (s.timeBaseFaultNoted.enterSafeHold "TIME_BASE_FAULT").updFault := by
  simp only [List.mem_cons, List.not_mem_nil, or_false] at hs
  rcases hs with hs | hs | hs <;>
    simp [execTimeBaseCheck, hs, Nat.not_le.2 hp, hf, State.timeBaseFaultNoted]

theorem execTimeBaseCheck_supervising (hs : s.g.st ∈ [ModSt.sequence, .run, .runDown]) (hp : 1000 < p.natAbs)
    (hf : s.time.tbFault = false) :
    execTimeBaseCheck p s = .next (((s.timeBaseFaultNoted.faultEvent 7 2 "TIME_BASE_FAULT").setFinding true).nvWrite 16
      id).commitStart.updFault := by
  simp only [List.mem_cons, List.not_mem_nil, or_false] at hs
  rcases hs with hs | hs | hs <;>
    simp [execTimeBaseCheck, hs, Nat.not_le.2 hp, hf, State.timeBaseFaultNoted]

/-- In the states for which R32 has no response the fault is noted and shown, and no more. -/
theorem execTimeBaseCheck_elsewhere (hs : s.g.st ∈ [ModSt.stabled, .unprovisioned, .safeHold, .lastGasp])
    (hp : 1000 < p.natAbs) (hf : s.time.tbFault = false) :
    execTimeBaseCheck p s = .next s.timeBaseFaultNoted.updFault := by
  simp only [List.mem_cons, List.not_mem_nil, or_false] at hs
  rcases hs with hs | hs | hs | hs <;>
    simp [execTimeBaseCheck, hs, Nat.not_le.2 hp, hf, State.timeBaseFaultNoted]

/-! ### UTC quality and leap seconds (R36, R39) -/

theorem execUtcHoldover_locked (h : s.time.utcQual = 1) :
    execUtcHoldover s = .next ({ s with
      time := { s.time with utcQual := 2, holdSince := s.tickUs }, lnk := { s.lnk with goodSyncs := 0 } }.raise 29) :=
  if_pos h

theorem execLeapSecond_announced (hq : s.time.utcQual ≠ 0) (hl : s.lnk.leap = some b) :
    execLeapSecond b s = .next { s with
      time := { s.time with leapDue := some b }, lnk := { s.lnk with leap := none } } :=
  if_neg (by simp [hq, hl])

theorem execLeapSecond_not_announced (h : s.time.utcQual = 0 ∨ s.lnk.leap ≠ some b) : execLeapSecond b s = .next s :=
  if_pos (by simpa using h)

/-- Where no leap second is being spent, one that is due acts at its place in the day. -/
theorem TimeSt.tickUtc_leapHere (hq : t.utcQual ≠ 0) (hl : t.leapLeft = 0) (hh : t.leapHere = some b) :
    t.tickUtc = if b then { t with leapDue := none, leapLast := true, leapLeft := 1000000000 }
      else { t with leapDue := none, leapLast := true, utc := t.utc + 1000000010 } := by
  unfold TimeSt.tickUtc
  rw [if_neg hq, if_neg (by omega), if_neg (by omega), hh]
  cases b <;> rfl

theorem TimeSt.tick_positive_leap (hq : t.utcQual ≠ 0) (hl : t.leapLeft = 0) (hd : t.leapDue = some true)
    (hu : 86399999999990 ≤ t.utc.toNat % 86400000000000) :
    t.tick = { t with mtime := t.mtime + 10, leapDue := none, leapLast := true, leapLeft := 1000000000 } := by
  have hh : t.leapHere = some true := by
    unfold TimeSt.leapHere dayNs
    rw [hd]
    exact if_pos (by omega)
  unfold TimeSt.tick
  rw [TimeSt.tickUtc_leapHere hq hl hh, if_pos rfl]

theorem TimeSt.tick_negative_leap (hq : t.utcQual ≠ 0) (hl : t.leapLeft = 0) (hd : t.leapDue = some false)
    (hu : 86398999999990 ≤ t.utc.toNat % 86400000000000) :
    t.tick = { t with mtime := t.mtime + 10, leapDue := none, leapLast := true, utc := t.utc + 1000000010 } := by
  have hh : t.leapHere = some false := by
    unfold TimeSt.leapHere dayNs
    rw [hd]
    exact if_pos (by omega)
  unfold TimeSt.tick
  rw [TimeSt.tickUtc_leapHere hq hl hh, if_neg Bool.false_ne_true]

/-- UTC stands still while a positive leap second is spent. -/
theorem TimeSt.tick_in_leap (hq : t.utcQual ≠ 0) (hl : 10 < t.leapLeft) :
    t.tick = { t with mtime := t.mtime + 10, leapLeft := t.leapLeft - 10 } := by
  unfold TimeSt.tick TimeSt.tickUtc
  rw [if_neg hq, if_pos hl]

/-! ### Wake sources in STABLED (R85) -/

theorem State.wakeUp_stabled (hs : s.g.st = .stabled) (he : s.wakeEnabled c = true) (hu : u = s.startEntry 1 c) :
    s.wakeUp c = { u with g := { u.g with wokeAt := some (s.now / 1000) } } := by
  subst hu
  unfold State.wakeUp
  rw [if_neg (by simp [he]), if_pos hs]

theorem execWakeTimerExpiry_stabled (hs : s.g.st = .stabled) (ht : s.g.timerMin ≠ 0) (hm : s.modCfg.isSome = true) :
    execWakeTimerExpiry s = .next (s.wakeUp 6) :=
  if_pos (by simpa [hs, hm] using ht)
end

/-- Settles O12: one rule for a deviation within bounds, and one for each response of R32 to a larger one. -/
theorem timeBaseCheckActs : Obligations.TimeBaseCheckActs := by
  unfold Obligations.TimeBaseCheckActs
  exact ⟨fun _ _ => execTimeBaseCheck_within, fun _ _ => execTimeBaseCheck_starting,
    fun _ _ => execTimeBaseCheck_supervising, fun _ _ => execTimeBaseCheck_elsewhere⟩

/-- Settles O14: the rules of UTC quality, of a leap second that is due or being spent, and of a wake in STABLED. -/
theorem utcQualityAndLeap : Obligations.UtcQualityAndLeap := by
  unfold Obligations.UtcQualityAndLeap
  exact ⟨fun _ => execUtcHoldover_locked, fun _ _ => execLeapSecond_announced, fun _ _ => execLeapSecond_not_announced,
    fun _ => TimeSt.tick_positive_leap, fun _ => TimeSt.tick_negative_leap, fun _ => TimeSt.tick_in_leap,
    fun _ _ hs ht hm he hu => (execWakeTimerExpiry_stabled hs ht hm).trans
      (congrArg Host.Outcome.next (State.wakeUp_stabled hs he hu))⟩

end Sys2Proof.Machine
end

section
/-!
# Ageing (R27-R29, R443-R457)

What the commands of the spalting monitor do, one rule for each outcome.
-/
namespace Sys2Proof.Machine
open Sys2Proof

section
variable {s : State} {f : BitVec 16} {ab bc ca : Int} {mv dv x kind : Nat} {m : ReplanIn} {sel : BitVec 13}

/-! ### Slowdown and core offset (R27-R29, R445) -/

/-- Below the full offset, and with no factor beyond the model before, a measurement keeps its factor and does no more. -/
theorem execSlowdownMeasure_kept (hs : s.g.st.operating = true)
    (ho : (s.keep (fun d => { d with factor := f })).nv.cur.coreOffset < 60)
    (hb : (s.keep (fun d => { d with factor := f })).nv.cur.beyond = false) :
    execSlowdownMeasure f s = .next (s.keep (fun d => { d with factor := f })) := by
  unfold execSlowdownMeasure State.measures
  simp [hs, ho.ne, hb]

theorem execCoreOffsetStep_below_target (hs : s.g.st.operating = true) (ho : s.nv.cur.coreOffset < s.age.coreTarget) :
    execCoreOffsetStep s = .next (s.keep (fun d => { d with coreOffset := min 60 (d.coreOffset + 5) })) :=
  if_pos (by simp [hs, ho])

/-! ### References (R447) -/

theorem refAgree_of_le {d : Int} (h : d.natAbs ≤ 200) : refAgree d = true := decide_eq_true h

theorem refAgree_of_lt {d : Int} (h : 200 < d.natAbs) : refAgree d = false := decide_eq_false (Nat.not_le.2 h)

theorem refTurn_stays_in (now : Ns) (rejoined agreesBoth : Bool) (since : Option Ns) :
    refTurn now false rejoined agreesBoth since false = (false, none, false) := rfl

theorem refTurn_newly_out (now : Ns) (rejoined agreesBoth : Bool) (since : Option Ns) :
    refTurn now true rejoined agreesBoth since false = (true, none, true) := rfl

theorem execReferenceCheck_all_agree (hs : s.g.st.operating = true) (hab : ab.natAbs ≤ 200) (hbc : bc.natAbs ≤ 200)
    (hca : ca.natAbs ≤ 200) (hv : s.age.outvoted = 0) :
    execReferenceCheck ab bc ca s = .next { s with age := { s.age with
      dAb := ab, dBc := bc, dCa := ca, refDisagree := false, outvoted := 0
      rejoin := tset (tset (tset s.age.rejoin 0 none) 1 none) 2 none } } := by
  simp [execReferenceCheck, State.measures, hs, refAgree_of_le hab, refAgree_of_le hbc, refAgree_of_le hca, hv,
    refTurn_stays_in]

/-- Reference 1 disagrees with 2 and 3, which agree: it is outvoted. -/
theorem execReferenceCheck_first_out (hs : s.g.st.operating = true) (hab : 200 < ab.natAbs) (hbc : bc.natAbs ≤ 200)
    (hca : 200 < ca.natAbs) (hv : s.age.outvoted = 0) :
    execReferenceCheck ab bc ca s = .next (({ s with age := { s.age with
      dAb := ab, dBc := bc, dCa := ca, refDisagree := false, outvoted := 1, refOutSeen := true
      rejoin := tset (tset (tset s.age.rejoin 0 none) 1 none) 2 none } }).laterFault none none "REF_OUTVOTED" [1]) := by
  simp [execReferenceCheck, State.measures, hs, refAgree_of_lt hab, refAgree_of_le hbc, refAgree_of_lt hca, hv,
    refTurn_stays_in, refTurn_newly_out]

/-! ### Cell and load (R443, R451) -/

theorem execCellCheck_powered (hs : s.g.st ≠ .off) :
    execCellCheck mv s = .next (s.keep (fun d => { d with cellMv := mv })) :=
  if_neg hs

theorem execLoadEstimateSample_counted {h : CHds} (hc : s.cfg.hds = some h) (hl : s.g.level = .normal)
    (hs : s.g.st.operating = true) (hr : s.countsRail = true) :
    execLoadEstimateSample () s = .next { s with age := { s.age with
      load := (s.nv.cur.opNs, s.pMeas.headD 0, match h.levels[0]? with | some x => x.pKey | none => 0) ::
        s.age.load.filter (fun x => decide (s.nv.cur.opNs ≤ x.1 + estWindow)) } } := by
  unfold execLoadEstimateSample State.measures
  rw [hc]
  exact if_pos (by simp [hl, hs, hr])

/-! ### The hold-up test (R449) -/

theorem execHoldupTestStart_allowed (ht : s.testOk = true) (hn : s.age.testing = false)
    (ha : s.age.state = 1 ∨ s.age.state = 2) :
    execHoldupTestStart s = .next { s with age := { s.age with testing := true } } :=
  if_pos (by simpa [ht, hn] using ha)

/-- The test of a re-plan leaves its result to the re-plan's end. -/
theorem execHoldupTestEnd_in_replan (ht : s.age.testing = true) (hd : dv ≠ 0) (ha : s.age.state = 1) :
    execHoldupTestEnd dv x s = .next { s with age := { s.age with
      testing := false, tested := some (80000000000 / dv, x) } } := by
  simp [execHoldupTestEnd, ht, hd, ha]

/-- The result of a deferred test comes into force at once. -/
theorem execHoldupTestEnd_deferred (ht : s.age.testing = true) (hd : dv ≠ 0) (ha : s.age.state = 2) :
    execHoldupTestEnd dv x s = .next (({ s with age := { s.age with testing := false, state := 0 } }).landStore
      (80000000000 / dv) x) := by
  simp [execHoldupTestEnd, ht, hd, ha]

/-! ### Re-plans and history (R444, R456, R457) -/

theorem execReplanDue_idle (hs : s.g.st.replans = true) (ha : s.age.state ≠ 1) :
    execReplanDue s = .next (s.replanStart 2) :=
  if_pos (by simp [hs, ha])

theorem execReplan_idle (hs : s.g.st.replans = true) (ha : s.age.state ≠ 1) :
    execReplan s = .next (({ s with age := { s.age with cmdAns := .accepted } }).replanStart 3) := by
  unfold execReplan
  rw [hs]
  exact if_neg ha

theorem execReplan_refused (hs : s.g.st.replans = false) :
    execReplan s = .next { s with age := { s.age with cmdAns := .refusedState } } := by
  unfold execReplan
  rw [hs]
  rfl

theorem execReplanEnd_running (hm : m.wellFormed = true) (ha : s.age.state = 1) (hs : s.g.st.replans = true) :
    execReplanEnd m s = .next (s.replanEnd s.age.kind m).settle :=
  (if_neg (ReplanIn.rightLengths hm)).trans (if_pos (by simp [ha, hs]))

theorem execAgeHistSelect_found {r : HistRec}
    (h : (if sel.getLsbD 12 then s.nv.cur.perm else s.nv.cur.ring)[sel.toNat % 4096]? = some r) :
    execAgeHistSelect sel s = .next { s with age := { s.age with
      histSel := sel, histAns := .found, histData := r.bytes } } := by
  unfold execAgeHistSelect
  dsimp only
  rw [h]
  rfl

theorem execAgeHistSelect_not_found
    (h : (if sel.getLsbD 12 then s.nv.cur.perm else s.nv.cur.ring)[sel.toNat % 4096]? = none) :
    execAgeHistSelect sel s = .next { s with age := { s.age with histSel := sel, histAns := .notFound } } := by
  unfold execAgeHistSelect
  dsimp only
  rw [h]
  rfl
end

/-- Settles O44: one rule for each command of the monitor and each of its outcomes. -/
theorem ageingCommandsAct : Obligations.AgeingCommandsAct := by
  unfold Obligations.AgeingCommandsAct
  exact ⟨fun _ _ hs _ _ => execSlowdownMeasure_kept hs, fun _ => execCoreOffsetStep_below_target,
    fun _ _ _ _ => execReferenceCheck_all_agree, fun _ _ _ _ => execReferenceCheck_first_out,
    fun _ _ => execCellCheck_powered, fun _ _ => execLoadEstimateSample_counted, fun _ => execHoldupTestStart_allowed,
    fun _ _ _ => execHoldupTestEnd_in_replan, fun _ _ _ => execHoldupTestEnd_deferred,
    fun _ hs ha => ⟨execReplanDue_idle hs ha, execReplan_idle hs ha⟩, fun _ => execReplan_refused,
    fun _ _ => execReplanEnd_running, fun _ _ _ => execAgeHistSelect_found, fun _ _ => execAgeHistSelect_not_found⟩

end Sys2Proof.Machine
end

section
/-!
# Host link and train network (R37, R85, R165, R465-R476)

What the links' commands do, one rule for each outcome.
-/
namespace Sys2Proof.Machine
open Sys2Proof

section
variable {s t : State} {n : Fin 4} {g : Bool} {a h : Announce} {o : Int} {d : Nat} {u : DWord} {l : CLinks} {b : List Byte}

/-! ### The host link (R465-R469) -/

/-- A link that trained before, with no loss to record, trains again. -/
theorem execHostLinkUp_again {w r : Nat} (hm : s.hostLinkMay = true) (hl : s.lnk.lostAt = none)
    (ht : s.lnk.trainedSinceStart = true)
    (he : t = { s.linkFound 719 with lnk := { (s.linkFound 719).lnk with
      up := true, width := w, rate := r, perst := false, trainedSinceStart := true, lostAt := none } }) :
    execHostLinkUp w r s = .next (t.raise 719 1) := by
  subst he
  simp [execHostLinkUp, hm, hl, ht]

theorem execPerstAssert_powered (ho : s.g.st ≠ .off) (hs : s.g.st ≠ .stabled) :
    execPerstAssert s = .next { s.hostFacingReset.hostLinkDown with
      lnk := { s.hostFacingReset.hostLinkDown.lnk with perst := true } } := by
  unfold execPerstAssert
  split
  · contradiction
  · contradiction
  · rfl

theorem execHostFunctionReset_powered (ho : s.g.st ≠ .off) (hs : s.g.st ≠ .stabled) :
    execHostFunctionReset s = .next s.hostFacingReset := by
  unfold execHostFunctionReset
  split
  · contradiction
  · contradiction
  · rfl

/-! ### Train network ports (R470, R471, R481) -/

theorem execNetLinkChange_up (hs : s.g.st.operating = true) (hl : s.lnk.net[n].link = false)
    (hr : s.noRetrain (712 + n.val) = false) (he : s.portBit CLinks.netEn n = true) :
    execNetLinkChange n.castSucc true g s = .next (((s.linkFound (712 + n.val)).modNet n (fun x => { x with
      link := true, g1000 := g })).raise (712 + n.val) 1) := by
  simp [execNetLinkChange, hs, hl, hr, he, -Fin.getElem_fin]

/-- A port that the key does not enable, or that is not retrained after a loss, does not link. -/
theorem execNetLinkChange_up_barred (h : s.portBit CLinks.netEn n = false ∨ s.noRetrain (712 + n.val) = true) :
    execNetLinkChange n.castSucc true g s = .next s := by
  rcases h with h | h <;> simp [execNetLinkChange, h]

theorem execNetLinkChange_down (hs : s.g.st.operating = true) (hl : s.lnk.net[n].link = true) :
    execNetLinkChange n.castSucc false g s = .next (((s.modNet n (fun x => { x with
      link := false, g1000 := false, qualified := none, heard := none })).selectPort).linkLost (712 + n.val)) := by
  simp [execNetLinkChange, hs, hl, -Fin.getElem_fin]

/-! ### PTP (R37, R475) -/

theorem execPtpAnnounceRx_first (hs : s.g.st.operating = true) (hp : s.portBit CLinks.ptpEn n = true)
    (he : s.portBit CLinks.netEn n = true) (hl : s.lnk.net[n].link = true) (hq : s.lnk.net[n].qualified = none)
    (hh : s.lnk.net[n].heard = none) :
    execPtpAnnounceRx n a s =
      .next (((s.modNet n (fun x => { x with heard := some a })).selectPort).noteLeap n) := by
  simp [execPtpAnnounceRx, hs, hp, he, hl, hq, hh, -Fin.getElem_fin]

/-- The second Announce of one master qualifies it. -/
theorem execPtpAnnounceRx_second (hs : s.g.st.operating = true) (hp : s.portBit CLinks.ptpEn n = true)
    (he : s.portBit CLinks.netEn n = true) (hl : s.lnk.net[n].link = true) (hq : s.lnk.net[n].qualified = none)
    (hh : s.lnk.net[n].heard = some h) (hi : (h.identity == a.identity) = true) :
    execPtpAnnounceRx n a s =
      .next (((s.modNet n (fun x => { x with qualified := some a, heard := none })).selectPort).noteLeap n) := by
  simp only [execPtpAnnounceRx, hs, hp, he, hl, hq, hh, hi, Bool.not_true, Bool.or_self, Bool.false_eq_true, if_false,
    if_true]

/-- In LOCKED a Sync of the selected master corrects UTC. -/
theorem execPtpSyncRx_locked (hs : s.g.st.operating = true) (hm : s.lnk.ptpMaster = true) (hn : n = s.lnk.ptpPort)
    (hl : s.lnk.net[n].link = true) (hg : s.lnk.goodSyncs = 0) (hq : s.time.utcQual = 1) :
    execPtpSyncRx n o d u s = .next (({ s with lnk := { s.lnk with
      goodSyncs := 1, ptpOffset := o, ptpDelay := d, lastSync := some s.now } }).correctUtc o) := by
  subst hn
  simp [execPtpSyncRx, hs, hm, hl, hg, hq, -Fin.getElem_fin]

/-- While UTC is INVALID the eighth good Sync in a row sets it. -/
theorem execPtpSyncRx_sets (hs : s.g.st.operating = true) (hm : s.lnk.ptpMaster = true) (hn : n = s.lnk.ptpPort)
    (hl : s.lnk.net[n].link = true) (h7 : 7 ≤ s.lnk.goodSyncs) (h255 : s.lnk.goodSyncs < 255)
    (ho : (o - s.lnk.ptpOffset).natAbs ≤ 1000) (ha : s.lnk.net[n].qualified = some a) (hv : a.utcOffsetValid = true)
    (hf : s.time.tbFault = false) (hq : s.time.utcQual = 0) :
    execPtpSyncRx n o d u s = .next (({ s with lnk := { s.lnk with
      goodSyncs := s.lnk.goodSyncs + 1, ptpOffset := o, ptpDelay := d, lastSync := some s.now } }).setUtc u) := by
  subst hn
  have hpos : 0 < s.lnk.goodSyncs := by omega
  have hmin : min 255 (s.lnk.goodSyncs + 1) = s.lnk.goodSyncs + 1 := by omega
  have h8 : 8 ≤ s.lnk.goodSyncs + 1 := by omega
  simp [execPtpSyncRx, hs, hm, hl, hpos, ho, hmin, h8, ha, hv, hf, hq, -Fin.getElem_fin]

/-! ### Telegrams and wake frames (R85, R165, R472, R474, R476) -/

theorem execSpeedReportRx_valid {v : Nat} (hc : s.cfg.links = some l) (ht : s.portTakes n = true)
    (hi : l.speedComId ≠ 0#32) (hv : beAt b l.speedOffset 2 = some v)
    (hk : beAt b (l.speedOffset + 2) 1 = some 1) (hn : v ≠ 0xFFFF) :
    execSpeedReportRx n b s = .next { s with motion := if 50 < v
      then { s.motion with netSpeed := v / 10, lastFast := some s.tickUs }
      else { s.motion with netSpeed := v / 10, lastSlow := some s.tickUs } } := by
  simp [execSpeedReportRx, hc, ht, hi, hv, hk, hn]

theorem execLocationRx_valid {x y : Int} (hc : s.cfg.links = some l) (ht : s.portTakes n = true) (hi : l.locComId ≠ 0#32)
    (hx : beInt b l.locOffset = some x) (hy : beInt b (l.locOffset + 4) = some y)
    (hk : beAt b (l.locOffset + 8) 1 = some 1) (hlat : x.natAbs ≤ 900000000) (hlon : y.natAbs ≤ 1800000000) :
    execLocationRx n b s = .next { s with lnk := { s.lnk with lat := x, lon := y, locAt := some s.now } } := by
  simp [execLocationRx, hc, ht, hi, hx, hy, hk, hlat, hlon]

theorem execStatusTelegram_sent (hc : s.cfg.links = some l) (hs : s.g.st.operating = true) (hp : s.primaryDuties = true)
    (hi : l.statusComId ≠ 0#32) :
    execStatusTelegram s = .next { s with lnk := { s.lnk with telegrams := s.statusBytes :: s.lnk.telegrams } } := by
  simp [execStatusTelegram, hc, hs, hp, hi]

theorem execWakeFrameRx_stabled (hc : s.cfg.links = some l) (he : l.netEn.getLsbD n.val = true)
    (hw : l.wakeEn.getLsbD n.val = true) (hs : s.g.st = .stabled) (hf : holdsRun (s.wakePattern n) b = true) :
    execWakeFrameRx n b s = .next (s.wakeUp 7) := by
  simp only [execWakeFrameRx, hc, he, hw, hs, hf, decide_true, Bool.and_self, if_true]

/-! ### Network commands (R473) -/

theorem ModSt.operating_of_cycleRuns {st : ModSt} (h : st.cycleRuns = true) : st.operating = true := by
  revert h
  cases st <;> decide

theorem State.netRequest_waits (hc : s.cfg.links = some l) (hi : l.cmdComId ≠ 0#32) (hs : s.g.st.cycleRuns = true)
    (off : Bool) :
    s.netRequest off = { s with cmd := { s.cmd with
      modReqs := s.cmd.modReqs ++ [{ src := .network, off := off }] } } := by
  simp [State.netRequest, hc, hi, hs, ModSt.operating_of_cycleRuns hs]

theorem execNetRailCommand_waits {r : RailN} {code : BitVec 8} {c : RailCode} (hc : s.cfg.links = some l)
    (hr : railCodeOf code.toNat = some c) (hi : l.cmdComId ≠ 0#32) (hs : s.g.st.cycleRuns = true) :
    execNetRailCommand r code s = .next { s with
      railReqs := s.railReqs ++ [{ src := .network, rail := r, code := c }] } := by
  simp [execNetRailCommand, hc, hr, hi, hs, ModSt.operating_of_cycleRuns hs]
end

/-- Settles O45: one rule for each link command and each of its outcomes. -/
theorem linksAct : Obligations.LinksAct := by
  unfold Obligations.LinksAct
  exact ⟨fun _ _ _ _ => execHostLinkUp_again,
    fun _ ho hs => ⟨rfl, execPerstAssert_powered ho hs, execHostFunctionReset_powered ho hs⟩,
    fun _ _ _ => execNetLinkChange_up, fun _ _ _ => execNetLinkChange_up_barred, fun _ _ _ => execNetLinkChange_down,
    fun _ _ _ => execPtpAnnounceRx_first, fun _ _ _ _ => execPtpAnnounceRx_second, fun _ _ => rfl,
    fun _ _ _ _ _ => execPtpSyncRx_locked, fun _ _ _ _ _ _ => execPtpSyncRx_sets,
    fun _ _ _ _ _ => execSpeedReportRx_valid, fun _ _ _ _ _ _ => execLocationRx_valid,
    fun _ _ => execStatusTelegram_sent, fun _ _ _ _ => execWakeFrameRx_stabled,
    fun _ _ hc hi hs => ⟨congrArg Host.Outcome.next (State.netRequest_waits hc hi hs true),
      congrArg Host.Outcome.next (State.netRequest_waits hc hi hs false)⟩,
    fun _ _ _ _ _ => execNetRailCommand_waits⟩

end Sys2Proof.Machine
end

section
/-!
# The configuration key comes and goes (R50, R67, R93, R103)

What KEY_INSERTED and KEY_REMOVED do, one rule for each outcome.
-/
namespace Sys2Proof.Machine
open Sys2Proof

/-! ### What the key's state reads -/

/-- A key that is shorted or whose identity is wrong reads as missing (R67, R93). -/
theorem KeySt.present_eq_none_of_unreadable {k : KeySt} {x : Key} (hk : k.key = some x)
    (h : x.vkeyShort = true ∨ x.identityOk = false) : k.present = none := by
  rcases h with h | h <;> simp [KeySt.present, hk, h]

@[simp] theorem KeySt.setBank_selValid (k : KeySt) (b : Bool) (st : BankSt) : (k.setBank b st).selValid = k.selValid := by
  cases b <;> rfl

@[simp] theorem KeySt.readSelector_selValid (k : KeySt) (x : Key) :
    (k.readSelector x).selValid = x.selector.isSome := by
  unfold KeySt.readSelector
  split <;> simp [*]

/-- A key that differs from what is loaded is judged, and its selector left alone (R103). -/
theorem KeySt.insert_of_differs {k : KeySt} {x : Key} (h : k.differs = true) :
    k.insert x = { k with mismatch := true } := by
  simp [KeySt.insert, h]

/-- Where a LOAD has read a valid selector and the key has one, its banks keep their states (R103). -/
theorem KeySt.insert_of_same {k : KeySt} {x : Key} (h : k.differs = false) (hr : k.wasRead = true)
    (hv : k.selValid = true) (hx : x.selector.isSome = true) : k.insert x = { k with mismatch := false } := by
  simp [KeySt.insert, h, hr, hv, hx]

section
variable {s t : State} {k : Key}

/-! ### Insertion -/

theorem execKeyInserted_off (h : s.g.st = .off) :
    execKeyInserted k s = .next { s with key := { s.key with key := some k } } :=
  if_pos h

theorem execKeyInserted_unreadable (h : k.vkeyShort = true ∨ k.identityOk = false) :
    execKeyInserted k s = .next { s with key := { s.key with key := some k } } := by
  have hp : ({ s.key with key := some k } : KeySt).present = none := KeySt.present_eq_none_of_unreadable rfl h
  simp [execKeyInserted, hp]

/-- A key that reads as present is reported with 1, and MISMATCH is judged in the state that leaves (R50, R103). -/
theorem execKeyInserted_readable (ho : s.g.st ≠ .off) (hs : k.vkeyShort = false) (hi : k.identityOk = true)
    (ht : t = { s with key := { s.key with key := some k } }.raise 18 1) :
    execKeyInserted k s = .next (if (t.key.insert k).mismatch && !s.key.mismatch
      then { t with key := t.key.insert k }.raise 18 2 else { t with key := t.key.insert k }) := by
  have hp : ({ s.key with key := some k } : KeySt).present = some k :=
    (KeySt.present_eq_some _ _).2 ⟨rfl, hs, hi⟩
  subst ht
  simp [execKeyInserted, ho, hp]

theorem execKeyInserted_differs (ho : s.g.st ≠ .off) (hs : k.vkeyShort = false) (hi : k.identityOk = true)
    (ht : t = { s with key := { s.key with key := some k } }.raise 18 1) (hd : t.key.differs = true)
    (hm : s.key.mismatch = false) :
    execKeyInserted k s = .next ({ t with key := { t.key with mismatch := true } }.raise 18 2) := by
  rw [execKeyInserted_readable ho hs hi ht, KeySt.insert_of_differs hd, hm]
  rfl

theorem execKeyInserted_same (ho : s.g.st ≠ .off) (hs : k.vkeyShort = false) (hi : k.identityOk = true)
    (ht : t = { s with key := { s.key with key := some k } }.raise 18 1) (hd : t.key.differs = false)
    (hr : t.key.wasRead = true) (hv : t.key.selValid = true) (hx : k.selector.isSome = true) :
    execKeyInserted k s = .next { t with key := { t.key with mismatch := false } } := by
  rw [execKeyInserted_readable ho hs hi ht, KeySt.insert_of_same hd hr hv hx]
  rfl

/-! ### Removal -/

/-- A key that read as missing leaves without a word (R67, R93). -/
theorem execKeyRemoved_missing (h : s.key.present = none) :
    execKeyRemoved s = .next { s with key := { s.key with key := none } } := by
  simp [execKeyRemoved, h]

theorem execKeyRemoved_off (ho : s.g.st = .off) :
    execKeyRemoved s = .next { s with key := { s.key with key := none } } := by
  unfold execKeyRemoved
  split
  · rfl
  · exact if_pos ho

theorem execKeyRemoved_load (hp : s.key.present.isSome = true) (hl : s.g.st = .load) :
    execKeyRemoved s = .next ({ s with key := { s.key with key := none } }.loadFail ⟨2, 0, 0⟩) := by
  obtain ⟨x, hx⟩ := Option.isSome_iff_exists.1 hp
  simp [execKeyRemoved, hx, hl]

theorem execKeyRemoved_elsewhere (hp : s.key.present.isSome = true) (ho : s.g.st ≠ .off) (hl : s.g.st ≠ .load)
    (ht : t = { s with key := { s.key with key := none } }.raise 18 0) : execKeyRemoved s = .next t.keyGone := by
  obtain ⟨x, hx⟩ := Option.isSome_iff_exists.1 hp
  simp [execKeyRemoved, hx, ho, hl, ht]

/-! ### What a removal leaves of staging and take (R105, R110) -/

@[simp] theorem State.stageResult_stg (s : State) (code : Nat) : (s.stageResult code).stg = s.stg := by
  unfold State.stageResult State.stageEntry
  split <;> simp

@[simp] theorem State.stageResult_take (s : State) (code : Nat) : (s.stageResult code).take = s.take := by
  unfold State.stageResult State.stageEntry
  split <;> simp

@[simp] theorem State.stageFail_stg (s : State) (code : BitVec 8) (bank : BankSt) :
    (s.stageFail code bank).stg = { s.stg with st := .failed, owner := none, result := code } := by
  simp [State.stageFail]

@[simp] theorem State.stageFail_take (s : State) (code : BitVec 8) (bank : BankSt) :
    (s.stageFail code bank).take = s.take := by
  simp [State.stageFail]

/-- A running session fails with result 2; with no set in preparation that is all. -/
theorem State.keyGone_staging (hs : t.stg.st ∈ [StgState.writing, .verifying]) (ht : t.take.st ≠ .preparing) :
    t.keyGone = t.stageFail 2 .invalid := by
  have h : t.stg.st = .writing ∨ t.stg.st = .verifying := by simpa using hs
  simp [State.keyGone, h, ht]
end

/-- Settles O17: one rule for each way the key comes and goes. -/
theorem keyPresenceActs : Obligations.KeyPresenceActs := by
  unfold Obligations.KeyPresenceActs
  refine ⟨fun _ _ => execKeyInserted_off, fun _ _ => execKeyInserted_unreadable,
    fun _ _ _ => execKeyInserted_differs, fun _ _ _ => execKeyInserted_same, fun _ _ => execKeyRemoved_off,
    fun _ => execKeyRemoved_missing, fun _ => execKeyRemoved_load, fun _ _ => execKeyRemoved_elsewhere, ?_⟩
  intro t hs ht
  rw [State.keyGone_staging hs ht]
  simp

end Sys2Proof.Machine
end

section
/-!
# The internal temperature (R71)

HOT and OVERTEMP follow the hottest measurement with hysteresis: `hysteresis` says how one of them moves, and
`State.tempJudged` what the measurement then leaves. The rules for particular temperatures are instances of one rule.
-/
namespace Sys2Proof.Machine
open Sys2Proof

/-! ### Hysteresis -/

/-- A mark set above `hi`, cleared at `lo` or below, and kept between them. -/
def hysteresis (lo hi t : Int) (was : Bool) : Bool :=
  decide (hi < t) || (was && decide (lo < t))

section
variable {lo hi t : Int} {was : Bool}

theorem hysteresis_above (h : hi < t) : hysteresis lo hi t was = true := by
  simp [hysteresis, h]

theorem hysteresis_below (hhi : t ≤ hi) (hlo : t ≤ lo) : hysteresis lo hi t was = false := by
  simp [hysteresis, not_lt.2 hhi, not_lt.2 hlo]

theorem hysteresis_between (hhi : t ≤ hi) (hlo : lo < t) : hysteresis lo hi t was = was := by
  simp [hysteresis, not_lt.2 hhi, hlo]

/-- The model's branches are this hysteresis. -/
theorem ite_eq_hysteresis : (if hi < t then true else if t ≤ lo then false else was) = hysteresis lo hi t was := by
  split
  case isTrue hhi => rw [hysteresis_above hhi]
  case isFalse hhi =>
    split
    case isTrue hlo => rw [hysteresis_below (not_lt.1 hhi) hlo]
    case isFalse hlo => rw [hysteresis_between (not_lt.1 hhi) (not_le.1 hlo)]
end

/-! ### What a measurement leaves -/

/-- The state that six measurements leave, `t` the highest: the marks are taken over, a rise of either raises source 12, and a
rise of OVERTEMP is also a fault event (R71). -/
def State.tempJudged (s : State) (t : Int) (temps : List Int) (hot ov : Bool) : State :=
  let x : State := { s with g := { s.g with dieTemp := t, temps := temps, hot := hot, overtemp := ov } }
  let y : State := if hot && !s.g.hot then x.raise 12 0 else x
  (if ov && !s.g.overtemp then (y.raise 12 1).faultEvent 8 12 "INTERNAL_OVERTEMP" else y).updFault

section
variable {s : State} {a b c d e f t : Int}

theorem execInternalTempMeasure_unpowered (h : s.g.st = .off ∨ s.g.st = .stabled) :
    execInternalTempMeasure [a, b, c, d, e, f] s = .next s :=
  if_pos (by simpa using h)

section
variable (ho : s.g.st ≠ .off) (hs : s.g.st ≠ .stabled) (ht : t = max a (max b (max c (max d (max e f)))))
include ho hs ht

theorem execInternalTempMeasure_powered :
    execInternalTempMeasure [a, b, c, d, e, f] s = .next (s.tempJudged t [a, b, c, d, e, f]
      (hysteresis 80 85 t s.g.hot) (hysteresis 95 100 t s.g.overtemp)) := by
  rw [← ite_eq_hysteresis, ← ite_eq_hysteresis, ht]
  exact if_neg (by simp [ho, hs])

/-- At 80 °C or below both marks fall. -/
theorem execInternalTempMeasure_cool (h80 : t ≤ 80) :
    execInternalTempMeasure [a, b, c, d, e, f] s = .next { s with g := { s.g with
      dieTemp := t, temps := [a, b, c, d, e, f], hot := false, overtemp := false } }.updFault := by
  rw [execInternalTempMeasure_powered ho hs ht, hysteresis_below (h80.trans (by decide)) h80,
    hysteresis_below (h80.trans (by decide)) (h80.trans (by decide))]
  rfl

/-- Between 80 and 85 °C HOT is kept, and an OVERTEMP that does not hold stays so. -/
theorem execInternalTempMeasure_warm (h80 : 80 < t) (h85 : t ≤ 85) (hov : s.g.overtemp = false) :
    execInternalTempMeasure [a, b, c, d, e, f] s = .next { s with g := { s.g with
      dieTemp := t, temps := [a, b, c, d, e, f] } }.updFault := by
  rw [execInternalTempMeasure_powered ho hs ht, hysteresis_between h85 h80,
    hysteresis_below (h85.trans (by decide)) (h85.trans (by decide))]
  simp [State.tempJudged, hov]

/-- Above 85 °C HOT rises, and up to 95 °C an OVERTEMP that does not hold stays so. -/
theorem execInternalTempMeasure_hot_rises (h85 : 85 < t) (h95 : t ≤ 95) (hhot : s.g.hot = false)
    (hov : s.g.overtemp = false) :
    execInternalTempMeasure [a, b, c, d, e, f] s = .next (({ s with g := { s.g with
      dieTemp := t, temps := [a, b, c, d, e, f], hot := true } }).raise 12 0).updFault := by
  rw [execInternalTempMeasure_powered ho hs ht, hysteresis_above h85, hysteresis_below (h95.trans (by decide)) h95]
  simp [State.tempJudged, hhot, hov]

/-- Above 100 °C OVERTEMP rises; a HOT that holds does not rise again. -/
theorem execInternalTempMeasure_overtemp_rises (h100 : 100 < t) (hhot : s.g.hot = true) (hov : s.g.overtemp = false) :
    execInternalTempMeasure [a, b, c, d, e, f] s = .next ((({ s with g := { s.g with
      dieTemp := t, temps := [a, b, c, d, e, f], overtemp := true } }).raise 12 1).faultEvent 8 12
        "INTERNAL_OVERTEMP").updFault := by
  rw [execInternalTempMeasure_powered ho hs ht, hysteresis_above h100, hysteresis_above (lt_trans (by decide) h100)]
  simp [State.tempJudged, hov, hhot]
end
end

/-- Settles O10: the rule of a powered measurement and its instances, and the rule of OFF and STABLED. -/
theorem internalTemperature : Obligations.InternalTemperature := by
  unfold Obligations.InternalTemperature
  refine ⟨fun _ _ _ _ _ _ _ _ => execInternalTempMeasure_cool, fun _ _ _ _ _ _ _ _ => execInternalTempMeasure_warm,
    fun _ _ _ _ _ _ _ _ => execInternalTempMeasure_hot_rises,
    fun _ _ _ _ _ _ _ _ => execInternalTempMeasure_overtemp_rises, ?general, ?unpowered⟩
  case general =>
    intro s a b c d e f t hot ov ho hs ht hhot hov
    subst hhot hov
    exact execInternalTempMeasure_powered ho hs ht
  case unpowered =>
    intro s temps h hl
    match temps, hl with
    | [_, _, _, _, _, _], _ => exact execInternalTempMeasure_unpowered (by simpa using h)

end Sys2Proof.Machine
end

section
/-!
# PFW_N and the internal rails (R74, R75, R85)
-/
namespace Sys2Proof.Machine
open Sys2Proof

section
variable {s t : State} {m : CModule}

theorem State.pfwUsed_of_modCfg (hm : s.modCfg = some m) (hu : m.pfwUsed = true) : s.pfwUsed = true := by
  simp [State.pfwUsed, hm, hu]

/-- Outside STABLED an assertion gives up a hold-up test and shows the pin (R75). -/
theorem execPfwAssert_asserted (hu : s.pfwUsed = true) (hp : s.sup.pfwPin = false) (hs : s.g.st ≠ .stabled) :
    execPfwAssert true s =
      .next (({ s.abandonTest with sup := { s.sup with pfwPin := true } }).raise 10).deferredRetry := by
  simp [execPfwAssert, hu, hp, hs]

theorem execPfwAssert_released (hu : s.pfwUsed = true) (hp : s.sup.pfwPin = true) (hs : s.g.st ≠ .stabled) :
    execPfwAssert false s = .next (({ s with sup := { s.sup with pfwPin := false } }).raise 10).deferredRetry := by
  simp [execPfwAssert, hu, hp, hs]

/-- In STABLED the release after an assertion is wake source 5 (R85). -/
theorem execPfwAssert_released_stabled (hu : s.pfwUsed = true) (hp : s.sup.pfwPin = true)
    (ha : s.sup.pfwAssertedInStabled = true) (hs : s.g.st = .stabled) :
    execPfwAssert false s = .next (({ s with sup := { s.sup with pfwPin := false } }.raise 10).wakeUp 5) := by
  simp [execPfwAssert, hu, hp, ha, hs]

/-- A fault of an internal rail restarts the module with cause 6, and the faults of the last hour are kept (R74). -/
theorem execInternalRailFault_powered (ho : s.g.st ≠ .off) (ht : t = s.startEntry 6 0) :
    execInternalRailFault s = .next { t with g := { t.g with
      railResets := t.now :: t.g.railResets.filter (fun x => decide (t.now ≤ x + 3600000000000)) } } := by
  subst ht
  exact if_neg ho
end

/-- Settles O9: one rule for each edge of PFW_N that is used, and the rule of a faulty internal rail. -/
theorem pfwAndInternalRail : Obligations.PfwAndInternalRail := by
  unfold Obligations.PfwAndInternalRail
  exact ⟨fun _ _ hm hu => execPfwAssert_asserted (State.pfwUsed_of_modCfg hm hu),
    fun _ _ hm hu => execPfwAssert_released (State.pfwUsed_of_modCfg hm hu),
    fun _ _ hm hu => execPfwAssert_released_stabled (State.pfwUsed_of_modCfg hm hu),
    fun _ _ => execInternalRailFault_powered⟩

end Sys2Proof.Machine
end

section
/-!
# Off, on and restart requests of host software (R83, R168, R365, R366)
-/
namespace Sys2Proof.Machine
open Sys2Proof

section
variable {s : State} {off : Bool}

/-- While the cycle runs the numbered request waits for the COMMIT, the only one of the host (R365). -/
theorem State.hostModRequest_waits (h : s.g.st.cycleRuns = true) :
    s.hostModRequest off = { s with cmd := { s.cmd with
      issuedHost := s.cmd.issuedHost + 1
      modReqs := s.cmd.modReqs.filter (fun q => q.src != Src.host) ++ [{ src := .host, off := off }] } } :=
  if_pos h

/-- With no cycle to wait for, a command of the host is applied as it is numbered (R366; log entry 33). -/
def State.hostCmdApplied (s : State) : State :=
  { s with cmd := { s.cmd with
    issuedHost := s.cmd.issuedHost + 1, applied := tset s.cmd.applied 2 (s.cmd.issuedHost + 1) } }

theorem State.hostModRequest_at_once (h : s.g.st.cycleRuns = false) :
    s.hostModRequest off = if off then s.hostCmdApplied.offRequest .host else s.hostCmdApplied.onRequest .host :=
  if_neg (by simp [h])
end

/-- Settles O15: a request waits or is judged at once as `hostModRequest` says, for off and for on. -/
theorem hostModuleRequests : Obligations.HostModuleRequests := by
  unfold Obligations.HostModuleRequests
  refine ⟨?waits, fun _ h => congrArg Host.Outcome.next (State.hostModRequest_at_once h),
    fun _ h => congrArg Host.Outcome.next (State.hostModRequest_at_once h), fun _ => rfl⟩
  case waits =>
    intro s off h
    rw [← State.hostModRequest_waits h]
    cases off
    · rfl
    · rfl

end Sys2Proof.Machine
end

section
/-!
# The manual-reset input and the end of a host reset (R83, R180, R181, R460)
-/
namespace Sys2Proof.Machine
open Sys2Proof

section
variable {s : State}

theorem execMrstPress_idle (hr : s.g.st.readsMrst = true) (hi : s.mrst.st = 0) :
    execMrstPress s = .next { s with mrst := { s.mrst with
      level := true, st := 1, pressAt := s.tickUs, fired := false } } :=
  if_pos (by simp [hr, hi])

/-- A press of 20 ms to below 8 s is a host reset, counted (R180). -/
theorem execMrstRelease_hostReset (hr : s.g.st.readsMrst = true) (hp : s.mrst.st = 1) (hf : s.mrst.fired = false)
    (hmin : 20000000 ≤ s.now - 9000 - s.mrst.pressAt) (hmax : s.now - 9000 - s.mrst.pressAt < 8000000000) :
    execMrstRelease s = .next ({ s with mrst := { s.mrst with
      level := false, st := 0, hostResets := satInc 65535 s.mrst.hostResets } }).hostReset :=
  (if_pos hp).trans (if_pos (by simp only [hr, hf, hmin, hmax, decide_true, Bool.not_false, Bool.and_self]))

/-- At 8 s a press that has not fired is a restart request (R83, R180). -/
theorem execMrstRestartPress_fires (hp : s.mrst.st = 1) (hf : s.mrst.fired = false) (hr : s.g.st.readsMrst = true) :
    execMrstRestartPress s = .next (({ s with mrst := { s.mrst with fired := true } }).restartRequest .mrst) :=
  if_pos (by simp [hp, hf, hr])

theorem execMrstStuck_pressed (hp : s.mrst.st = 1) :
    execMrstStuck s = .next (({ s with mrst := { s.mrst with st := 2, stuckSeen := true } }).raise 21 1) :=
  if_pos hp

theorem execMrstHeldEnd_ignored (hi : s.mrst.st = 2) :
    execMrstHeldEnd s = .next { s with mrst := { s.mrst with st := 0, level := false } } :=
  if_pos hi

/-- A watchdog that runs starts again with a first window (R460). -/
theorem execHostResetEnd_watched (hr : s.mrst.hostRst = true) (hw : s.wdg.st ∈ [WdgSt.first, .window]) :
    execHostResetEnd s = .next ({ s with mrst := { s.mrst with hostRst := false } }).wdgFirst := by
  simp only [List.mem_cons, List.not_mem_nil, or_false] at hw
  rcases hw with hw | hw <;> simp [execHostResetEnd, hr, hw]

theorem execHostResetEnd_unwatched (hr : s.mrst.hostRst = true) (hw : s.wdg.st ∈ [WdgSt.disabled, .stopped]) :
    execHostResetEnd s = .next { s with mrst := { s.mrst with hostRst := false } } := by
  simp only [List.mem_cons, List.not_mem_nil, or_false] at hw
  rcases hw with hw | hw <;> simp [execHostResetEnd, hr, hw]
end

/-- Settles O27: one rule for each command of the input, and the end of a host reset by the watchdog's state. -/
theorem manualResetActs : Obligations.ManualResetActs := by
  unfold Obligations.ManualResetActs
  exact ⟨fun _ => execMrstPress_idle, fun _ => execMrstRelease_hostReset, fun _ => execMrstRestartPress_fires,
    fun _ => execMrstStuck_pressed, fun _ => execMrstHeldEnd_ignored, fun _ => execHostResetEnd_watched,
    fun _ => execHostResetEnd_unwatched⟩

end Sys2Proof.Machine
end

section
/-!
# Commit groups, the Inclusion record's copies and LAST_GASP (R87-R89, R169, R272, R278, R282)
-/
namespace Sys2Proof.Machine
open Sys2Proof

/-- What follows once a group is durable and no other is being committed: step 2 of LAST_GASP ends (R88), and on the way to
STABLED the run-down set begins (R169). -/
def State.afterLastGroup (t : State) : State :=
  if t.g.st = .lastGasp && t.g.lgStep = 2 then { t with g := { t.g with lgStep := 3, lgCommitOk := true } }
  else if t.shut.kind = 1 && t.shut.phase = 3 && t.shut.flushed then t.beginSet.settle
  else t

section
variable {s t : State} {d : NvData} {p : Seal}

/-! ### The end of a commit group -/

theorem execCommitGroupDone_last (hd : s.nv.committing = some d) (hn : (s.groupDurable d).nv.committing = none) :
    execCommitGroupDone s = .next (s.groupDurable d).afterLastGroup := by
  unfold execCommitGroupDone State.afterLastGroup
  rw [hd]
  dsimp only
  rw [if_neg (by simp [hn]), apply_ite Host.Outcome.next, apply_ite Host.Outcome.next]

theorem State.afterLastGroup_lastGasp (hs : t.g.st = .lastGasp) (h2 : t.g.lgStep = 2) :
    t.afterLastGroup = { t with g := { t.g with lgStep := 3, lgCommitOk := true } } :=
  if_pos (by simp [hs, h2])

theorem State.afterLastGroup_stabling (hs : t.g.st ≠ .lastGasp) (hk : t.shut.kind = 1) (hp : t.shut.phase = 3)
    (hf : t.shut.flushed = true) : t.afterLastGroup = t.beginSet.settle :=
  (if_neg (by simp [hs])).trans (if_pos (by simp [hk, hp, hf]))

theorem State.afterLastGroup_elsewhere (hs : t.g.st ≠ .lastGasp) (hk : t.shut.kind ≠ 1) : t.afterLastGroup = t :=
  (if_neg (by simp [hs])).trans (if_neg (by simp [hk]))

/-! ### The Inclusion record -/

theorem execInclusionCopyADone_commitA (hi : s.inc.st = .commitA) :
    execInclusionCopyADone s =
      .next ({ s with inc := { s.inc with st := .commitB, copyA := s.inc.cap } }.raise 26) :=
  if_pos hi

/-- Outside LAST_GASP the second copy freezes the record and releases its buffer (R278). -/
theorem execInclusionCopyBDone_commitB (hi : s.inc.st = .commitB) (hs : s.g.st ≠ .lastGasp) :
    execInclusionCopyBDone s = .next { s with
      inc := { s.inc with st := .frozen, copyB := s.inc.copyA, cap := none }
      scan := { s.scan with heldBuf := none } } :=
  (if_pos hi).trans (if_neg (by simp [hs]))

theorem execInclusionClearDone_clearing (hi : s.inc.st = .clearing) :
    execInclusionClearDone s =
      .next ({ s with inc := { recordNo := s.inc.recordNo } }.nvWrite 8 (fun d => { d with clearIncDue := false })) :=
  if_pos hi

/-! ### The steps of LAST_GASP -/

theorem execLastGaspFlushEnd_step1 (hs : s.g.st = .lastGasp) (h1 : s.g.lgStep = 1) :
    execLastGaspFlushEnd s = .next (s.lastGaspCommit (mibUp s.jurWaiting)) :=
  if_pos (by simp [hs, h1])

/-- The seal that step 3 programs (R282): what the module knows of its end, with the cause histories that no commit carried. -/
def State.lastSeal (s : State) : Seal where
  valid := true
  time := s.time.mtime
  utc := s.utcNow
  poweron := s.nv.cur.poweron
  flushDone := s.g.lgFlushOk
  commitDone := s.g.lgCommitOk
  unflushedMib := s.g.lgUnflushed
  incState := s.inc.st
  pendingInc := s.inc.st.copying
  recordNo := s.inc.recordNo
  kept := s.nv.sealPending
  further := s.nv.sealOverflow
  no := s.sealPg.no + 1
  history := (List.finRange 256).filterMap (fun n =>
    if s.nv.cur.rail[n].seen = s.nv.durable.rail[n].seen && s.nv.cur.rail[n].count = s.nv.durable.rail[n].count
    then none else some (n, s.nv.cur.rail[n].seen, s.nv.cur.rail[n].count))

/-- The seal ends step 3, and step 4 begins with every CAS_OUT low, every field output off and its first drop (R88, R89). -/
theorem execSealDone_step3 (hs : s.g.st = .lastGasp) (h3 : s.g.lgStep = 3) (hp : p = s.lastSeal) :
    execSealDone s = .next ({ s with
      sealPg := p
      g := { s.g with lgStep := 4 }
      seq := { s.seq with casOut := 0 }
      fio := { s.fio with outputsOff := true } }.dropNext) := by
  subst hp
  exact if_pos (by simp [hs, h3])

theorem execLastGaspDropStep_step4 (hs : s.g.st = .lastGasp) (h4 : s.g.lgStep = 4) :
    execLastGaspDropStep s = .next s.dropNext :=
  if_pos (by simp [hs, h4])
end

/-- Settles O34: what follows a durable group, judged by the module's state, and one rule for each of the other commands. -/
theorem commitAndLastGaspAct : Obligations.CommitAndLastGaspAct := by
  unfold Obligations.CommitAndLastGaspAct
  refine ⟨?lastGasp, ?run, ?stabling, fun _ => execInclusionCopyADone_commitA,
    fun _ hi hs => execInclusionCopyBDone_commitB hi (by simp [hs]), fun _ => execInclusionClearDone_clearing,
    fun _ _ => execSealDone_step3, fun _ => execLastGaspDropStep_step4, fun _ => execLastGaspFlushEnd_step1⟩
  case lastGasp =>
    intro s d hd hn hs h2
    exact (execCommitGroupDone_last hd hn).trans (congrArg Host.Outcome.next (State.afterLastGroup_lastGasp hs h2))
  case run =>
    intro s d hd hn hs hk
    exact (execCommitGroupDone_last hd hn).trans
      (congrArg Host.Outcome.next (State.afterLastGroup_elsewhere (by simp [hs]) hk))
  case stabling =>
    intro s d hd hn hs hk hp hf
    exact (execCommitGroupDone_last hd hn).trans
      (congrArg Host.Outcome.next (State.afterLastGroup_stabling (by simp [hs]) hk hp hf))

end Sys2Proof.Machine
end

section
/-!
# The end of LOAD (R94, R102)
-/
namespace Sys2Proof.Machine
open Sys2Proof

/-! ### A key that counts as missing, and the selector that is read (R67, R93, R94) -/

section
variable {k : KeySt} {x : Key}

theorem KeySt.present_of_no_key (h : k.key = none) : k.present = none := by
  simp [KeySt.present, h]

theorem KeySt.present_of_unreadable (h : k.key = some x) (hx : (x.vkeyShort || !x.identityOk) = true) :
    k.present = none := by
  have hr : (!x.vkeyShort && x.identityOk) = false := by simpa using congrArg not hx
  rw [KeySt.present, h, Option.filter_some, hr]
  rfl
end

/-- The state in which LOAD judges the key it has read. -/
def State.keyRead (s : State) (k : Key) : State :=
  { s with key := { s.key with wasRead := true, keySerial := k.serial, loadedSerial := k.serial }.readSelector k }

section
variable {s : State} {k : Key} {sel : Selector} {copyB tie : Bool}

theorem State.keyRead_no_selector (h : k.selector = none) :
    s.keyRead k = { s with key := { s.key with
      wasRead := true, keySerial := k.serial, loadedSerial := k.serial
      selValid := false, activeBank := false, selCopy := false, selGen := 0
      bank0 := bankSeen k.bank0, bank1 := bankSeen k.bank1 } } := by
  unfold State.keyRead KeySt.readSelector
  rw [h]

theorem State.keyRead_selector (h : k.selector = some (sel, copyB, tie)) :
    s.keyRead k = { s with
      key := ({ s.key with
        wasRead := true, keySerial := k.serial, loadedSerial := k.serial, activeBank := sel.bank, selCopy := copyB
        selValid := true, selGen := sel.gen }.setBank sel.bank .active).setBank (!sel.bank)
          (bankSeen (k.bank !sel.bank)) } := by
  unfold State.keyRead KeySt.readSelector
  rw [h]
end

/-! ### The outcomes of KEY_LOAD_COMPLETE (R102) -/

section
variable {s : State} {k : Key} {sel : Selector} {copyB : Bool} {r : LoadRes} {img : Image}
  (hs : s.g.st = .load)

include hs

theorem execKeyLoadComplete_missing (hk : s.key.present = none) :
    execKeyLoadComplete () s = .next (s.loadFail ⟨1, 0, 0⟩) := by
  unfold execKeyLoadComplete
  rw [if_neg (not_not_intro hs), hk]

theorem execKeyLoadComplete_no_selector (hk : s.key.present = some k) (hn : k.selector = none) :
    execKeyLoadComplete () s = .next ((s.keyRead k).loadFail ⟨3, 0, 0⟩) := by
  unfold execKeyLoadComplete
  rw [if_neg (not_not_intro hs), hk]
  dsimp only
  rw [hn]
  rfl

theorem execKeyLoadComplete_check_failed (hk : s.key.present = some k) (hn : k.selector = some (sel, copyB, false))
    (hc : checkImage (k.bank sel.bank) (some sel.digest) s.sec.custKey k.position s.fac.hwRev = .inl r) :
    execKeyLoadComplete () s = .next ((s.keyRead k).loadFail r) := by
  unfold execKeyLoadComplete
  rw [if_neg (not_not_intro hs), hk]
  dsimp only
  rw [hn]
  dsimp only
  rw [hc]
  rfl

theorem execKeyLoadComplete_checked (hk : s.key.present = some k) (hn : k.selector = some (sel, copyB, false))
    (hc : checkImage (k.bank sel.bank) (some sel.digest) s.sec.custKey k.position s.fac.hwRev = .inr img) :
    execKeyLoadComplete () s = .next ((s.keyRead k).applyLoad img sel) := by
  unfold execKeyLoadComplete
  rw [if_neg (not_not_intro hs), hk]
  dsimp only
  rw [hn]
  dsimp only
  rw [hc]
  rfl
end

/-- Settles O18: a rule for a missing key, one for a missing selector, and one for each verdict on the image. -/
theorem keyLoadEndsLoad : Obligations.KeyLoadEndsLoad := by
  unfold Obligations.KeyLoadEndsLoad
  refine ⟨fun _ hs hk => execKeyLoadComplete_missing hs (KeySt.present_of_no_key hk),
    fun _ _ hs hk hx => execKeyLoadComplete_missing hs (KeySt.present_of_unreadable hk hx), ?noSelector, ?selector⟩
  case noSelector =>
    intro s k hs hk hn
    exact State.keyRead_no_selector hn ▸ execKeyLoadComplete_no_selector hs hk hn
  case selector =>
    intro s t k sel copyB hs hk hn ht
    obtain rfl : s.keyRead k = t := (State.keyRead_selector hn).trans ht.symm
    cases hc : checkImage (k.bank sel.bank) (some sel.digest) s.sec.custKey k.position s.fac.hwRev with
    | inl r => exact execKeyLoadComplete_check_failed hs hk hn hc
    | inr img => exact execKeyLoadComplete_checked hs hk hn hc

end Sys2Proof.Machine
end

section
/-!
# Staging and SWITCH (R92, R94, R103-R106, R110, R112)
-/
namespace Sys2Proof.Machine
open Sys2Proof

section
variable {s t u : State} {o : Owner} {d : Bool} {c : BitVec 8} {given image : List Byte} {n : Fin 4} {k : Key}
  {r : LoadRes} {img : Image}

/-! ### STAGE and VERIFY begin (R104, R106) -/

theorem execStage_accepted (h : s.stageRefusal = none) :
    execStage o d s = .next ({ s with
      key := (s.key.setBank s.target .invalid).program s.target []
      stg := { s.stg with
        st := .writing, owner := some o, result := 0, writtenMib := 0, downgrade := d, verifyOnly := false
        source := (s.stg.addr, s.stg.len), stagedSerial := 0, stagedDigest := [], stagedSecs := [], diffs := []
        copyErased := false } }.stageEntry "STAGE" d.toNat) := by
  unfold execStage
  rw [h]

theorem execStage_refused (h : s.stageRefusal = some c) :
    execStage o d s =
      .next (((s.stageEntry "STAGE" d.toNat).stgResult c).stageEntry "STAGE_RESULT" c.toNat) := by
  unfold execStage
  rw [h]

theorem execVerify_accepted (h : s.stageRefusal = none) :
    execVerify o s = .next { s with stg := { s.stg with
      st := .verifying, owner := some o, result := 0, downgrade := false, verifyOnly := true
      stagedSerial := 0, stagedDigest := [], stagedSecs := [], diffs := [], copyErased := false } } := by
  unfold execVerify
  rw [h]

theorem execVerify_refused (h : s.stageRefusal = some c) : execVerify o s = .next (s.stgResult c) := by
  unfold execVerify
  rw [h]

/-! ### Programming ends (R105) -/

/-- The target bank holds `image`, and its verification begins. -/
def State.programmed (s : State) (image : List Byte) : State :=
  { s with
    key := (s.key.setBank s.target .written).program s.target image
    stg := { s.stg with st := .verifying, writtenMib := (image.length + 1048575) / 1048576 } }

/-- Of host software's image the bank takes the source's length, up to its 30 MiB (R92). -/
theorem execStageWriteDone_host (hs : s.stg.st = .writing) (ho : s.stg.owner = some .host) :
    execStageWriteDone (.ok given) s = .next (s.programmed (bankFits (padTo s.stg.source.2.toNat given))) := by
  unfold execStageWriteDone
  rw [if_neg (not_not_intro hs), ho]
  rfl

/-- The bank of a session already holds what the session has transferred. -/
theorem execStageWriteDone_session (hs : s.stg.st = .writing) (ho : s.stg.owner = some (.session n)) :
    execStageWriteDone (.ok image) s = .next (s.programmed (s.key.bankBytes s.target)) := by
  unfold execStageWriteDone
  rw [if_neg (not_not_intro hs), ho]
  rfl

theorem execStageWriteDone_keyWriteError (hs : s.stg.st = .writing) :
    execStageWriteDone .keyWriteError s = .next (s.stageFail 0x10 .invalid) :=
  if_neg (not_not_intro hs)

theorem execStageWriteDone_hostReadError (hs : s.stg.st = .writing) :
    execStageWriteDone .hostReadError s = .next (s.stageFail 0x11 .invalid) :=
  if_neg (not_not_intro hs)

/-! ### Verification ends (R105, R106) -/

theorem execStageVerifyDone_missing (hs : s.stg.st = .verifying) (hk : s.key.present = none) :
    execStageVerifyDone () s = .next (s.stageFail 2 .invalid) := by
  unfold execStageVerifyDone
  rw [if_neg (not_not_intro hs), hk]

theorem execStageVerifyDone_check_failed (hs : s.stg.st = .verifying) (hk : s.key.present = some k)
    (ht : t = { s with stg := { s.stg with stagedSerial := serialOf (k.bank s.target) } })
    (hc : checkImage (k.bank s.target) none s.sec.custKey k.position s.fac.hwRev = .inl r) :
    execStageVerifyDone () s = .next (t.stageFail (BitVec.ofNat 8 r.code) .written) := by
  subst ht
  unfold execStageVerifyDone
  rw [if_neg (not_not_intro hs), hk]
  dsimp only
  rw [hc]

/-- An older serial than the running one fails where the STAGE did not allow a downgrade (R106). -/
theorem execStageVerifyDone_older (hs : s.stg.st = .verifying) (hk : s.key.present = some k)
    (ht : t = { s with stg := { s.stg with stagedSerial := serialOf (k.bank s.target) } })
    (hu : u = { t with key := s.key.setBank s.target .verified })
    (hc : checkImage (k.bank s.target) none s.sec.custKey k.position s.fac.hwRev = .inr img)
    (ho : (decide (img.hdr.serial < s.key.runSerial) && !s.stg.downgrade) = true) :
    execStageVerifyDone () s = .next (u.stageFail 0x14 .verified) := by
  subst hu ht
  unfold execStageVerifyDone
  rw [if_neg (not_not_intro hs), hk]
  dsimp only
  rw [hc]
  exact if_pos ho

/-- The session ends STAGED, and the selector copy that the next SWITCH writes is erased (R105). -/
theorem execStageVerifyDone_staged (hs : s.stg.st = .verifying) (hk : s.key.present = some k)
    (ht : t = { s with stg := { s.stg with stagedSerial := serialOf (k.bank s.target) } })
    (hu : u = { t with key := s.key.setBank s.target .verified })
    (hc : checkImage (k.bank s.target) none s.sec.custKey k.position s.fac.hwRev = .inr img)
    (ho : ¬ (decide (img.hdr.serial < s.key.runSerial) && !s.stg.downgrade) = true) :
    execStageVerifyDone () s = .next (({ u with
      key := { u.key with key := u.key.key.map (fun (k : Key) =>
        if s.key.selValid && !s.key.selCopy then { k with selB := [] } else { k with selA := [] }) }
      stg := { u.stg with
        st := .staged, result := 0, stagedSecs := img.secs, diffs := diffsOf s.run img.secs, copyErased := true
        stagedDigest := sha384 (manifestOf (k.bank s.target) img.hdr) } }.stageResult 0).raise 19) := by
  subst hu ht
  unfold execStageVerifyDone
  rw [if_neg (not_not_intro hs), hk]
  dsimp only
  rw [hc]
  exact if_neg ho

/-! ### ABORT, SWITCH and the selector copy (R94, R104, R110, R112) -/

theorem execStageAbort_owner (ho : s.stg.owner = some o) (hi : s.stg.st ≠ .idle) (hw : s.stg.switching = false) :
    execStageAbort o s = .next s.stageAbort :=
  if_pos (by simp [ho, hi, hw])

theorem execSwitch_accepted (h : s.switchOk o = true) :
    execSwitch o s = .next { s with stg := { s.stg with switching := true } } :=
  if_pos h

theorem execSwitch_refused (h : s.switchOk o = false) :
    execSwitch o s = .next { s with stg := { s.stg with result := 0x15 } } :=
  if_neg (by simp [h])

/-- With a valid selector the copy not in use takes the next generation and names the staged bank (R94, R112). -/
theorem execSelectorWriteDone_present (hw : s.stg.switching = true) (hk : s.key.present = some k)
    (hv : s.key.selValid = true)
    (ht : t = { s with
      key := { ((s.key.setBank s.key.activeBank .verified).setBank s.target .active) with
        key := some (if s.key.selCopy
          then { k with selA := selectorPage (s.key.selGen + 1) s.target s.stg.stagedDigest }
          else { k with selB := selectorPage (s.key.selGen + 1) s.target s.stg.stagedDigest })
        activeBank := s.target, selCopy := !s.key.selCopy, selValid := true, selGen := s.key.selGen + 1
        loadedDigest := s.stg.stagedDigest, runSerial := s.stg.stagedSerial
        pendingRestart := s.key.pendingRestart || s.stg.diffs.any (fun d => restartClass d.typ) }
      stg := { s.stg with
        st := .idle, owner := none, result := 0, switching := false, stagedSecs := [], diffs := [] } }) :
    execSelectorWriteDone s = .next ((t.nvWrite 8 (fun d => { d with takenSecs := [] })).raise 19) := by
  subst ht
  unfold execSelectorWriteDone
  rw [if_neg (by simp [hw]), hk]
  cases s.key.selCopy with
  | false => simp [hv]
  | true => simp [hv]

theorem execSelectorWriteDone_missing (hw : s.stg.switching = true) (hk : s.key.present = none) :
    execSelectorWriteDone s = .next s.keyGone := by
  unfold execSelectorWriteDone
  rw [if_neg (by simp [hw]), hk]

/-- A key that leaves while its selector copy is written fails the session, and a take in preparation with it (R105, R110). -/
theorem State.keyGone_switching (hw : s.stg.switching = true) (hs : s.stg.st = .staged)
    (ht : t = { s with stg := { s.stg with
      st := .failed, owner := none, result := 0x10, switching := false } }.raise 19) :
    s.keyGone = if t.take.st = .preparing then t.abandonSet else t := by
  subst ht
  simp [State.keyGone, hw, hs]
end

/-- Settles O20: one rule for each command of a session and each of its outcomes. -/
theorem stagingCommandsAct : Obligations.StagingCommandsAct := by
  unfold Obligations.StagingCommandsAct
  refine ⟨fun _ _ _ => execStage_accepted, fun _ _ => execVerify_accepted,
    fun _ _ _ _ h => ⟨execStage_refused h, execVerify_refused h⟩, ?host,
    fun _ _ _ => execStageWriteDone_session,
    fun _ hs => ⟨execStageWriteDone_keyWriteError hs, execStageWriteDone_hostReadError hs⟩, ?verified,
    fun _ => execStageVerifyDone_missing, fun _ _ => execStageAbort_owner⟩
  case host =>
    intro s given image hs ho hi
    subst hi
    exact execStageWriteDone_host hs ho
  case verified =>
    intro s t u k hs hk ht hu
    cases hc : checkImage (k.bank s.target) none s.sec.custKey k.position s.fac.hwRev with
    | inl r => exact execStageVerifyDone_check_failed hs hk ht hc
    | inr img =>
      by_cases ho : (decide (img.hdr.serial < s.key.runSerial) && !s.stg.downgrade) = true
      · exact (execStageVerifyDone_older hs hk ht hu hc ho).trans (congrArg Host.Outcome.next (if_pos ho).symm)
      · exact (execStageVerifyDone_staged hs hk ht hu hc ho).trans (congrArg Host.Outcome.next (if_neg ho).symm)

/-- Settles O21: SWITCH by its judgement, and the end of the selector write by the key. -/
theorem switchActivatesStagedBank : Obligations.SwitchActivatesStagedBank := by
  unfold Obligations.SwitchActivatesStagedBank
  exact ⟨fun _ _ => execSwitch_accepted, fun _ _ => execSwitch_refused, fun _ _ _ => execSelectorWriteDone_present,
    fun _ _ hw hk hs ht => (execSelectorWriteDone_missing hw hk).trans
      (congrArg Host.Outcome.next (State.keyGone_switching hw hs ht))⟩

end Sys2Proof.Machine
end

section
/-!
# TAKE and its preparation (R107, R108)
-/
namespace Sys2Proof.Machine
open Sys2Proof

section
variable {s : State} {count : BitVec 6} {n k : Nat} {target : DWord}

/-! ### A TAKE is judged -/

/-- The number of parts is right, and the module neither is a standby nor pairs the take with one (R107, R386, R389). -/
theorem execTake_alone (h0 : 0 < count.toNat) (h32 : count.toNat ≤ 32) (hb : s.standby = false)
    (hp : s.hsb.st ≠ .primary) : execTake count s = .next (s.takeSet count.toNat s.take.cycle) := by
  unfold execTake
  dsimp only
  rw [if_neg (by simp only [Bool.or_eq_true, decide_eq_true_eq]; omega), if_neg (by simp [hb]), if_neg (by simp [hp])]

theorem State.takeSet_busy (h : s.take.st ∈ [TakeState.preparing, .ready]) :
    s.takeSet n target = s.partAnswers n (fun _ => .refusedBusy) :=
  if_pos (by simpa using h)

theorem State.takeSet_accepted (hp : s.take.st ≠ .preparing) (hr : s.take.st ≠ .ready)
    (hs : s.g.st ∈ [ModSt.sequence, .run]) (hst : s.stg.st = .staged) (hw : s.stg.switching = false)
    (hk : s.key.present.isSome = true) (hm : s.key.mismatch = false) (hb : s.sec.breachSinceStart = false)
    (ha : (s.take.parts.toList.take n).all (fun p => (s.partRefusal p).isNone) = true) :
    s.takeSet n target = { s with take := { s.take with count := n } }.prepare n target := by
  have hrun : (decide (s.g.st = .sequence) || decide (s.g.st = .run)) = true := by simpa using hs
  have hnone : (s.take.parts.toList.take n).any (fun p => (s.partRefusal p).isSome) = false := by simpa using ha
  unfold State.takeSet
  dsimp only
  rw [if_neg (by simp [hp, hr]), if_neg (by rw [hrun, hst, hw]; decide),
    if_neg (by simp [hm, hb, Option.ne_none_iff_isSome, hk]), if_neg (by simp [hnone])]

/-! ### The preparation ends -/

theorem execTakePrepared_badDigest (hs : s.take.st = .preparing) (hd : s.badDigest = some k) :
    execTakePrepared () s = .next (s.takeRefused (fun i => if i = k then .refusedKey else .refusedSet)) := by
  unfold execTakePrepared
  rw [if_neg (not_not_intro hs), hd]

theorem execTakePrepared_unresolved (hs : s.take.st = .preparing) (hd : s.badDigest = none)
    (hu : unresolved s.cfg s.run s.take.prepared = some k) :
    execTakePrepared () s = .next (s.takeRefused (fun i => if i = k then .refusedDependency else .refusedSet)) := by
  unfold execTakePrepared
  rw [if_neg (not_not_intro hs), hd, hu]

theorem execTakePrepared_ready (hs : s.take.st = .preparing) (hd : s.badDigest = none)
    (hu : unresolved s.cfg s.run s.take.prepared = none) :
    execTakePrepared () s = .next { s with take := { s.take with st := .ready } } := by
  unfold execTakePrepared
  rw [if_neg (not_not_intro hs), hd, hu]
end

/-- Settles O22: a TAKE by its judgement, and the end of its preparation by the first part that fails a check. -/
theorem takePreparesASet : Obligations.TakePreparesASet := by
  unfold Obligations.TakePreparesASet
  refine ⟨?accepted, ?busy, ?prepared, ?emptySet⟩
  case accepted =>
    intro s count h0 h32 hb hp hn hr hs hst hw hk hm hbr ha
    exact (execTake_alone h0 h32 hb hp).trans
      (congrArg Host.Outcome.next (State.takeSet_accepted hn hr hs hst hw hk hm hbr ha))
  case busy =>
    intro s count h0 h32 hb hp ht
    exact (execTake_alone h0 h32 hb hp).trans (congrArg Host.Outcome.next (State.takeSet_busy ht))
  case prepared =>
    intro s hs
    cases hd : s.badDigest with
    | some k => exact execTakePrepared_badDigest hs hd
    | none =>
      cases hu : unresolved s.cfg s.run s.take.prepared with
      | some k => exact execTakePrepared_unresolved hs hd hu
      | none => exact execTakePrepared_ready hs hd hu
  case emptySet =>
    intro s hs he
    exact execTakePrepared_ready hs (by rw [State.badDigest, he]; rfl) (by rw [he]; rfl)

end Sys2Proof.Machine
end

section
/-!
# Edivo sessions and their messages (R105, R285, R441, R477-R480)

As for AUTH, a message of an open session acts on the state that notes its time.
-/
namespace Sys2Proof.Machine
open Sys2Proof

/-! ### Sessions open (R477) -/

theorem execEdivoSessionOpen_free {s : State} {n : Fin 4} (hl : s.linksPowered = true) (hp : s.portEn = true)
    (hf : (List.finRange 4).find? (fun n => (s.lnk.sessions[n]).isNone) = some n) :
    execEdivoSessionOpen s = .next { s with lnk := { s.lnk with
      sessions := tset s.lnk.sessions n (some { lastAt := s.now }), opened := s.lnk.opened + 1 } } := by
  unfold execEdivoSessionOpen
  rw [if_neg (by simp [hl, hp]), hf]

/-! ### Messages of an open session (R478-R480) -/

section
variable {n : Fin 4} {s t : State} {x : Session} {a k len : Nat} {w : Word} {b : List Byte} {i : Fin 64} {q : DWord}
  {l : List Rec} {c : Bool} {e : Lfl}
  (hx : s.lnk.sessions[n] = some x) (ht : t = s.modSession n (fun y => { y with lastAt := s.now }))

include hx in
/-- A bad frame is answered, and otherwise ignored. -/
theorem execEdivoBadFrame_open : execEdivoBadFrame n s = .next (s.reply n 2 .none) := by
  unfold execEdivoBadFrame
  rw [hx]
  rfl

include hx ht

theorem execEdivoBye_open : execEdivoBye n s = .next ((t.reply n 0 .none).endSession n) := by
  unfold execEdivoBye
  rw [State.onSession_open hx ht]

theorem execEdivoHello_open :
    execEdivoHello n s = .next (t.reply n 0 .none [lo32 t.fac.serial, hi32 t.fac.serial, natWord t.fac.hwRev,
      lo32 t.key.runSerial, hi32 t.key.runSerial, natWord x.level.code]) := by
  unfold execEdivoHello
  rw [State.onSession_open hx ht]

theorem execEdivoRead_registers (hk : k ≤ 256) (ha : a % 4 = 0) :
    execEdivoRead n false a k s = .next ((t.readWords a k).1.reply n 0 .none (t.readWords a k).2) := by
  unfold execEdivoRead
  rw [State.onSession_open hx ht, if_neg Bool.false_ne_true, if_neg (by simp [ha, hk])]

theorem execEdivoRead_bar2 (hk : k ≤ 1024) :
    execEdivoRead n true a k s = .next (t.reply n 0 .none
      (bytesToWords ((k + 3) / 4) ((List.range k).map (fun i => t.bar2Byte (a + i))))) := by
  unfold execEdivoRead
  rw [State.onSession_open hx ht, if_pos rfl, if_neg (Nat.not_lt.2 hk)]

theorem execEdivoCommand_view (hl : x.level = .view) : execEdivoCommand n a w s = .next (t.reply n 1 .none) := by
  subst ht
  unfold execEdivoCommand
  rw [hx]
  exact if_pos hl

/-- At another level the command is one write. -/
theorem execEdivoCommand_writes (hl : x.level ≠ .view) : execEdivoCommand n a w s = edivoWrite n a w t := by
  subst ht
  unfold execEdivoCommand
  rw [hx]
  exact if_neg hl

theorem execEdivoStageData_owner (hb : b.length ≤ 65536) (hl : x.level ≠ .view) (hs : s.stg.st = .writing)
    (ho : s.stg.owner = some (.session n)) :
    execEdivoStageData n b s = .next (({ t with
      key := t.key.program t.target (bankFits (t.key.bankBytes t.target ++ b))
      stg := { t.stg with
        writtenMib := ((bankFits (t.key.bankBytes t.target ++ b)).length + 1048575) / 1048576 } }).reply n 0 .none) := by
  have hstg : t.stg = s.stg := by subst ht; simp
  unfold execEdivoStageData
  rw [if_neg (Nat.not_lt.2 hb), State.onSession_open hx ht, if_neg hl, if_pos (by simp [hstg, hs, ho])]

theorem execEdivoRecordRead_stream (hl : l = (t.readRecs i q.toNat (min len 65536) none).1) :
    execEdivoRecordRead n (.stream i q len) s = .next (t.reply n 4 (if l.isEmpty then .notFound else .found)
      (bytesToWords (((l.flatMap recBytes).length + 3) / 4) (l.flatMap recBytes))) := by
  subst hl
  unfold execEdivoRecordRead
  rw [State.onSession_open hx ht]

theorem execEdivoExport_inclusion (hk : k < 768) :
    execEdivoExport n (.inclusion c k) s = .next ((t.incRead c k).1.reply n 4
      (if (t.incRead c k).2.2 then .damaged else .accepted) (t.incRead c k).2.1) := by
  unfold execEdivoExport
  rw [State.onSession_open hx ht]
  exact congrArg Host.Outcome.next (if_neg (Nat.not_le.2 hk))

theorem execEdivoExport_laterFault (hk : k < 255) (he : t.nv.cur.lfl[k]? = some e) :
    execEdivoExport n (.laterFault k) s = .next (t.reply n 4 .accepted (bytesToWords 16 e.bytes)) := by
  unfold execEdivoExport
  rw [State.onSession_open hx ht]
  dsimp only
  rw [if_neg (Nat.not_le.2 hk), he]

theorem execEdivoTestMode_enter (hl : x.level ≠ .view) (hs : s.g.st.tests = true) (hm : s.motion.moving = false)
    (hn : x.testMode = false) :
    execEdivoTestMode n true s = .next (((t.modSession n (fun y => { y with testMode := true })).juridical
      "TEST_MODE").reply n 0 .none) := by
  have hg : t.g = s.g ∧ t.motion = s.motion := by subst ht; simp
  unfold execEdivoTestMode
  rw [State.onSession_open hx ht, if_neg hl, if_neg (by simp), if_neg (by simp [hg, hs, hm]), if_neg (by simp [hn])]

theorem execEdivoTestMode_end (hl : x.level ≠ .view) :
    execEdivoTestMode n false s = .next (t.endTestMode.reply n 0 .none) := by
  unfold execEdivoTestMode
  rw [State.onSession_open hx ht, if_neg hl]
  rfl
end

/-- A write of the magic to GLB_RESTART is a restart request of Edivo (R83). -/
theorem edivoWrite_restart {t : State} {n : Fin 4} {w : Word} (hw : bitsOf w 0 16 = 0xA5C3) :
    edivoWrite n 0x34 w t = .next (t.restartRequest .edivo) :=
  congrArg Host.Outcome.next (if_pos hw)

/-- Settles O46: the rules of a session's opening and end, and one rule for each message on the state that notes its time. -/
theorem edivoSessionsAct : Obligations.EdivoSessionsAct := by
  unfold Obligations.EdivoSessionsAct
  exact ⟨fun _ _ => execEdivoSessionOpen_free, fun _ _ => ⟨rfl, rfl⟩,
    fun _ _ _ _ hx ht => ⟨execEdivoBye_open hx ht, execEdivoBadFrame_open hx, execEdivoHello_open hx ht⟩,
    fun _ _ _ _ _ _ => execEdivoRead_registers, fun _ _ _ _ _ _ => execEdivoRead_bar2,
    fun _ _ _ _ _ _ => execEdivoCommand_view,
    fun _ _ _ _ _ hx ht hl hw => (execEdivoCommand_writes hx ht hl).trans (edivoWrite_restart hw),
    fun _ _ _ _ _ => execEdivoStageData_owner, fun _ _ _ _ _ _ _ _ => execEdivoRecordRead_stream,
    fun _ _ _ _ _ _ => execEdivoExport_inclusion, fun _ _ _ _ _ _ => execEdivoExport_laterFault,
    fun _ _ _ _ => execEdivoTestMode_enter, fun _ _ _ _ => execEdivoTestMode_end⟩

end Sys2Proof.Machine
end

section
/-!
# Rail commands of host software (R126, R131, R365, R366)
-/
namespace Sys2Proof.Machine
open Sys2Proof

/-- The command that host software gives with a code of RSQ_RAIL_CMD (R131). -/
def hostRailInstr (n : RailN) : RailCode → Instr
  | .on => .railCmdOn n
  | .off => .railCmdOff n
  | .clear => .railCmdClear n
  | .release => .railCmdRelease n
  | .park => .railCmdPark n
  | .unpark => .railCmdUnpark n

theorem exec_hostRailInstr (s : State) (n : RailN) (code : RailCode) :
    exec (hostRailInstr n code) s = .next (s.hostRailCmd n code) := by
  cases code <;> rfl

section
variable {s : State} {n : RailN} {code : RailCode}

/-- While the cycle runs the numbered command waits for the COMMIT, the only one of the host to its rail (R365). -/
theorem State.hostRailCmd_waits (h : s.g.st.cycleRuns = true) :
    s.hostRailCmd n code = { s with
      cmd := { s.cmd with issuedHost := s.cmd.issuedHost + 1 }
      railReqs := s.railReqs.filter (fun q => !(q.src == Src.host && q.rail == n)) ++
        [{ src := .host, rail := n, code := code }] } :=
  if_pos h

/-- PARK, UNPARK and RELEASE in SAFE_HOLD after a successful LOAD (R126). -/
theorem State.hostRailCmd_at_once (hs : s.g.st = .safeHold) (hl : s.g.loadOk = true)
    (hc : code ∈ [RailCode.park, .unpark, .release]) :
    s.hostRailCmd n code = (s.hostCmdApplied.railCommand { src := .host, rail := n, code := code }).settle := by
  have hcode : (code = .park ∨ code = .unpark) ∨ code = .release := by simpa [or_assoc] using hc
  exact (if_neg (by rw [hs]; decide)).trans (if_pos (by simp [hs, hl, hcode]))

/-- ON, OFF and CLEAR have no state without a cycle in which they act (R131). -/
theorem State.hostRailCmd_refused (hs : s.g.st.cycleRuns = false) (hc : code ∈ [RailCode.on, .off, .clear]) :
    s.hostRailCmd n code = s.hostCmdApplied.answer .host n .refusedState := by
  have hcode : code = .on ∨ code = .off ∨ code = .clear := by simpa using hc
  refine (if_neg (by simp [hs])).trans (if_neg ?_)
  rcases hcode with rfl | rfl | rfl <;> simp
end

/-- Settles O23: a numbered command waits, acts at once or is refused, by the module's state and the command's code. -/
theorem hostRailCommands : Obligations.HostRailCommands := by
  unfold Obligations.HostRailCommands
  refine ⟨fun s n code h => ?waits, fun s n code hs hl hc => ?atOnce, fun s n h => ⟨?on, ?off, ?clear⟩⟩
  case waits => exact (exec_hostRailInstr s n code).trans (congrArg Host.Outcome.next (State.hostRailCmd_waits h))
  case atOnce => exact (exec_hostRailInstr s n code).trans (congrArg Host.Outcome.next (State.hostRailCmd_at_once hs hl hc))
  case on => exact congrArg Host.Outcome.next (State.hostRailCmd_refused h (by decide))
  case off => exact congrArg Host.Outcome.next (State.hostRailCmd_refused h (by decide))
  case clear => exact congrArg Host.Outcome.next (State.hostRailCmd_refused h (by decide))

end Sys2Proof.Machine
end

section
/-!
# Inputs and deadlines of a rail (R120-R122, R125, R235)
-/
namespace Sys2Proof.Machine
open Sys2Proof

section
variable {s : State} {n : RailN} {i : Fin 320} {level : Int}

/-! ### Comparators (R230, R235, R243) -/

theorem execComparatorCrossing_powered (h : s.cmpPowered = true) :
    execComparatorCrossing i level s = .next ((s.cmpTo i (s.judgeCmp i level) level).cmpSync i).settle :=
  if_pos h

theorem execComparatorCrossing_unpowered (h : s.cmpPowered = false) :
    execComparatorCrossing i level s = .next (s.setInput i level) :=
  if_neg (by simp [h])

/-! ### The ramp (R120, R121) -/

theorem execRampDelayEnd_ramp (hr : (s.rail n).st = .ramp) (hd : (s.rail n).delayEndAt = none) :
    execRampDelayEnd n s = .next ((s.modRail n (fun r => { r with delayEndAt := some s.now })).railSync n).settle :=
  if_pos (by simp [hr, hd])

theorem execRampDeadline_ramp (h : (s.rail n).judged s.now = .ramp) :
    execRampDeadline n s = .next (s.establish n [.slowRise]).settle :=
  if_pos h

/-! ### Power good (R122) -/

theorem execPgDelayExpiry_mismatch (hr : (s.rail n).judged s.now = .ramp) (hu : (s.rail n).upSeen = true)
    (hp : (s.rail n).pg = false) (hc : s.pgUsed n = true) :
    execPgDelayExpiry n s = .next (s.establish n [.pgMismatch]).settle :=
  if_pos (by simp [hr, hu, hp, hc])

theorem execPgFilterExpiry_mismatch (hr : (s.rail n).judged s.now ∈ [RailSt.up, .margin])
    (hp : (s.rail n).pg = false) (hc : s.pgUsed n = true) :
    execPgFilterExpiry n s = .next (s.establish n [.pgMismatch]).settle := by
  have hst : (s.rail n).judged s.now = .up ∨ (s.rail n).judged s.now = .margin := by simpa using hr
  rcases hst with hst | hst <;> simp [execPgFilterExpiry, hst, hp, hc]

/-- A PG that is good in OFF with DRAINED set is noted as stuck once. -/
theorem execPgFilterExpiry_stuck (hr : (s.rail n).judged s.now = .off) (hp : (s.rail n).pg = true)
    (hd : (s.rail n).drained = true) (hk : (s.rail n).pgStuck = false) (hc : s.pgUsed n = true) :
    execPgFilterExpiry n s = .next ((s.modRail n (fun r => { r with pgStuck := true })).raise (32 + n) 18) := by
  simp [execPgFilterExpiry, hr, hp, hd, hk, hc]

/-! ### The discharge (R125, R128) -/

theorem execDischargeTimeout_running (hd : (s.rail n).discharge = .running)
    (hs : (s.rail n).st = .drain ∨ ((s.rail n).st = .fault ∧ (s.rail n).drained = false)) :
    execDischargeTimeout n s = .next (s.noDrain n).settle :=
  if_pos (by simp [hd, hs])
end

/-- Settles O24: one rule for each outcome of an input or a deadline. -/
theorem railInputsAndDeadlines : Obligations.RailInputsAndDeadlines := by
  unfold Obligations.RailInputsAndDeadlines
  exact ⟨fun _ _ _ => execComparatorCrossing_unpowered, fun _ _ _ => execComparatorCrossing_powered,
    fun _ _ => execRampDelayEnd_ramp, fun _ _ => execRampDeadline_ramp, fun _ _ _ => rfl,
    fun _ _ => execPgDelayExpiry_mismatch, fun _ _ => execPgFilterExpiry_mismatch,
    fun _ _ => execPgFilterExpiry_stuck, fun _ _ => execDischargeTimeout_running⟩

end Sys2Proof.Machine
end

section
/-!
# The sequencer's deadlines, chains, pauses and RERUN (R139, R143, R145, R146, R154, R155, R157, R158)
-/
namespace Sys2Proof.Machine
open Sys2Proof

section
variable {s : State} {g : GroupN} {k : Fin 32} {x : StepSt} {c : CGroup} {y : CStep} {n : RailN} {p : CPlan}

/-! ### Deadlines of a step (R139, R154, R157) -/

theorem execStepDelayExpiry_eligible (hx : (s.group g).steps[k.val]? = some x) (he : x.eligible = true)
    (hs : x.started = false) :
    execStepDelayExpiry g k s = .next (s.modStep g k (fun y => { y with delayDone := true })).settle := by
  unfold execStepDelayExpiry
  rw [hx]
  exact if_pos (by simp [he, hs])

/-- The rail a step's time-out is noted for: the first one waited for, else the first of the step (R154). -/
def State.timeoutRail (s : State) (x : StepSt) (y : CStep) : RailN :=
  (y.rails.filter (fun n => !(s.rail n).st.isUp && !x.skipped.contains n) ++ y.rails).headD 0

/-- A step of one rail has no other rail to note. -/
theorem State.timeoutRail_of_single (hy : y.rails = [n]) : s.timeoutRail x y = n := by
  simp only [State.timeoutRail, hy, List.filter_cons, List.filter_nil]
  split <;> rfl

/-- The failure noted at a step's time-out (R154). -/
def State.noteTimeout (s : State) (n : RailN) : State :=
  { s with seq := { s.seq with fails := s.seq.fails ++ [(FailReason.stepTimeout, n)] } }

/-- What the time-out does to one rail of its step (R139, R157). -/
def State.timeoutOff (s : State) (n : RailN) : State :=
  match (s.rail n).st with
  | .wait => s.enterRail n .off (fun r => r)
  | .ramp => if s.g.st = .run then (s.toDrain n).railSync n else s
  | _ => s

theorem State.timeoutOff_ramp (hs : s.g.st = .run) (hr : (s.rail n).st = .ramp) :
    s.timeoutOff n = (s.toDrain n).railSync n := by
  unfold State.timeoutOff
  rw [hr]
  exact if_pos hs

section
variable (hp : s.heldPlan = some p) (hx : (s.group g).steps[k.val]? = some x) (hc : p.groups[g.val]? = some c)
  (hy : c.steps[k.val]? = some y) (hg : (s.group g).st = .running) (he : x.eligible = true) (hd : x.done = false)
include hp hx hc hy hg he hd

/-- The time-out of a step that is not done: its failure is noted, in RUN judged, then its rails are turned off. -/
theorem execStepTimeout_pending (hn : s.timeoutRail x y = n) :
    execStepTimeout g k s = .next (y.rails.foldl State.timeoutOff
      (if s.g.st = .run then (s.noteTimeout n).evalFails else s.noteTimeout n)).settle := by
  subst hn
  unfold execStepTimeout
  rw [hp, hx]
  dsimp only
  rw [hc]
  dsimp only
  rw [hy]
  exact if_pos (by simp [hg, he, hd])

theorem execStepTimeout_outside_run (hs : s.g.st ≠ .run) (hn : s.timeoutRail x y = n) :
    execStepTimeout g k s = .next (y.rails.foldl State.timeoutOff (s.noteTimeout n)).settle := by
  rw [execStepTimeout_pending hp hx hc hy hg he hd hn, if_neg hs]

/-- In RUN the module may have left RUN, or the rail RAMP, once the failure is judged. -/
theorem execStepTimeout_run_ramp {t : State} (hs : s.g.st = .run) (hr : y.rails = [n])
    (ht : t = (s.noteTimeout n).evalFails) (hts : t.g.st = .run) (htr : (t.rail n).st = .ramp) :
    execStepTimeout g k s = .next ((t.toDrain n).railSync n).settle := by
  rw [execStepTimeout_pending hp hx hc hy hg he hd (State.timeoutRail_of_single hr), if_pos hs, ← ht, hr]
  exact congrArg (fun u : State => Host.Outcome.next u.settle) (State.timeoutOff_ramp hts htr)
end
end

/-! ### Chains (R143, R145, R160) -/

section
variable {s : State} {c : ChainN} {p : CPlan} {hit : List (Nat × CGroup)}

theorem execCasInAccepted_high (h : s.g.st.cycleRuns = true) :
    execCasInAccepted c true s =
      .next ({ s with seq := { s.seq with casIn := s.seq.casIn ||| (1#16 <<< c.val) } }).settle :=
  if_neg (by simp [h])

/-- The state after CAS_IN of chain `c` is noted as fallen. -/
def State.casInFallen (s : State) (c : ChainN) : State :=
  { s with seq := { s.seq with casIn := s.seq.casIn &&& ~~~ (1#16 <<< c.val) } }

/-- Whether a fall of its chain takes a group in this state; one in IDLE only in the pause between attempts (R145). -/
def GroupState.lostByFall (pause : Bool) : GroupState → Bool
  | .running | .up => true
  | .idle => pause
  | _ => false

/-- The groups of plan `p` behind chain `c` that a fall takes. -/
def State.lostBehind (s : State) (p : CPlan) (c : ChainN) (pause : Bool) : List (Nat × CGroup) :=
  ((List.range p.groups.length).zip p.groups).filter
    (fun x => x.2.inChain == some c && (s.group x.1).st.lostByFall pause)

/-- The groups a fall takes outside the pause, with the states written out. -/
theorem State.lostBehind_running (s : State) (p : CPlan) (c : ChainN) :
    ((List.range p.groups.length).zip p.groups).filter (fun x => x.2.inChain == some c &&
      (match (s.group x.1).st with | .running | .up => true | _ => false)) = s.lostBehind p c false := by
  refine List.filter_congr fun x _ => congrArg _ ?_
  cases (s.group x.1).st <;> rfl

/-- The groups a fall takes in the pause, with the states written out. -/
theorem State.lostBehind_pause (s : State) (p : CPlan) (c : ChainN) :
    ((List.range p.groups.length).zip p.groups).filter (fun x => x.2.inChain == some c &&
      (match (s.group x.1).st with | .running | .up | .idle => true | _ => false)) = s.lostBehind p c true := by
  refine List.filter_congr fun x _ => congrArg _ ?_
  cases (s.group x.1).st <;> rfl

/-- Groups that wait on a lost one become DOWN before the next attempt (R145). -/
def State.markDependentsDown (p : CPlan) (s : State) (x : Nat × CGroup) : State :=
  (p.dependents x.1).foldl (fun (s : State) k => s.modGroup k (fun y =>
    if y.st = .idle then { y with st := .down, reason := .casInLost, steps := [] } else y)) s

/-- What a fall of its chain does to a group behind it. -/
def State.loseGroup (p : CPlan) (pause : Prop) [Decidable pause] (s : State) (x : Nat × CGroup) : State :=
  if pause then State.markDependentsDown p s x else s.shutGroup x.1 .casInLost

theorem State.loseGroup_running (h : s.seq.st ≠ .retryPause) :
    State.loseGroup p (s.seq.st = .retryPause) = fun s x => s.shutGroup x.1 .casInLost :=
  funext₂ fun _ _ => if_neg h

theorem State.loseGroup_pause (h : s.seq.st = .retryPause) :
    State.loseGroup p (s.seq.st = .retryPause) = State.markDependentsDown p :=
  funext₂ fun _ _ => if_pos h

/-- A fall of an accepted chain takes every group it hits, and is raised once. -/
theorem execCasInAccepted_fall (h : s.g.st.cycleRuns = true) (hp : s.heldPlan = some p)
    (hc : s.seq.casIn.getLsbD c.val = true) (hh : hit = s.lostBehind p c (decide (s.seq.st = .retryPause)))
    (hne : hit ≠ []) :
    execCasInAccepted c false s =
      .next ((hit.foldl (State.loseGroup p (s.seq.st = .retryPause)) (s.casInFallen c)).raise 15 5).settle := by
  subst hh
  refine (if_neg (by simp [h])).trans ((if_neg (by simp [hc])).trans ?_)
  split
  next hnone => exact nomatch hp.symm.trans hnone
  next q hsome =>
    obtain rfl : p = q := Option.some.inj (hp.symm.trans hsome)
    exact congrArg (fun u : State => Host.Outcome.next u.settle) (if_neg (mt List.isEmpty_iff.1 hne))

theorem execCasInAccepted_fall_running (h : s.g.st.cycleRuns = true) (hp : s.heldPlan = some p)
    (hc : s.seq.casIn.getLsbD c.val = true) (hs : s.seq.st ≠ .retryPause) (hh : hit = s.lostBehind p c false)
    (hne : hit ≠ []) :
    execCasInAccepted c false s = .next ((hit.foldl (fun (s : State) x => s.shutGroup x.1 .casInLost)
      (s.casInFallen c)).raise 15 5).settle := by
  rw [execCasInAccepted_fall h hp hc (by rw [decide_eq_false hs]; exact hh) hne, State.loseGroup_running hs]

theorem execCasInAccepted_fall_pause (h : s.g.st.cycleRuns = true) (hp : s.heldPlan = some p)
    (hc : s.seq.casIn.getLsbD c.val = true) (hs : s.seq.st = .retryPause) (hh : hit = s.lostBehind p c true)
    (hne : hit ≠ []) :
    execCasInAccepted c false s =
      .next ((hit.foldl (State.markDependentsDown p) (s.casInFallen c)).raise 15 5).settle := by
  rw [execCasInAccepted_fall h hp hc (by rw [decide_eq_true hs]; exact hh) hne, State.loseGroup_pause hs]
end

/-! ### Allowances, the pause between attempts and RERUN (R146, R155, R158) -/

section
variable {s : State}

/-- A group of the only job that waits its allowance is taken down; the job is kept at where that stands. -/
theorem execAllowanceExpiry_not_finished {t : State} {g : GroupN} {j : Shut} {p : CPlan} {c : CGroup}
    {q : State × GroupProg × Bool} (hj : s.shut.jobs = [j])
    (hg : j.groups.any (fun x => x.1 == g.val && x.2 == .allowance) = true) (hp : s.cfg.plan[j.plan] = some p)
    (hc : p.groups[g.val]? = some c) (hq : q = s.downFrom j.scope c.steps c.steps.length)
    (ht : t = { q.1 with shut := { q.1.shut with jobs := q.1.shut.jobs.map (fun y => if y = j then
      { j with groups := j.groups.map (fun z => if z.1 = g.val then (z.1, q.2.1) else z) } else y) } })
    (hf : q.2.1 ≠ .finished) (hk : j.kind ≠ .toStabled) : execAllowanceExpiry g s = .next t.settle := by
  subst hq ht
  unfold execAllowanceExpiry
  dsimp only
  rw [hj, List.foldl_cons, List.foldl_nil, if_pos hg, hp]
  dsimp only
  rw [hc]
  dsimp only
  rw [if_neg hf, if_neg (by simp [hk])]

theorem execRetryPauseEnd_pause (h : s.seq.st = .retryPause) :
    execRetryPauseEnd s = .next ({ s with seq := { s.seq with pauseOver := true } }).settle :=
  if_pos h

theorem execRerun_waits (h : s.g.st.cycleRuns = true) :
    execRerun s = .next { s with
      cmd := { s.cmd with issuedHost := s.cmd.issuedHost + 1 }, seq := { s.seq with rerun := some .host } } :=
  if_pos h

/-- With no cycle to wait for, RERUN is applied and refused as it is numbered (R365, R366). -/
theorem execRerun_refused (h : s.g.st.cycleRuns = false) :
    execRerun s = .next { s.hostCmdApplied with seq := { s.seq with cmdAns := .refusedState } } :=
  if_neg (by simp [h])
end

/-- Settles O25: one rule for each deadline of a step, each fall and rise of a chain, and each form of RERUN. -/
theorem sequencerEventsAct : Obligations.SequencerEventsAct := by
  unfold Obligations.SequencerEventsAct
  refine ⟨fun _ _ _ _ => execStepDelayExpiry_eligible, ?timeout, ?timeoutInRun, fun _ _ => execCasInAccepted_high,
    ?fall, ?fallInPause, fun _ _ _ _ _ _ _ => execAllowanceExpiry_not_finished, fun _ => execRetryPauseEnd_pause,
    fun _ => execRerun_waits, fun _ => execRerun_refused⟩
  case timeout =>
    exact fun _ _ _ _ _ _ _ _ hs hp hx hc hy hg he hd => execStepTimeout_outside_run hp hx hc hy hg he hd hs
  case timeoutInRun =>
    exact fun _ _ _ _ _ _ _ _ _ hs hp hx hc hy hg he hd => execStepTimeout_run_ramp hp hx hc hy hg he hd hs
  case fall =>
    exact fun c s p hit h hp hc hs hh => execCasInAccepted_fall_running h hp hc hs (hh.trans (s.lostBehind_running p c))
  case fallInPause =>
    exact fun c s p hit h hp hc hs hh => execCasInAccepted_fall_pause h hp hc hs (hh.trans (s.lostBehind_pause p c))

end Sys2Proof.Machine
end

section
/-!
# Motion and the flush of the way to STABLED (R165, R166, R169, R480)
-/
namespace Sys2Proof.Machine
open Sys2Proof

section
variable {s : State} {a : Bool}

/-! ### The standstill input (R85, R165) -/

/-- Outside OFF and STABLED the filtered input is taken, and its release is wake source 4. -/
theorem execStandstillInputChange_watched (ho : s.g.st ≠ .off) (hs : s.g.st ≠ .stabled) :
    execStandstillInputChange a s = .next (if s.motion.standstillIn && !a then
        { s with motion := { s.motion with standstillIn := a } }.wakeUp 4
      else { s with motion := { s.motion with standstillIn := a } }) := by
  unfold execStandstillInputChange
  split
  · exact absurd ‹_› ho
  · exact absurd ‹_› hs
  · rfl

theorem execStandstillInputChange_release (ho : s.g.st ≠ .off) (hs : s.g.st ≠ .stabled)
    (hi : s.motion.standstillIn = true) :
    execStandstillInputChange false s =
      .next ({ s with motion := { s.motion with standstillIn := false } }.wakeUp 4) :=
  (execStandstillInputChange_watched ho hs).trans (congrArg Host.Outcome.next (if_pos (by simp [hi])))

theorem execStandstillInputChange_no_release (ho : s.g.st ≠ .off) (hs : s.g.st ≠ .stabled)
    (ha : a = true ∨ s.motion.standstillIn = false) :
    execStandstillInputChange a s = .next { s with motion := { s.motion with standstillIn := a } } :=
  (execStandstillInputChange_watched ho hs).trans
    (congrArg Host.Outcome.next (if_neg (by rcases ha with ha | ha <;> simp [ha])))

/-! ### The judgement of motion (R165, R480) -/

/-- Motion that goes on: no event, no confirmation, and no test mode. -/
theorem State.judgeMotion_still_moving (hj : s.judgeMoving = true) (hm : s.motion.moving = true) :
    s.judgeMotion = { s with motion := { s.motion with confirmed := false, stillSince := none } }.endTestMode := by
  simp [State.judgeMotion, hj, hm]

/-- Motion that ends is an event of source 17, and standstill is dated from its first judgement. -/
theorem State.judgeMotion_stops (hj : s.judgeMoving = false) (hm : s.motion.moving = true) :
    s.judgeMotion = ({ s with motion := { s.motion with
      moving := false
      stillSince := match s.motion.stillSince with | some t => some t | none => some s.tickUs } }).raise 17 := by
  cases hs : s.motion.stillSince <;> simp [State.judgeMotion, hj, hm, hs]

theorem execMotionJudgement_judging (h : s.g.st ∉ [ModSt.off, .stabled, .lastGasp]) :
    execMotionJudgement s = .next s.judgeMotion := by
  obtain ⟨ho, hs, hl⟩ : s.g.st ≠ .off ∧ s.g.st ≠ .stabled ∧ s.g.st ≠ .lastGasp := by simpa using h
  unfold execMotionJudgement
  split
  · exact absurd ‹_› ho
  · exact absurd ‹_› hs
  · exact absurd ‹_› hl
  · rfl

/-! ### Confirmation and flush (R166, R169) -/

/-- Outside RUN_DOWN a confirmation is noted and raised, and nothing follows from it. -/
theorem execStandstillConfirmed_outside_runDown (hs : s.motion.stillSince.isSome = true)
    (hc : s.motion.confirmed = false) (hr : s.g.st ≠ .runDown) :
    execStandstillConfirmed s = .next ({ s with motion := { s.motion with confirmed := true } }.raise 17) :=
  (if_pos (by simp [hs, hc])).trans (if_neg (by simp [hr]))

theorem execStabledFlushEnd_flushing (hk : s.shut.kind = 1) (hp : s.shut.phase = 3) (hf : s.shut.flushed = false) :
    execStabledFlushEnd s = .next (s.flushEnd (mibUp s.jurWaiting)) :=
  if_pos (by simp [hk, hp, hf])
end

/-- Settles O16: the input by its edge, the judgement by its outcome on a moving train, then confirmation and flush. -/
theorem motionCommands : Obligations.MotionCommands := by
  unfold Obligations.MotionCommands
  refine ⟨fun _ => execStandstillInputChange_release, fun _ _ => execStandstillInputChange_no_release, ?moving, ?stops,
    fun _ => execStandstillConfirmed_outside_runDown, fun _ => execStabledFlushEnd_flushing⟩
  case moving =>
    exact fun s h hj hm => (execMotionJudgement_judging h).trans
      (congrArg Host.Outcome.next (State.judgeMotion_still_moving (hj.trans hm) hm))
  case stops =>
    exact fun s h hj hm => (execMotionJudgement_judging h).trans
      (congrArg Host.Outcome.next (State.judgeMotion_stops hj hm))

end Sys2Proof.Machine
end

section
/-!
# The touch key and the display's page (R172-R179, R182)
-/
namespace Sys2Proof.Machine
open Sys2Proof

section
variable {s t : State} {count : Int}

/-! ### Samples (R173, R175) -/

/-- A sample taken before it is judged in the key's state: whether it is touched, the last 20 counts, and its place
among the first 20 after OFF. -/
def State.sampleTaken (s : State) (count : Int) : State :=
  s.modTouch (fun t => { t with
    raw := s.touched count
    samples := (count :: t.samples).take 20
    first := if t.first < 20 then t.first + 1 else t.first })

/-- Outside OFF a first sample found touched in IDLE is judged apart, and every other one is a step of the key. -/
theorem execTouchSample_powered (ho : s.g.st ≠ .off) :
    execTouchSample count s = .next (
      if decide (s.touch.first = 0) && decide (s.touch.st = .idle) && s.touched count then
        (s.sampleTaken count).touchFirst count
      else (s.sampleTaken count).touchStep count) :=
  if_neg ho

theorem execTouchSample_later (ho : s.g.st ≠ .off) (hf : s.touch.first ≠ 0) :
    execTouchSample count s = .next ((s.sampleTaken count).touchStep count) :=
  (execTouchSample_powered ho).trans (congrArg Host.Outcome.next (if_neg (by simp [hf])))

theorem execTouchSample_first_touched (ho : s.g.st ≠ .off) (hf : s.touch.first = 0) (hi : s.touch.st = .idle)
    (ht : s.touched count = true) :
    execTouchSample count s = .next ((s.sampleTaken count).touchFirst count) :=
  (execTouchSample_powered ho).trans (congrArg Host.Outcome.next (if_pos (by simp [hf, hi, ht])))

/-! ### Actions while the key is held (R172, R174, R177, R182) -/

theorem execTouchForceOff_acts (hs : s.touch.st = .touched) (hf : s.touch.forced = false)
    (hm : s.g.st ∉ [ModSt.off, .stabled, .lastGasp])
    (ht : t = (s.modTouch (fun t => { t with forced := true })).touchAct 2 "TOUCH_FORCE_OFF") :
    execTouchForceOff s =
      .next ({ t with cmd := { t.cmd with forceOff := t.cmd.forceOff || t.g.st.cycleRuns } }.offRequest .touch) := by
  obtain ⟨ho, hb, hl⟩ : s.g.st ≠ .off ∧ s.g.st ≠ .stabled ∧ s.g.st ≠ .lastGasp := by simpa using hm
  subst ht
  unfold execTouchForceOff
  rw [if_neg (by simp [hs, hf])]
  dsimp only
  split
  · exact absurd ‹_› ho
  · exact absurd ‹_› hb
  · exact absurd ‹_› hl
  · rfl

theorem execTouchRundownOff_elsewhere (hs : s.touch.st = .touched) (hr : s.g.st ≠ .runDown) :
    execTouchRundownOff s = .next (s.modTouch (fun t => { t with st := .waitRelease })) :=
  (if_neg (by simp [hs])).trans (if_neg (by simp [hr]))

/-- In RUN_DOWN, where shedding is not complete, the run-down set follows once it is (R172). -/
theorem execTouchRundownOff_shedding (hs : s.touch.st = .touched) (hr : s.g.st = .runDown) (hb : s.stabling = false)
    (ht : t = (s.modTouch (fun t => { t with st := .waitRelease })).touchAct 3 "TOUCH_RUNDOWN_OFF")
    (hk : t.shut.kind ≠ 3) :
    execTouchRundownOff s = .next { t with shut := { t.shut with rundownForced := true } } := by
  subst ht
  exact (if_neg (by simp [hs])).trans ((if_pos (by simp [hr, hb])).trans (congrArg Host.Outcome.next (if_neg hk)))

/-! ### Stuck, held at power-up, and the display (R175, R178, R179) -/

/-- A key held for an hour makes its present count the baseline. -/
theorem execTouchStuck_held (hs : s.touch.st ∈ [TouchState.touched, .waitRelease, .heldAtPowerup]) :
    execTouchStuck s = .next (((s.modTouch (fun t => { t with
      st := .stuck, stuckSeen := true, base := (s.touch.samples.head?).getD s.touch.base
      stuckBase := (s.touch.samples.head?).getD s.touch.base
      held := 0, drift := 0, forced := false })).raise 20 3).laterFault (some 20) none "TOUCH_STUCK") := by
  have hst : s.touch.st = .touched ∨ s.touch.st = .waitRelease ∨ s.touch.st = .heldAtPowerup := by simpa using hs
  unfold execTouchStuck
  rcases hst with hst | hst | hst <;> rw [hst]

theorem execTouchPowerupRelease_held (hs : s.touch.st = .heldAtPowerup) :
    execTouchPowerupRelease s = .next (s.modTouch (fun t => { t with
      st := .idle, base := t.mean t.base, first := 21, held := 0, relRun := 0, drift := 0 })) :=
  if_pos hs
end

/-- Settles O26: a sample by its place after OFF, each action by the module's state, and the ends of a long touch. -/
theorem touchKeyActs : Obligations.TouchKeyActs := by
  unfold Obligations.TouchKeyActs
  exact ⟨fun _ _ => execTouchSample_later, fun _ _ => execTouchSample_first_touched,
    fun _ _ => execTouchForceOff_acts, fun _ => execTouchRundownOff_elsewhere,
    fun _ _ => execTouchRundownOff_shedding, fun _ => execTouchStuck_held,
    fun _ => execTouchPowerupRelease_held, fun _ => rfl⟩

end Sys2Proof.Machine
end

section
/-!
# The step of a probe (R193)

Statement O29 has a probe's step record the module time itself. The model records the coarse tick edge from which
PROBE_HOLD counts (R8), so the two agree exactly at the edges, and the statement fails between them.
-/
namespace Sys2Proof.Machine
open Sys2Proof

/-- Rail `n` with its probe's step applied and recorded at a time (R193). -/
def State.probeStepped (s : State) (n : RailN) (t : Ns) : State :=
  s.modRail n (fun r => { r with mg := { r.mg with
    code := r.mg.probeCode, target := r.mg.probeCode, stepped := true, stepAt := t } })

@[simp] theorem State.probeStepped_stepAt (s : State) (n : RailN) (t : Ns) :
    ((s.probeStepped n t).rail n).mg.stepAt = t :=
  congrArg (fun r : Rail => r.mg.stepAt) (tmod_get s.rails n _)

/-- Two recorded times give two states. -/
theorem State.probeStepped_inj {s : State} {n : RailN} {a b : Ns} :
    s.probeStepped n a = s.probeStepped n b ↔ a = b := by
  refine ⟨fun h => ?_, fun h => h ▸ rfl⟩
  simpa using congrArg (fun u : State => (u.rail n).mg.stepAt) h

section
variable {s : State} {n : RailN} (hm : (s.rail n).mg.mode = .probe) (hs : (s.rail n).mg.snapping = true)
  (hu : (s.rail n).mg.stepped = false)
include hm hs hu

/-- The step of a running probe is recorded at the coarse tick edge (R8). -/
theorem execProbeStepApply_snapping : execProbeStepApply n s = .next (s.probeStepped n s.tickUs) :=
  if_pos (by simp [hm, hs, hu])

/-- The module time is recorded exactly where it is a coarse tick edge. -/
theorem exec_probeStepApply_records_now_iff :
    exec (.probeStepApply n) s = .next (s.probeStepped n s.now) ↔ s.tickUs = s.now := by
  have hexec : exec (.probeStepApply n) s = .next (s.probeStepped n s.tickUs) := execProbeStepApply_snapping hm hs hu
  rw [hexec, Host.Outcome.next.injEq, State.probeStepped_inj]
end

/-- RUN, one fine tick after a coarse tick edge, with the probe of rail 3 in its snapshot and due to step to code 5. -/
def probeOffEdge : State := { State.reset with
  g := { st := .run }
  time := { mtime := 10 }
  rails := tset State.reset.rails 3 { st := .margin, mg := { mode := .probe, snapping := true, probeCode := 5 } } }

theorem probeOffEdge_mg : (probeOffEdge.rail 3).mg = { mode := .probe, snapping := true, probeCode := 5 } :=
  congrArg Rail.mg (tset_get State.reset.rails 3 _)

/-- Its time is 10 ns, and its next coarse tick edge is at 1 µs. -/
theorem probeOffEdge_tickUs_ne_now : probeOffEdge.tickUs ≠ probeOffEdge.now := by decide

/-- Refutes O29: 10 ns after a coarse tick edge the model records the step of a probe at the next edge, 1 µs, and not at
the module time, as the statement's clause of PROBE_STEP_APPLY has it. -/
theorem not_marginsAndProbesAct : ¬ Obligations.MarginsAndProbesAct := by
  unfold Obligations.MarginsAndProbesAct
  rintro ⟨-, -, -, -, -, -, -, -, -, hstep, -⟩
  have hm : (probeOffEdge.rail 3).mg.mode = .probe := by rw [probeOffEdge_mg]
  have hs : (probeOffEdge.rail 3).mg.snapping = true := by rw [probeOffEdge_mg]
  have hu : (probeOffEdge.rail 3).mg.stepped = false := by rw [probeOffEdge_mg]
  exact probeOffEdge_tickUs_ne_now
    ((exec_probeStepApply_records_now_iff hm hs hu).1 (hstep 3 probeOffEdge hm hs hu))

end Sys2Proof.Machine
end

section
/-!
# The scan converters: slots, calibration, commands, snapshots and the sampled inputs
(R203, R204, R216-R222, R227, R239, R240)
-/
namespace Sys2Proof.Machine
open Sys2Proof

section
variable {s t : State} {c : ConvN}

/-! ### The end of a slot (R203, R204, R214) -/

theorem execScanSlotEnd_noSlot {x : Int} (hn : s.noSlot c = true) : execScanSlotEnd c x s = .next s :=
  if_pos hn

/-- A slot of the converter's own list whose window has no source: the result goes to its register, then to its rail, and
the list moves on. -/
theorem execScanSlotEnd_own {x : Int} {k : Slot} {g : ResReg} (hn : s.noSlot c = false) (hk : s.slotNow c = some k)
    (ho : k.own = true)
    (hg : g = s.scan.res[resIndex c k.pos].write k.entry x s.scan.conv[c].overPrev false (s.outside k.entry x)
      (s.ageStamp s.scan.conv[c].lowPower))
    (ht : t = { s with scan := { s.scan with res := tset s.scan.res (resIndex c k.pos) g } })
    (hw : t.winSource k.entry = none) :
    execScanSlotEnd c x s =
      .next ((((t.railResult k.entry g.res s.scan.conv[c].pass).advance c c g.res.ovr).boundary c).settle) := by
  subst hg ht
  refine (if_neg (by simp [hn])).trans ?_
  simp only [hk, ho, if_true, Bool.not_true, hw]

/-! ### Calibration (R216-R218, R220) -/

theorem execCalOverdue_first (hd : s.scan.conv[c].calDue = true) (ho : s.scan.conv[c].overdue = false) :
    execCalOverdue c s = .next ((s.modConv c (fun x => { x with overdue := true })).raise 23 c.val) :=
  if_pos (by simp [hd, ho, -Fin.getElem_fin])

section
variable {gain offset : Int} (hs : s.scan.conv[c].st = .calibrating)
include hs

/-- Corrections in range on which the references agree are stored, and the converter rejoins. -/
theorem execCalibrationDone_passes (hg : gain.natAbs ≤ 2000) (ho : offset.natAbs ≤ 256)
    (hr : s.age.refDisagree = false)
    (ht : t = s.modConv c (fun x => { x with
      st := .rejoining, joinDue := true, calCount := satInc 65535 x.calCount, overdue := false, calDue := false })) :
    execCalibrationDone c gain offset true s = .next ((if t.scan.conv[partner c].covering then t else t.join c).nvWrite 8
      (fun d => { d with cal := tset d.cal c { offset := offset, gain := gain, at_ := d.opNs / 60000000000 } })) := by
  subst ht
  exact (if_neg (not_not_intro hs)).trans (if_pos (by simp [hg, ho, hr]))

theorem execCalibrationDone_fails {agree : Bool}
    (h : 2000 < gain.natAbs ∨ 256 < offset.natAbs ∨ agree = false ∨ s.age.refDisagree = true) :
    execCalibrationDone c gain offset agree s = .next (s.convFail c) := by
  refine (if_neg (not_not_intro hs)).trans (if_neg ?_)
  rcases h with h | h | h | h <;> simp [h]
end

/-! ### OUT, IN and CALIBRATE (R216, R227) -/

/-- Outside the states of R217 every converter command is REFUSED_STATE. -/
theorem execConverterCommands_elsewhere (hc : s.g.st.calibrates = false) :
    execConverterIn c s = .next (s.convAnswer c .refusedState) ∧
      execConverterOut c s = .next (s.convAnswer c .refusedState) ∧
      execConverterCalibrate c s = .next (s.convAnswer c .refusedState) :=
  have hno : (!s.g.st.calibrates) = true := by simp [hc]
  ⟨if_pos hno, if_pos hno, if_pos hno⟩

section
variable (hc : s.g.st.calibrates = true)
include hc

section
variable (hs : s.scan.conv[c].st = .scanning)
include hs

/-- Where the partner is away, OUT and CALIBRATE would leave the list uncovered. -/
theorem execConverterOut_partner_away (hp : s.partnerAway c = true) :
    execConverterOut c s = .next (s.convAnswer c .refusedPartner) := by
  simp [execConverterOut, hc, hs, hp, -Fin.getElem_fin]

theorem execConverterCalibrate_partner_away (hp : s.partnerAway c = true) :
    execConverterCalibrate c s = .next (s.convAnswer c .refusedPartner) := by
  simp [execConverterCalibrate, hc, hs, hp, -Fin.getElem_fin]

theorem execConverterOut_scanning (hp : s.partnerAway c = false) :
    execConverterOut c s = .next ((s.convAnswer c .accepted).modConv c (fun y => { y with leaveDue := some .out })) := by
  simp [execConverterOut, hc, hs, hp, -Fin.getElem_fin]

theorem execConverterCalibrate_scanning (hp : s.partnerAway c = false) (hb : s.scan.conv[c].burst = false) :
    execConverterCalibrate c s =
      .next ((s.convAnswer c .accepted).modConv c (fun y => { y with leaveDue := some .calibrating })) := by
  simp [execConverterCalibrate, hc, hs, hp, hb, -Fin.getElem_fin]

theorem execConverterIn_scanning : execConverterIn c s = .next (s.convAnswer c .noChange) := by
  simp [execConverterIn, hc, hs, -Fin.getElem_fin]
end

section
variable (hs : s.scan.conv[c].st = .out)
include hs

/-- A calibration precedes every return. -/
theorem execConverterIn_out :
    execConverterIn c s = .next ((s.convAnswer c .accepted).modConv c (fun x => { x with st := .calibrating })) := by
  simp [execConverterIn, hc, hs, -Fin.getElem_fin]

theorem execConverterOut_out : execConverterOut c s = .next (s.convAnswer c .noChange) := by
  simp [execConverterOut, hc, hs, -Fin.getElem_fin]
end
end

/-- A command accepted earlier takes effect at the slot boundary of a pair that scans (R217, R218). -/
theorem State.leaveNow_due {x : ConvState} (hs : s.scan.conv[c].st = .scanning)
    (hp : s.scan.conv[partner c].st = .scanning) (hl : s.scan.conv[c].leaveDue = some x) :
    s.leaveNow c = s.leaveList c x := by
  simp only [State.leaveNow, hs, hp, hl, decide_true, Bool.and_self, if_true]

/-! ### Snapshots (R221, R222) -/

theorem execSnapshotTriggerCmd_burst (hb : s.scan.burst = true) :
    execSnapshotTriggerCmd s = .next { s with scan := { s.scan with snapAns := .refusedBusy } } :=
  if_pos hb

theorem execSnapshotTriggerCmd_free (hb : s.scan.burst = false) (hp : s.scanPowered = true) :
    execSnapshotTriggerCmd s = .next ({ s with scan := { s.scan with snapAns := .accepted } }.snapTrigger) :=
  (if_neg (by simp [hb])).trans (if_pos hp)

/-- The end of a burst for which no Inclusion record is capturing: the slots it took run again, and the waveform is
recorded. -/
theorem execSnapshotBurstEnd_not_capturing {samples : List (List (Option Int))} {b : Vector SnapBuf 2}
    (hl : samples.length = 16) (hb : s.scan.burst = true)
    (hbuf : b = tmod s.scan.buf s.scan.cur (fun b => { b with
      snaps := Vector.ofFn (fun c : Fin 16 => b.snaps[c].fill (samples.getD c.val [])) }))
    (ht : t = (((List.finRange 16).filter (fun c : ConvN => s.scan.conv[c].burst)).foldl State.reRun { s with
      scan := { s.scan with
        burst := false, lastBuf := s.scan.cur, buf := b
        conv := tmap (fun c : Conv => { c with burst := false }) s.scan.conv } }).raise 22)
    (hc : t.inc.st ≠ .capturing) :
    execSnapshotBurstEnd samples s =
      .next (t.waveRecord 0x03 ((b[s.scan.cur]).snaps.toList.flatMap (fun (b : Snap) => sampleBytes b.samples))) := by
  subst hbuf ht
  refine (if_neg (not_not_intro hl)).trans ((if_neg (by simp [hb])).trans ?_)
  dsimp only
  split
  · exact absurd ‹_› hc
  · rfl

/-! ### The sampled inputs (R239, R240) -/

/-- Outside OFF S0 is judged first, with its effect on the supply, and S1 to S15 after it. -/
theorem execSampledSampling_powered {levels : List Int} (hl : levels.length = 16) (ho : s.g.st ≠ .off)
    (ht : t = ((((List.finRange 16).zip levels).take 1).foldl (fun (s : State) (p : Fin 16 × Int) =>
      if s.g.st = .off then s else s.sampleOne p.1 p.2) s).s0Effect) :
    execSampledSampling levels s = .next ((((List.finRange 16).zip levels).drop 1).foldl
      (fun (s : State) (p : Fin 16 × Int) => if s.g.st = .off then s else s.sampleOne p.1 p.2) t) := by
  subst ht
  exact (if_neg (not_not_intro hl)).trans (if_neg ho)
end

/-- Settles O31: a slot's end, the course of a calibration, each command by the converter's state and its partner's,
snapshots by the burst, and the sampled inputs in their order. -/
theorem scanCommandsAct : Obligations.ScanCommandsAct := by
  unfold Obligations.ScanCommandsAct
  exact ⟨fun _ _ _ _ _ _ => execScanSlotEnd_own, fun _ _ _ => execScanSlotEnd_noSlot, fun _ _ => rfl,
    fun _ _ => execCalOverdue_first, fun _ _ _ _ _ => execCalibrationDone_passes,
    fun _ _ _ _ _ hs => execCalibrationDone_fails hs,
    fun _ _ hc hs hp hb => ⟨execConverterOut_scanning hc hs hp, execConverterCalibrate_scanning hc hs hp hb,
      execConverterIn_scanning hc hs⟩,
    fun _ _ hc hs hp => ⟨execConverterOut_partner_away hc hs hp, execConverterCalibrate_partner_away hc hs hp⟩,
    fun _ _ _ => State.leaveNow_due,
    fun _ _ hc hs => ⟨execConverterIn_out hc hs, execConverterOut_out hc hs⟩,
    fun _ _ => execConverterCommands_elsewhere, fun _ => execSnapshotTriggerCmd_burst,
    fun _ => execSnapshotTriggerCmd_free, fun _ _ _ _ => execSnapshotBurstEnd_not_capturing, fun _ _ => rfl,
    fun _ _ _ => execSampledSampling_powered⟩

end Sys2Proof.Machine
end

section
/-!
# The event router (R246-R261)

An event is taken by a target in two steps, the claim and the completion; both change the target's own entry and the source that it
serves, and leave every other target and source alone.
-/
namespace Sys2Proof.Machine
open Sys2Proof

/-! ### The list of sources that are not IDLE (R249) -/

theorem Evt.find_of_srcs_put {e f : Evt} {n : Nat} {x : SrcSt} (h : f.srcs = srcsPut n x e.srcs) (m : Nat) :
    f.find m = if m = n then some x else e.find m := by
  unfold Evt.find
  rw [h]
  generalize e.srcs = l
  induction l with
  | nil => grind [srcsPut]
  | cons p l ih => grind [srcsPut]

theorem Evt.find_of_srcs_drop {e f : Evt} {n : Nat} (h : f.srcs = srcsDrop n e.srcs) (m : Nat) :
    f.find m = if m = n then none else e.find m := by
  unfold Evt.find
  rw [h]
  generalize e.srcs = l
  induction l with
  | nil => simp [srcsDrop]
  | cons p l ih => grind [srcsDrop]

/-! ### Assignment (R252) -/

/-- A PENDING source whose turn in a pass finds an eligible target is assigned to it, and its message is sent. -/
theorem Evt.tryAssign_best {e : Evt} {n : Nat} {t : TgtN} {stamp : Ns} (hf : e.find n = some ⟨false, stamp⟩)
    (hm : e.masked n = false) (hb : e.barred.getLsbD (srcGroup n) = false)
    (ht : e.best e.route[Fin.ofNat 1024 n] = some t) :
    (e.tryAssign n).tgt = tmod e.tgt t (fun x => { x with source := some n, claimed := false, stamp := stamp }) ∧
      (e.tryAssign n).msix = t :: e.msix := by
  unfold Evt.tryAssign
  simp only [hf, hm, hb, ht, Bool.or_self, Bool.false_eq_true, if_false, and_self]

/-! ### Claim (R253) -/

theorem Tgt.claimWord_assigned {x : Tgt} {n : Nat} (h : x.source = some n) (hn : n < 1024) : x.claimWord.toNat = n := by
  simp only [Tgt.claimWord, h, natWord, Nat.mod_eq_of_lt hn, BitVec.toNat_ofNat]
  omega

theorem Tgt.claimWord_none {x : Tgt} (h : x.source = none) : x.claimWord = 0x80000000#32 := by
  simp only [Tgt.claimWord, h]
  rfl

/-- What a claim does to its target: it is noted, and the event's stamp moves to the time pair. -/
def Tgt.claim (x : Tgt) : Tgt := { x with claimed := true, time := dw x.stamp }

theorem Tgt.claim_claim (x : Tgt) : x.claim.claim = x.claim := rfl

/-- A repeated read answers the same. -/
theorem Tgt.claimWord_claim (x : Tgt) : x.claim.claimWord = x.claimWord := rfl

theorem tmod_tmod {α : Type} {k : Nat} (v : Vector α k) (i : Fin k) (f g : α → α) :
    tmod (tmod v i f) i g = tmod v i (fun x => g (f x)) := by
  simp [tmod]

section
variable {s : State} {t : TgtN} {src : BitVec 10} {n : Nat}

theorem execEvtClaim_none (h : s.evt.tgt[t].source = none) : execEvtClaim t s = .next s := by
  unfold execEvtClaim
  rw [h]

theorem execEvtClaim_assigned (h : s.evt.tgt[t].source = some n) :
    execEvtClaim t s = .next (s.modEvt (fun e => { e with tgt := tmod e.tgt t Tgt.claim })) := by
  unfold execEvtClaim
  rw [h]
  rfl

/-- A claim of an assignment already claimed changes nothing more. -/
theorem execEvtClaim_again (h : s.evt.tgt[t].source = some n) :
    execEvtClaim t (s.modEvt (fun e => { e with tgt := tmod e.tgt t Tgt.claim })) =
      .next (s.modEvt (fun e => { e with tgt := tmod e.tgt t Tgt.claim })) := by
  have hn : (s.modEvt (fun e => { e with tgt := tmod e.tgt t Tgt.claim })).evt.tgt[t].source = some n :=
    (congrArg Tgt.source (tmod_get s.evt.tgt t Tgt.claim)).trans h
  rw [execEvtClaim_assigned hn]
  simp only [State.modEvt, tmod_tmod, Tgt.claim_claim]

/-! ### Completion (R249, R253) -/

/-- The router once target `t` has completed source `k`: the target is free, and the source IDLE, or PENDING by an event lost in the
same fine tick. -/
def Evt.served (e : Evt) (t : TgtN) (k : Nat) (stamp : Ns) : Evt :=
  { e.completed k stamp with tgt := tmod e.tgt t (fun x => { x with source := none, claimed := false }) }

theorem execEvtComplete_assigned (h : s.evt.tgt[t].source = some src.toNat) :
    execEvtComplete t src s = .next (s.modEvt (fun e => (e.served t src.toNat s.stamp).passIf
      ((e.served t src.toNat s.stamp).gained e || ((e.served t src.toNat s.stamp).find src.toNat).isSome))) :=
  if_pos h

/-- A completion that names another source is only noted. -/
theorem execEvtComplete_other (h : s.evt.tgt[t].source ≠ some src.toNat) :
    execEvtComplete t src s =
      .next (s.modEvt (fun e => { e with tgt := tmod e.tgt t (fun x => { x with completeErr := true }) })) :=
  if_neg h

/-- With no event of the source lost in this fine tick, a completion takes it out of the list and does nothing else. -/
theorem Evt.completed_no_lost {e : Evt} {k : Nat} {stamp : Ns} (h : ∀ x ∈ e.lostNow, x.stamp = stamp → x.src ≠ k) :
    e.completed k stamp = { e with srcs := srcsDrop k e.srcs } := by
  have hf : e.lostNow.find? (fun x => x.stamp == stamp && x.src == k) = none := by
    simpa using h
  unfold Evt.completed
  simp only [hf]

/-- An event of the source lost in this fine tick is taken after the completion, and the source is PENDING. -/
theorem Evt.completed_srcs_of_lost {e : Evt} {k : Nat} {stamp : Ns} {x : LostEv} (hx : x ∈ e.lostNow) (hs : x.stamp = stamp)
    (hk : x.src = k) : (e.completed k stamp).srcs = srcsPut k ⟨false, stamp⟩ e.srcs := by
  unfold Evt.completed
  dsimp only
  split
  · rfl
  · rename_i hno
    cases h1 : e.lostNow.find? (fun x => x.stamp == stamp && x.src == k) with
    | none => exact absurd h1 (by simpa using ⟨x, hx, hs, hk⟩)
    | some y =>
      cases h2 : e.lostNow.find? (fun x => x.stamp == stamp && srcGroup x.src == srcGroup k) with
      | none => exact absurd h2 (by simpa using ⟨x, hx, hs, congrArg srcGroup hk⟩)
      | some z => exact absurd h2 (hno y z h1)

theorem Evt.served_tgt (e : Evt) (t : TgtN) (k : Nat) (stamp : Ns) :
    (e.served t k stamp).tgt[t].source = none ∧ (e.served t k stamp).tgt[t].claimed = false ∧
      ∀ r : TgtN, r ≠ t → (e.served t k stamp).tgt[r] = e.tgt[r] := by
  unfold Evt.served
  rw [tmod_get]
  exact ⟨rfl, rfl, fun r hr => tmod_get_ne e.tgt t r _ hr⟩
end

/-- Settles O59: assignment, claim and completion, the completion by whether an event of its source was lost in the same fine tick. -/
theorem claimAndComplete : Obligations.ClaimAndComplete := by
  unfold Obligations.ClaimAndComplete
  refine ⟨fun _ _ => Tgt.claimWord_assigned, fun _ => Tgt.claimWord_none, ?claim, fun _ _ => execEvtClaim_none, ?assign, ?idle, ?pending,
    fun _ _ _ => execEvtComplete_other⟩
  case claim =>
    intro t s n h
    refine ⟨_, execEvtClaim_assigned h, tmod_get s.evt.tgt t Tgt.claim, ?_, fun r hr => tmod_get_ne s.evt.tgt t r _ hr, rfl,
      execEvtClaim_again h⟩
    exact (congrArg Tgt.claimWord (tmod_get s.evt.tgt t Tgt.claim)).trans (Tgt.claimWord_claim _)
  case assign =>
    intro e n t stamp hf hm hb ht
    obtain ⟨htgt, hmsix⟩ := Evt.tryAssign_best hf hm hb ht
    rw [htgt, tmod_get]
    exact ⟨rfl, rfl, rfl, hmsix⟩
  case idle =>
    intro t src s h hno
    have hc := Evt.completed_no_lost hno
    have hsrcs : (s.evt.served t src.toNat s.stamp).srcs = srcsDrop src.toNat s.evt.srcs := congrArg Evt.srcs hc
    have hidle := (Evt.find_of_srcs_drop hsrcs src.toNat).trans (if_pos rfl)
    obtain ⟨hs, hcl, hr⟩ := s.evt.served_tgt t src.toNat s.stamp
    refine ⟨s.evt.served t src.toNat s.stamp, hidle, fun m hm => (Evt.find_of_srcs_drop hsrcs m).trans (if_neg hm), hs, hcl, hr,
      ?_, ?_⟩
    · unfold Evt.served
      rw [hc]
    · refine (execEvtComplete_assigned h).trans ?_
      rw [State.modEvt, hidle, Option.isSome_none, Bool.or_false]
  case pending =>
    intro t src s x h hx hstamp hsrc
    have hsrcs : (s.evt.served t src.toNat s.stamp).srcs = srcsPut src.toNat ⟨false, s.stamp⟩ s.evt.srcs :=
      Evt.completed_srcs_of_lost hx hstamp hsrc
    have hpend := (Evt.find_of_srcs_put hsrcs src.toNat).trans (if_pos rfl)
    obtain ⟨hs, hcl, hr⟩ := s.evt.served_tgt t src.toNat s.stamp
    refine ⟨s.evt.served t src.toNat s.stamp, hpend, fun m hm => (Evt.find_of_srcs_put hsrcs m).trans (if_neg hm), hs, hcl, hr, ?_⟩
    refine (execEvtComplete_assigned h).trans ?_
    rw [State.modEvt, hpend, Option.isSome_some, Bool.or_true, Evt.passIf, if_pos rfl]

/-! ### The controller's registers and the alert inputs (R250-R257) -/

section
variable {s t : State} {i : Fin 8} {high : Bool} {a : CAlert}

theorem execAlertAccepted_judged (ho : s.g.st ≠ .off) (hl : s.evt.alert[i].level ≠ alertAsserts a high)
    (hj : s.judgesAlerts = true) (ha : s.alertRec i = some a)
    (ht : t = (if (if alertAsserts a high then a.rise else a.fall) then
      (s.modAlert i (fun x => { x with level := alertAsserts a high, raw := high })).raise (352 + i.val)
      else s.modAlert i (fun x => { x with level := alertAsserts a high, raw := high }))) :
    execAlertAccepted i high s = .next (if a.wake then t.wakeUp 3 else t) := by
  have hch : (s.evt.alert[i].level != alertAsserts a high) = true := bne_iff_ne.2 hl
  subst ht
  refine (if_neg ho).trans ?_
  simp only [ha, hj, if_true, hch, Bool.true_and, Bool.and_true]

/-- The pin of an input that the configuration does not use is only shown. -/
theorem execAlertAccepted_unused (ho : s.g.st ≠ .off) (ha : s.alertRec i = none) (hc : s.alertCfg.isNone = false) :
    execAlertAccepted i high s = .next (s.modAlert i (fun x => { x with raw := high })) := by
  refine (if_neg ho).trans ?_
  simp only [ha, hc, Bool.false_eq_true, if_false]

/-- In STABLED the router does not run: a change is latched, and wakes the module where the input is a wake source (R257). -/
theorem execAlertAccepted_stabled (hs : s.g.st = .stabled) (hr : s.evt.alert[i].raw ≠ high) (ha : s.alertRec i = some a)
    (hw : a.wake = true) :
    execAlertAccepted i high s =
      .next ((s.modAlert i (fun x => { x.latch high s.stamp with level := alertAsserts a high })).wakeUp 3) := by
  have hj : s.judgesAlerts = false := by simp [State.judgesAlerts, State.routerRuns, hs]
  have hch : (s.evt.alert[i].raw != high) = true := bne_iff_ne.2 hr
  refine (if_neg (by simp [hs])).trans ?_
  simp only [ha, hj, Bool.false_eq_true, if_false, hch, hw, Bool.and_self, if_true]
end

/-- Settles O32: claim and completion by what is assigned, each register's write as it stands, and an alert input by its use and by
whether the router judges it. -/
theorem eventRouterCommandsAct : Obligations.EventRouterCommandsAct := by
  unfold Obligations.EventRouterCommandsAct
  exact ⟨fun _ _ _ => execEvtClaim_assigned, fun _ _ => execEvtClaim_none, fun _ _ _ => execEvtComplete_assigned,
    fun _ _ _ => execEvtComplete_other, fun _ _ _ => rfl, fun _ _ _ => ⟨rfl, rfl⟩, fun _ _ _ => rfl, fun _ _ _ _ => rfl,
    fun _ _ _ _ _ => execAlertAccepted_judged, fun _ _ _ => execAlertAccepted_unused,
    fun _ _ _ _ => execAlertAccepted_stabled⟩

end Sys2Proof.Machine
end

section
/-!
# The later-fault list (R283, R284)
-/
namespace Sys2Proof.Machine
open Sys2Proof

/-! ### An entry enters the list -/

section
variable {d : NvData} {e : Lfl}

/-- With room an entry takes the next slot. -/
theorem NvData.addLfl_room (h : d.lfl.length < 255) :
    d.addLfl e = { d with lfl := d.lfl ++ [{ e with seq := d.lflSeq }], lflSeq := (d.lflSeq + 1) % 65536 } :=
  if_pos h

/-- A full list has its last slot overwritten, and the entry displaced is counted. -/
theorem NvData.addLfl_full (h : 255 ≤ d.lfl.length) :
    d.addLfl e = { d with
      lfl := d.lfl.take 254 ++ [{ e with seq := d.lflSeq }], lflSeq := (d.lflSeq + 1) % 65536
      lflOverflow := satInc 65535 d.lflOverflow } :=
  if_neg (Nat.not_lt.2 h)

/-- The list never grows beyond its 255 slots. -/
theorem NvData.addLfl_length_le : (d.addLfl e).lfl.length ≤ 255 := by
  rcases Nat.lt_or_ge d.lfl.length 255 with hl | hl
  · simpa [NvData.addLfl_room hl] using hl
  · simp [NvData.addLfl_full hl]
end

/-! ### What enters it and what does not -/

section
variable {s : State} {src cls : Option Nat} {name : String} {detail : List Nat}

theorem State.laterFault_nv_cur (h : s.g.st ≠ .lastGasp) :
    (s.laterFault src cls name detail).nv.cur = s.nv.cur.addLfl (s.lflEntry src cls name detail) := by
  have hl : s.laterFault src cls name detail = s.listLfl (s.lflEntry src cls name detail) := if_neg (by simp [h])
  rw [hl]
  exact State.nvWrite_cur _ _ _

/-- The list and its count of displaced entries. -/
def NvData.lflPart (d : NvData) : List Lfl × Nat := (d.lfl, d.lflOverflow)

/-- A gathered write that keeps the list in the content keeps it in the store. -/
theorem State.nvWrite_lflPart {b : Nat} {f : NvData → NvData} (h : (f s.nv.cur).lflPart = s.nv.cur.lflPart) :
    (s.nvWrite b f).nv.cur.lflPart = s.nv.cur.lflPart :=
  (congrArg NvData.lflPart (State.nvWrite_cur s b f)).trans h

theorem State.putEntry_lflPart (i : Fin 64) (typ : Byte) (p : List Byte) (k : Nat) (m u : DWord) (q : Nat) (w : BitVec 16)
    (b : Bool) : (s.putEntry i typ p k m u q w b).nv.cur.lflPart = s.nv.cur.lflPart := by
  unfold State.putEntry
  dsimp only
  split
  · exact State.nvWrite_lflPart rfl
  · rfl

/-- A juridical entry that finds its place is no later fault. -/
theorem State.juridical_lflPart (h : s.jurOpen = true → s.hasRoom 0 128 = true) :
    (s.juridical name detail src).nv.cur.lflPart = s.nv.cur.lflPart := by
  unfold State.juridical
  dsimp only
  split
  · exact (congrArg (fun t : State => t.nv.cur.lflPart) (if_pos (h ‹_›))).trans (State.putEntry_lflPart _ _ _ _ _ _ _ _ _)
  · exact State.nvWrite_lflPart rfl

/-- A short touch on the page of the alerts acknowledges the oldest one. -/
theorem State.shortTouch_ack {a : Nat} {rest : List Nat} (ha : s.touch.alerts = a :: rest) (hp : s.touch.page = 2) :
    s.shortTouch = (((s.modTouch (fun t => { t with alerts := rest })).touchAct 6 "TOUCH_ACK" [a]).raise 20 0).presence := by
  unfold State.shortTouch
  simp only [ha, hp, if_true]

theorem State.presence_none (h : s.sec.waiting = none) : s.presence = s := by
  unfold State.presence
  rw [h]
end

/-- Settles O58: the list by whether it has room, and what a later fault and an acknowledgement do to it. -/
theorem laterFaultListKeepsItsPlaces : Obligations.LaterFaultListKeepsItsPlaces := by
  unfold Obligations.LaterFaultListKeepsItsPlaces
  refine ⟨?room, ?full, fun _ _ _ => NvData.addLfl_length_le, fun _ _ _ _ _ => State.laterFault_nv_cur, ?ack⟩
  case room =>
    intro d e h
    rw [NvData.addLfl_room h]
    exact ⟨rfl, rfl⟩
  case full =>
    intro d e h
    rw [NvData.addLfl_full h.ge]
    refine ⟨by simp [h], by simp [h], fun i hi => ?_, rfl⟩
    rw [List.getElem?_append_left (by simp [h]; omega), List.getElem?_take_of_lt hi]
  case ack =>
    intro s a rest ha hp hw hj
    have hq : (s.shortTouch).nv.cur.lflPart = s.nv.cur.lflPart := by
      rw [State.shortTouch_ack ha hp, State.presence_none (by simpa [State.touchAct, State.modTouch] using hw)]
      simp only [State.raise_others]
      exact State.juridical_lflPart hj
    exact Prod.mk.injEq _ _ _ _ ▸ hq

end Sys2Proof.Machine
end

section
/-!
# The non-volatile store's commands (R263-R275, R285, R286)
-/
namespace Sys2Proof.Machine
open Sys2Proof

/-! ### Commits (R270) -/

section
variable {s : State} {o : Owner}

theorem execGatherTimeout_gathered (h : s.nv.gathered ≠ 0) : execGatherTimeout s = .next s.commitStart := if_neg h

theorem execNvsCommitNow_gathered (h : s.nv.gathered ≠ 0) :
    execNvsCommitNow o s = .next (s.commitStart.nvAnswer o .accepted) := by
  unfold execNvsCommitNow
  rw [if_neg h]
end

/-! ### User pages (R267-R269, R274) -/

section
variable {s : State} {o : Owner} {p f : Nat} {m : Fin 16} {r : CRegion} (ha : s.nvAddr o = (p, f, m))
  (hr : s.region m = some r) (hp : p < r.pages)
include ha hr hp

/-- A page of a used region is read under the read lock of its region. -/
theorem execNvsRead_page (hb : s.nvBarred = false) :
    execNvsRead o s = if r.readProt && !s.unlocked o m.castSucc false then .next (s.nvAnswer o .refusedPassword)
      else .next ((s.setNvData o (bytesToWords 64 (s.nv.cur.page m p))).nvAnswer o
        (if s.nv.stalePages.contains (m, p) then .stale
          else if s.nv.dirty.contains (m, p) || s.nv.dirtyC.contains (m, p) then .uncommitted else .accepted)) := by
  unfold execNvsRead
  simp only [hb, ha, hr, Bool.false_eq_true, if_false, if_neg (Nat.not_le.2 hp)]

theorem execNvsRead_open (hb : s.nvBarred = false) (hu : r.readProt = false ∨ s.unlocked o m.castSucc false = true) :
    execNvsRead o s = .next ((s.setNvData o (bytesToWords 64 (s.nv.cur.page m p))).nvAnswer o
      (if s.nv.stalePages.contains (m, p) then .stale
        else if s.nv.dirty.contains (m, p) || s.nv.dirtyC.contains (m, p) then .uncommitted else .accepted)) :=
  (execNvsRead_page ha hr hp hb).trans (if_neg (by rcases hu with hu | hu <;> simp [hu]))

theorem execNvsRead_locked (hb : s.nvBarred = false) (hq : r.readProt = true) (hu : s.unlocked o m.castSucc false = false) :
    execNvsRead o s = .next (s.nvAnswer o .refusedPassword) :=
  (execNvsRead_page ha hr hp hb).trans (if_pos (by simp [hq, hu]))

theorem execNvsWrite_open {len : BitVec 9} (hs : s.g.st.noNvWrite = false) (h0 : 0 < len.toNat) (h256 : len.toNat ≤ 256)
    (hf : f + len.toNat ≤ 256 ∨ p + 1 < r.pages ∨ r.trace = true)
    (hu : r.writeProt = false ∨ s.unlocked o m.castSucc true = true) :
    execNvsWrite o len s = .next (s.nvWriteGo ⟨o, m, p, f, (s.nvData o).take len.toNat⟩ r) := by
  have hfits : (len.toNat = 0 || 256 < len.toNat || r.pages ≤ p ||
      (!r.trace && 256 < f + len.toNat && r.pages ≤ p + 1)) = false := by
    rcases hf with hf | hf | hf
    · simp [h0.ne', h256, hp, hf]
    · simp [h0.ne', h256, hp, hf]
    · simp [h0.ne', h256, hp, hf]
  have hopen : (r.writeProt && !s.unlocked o m.castSucc true) = false := by
    rcases hu with hu | hu <;> simp [hu]
  unfold execNvsWrite
  simp only [hs, ha, hr, Bool.false_eq_true, if_false, hfits, hopen]
end

/-! ### Unlocks, and the reads of the inclusion record and of the later-fault list (R274, R285) -/

section
variable {s : State} {o : Owner}

theorem execNvsUnlocks_used {r : CRegion} (h : s.region (s.nvAddr o).2.2 = some r) :
    execNvsUnlockRead o s = .next (s.unlock o ⟨(s.nvAddr o).2.2.val, by omega⟩ (s.nvAddr o).2.2.castSucc false) ∧
      execNvsUnlockWrite o s =
        .next (s.unlock o ⟨16 + (s.nvAddr o).2.2.val, by omega⟩ (s.nvAddr o).2.2.castSucc true) :=
  have hused : ¬ (s.region (s.nvAddr o).2.2).isNone = true := by simp [h]
  ⟨if_neg hused, if_neg hused⟩

theorem execNvsReadInc_page (h : s.nv.incPage.toNat < 768) :
    execNvsReadInc o s = .next (((s.incRead s.nv.incCopy s.nv.incPage.toNat).1.setNvData o
      (s.incRead s.nv.incCopy s.nv.incPage.toNat).2.1).nvAnswer o
        (if (s.incRead s.nv.incCopy s.nv.incPage.toNat).2.2 then .damaged else .accepted)) :=
  if_neg (Nat.not_le.2 h)

theorem execNvsReadLfl_entry {e : Lfl} (hb : s.nvBarred = false) (hn : s.nv.lflSel ≠ 255)
    (he : s.nv.cur.lfl[s.nv.lflSel.toNat]? = some e) :
    execNvsReadLfl o s = .next ((s.setNvData o (bytesToWords 16 e.bytes)).nvAnswer o .accepted) := by
  unfold execNvsReadLfl
  simp only [hb, hn, he, Bool.false_eq_true, if_false]

/-! ### CLEAR (R286) -/

variable {scope : BitVec 3} {force : Bool} {n : RailN}

/-- The scopes that a CLEAR may name in the present state. -/
def State.clearable (s : State) (scope : BitVec 3) (force : Bool) (n : RailN) : Prop :=
  scope = 2 ∨ scope = 3 ∨ (scope = 4 ∧ s.railUsed n = true) ∨
    (scope = 1 ∧ s.inc.st = .frozen ∧ s.nv.cur.clears = [] ∧ (s.inc.exported = true ∨ force = true))

theorem execNvsClear_done (hb : s.nvBarred = false) (ha : s.clearAuth o = true) (hs : s.clearable scope force n) :
    execNvsClear o scope force n s = .next ((((s.nvAnswer o .accepted).juridical "CLEAR"
      [scope.toNat, force.toNat, if scope = 4 then n.val else 0]).nvWrite 16
        (fun d => { d with clears := d.clears ++ [⟨scope.toNat, n⟩] })).commitStart) := by
  unfold execNvsClear
  rcases hs with rfl | rfl | ⟨rfl, hu⟩ | ⟨rfl, hf, hc, he⟩
  · simp [hb, ha]
  · simp [hb, ha]
  · simp [hb, ha, hu]
  · rcases he with he | he <;> simp [hb, ha, hf, hc, he]

theorem execNvsClear_unauthenticated (hb : s.nvBarred = false) (ha : s.clearAuth o = false) :
    execNvsClear o scope force n s = .next (s.nvAnswer o .refusedPassword) := by
  unfold execNvsClear
  simp only [hb, ha, Bool.false_eq_true, if_false, Bool.not_false, if_true]

/-- Before the store has recovered nothing is read from it. -/
theorem execNvs_recovering (hb : s.nvBarred = true) :
    execNvsClear o scope force n s = .next (s.nvAnswer o .refusedState) ∧
      execNvsRead o s = .next (s.nvAnswer o .refusedState) ∧ execNvsReadLfl o s = .next (s.nvAnswer o .refusedState) :=
  ⟨if_pos hb, if_pos hb, if_pos hb⟩
end

/-! ### The scrub (R263-R265) -/

section
variable {s : State} {r : ScrubResult}

/-- What every scrub shows: the corrections, the retired blocks and the wear. -/
def State.scrubbed (s : State) (r : ScrubResult) : State :=
  { s with nv := { s.nv with corrBits := min 65535 r.corrected, retired := s.nv.retired + r.retired, wearPct := r.wearPct } }

/-- A scrub that hits user pages alone reports each of them, after the retired blocks. -/
theorem execNvScrub_pages (hs : r.badSys = 0) (hc : r.badCal = []) (ha : r.badA = []) (hb : r.badB = []) :
    execNvScrub r s = .next (r.bad.foldl (fun (s : State) x => (s.uncorrectable x).eccEvent [x.1.val, x.2.1])
      (if r.retired = 0 then s.scrubbed r else (s.scrubbed r).raise 26)) := by
  unfold execNvScrub
  rw [hs, hc, ha, hb]
  rfl
end

/-- Settles O33: each command by what its region, its lock and the recovery of the store allow, and a scrub by what it hits. -/
theorem nvStoreCommandsAct : Obligations.NvStoreCommandsAct := by
  unfold Obligations.NvStoreCommandsAct
  refine ⟨fun _ => execGatherTimeout_gathered, fun _ _ => execNvsCommitNow_gathered,
    fun _ _ _ _ _ _ hb ha hr hp => execNvsRead_open ha hr hp hb, fun _ _ _ _ _ _ hb ha hr hp => execNvsRead_locked ha hr hp hb,
    fun _ _ _ _ _ _ _ hs ha hr h0 h256 hp => execNvsWrite_open ha hr hp hs h0 h256, fun _ _ _ => execNvsUnlocks_used,
    fun _ _ => ⟨rfl, rfl⟩, fun _ _ => execNvsReadInc_page, fun _ _ _ => execNvsReadLfl_entry,
    fun _ _ _ _ _ => execNvsClear_done, fun _ _ _ _ _ => execNvsClear_unauthenticated, fun _ _ _ _ _ => execNvs_recovering,
    fun _ _ => rfl, ?clean, ?page⟩
  case clean =>
    intro r s h0 hbad hs hc ha hb
    refine (execNvScrub_pages hs hc ha hb).trans ?_
    rw [hbad, if_pos h0]
    rfl
  case page =>
    intro r s m p l h0 hbad hs hc ha hb
    refine (execNvScrub_pages hs hc ha hb).trans ?_
    rw [hbad, if_neg h0]
    rfl

end Sys2Proof.Machine
end

section
/-!
# Accesses of host software (R296, R359-R362)
-/
namespace Sys2Proof.Machine
open Sys2Proof

section
variable {s : State} {a : Nat} {l : BitVec 4} {d w : Word}

theorem execRegisterWrite_no_lane {b : Bool} : execRegisterWrite b a 0 d s = .next s := if_pos rfl

theorem execRegisterWrite_unpowered {b : Bool} (hp : s.linksPowered = false) : execRegisterWrite b a l d s = .next s :=
  if_pos (by simp [hp])

theorem execBarAccessError_unpowered {bar : Fin 3} {n : Nat} {b : Bool} (hp : s.linksPowered = false) :
    execBarAccessError bar a n b s = .next s := by
  unfold execBarAccessError
  rw [hp]
  rfl

theorem execBarAccessError_powered {bar : Fin 3} {n c k : Nat} {b : Bool} (hp : s.linksPowered = true)
    (hc : s.accessCause bar.val a n b = some (c, k)) :
    execBarAccessError bar a n b s = .next (s.accessErr c bar.val k) := by
  unfold execBarAccessError
  rw [hp, if_pos rfl, hc]

/-- A read-only register takes no write, whatever stands in its way before. -/
theorem execRegisterWrite_readOnly (ha : a % 4 = 0) (hb : s.bar0 a = some (.ro, w)) :
    execRegisterWrite false a l d s = .next s := by
  unfold execRegisterWrite
  rw [if_neg (not_not_intro ha), hb]
  exact ite_self _

section
variable (hp : s.linksPowered = true) (hl : l ≠ 0#4)
include hp hl

theorem execRegisterWrite_unaligned {b : Bool} (ha : a % 4 ≠ 0) :
    execRegisterWrite b a l d s = .next (s.accessErr 1 (if b then 1 else 0) a) :=
  (if_neg (by simp [hp, hl])).trans (if_pos ha)

section
variable (ha : a % 4 = 0)
include ha

theorem execRegisterWrite_bar2 :
    execRegisterWrite true a l d s =
      if inMailbox a then .next (s.mailboxWrite a l d) else .next (s.accessErr 5 1 a) :=
  (if_neg (by simp [hp, hl])).trans (if_neg (not_not_intro ha))

theorem execRegisterWrite_unmapped (hb : s.bar0 a = none) :
    execRegisterWrite false a l d s = .next (s.accessErr 3 0 a) := by
  simp [execRegisterWrite, hp, hl, ha, hb]

theorem execRegisterWrite_command (hb : s.bar0 a = some (.cmd, w)) :
    execRegisterWrite false a l d s = if l = 0xF then s.regWrite a d else .next (s.accessErr 2 0 a) := by
  simp [execRegisterWrite, hp, hl, ha, hb]

theorem execRegisterWrite_readWrite (hb : s.bar0 a = some (.rw, w)) :
    execRegisterWrite false a l d s = s.regWrite a (mergeLanes l w d) := by
  simp [execRegisterWrite, hp, hl, ha, hb]
end
end
end

/-- Settles O38: a write by its lanes and alignment, then by its BAR and by the kind of the register. -/
theorem hostWritesAct : Obligations.HostWritesAct := by
  unfold Obligations.HostWritesAct
  exact ⟨fun _ _ _ _ _ _ _ _ hp => ⟨execRegisterWrite_unpowered hp, execBarAccessError_unpowered hp⟩,
    fun _ _ _ _ => execRegisterWrite_no_lane, fun _ _ _ _ _ hp hl => execRegisterWrite_unaligned hp hl,
    fun _ _ _ _ hp hl ha hm => (execRegisterWrite_bar2 hp hl ha).trans (if_pos hm),
    fun _ _ _ _ hp hl ha hm => (execRegisterWrite_bar2 hp hl ha).trans (if_neg (by simp [hm])),
    fun _ _ _ _ => execRegisterWrite_unmapped, fun _ _ _ _ _ => execRegisterWrite_readOnly,
    fun _ _ _ _ _ hp hl hn ha hb => (execRegisterWrite_command hp hl ha hb).trans (if_neg hn),
    fun _ _ _ _ hp ha hb => (execRegisterWrite_command hp (by decide) ha hb).trans (if_pos rfl),
    fun _ _ _ _ _ => execRegisterWrite_readWrite, fun _ _ _ _ _ _ _ => execBarAccessError_powered, fun _ _ _ _ => rfl⟩

end Sys2Proof.Machine
end

section
/-!
# The image memory: reads after writes, clears and copies (R289, R296, R359)
-/
namespace Sys2Proof.Machine
open Sys2Proof

/-! ### Reads of a list of cells -/

/-- Keeping the cells of some addresses: those read as before, and the rest read 0. -/
theorem Memory.get_filter (q : Nat → Bool) (m : List Host.Cell) (x : Nat) :
    Memory.get (m.filter (fun c => q c.1)) x = if q x then Memory.get m x else 0 := by
  induction m with
  | nil => simp [Memory.get]
  | cons c m ih =>
    obtain ⟨a, b⟩ := c
    rw [List.filter_cons]
    by_cases hax : a = x
    · subst hax
      cases hq : q a with
      | true => simp [Memory.get]
      | false => simpa [hq] using ih
    · split <;> simpa [Memory.get, hax] using ih

theorem Memory.get_append_right {l m : List Host.Cell} {x : Nat} (h : ∀ c ∈ l, c.1 ≠ x) :
    Memory.get (l ++ m) x = Memory.get m x := by
  induction l with
  | nil => rfl
  | cons c l ih =>
    obtain ⟨hc, hl⟩ := List.forall_mem_cons.1 h
    exact (if_neg hc).trans (ih hl)

theorem Memory.get_of_not_mem {m : List Host.Cell} {x : Nat} (h : ∀ c ∈ m, c.1 ≠ x) : Memory.get m x = 0 := by
  have hnil := Memory.get_append_right (m := []) h
  rwa [List.append_nil] at hnil

theorem Memory.get_append_left {l m : List Host.Cell} {x : Nat} (h : ∀ c ∈ m, c.1 ≠ x) :
    Memory.get (l ++ m) x = Memory.get l x := by
  induction l with
  | nil => exact Memory.get_of_not_mem h
  | cons c l ih => exact congrArg (ite (c.1 = x) c.2) ih

/-- Cells moved from `src` to `dst` read at the destination as they did at the source. -/
theorem Memory.get_shift {m : List Host.Cell} {src dst x : Nat} (h : ∀ c ∈ m, src ≤ c.1) (hx : dst ≤ x) :
    Memory.get (m.map (fun c => (c.1 - src + dst, c.2))) x = Memory.get m (x - dst + src) := by
  induction m with
  | nil => rfl
  | cons c m ih =>
    obtain ⟨hc, hm⟩ := List.forall_mem_cons.1 h
    have haddr : c.1 - src + dst = x ↔ c.1 = x - dst + src := by omega
    simp only [List.map_cons, Memory.get, haddr, ih hm]

/-! ### Clear and copy -/

theorem Memory.get_clear (m : List Host.Cell) (a n x : Nat) :
    Memory.get (Memory.clear m a n) x = if a ≤ x ∧ x < a + n then 0 else Memory.get m x := by
  unfold Memory.clear
  rw [Memory.get_filter (fun y => !(decide (a ≤ y) && decide (y < a + n)))]
  by_cases h : a ≤ x ∧ x < a + n <;> simp [h]

theorem Memory.get_copy (m : List Host.Cell) (src dst n x : Nat) :
    Memory.get (Memory.copy m src dst n) x =
      if dst ≤ x ∧ x < dst + n then Memory.get m (x - dst + src) else Memory.get m x := by
  have hbelow : ∀ c ∈ m.filter (fun c => decide (c.1 < dst)), c.1 < dst := by simp
  have habove : ∀ c ∈ m.filter (fun c => decide (dst + n ≤ c.1)), dst + n ≤ c.1 := by simp
  have hrange : ∀ c ∈ Memory.range m src (src + n), src ≤ c.1 ∧ c.1 < src + n := by simp [Memory.range]
  have hmoved : ∀ c ∈ (Memory.range m src (src + n)).map (fun c => (c.1 - src + dst, c.2)), dst ≤ c.1 ∧ c.1 < dst + n := by
    intro c hc
    obtain ⟨d, hd, rfl⟩ := List.mem_map.1 hc
    have := hrange d hd
    constructor <;> dsimp only <;> omega
  unfold Memory.copy
  rcases Nat.lt_or_ge x dst with hlo | hlo
  · rw [if_neg (by omega), Memory.get_append_left (fun c hc => by have := habove c hc; omega),
      Memory.get_append_left (fun c hc => by have := hmoved c hc; omega),
      Memory.get_filter (fun y => decide (y < dst)), if_pos (by simpa using hlo)]
  rw [List.append_assoc, Memory.get_append_right (fun c hc => by have := hbelow c hc; omega)]
  rcases Nat.lt_or_ge x (dst + n) with hhi | hhi
  · rw [if_pos ⟨hlo, hhi⟩, Memory.get_append_left (fun c hc => by have := habove c hc; omega),
      Memory.get_shift (fun c hc => (hrange c hc).1) hlo]
    unfold Memory.range
    rw [Memory.get_filter (fun y => decide (src ≤ y) && decide (y < src + n)), if_pos]
    simp
    omega
  · rw [if_neg (by omega), Memory.get_append_right (fun c hc => by have := hmoved c hc; omega),
      Memory.get_filter (fun y => decide (dst + n ≤ y)), if_pos (by simpa using hhi)]

/-! ### Words -/

/-- A word is its four bytes, least significant first (R359). -/
theorem bytes_of_word (w : Word) :
    w.extractLsb' 24 8 ++ w.extractLsb' 16 8 ++ w.extractLsb' 8 8 ++ w.extractLsb' 0 8 = w := by
  apply BitVec.eq_of_getLsbD_eq
  intro i hi
  simp only [BitVec.getLsbD_append, BitVec.getLsbD_extractLsb']
  grind

theorem Memory.word_putWord {m : List Host.Cell} (a : Nat) (w : Word) (h : Memory.wf m = true) :
    Memory.word (Memory.putWord m a w) a = w := by
  have hbyte (k : Nat) (hk : k < 4) : Memory.get (Memory.putWord m a w) (a + k) =
      [w.extractLsb' 0 8, w.extractLsb' 8 8, w.extractLsb' 16 8, w.extractLsb' 24 8][k] := Memory.get_put h hk
  have hzero : Memory.get (Memory.putWord m a w) a = w.extractLsb' 0 8 := hbyte 0 (by omega)
  unfold Memory.word
  rw [hbyte 3 (by omega), hbyte 2 (by omega), hbyte 1 (by omega), hzero]
  exact bytes_of_word w

/-- Settles O56: a write, a clear and a copy by the addresses that they reach. -/
theorem memoryReadAfterWrite : Obligations.MemoryReadAfterWrite := by
  unfold Obligations.MemoryReadAfterWrite
  refine ⟨fun m a i l h hi => ?_, fun _ _ _ _ => Memory.get_put_ne,
    fun _ a n l h => ⟨Memory.put_wf a l h, Memory.clear_wf a n h⟩, fun _ a w => Memory.word_putWord a w, Memory.get_clear,
    fun m src dst n x _ => Memory.get_copy m src dst n x⟩
  rw [Memory.get_put h hi, List.getD_eq_getElem _ _ hi]

end Sys2Proof.Machine
end

section
/-!
# What every command keeps: the canonical form of the image memory and the queue; and which commands leave the image memory alone
(R289, R296)
-/
namespace Sys2Proof.Machine
open Sys2Proof

/-! ### Every command -/

/-- The samples of a probe may miss some of their number (R224). -/
theorem execProbeSnapshotEnd_keeps_any (n : RailN) (samples : List (Option Int)) (s : State) :
    Out.Keeps s (execProbeSnapshotEnd n samples s) := fun u hu =>
  have ⟨hmem, hpending⟩ := execProbeSnapshotEnd_frame n samples s u hu
  ⟨fun h => hmem ▸ h, hpending⟩

/-- Whatever a command answers, the canonical form of the memory and the queue are kept: each command's own frame. -/
theorem exec_keeps (c : Instr) (s : State) : Out.Keeps s (exec c s) := by
  cases c <;> simp [exec, execProbeSnapshotEnd_keeps_any]

/-- Settles O1: the command put at the front is the one that the step runs. -/
theorem stepRunsFrontCommand : Obligations.StepRunsFrontCommand := by
  unfold Obligations.StepRunsFrontCommand
  exact fun _ _ => rfl

/-- Settles O3: an empty memory is in canonical form. -/
theorem resetMeetsInvariant : Obligations.ResetMeetsInvariant := by
  unfold Obligations.ResetMeetsInvariant
  exact ⟨Memory.wf_nil, rfl⟩

theorem step_waiting {s : State} {c : Instr} {l : List Instr} (h : s.pending = c :: l) : step s = exec c s.dequeue := by
  unfold step
  rw [h]

/-- Settles O4: a step is the fine tick or the command at the front, and both keep the canonical form. -/
theorem stepKeepsInvariant : Obligations.StepKeepsInvariant := by
  unfold Obligations.StepKeepsInvariant
  intro s t hs hstep
  cases hq : s.pending with
  | nil =>
    rw [step_empty s hq, Host.Outcome.next.injEq] at hstep
    exact hstep ▸ (State.fineTick_frame s).1 hs
  | cons c l =>
    rw [step_waiting hq] at hstep
    exact (exec_keeps c s.dequeue t hstep).1 hs

/-- Settles O5: the queue is part of every command's frame. -/
theorem execKeepsQueue : Obligations.ExecKeepsQueue := by
  unfold Obligations.ExecKeepsQueue
  exact fun c s t h => (exec_keeps c s t h).2

/-! ### The commands that cannot reach the image memory -/

/-- A wake source reaches the memory only through the start that ends STABLED (R85). -/
theorem State.wakeUp_mem {s : State} (h : s.g.st ≠ .stabled) (code : Nat) : (s.wakeUp code).mem = s.mem := by
  unfold State.wakeUp
  rw [if_neg h]
  split
  · rfl
  · split <;> rfl

theorem execStandstillInputChange_mem (asserted : Bool) (s t : State) (h : execStandstillInputChange asserted s = .next t) :
    t.mem = s.mem := by
  unfold execStandstillInputChange at h
  split at h
  · cases h; rfl
  · cases h; rfl
  · rename_i hs
    cases h
    split
    · exact (State.wakeUp_mem (s := { s with motion := { s.motion with standstillIn := asserted } }) hs 4).trans rfl
    · rfl

theorem execEdivoSessionOpen_mem (s t : State) (h : execEdivoSessionOpen s = .next t) : t.mem = s.mem := by
  unfold execEdivoSessionOpen at h
  split at h
  · cases h; rfl
  · split at h <;> cases h <;> rfl

theorem execEdivoHello_mem (n : Fin 4) (s t : State) (h : execEdivoHello n s = .next t) : t.mem = s.mem := by
  cases h
  exact (State.onSession_frame s n _ (fun _ _ => State.reply_frame _ _ _ _ _)).1

/-- Commands that leave the image memory alone, at whatever state of it. -/
def Out.KeepsMem (s : State) (o : Out) : Prop := ∀ t, o = .next t → t.mem = s.mem

theorem atSlot_keepsMem {s : State} {base count stride o : Nat} {f : Nat → Out} {rest : Out}
    (hf : ∀ i, Out.KeepsMem s (f i)) (hr : Out.KeepsMem s rest) : Out.KeepsMem s (atSlot base count stride o f rest) := by
  unfold atSlot
  split
  · exact hf _
  · exact hr

theorem State.readEffect_mem (s : State) (a : Nat) : Out.KeepsMem s (s.readEffect a) := by
  have hself : Out.KeepsMem s (.next s) := fun t h => by cases h; rfl
  unfold State.readEffect
  dsimp only
  split
  · intro t h
    cases h
    exact (State.accessErr_frame s 3 0 a).1
  split
  · split
    · exact fun t h => (execMtimeLoRead_frame s t h).1
    · exact atSlot_keepsMem (fun _ t h => (execCmdSeqLoRead_frame _ _ s t h).1)
        (atSlot_keepsMem (fun _ t h => (execCmdSeqLoRead_frame _ _ s t h).1) hself)
  · exact atSlot_keepsMem (fun _ t h => (execScnResRead_frame _ s t h).1) hself
  · exact atSlot_keepsMem (fun _ t h => (execEvtClaim_frame _ s t h).1) hself
  · split
    · exact fun t h => (execCycleLoRead_frame s t h).1
    · exact hself
  · split
    · exact fun t h => (execUtcLoRead_frame s t h).1
    · exact hself
  · exact hself

theorem State.readWords_mem (s : State) (a k : Nat) : (s.readWords a k).1.mem = s.mem := by
  induction k generalizing s a with
  | zero => rfl
  | succ k ih =>
    unfold State.readWords
    dsimp only
    rw [ih]
    split
    · exact State.readEffect_mem s a _ ‹_›
    · rfl

theorem execEdivoRead_mem (n : Fin 4) (bar2 : Bool) (offset count : Nat) (s t : State)
    (h : execEdivoRead n bar2 offset count s = .next t) : t.mem = s.mem := by
  cases h
  unfold State.onSession
  split
  · rfl
  · dsimp only
    split
    · split <;> rfl
    · split
      · rfl
      · exact State.readWords_mem _ offset count

/-- A command outside `Safety.mayWriteImage` leaves the memory as it was: each command's own frame. -/
theorem exec_mem {c : Instr} {s t : State} (hc : Safety.mayWriteImage c = false) (h : exec c s = .next t) : t.mem = s.mem := by
  cases c with
  | vinAbsenceBegin => exact (execVinAbsenceBegin_frame s t h).1
  | supplyLossDeclared => exact (execSupplyLossDeclared_frame s t h).1
  | fluctuationExpiry => exact (execFluctuationExpiry_frame s t h).1
  | vinReturn => exact (execVinReturn_frame s t h).1
  | internalTempMeasure => exact (execInternalTempMeasure_frame _ s t h).1
  | holdupEnergyUpdate => exact (execHoldupEnergyUpdate_frame _ _ _ s t h).1
  | holdupChargeStalled => exact (execHoldupChargeStalled_frame s t h).1
  | slowdownMeasure => exact (execSlowdownMeasure_frame _ s t h).1
  | mtimeLoRead => exact (execMtimeLoRead_frame s t h).1
  | utcLoRead => exact (execUtcLoRead_frame s t h).1
  | cycleLoRead => exact (execCycleLoRead_frame s t h).1
  | cmdSeqLoRead => exact (execCmdSeqLoRead_frame _ _ s t h).1
  | ptpAnnounceRx => exact (execPtpAnnounceRx_frame _ _ s t h).1
  | ptpSyncRx => exact (execPtpSyncRx_frame _ _ _ _ s t h).1
  | utcHoldover => exact (execUtcHoldover_frame s t h).1
  | leapSecond => exact (execLeapSecond_frame _ s t h).1
  | keyInserted => exact (execKeyInserted_frame _ s t h).1
  | stage => exact (execStage_frame _ _ s t h).1
  | stageWriteDone => exact (execStageWriteDone_frame _ s t h).1
  | stageVerifyDone ended => exact (execStageVerifyDone_frame ended s t h).1
  | verify => exact (execVerify_frame _ s t h).1
  | stageAbort => exact (execStageAbort_frame _ s t h).1
  | switch => exact (execSwitch_frame _ s t h).1
  | selectorWriteDone => exact (execSelectorWriteDone_frame s t h).1
  | take => exact (execTake_frame _ s t h).1
  | takePrepared ended => exact (execTakePrepared_frame ended s t h).1
  | pgChange => exact (execPgChange_frame _ _ s t h).1
  | trimClipped => exact (execTrimClipped_frame _ _ s t h).1
  | rerun => exact (execRerun_frame s t h).1
  | standstillInputChange => exact execStandstillInputChange_mem _ s t h
  | motionJudgement => exact (execMotionJudgement_frame s t h).1
  | stabledFlushEnd => exact (execStabledFlushEnd_frame s t h).1
  | touchStuck => exact (execTouchStuck_frame s t h).1
  | touchPowerupRelease => exact (execTouchPowerupRelease_frame s t h).1
  | displayPageTimeout => exact (execDisplayPageTimeout_frame s t h).1
  | mrstPress => exact (execMrstPress_frame s t h).1
  | mrstRelease => exact (execMrstRelease_frame s t h).1
  | mrstStuck => exact (execMrstStuck_frame s t h).1
  | mrstHeldEnd => exact (execMrstHeldEnd_frame s t h).1
  | hostResetEnd => exact (execHostResetEnd_frame s t h).1
  | marginHold => exact (execMarginHold_frame _ _ s t h).1
  | marginEnd => exact (execMarginEnd_frame _ s t h).1
  | marginSlewStep => exact (execMarginSlewStep_frame _ s t h).1
  | holdExpired => exact (execHoldExpired_frame _ s t h).1
  | probeAbortAll => exact (execProbeAbortAll_frame s t h).1
  | probeRequest => exact (execProbeRequest_frame _ s t h).1
  | probeStepApply => exact (execProbeStepApply_frame _ s t h).1
  | probeSnapshotEnd => exact (execProbeSnapshotEnd_frame _ _ s t h).1
  | probeHoldEnd => exact (execProbeHoldEnd_frame _ s t h).1
  | meterBurst => exact (execMeterBurst_frame _ _ s t h).1
  | calibrationDue => exact (execCalibrationDue_frame _ s t h).1
  | calibrationDone => exact (execCalibrationDone_frame _ _ _ _ s t h).1
  | converterOut => exact (execConverterOut_frame _ s t h).1
  | converterIn => exact (execConverterIn_frame _ s t h).1
  | converterCalibrate => exact (execConverterCalibrate_frame _ s t h).1
  | snapshotTriggerCmd => exact (execSnapshotTriggerCmd_frame s t h).1
  | snapshotBurstEnd => exact (execSnapshotBurstEnd_frame _ s t h).1
  | scnResRead => exact (execScnResRead_frame _ s t h).1
  | holdoffEnd => exact (execHoldoffEnd_frame _ s t h).1
  | evtClaim => exact (execEvtClaim_frame _ s t h).1
  | evtComplete => exact (execEvtComplete_frame _ _ s t h).1
  | evtPendWrite => exact (execEvtPendWrite_frame _ _ s t h).1
  | evtMaskWrite => exact (execEvtMaskWrite_frame _ _ s t h).1
  | evtPrioWrite => exact (execEvtPrioWrite_frame _ _ s t h).1
  | gatherTimeout => exact (execGatherTimeout_frame s t h).1
  | nvScrub => exact (execNvScrub_frame _ s t h).1
  | nvsRead => exact (execNvsRead_frame _ s t h).1
  | nvsWrite => exact (execNvsWrite_frame _ _ s t h).1
  | nvsCommitNow => exact (execNvsCommitNow_frame _ s t h).1
  | nvsUnlockRead => exact (execNvsUnlockRead_frame _ s t h).1
  | nvsUnlockWrite => exact (execNvsUnlockWrite_frame _ s t h).1
  | nvsUnlockClear => exact (execNvsUnlockClear_frame _ s t h).1
  | nvsLock => exact (execNvsLock_frame _ s t h).1
  | nvsReadInc => exact (execNvsReadInc_frame _ s t h).1
  | nvsReadLfl => exact (execNvsReadLfl_frame _ s t h).1
  | nvsClear => exact (execNvsClear_frame _ _ _ _ s t h).1
  | passwordLockoutExpiry => exact (execPasswordLockoutExpiry_frame _ s t h).1
  | inclusionCopyADone => exact (execInclusionCopyADone_frame s t h).1
  | inclusionClearDone => exact (execInclusionClearDone_frame s t h).1
  | lastGaspFlushEnd => exact (execLastGaspFlushEnd_frame s t h).1
  | programRestart => exact (execProgramRestart_frame _ s t h).1
  | programStop => exact (execProgramStop_frame _ s t h).1
  | pairSelftest => exact (execPairSelftest_frame _ s t h).1
  | pairInject => exact (execPairInject_frame _ s t h).1
  | pairSelftestStart => exact (execPairSelftestStart_frame _ s t h).1
  | pairSelftestDone => exact (execPairSelftestDone_frame _ _ s t h).1
  | pairShadowDone => exact (execPairShadowDone_frame _ _ s t h).1
  | spareSelfcheckFail => exact (execSpareSelfcheckFail_frame _ s t h).1
  | levelRecompute due pMod => exact (execLevelRecompute_frame due pMod s t h).1
  | batteryWrite => exact (execBatteryWrite_frame _ s t h).1
  | batteryTimeout => exact (execBatteryTimeout_frame s t h).1
  | queuePush => exact (execQueuePush_frame _ _ s t h).1
  | queueComplete => exact (execQueueComplete_frame _ _ _ s t h).1
  | queueCancel => exact (execQueueCancel_frame _ _ s t h).1
  | queueFlush => exact (execQueueFlush_frame s t h).1
  | descriptorReadDone => exact (execDescriptorReadDone_frame _ _ s t h).1
  | dispatchRound => exact (execDispatchRound_frame s t h).1
  | domainIdleTimeout => exact (execDomainIdleTimeout_frame _ s t h).1
  | lckAcquire => exact (execLckAcquire_frame _ _ s t h).1
  | lckRelease => exact (execLckRelease_frame _ _ s t h).1
  | lckReleaseClearPoison => exact (execLckReleaseClearPoison_frame _ _ s t h).1
  | syncSignal => exact (execSyncSignal_frame _ _ s t h).1
  | syncWait => exact (execSyncWait_frame _ _ _ _ s t h).1
  | syncCancelWait => exact (execSyncCancelWait_frame _ s t h).1
  | resetEpoch => exact (execResetEpoch_frame _ s t h).1
  | syncTimerSignal => exact (execSyncTimerSignal_frame _ s t h).1
  | heartbeatSend => exact (execHeartbeatSend_frame s t h).1
  | heartbeatRx => exact (execHeartbeatRx_frame _ _ s t h).1
  | partnerLoss => exact (execPartnerLoss_frame s t h).1
  | tailstockLinkLoss => exact (execTailstockLinkLoss_frame _ s t h).1
  | seekTimeout => exact (execSeekTimeout_frame s t h).1
  | mirrorRx => exact (execMirrorRx_frame _ s t h).1
  | handover => exact (execHandover_frame s t h).1
  | partnerCommand => exact (execPartnerCommand_frame _ _ s t h).1
  | silentLogicExpiry => exact (execSilentLogicExpiry_frame _ s t h).1
  | groupOverload => exact (execGroupOverload_frame _ s t h).1
  | pointOverload => exact (execPointOverload_frame _ _ s t h).1
  | pointOverloadClear => exact (execPointOverloadClear_frame _ s t h).1
  | fieldGroupReset => exact (execFieldGroupReset_frame _ s t h).1
  | lineJudgement => exact (execLineJudgement_frame _ s t h).1
  | systemClassify => exact (execSystemClassify_frame _ s t h).1
  | dataSetSigned => exact (execDataSetSigned_frame s t h).1
  | meterDsSelect => exact (execMeterDsSelect_frame _ s t h).1
  | streamTailWrite => exact (execStreamTailWrite_frame _ _ s t h).1
  | blockWrite => exact (execBlockWrite_frame _ s t h).1
  | unitFlush => exact (execUnitFlush_frame _ _ s t h).1
  | unitWriteDone => exact (execUnitWriteDone_frame _ _ s t h).1
  | unitPresent => exact (execUnitPresent_frame _ s t h).1
  | unitControllerReady => exact (execUnitControllerReady_frame _ _ _ _ s t h).1
  | unitTrainingTimeout => exact (execUnitTrainingTimeout_frame _ s t h).1
  | unitVerifyDone => exact (execUnitVerifyDone_frame _ _ s t h).1
  | unitShutdownDone => exact (execUnitShutdownDone_frame _ s t h).1
  | unitRemoved => exact (execUnitRemoved_frame _ s t h).1
  | storageLinkDown => exact (execStorageLinkDown_frame _ s t h).1
  | unitWriteError => exact (execUnitWriteError_frame _ _ s t h).1
  | unitRelease => exact (execUnitRelease_frame _ _ s t h).1
  | unitAdmit => exact (execUnitAdmit_frame _ s t h).1
  | unitFormat => exact (execUnitFormat_frame _ _ s t h).1
  | recordRead => exact (execRecordRead_frame _ s t h).1
  | recordReadAbort => exact (execRecordReadAbort_frame s t h).1
  | recordReadDone => exact (execRecordReadDone_frame _ _ s t h).1
  | replanDue => exact (execReplanDue_frame s t h).1
  | replan => exact (execReplan_frame s t h).1
  | coreOffsetStep => exact (execCoreOffsetStep_frame s t h).1
  | holdupTestStart => exact (execHoldupTestStart_frame s t h).1
  | holdupTestEnd => exact (execHoldupTestEnd_frame _ _ s t h).1
  | referenceCheck => exact (execReferenceCheck_frame _ _ _ s t h).1
  | cellCheck => exact (execCellCheck_frame _ s t h).1
  | loadEstimateSample due => exact (execLoadEstimateSample_frame due s t h).1
  | ageHistSelect => exact (execAgeHistSelect_frame _ s t h).1
  | wdgDisableArm => exact (execWdgDisableArm_frame _ s t h).1
  | wdgDisableConfirm => exact (execWdgDisableConfirm_frame _ _ s t h).1
  | perstAssert => exact (execPerstAssert_frame s t h).1
  | hostFunctionReset => exact (execHostFunctionReset_frame s t h).1
  | hostLinkDown => exact (execHostLinkDown_frame s t h).1
  | hostLinkUp => exact (execHostLinkUp_frame _ _ s t h).1
  | netRailCommand => exact (execNetRailCommand_frame _ _ s t h).1
  | speedReportRx => exact (execSpeedReportRx_frame _ _ s t h).1
  | locationRx => exact (execLocationRx_frame _ _ s t h).1
  | statusTelegram => exact (execStatusTelegram_frame s t h).1
  | edivoHello => exact execEdivoHello_mem _ s t h
  | edivoRead => exact execEdivoRead_mem _ _ _ _ s t h
  | challenge => exact (execChallenge_frame _ _ s t h).1
  | login => exact (execLogin_frame _ _ _ s t h).1
  | setPassword => exact (execSetPassword_frame _ _ s t h).1
  | provision => exact (execProvision_frame _ _ _ s t h).1
  | presenceTimeout => exact (execPresenceTimeout_frame s t h).1
  | rekey => exact (execRekey_frame _ _ _ s t h).1
  | releaseForReturn => exact (execReleaseForReturn_frame _ _ s t h).1
  | logout => exact (execLogout_frame _ s t h).1
  | maker => exact (execMaker_frame _ _ s t h).1
  | girdleBreach => exact (execGirdleBreach_frame _ s t h).1
  | calOverdue => exact (execCalOverdue_frame _ s t h).1
  | msixMaskChange => exact (execMsixMaskChange_frame _ _ _ s t h).1
  | storageLinkRecovered => exact (execStorageLinkRecovered_frame _ s t h).1
  | streamPayloadAdmitted => exact (execStreamPayloadAdmitted_frame _ _ _ _ _ s t h).1
  | ptpMasterLoss => exact (execPtpMasterLoss_frame _ s t h).1
  | netLinkChange => exact (execNetLinkChange_frame _ _ _ s t h).1
  | edivoSessionOpen => exact execEdivoSessionOpen_mem s t h
  | _ => nomatch hc

/-- Settles O55: a memory left alone reads as before. -/
theorem imageMemoryFrame : Obligations.ImageMemoryFrame := by
  unfold Obligations.ImageMemoryFrame
  intro c s t a hc h
  rw [exec_mem hc h]

end Sys2Proof.Machine
end

section
/-!
# Which commands complete, and which are refused

A command is refused for the shape of its operand list alone. The commands that carry no list answer a next state on every branch; the
writes of host software and of sessions answer what the command that they carry answers.
-/
namespace Sys2Proof.Machine
open Sys2Proof

/-- An outcome is a next state. -/
def Out.Completes (o : Out) : Prop := ∃ t, o = .next t

theorem Out.completes_next (t : State) : Out.Completes (.next t) := ⟨t, rfl⟩

theorem Out.completes_ite {p : Prop} [Decidable p] {a b : Out} (ha : a.Completes) (hb : b.Completes) :
    Out.Completes (if p then a else b) := by
  split
  · exact ha
  · exact hb

/-- Where a guard does not hold, what it guards is not refused. -/
theorem Out.completes_guard {p : Prop} [Decidable p] {a b : Out} (hp : ¬ p) (hb : b.Completes) :
    Out.Completes (if p then a else b) := by
  rwa [if_neg hp]

theorem andThen_completes {o : Out} {f : State → Out} (ho : o.Completes) (hf : ∀ s, (f s).Completes) :
    (andThen o f).Completes := by
  obtain ⟨t, rfl⟩ := ho
  exact hf t

theorem onlyIf_completes {c : Bool} {f : State → Out} {s : State} (hf : (f s).Completes) : (onlyIf c f s).Completes :=
  Out.completes_ite hf (Out.completes_next s)

theorem atSlot_completes {base count stride o : Nat} {f : Nat → Out} {rest : Out} (hf : ∀ i, (f i).Completes)
    (hr : rest.Completes) : (atSlot base count stride o f rest).Completes := by
  unfold atSlot
  split
  · exact hf _
  · exact hr

/-! ### The commands without an operand list -/

/-- An instruction of a spindle completes: its faults are the program's, not the module's (R312). -/
theorem State.instr_completes (s : State) (l : LPairN) (op : Nat) (act : State → ProgN → BitVec 24 → Act) :
    (s.instr l op act).Completes := by
  unfold State.instr
  dsimp only
  repeat' split
  all_goals exact Out.completes_next _

/-- The commands that carry neither an operand list nor another command. -/
def Instr.simple : Instr → Bool
  | .internalTempMeasure .. | .selftestComplete .. | .replanEnd .. | .probeSnapshotEnd .. | .meterBurst .. | .snapshotBurstEnd
    .. | .sampledSampling .. | .lineJudgement .. | .systemClassify .. | .streamPayloadAdmitted .. | .edivoStageData .. |
    .registerWrite .. | .edivoCommand .. => false
  | _ => true

/-- First the commands that have one effect, then the instructions, then those that branch. -/
theorem exec_simple_completes {c : Instr} (hc : Instr.simple c = true) (s : State) : Out.Completes (exec c s) := by
  cases c <;> dsimp only [exec]
  case railCmdOn | railCmdOff | railCmdClear | railCmdRelease | railCmdPark | railCmdUnpark | allowanceExpiry | hostOffRequest |
    hostOnRequest | hostRestart | netOffRequest | netOnRequest | edivoRecordRead | edivoExport | edivoTestMode | edivoBye |
    edivoSessionClose | edivoSessionTimeout | edivoBadFrame | vinAbsenceBegin | fluctuationExpiry | mtimeLoRead | utcLoRead |
    cycleLoRead | pgChange | displayPageTimeout | marginHold | marginEnd | probeAbortAll | probeRequest | calibrationDue |
    scnResRead | holdoffEnd | evtPendWrite | evtMaskWrite | evtPrioWrite | nvScrub | nvsCommitNow | nvsUnlockClear | nvsLock |
    passwordLockoutExpiry | pairInject | batteryWrite | queueFlush | lckRelease | lckReleaseClearPoison | resetEpoch |
    pointOverloadClear | fieldGroupReset | dataSetSigned | meterDsSelect | unitWriteDone | ageHistSelect | hostLinkDown |
    edivoHello | edivoRead | challenge | login | setPassword | provision | rekey | logout | maker | msixMaskChange |
    ptpMasterLoss =>
    exact Out.completes_next _
  case iLd | iLdn | iAnd | iAndn | iOr | iOrn | iXor | iSt | iSet | iRst | iNot | iBpush | iBpopand | iBpopor | iRe | iFe | iTon
    | iTof | iTp | iCtu | iCtd | iCrst | iLdw | iLdi | iLdih | iStw | iAdd | iSub | iMul | iDiv | iAndw | iOrw | iXorw | iShl |
    iShr | iMova | iMovw | iAddi | iCmpeq | iCmpne | iCmpgt | iCmplt | iLim | iScale | iAbs | iResc | iRail | iMrg | iEvt |
    iSigsync | iWaitsync | iLock | iUnlock | iJmp | iJc | iJnc | iLoop | iCall | iRet | iBend | iPend | iNop =>
    exact State.instr_completes _ _ _ _
  case supplyStartThreshold | supplyLossDeclared | vinReturn | pfwAssert | internalRailFault | holdupEnergyUpdate |
    holdupChargeStalled | keyLoadComplete | slowdownMeasure | timeBaseCheck | cmdSeqLoRead | ptpAnnounceRx | ptpSyncRx |
    utcHoldover | leapSecond | keyInserted | stageWriteDone | stageVerifyDone | stageAbort | switch | selectorWriteDone | take |
    takePrepared | comparatorCrossing | rampDelayEnd | rampDeadline | pgDelayExpiry | pgFilterExpiry | dischargeTimeout |
    scanSlotEnd | trimClipped | casInAccepted | retryPauseEnd | rerun | standstillConfirmed | stabledFlushEnd | touchSample |
    touchForceOff | touchRundownOff | touchPowerupRelease | mrstPress | mrstRelease | mrstRestartPress | mrstStuck | mrstHeldEnd
    | hostResetEnd | marginSlewStep | holdExpired | probeStepApply | probeHoldEnd | calibrationDone | converterOut | converterIn
    | converterCalibrate | snapshotTriggerCmd | alertAccepted | evtComplete | gatherTimeout | nvsRead | nvsWrite | nvsUnlockRead
    | nvsUnlockWrite | nvsReadInc | nvsReadLfl | nvsClear | inclusionCopyADone | inclusionCopyBDone | inclusionClearDone |
    sealDone | lastGaspFlushEnd | lastGaspDropStep | wakeTimerExpiry | closingTick | inputFreeze | mismatch | pairSelftestStart
    | pairSelftestDone | pairShadowDone | spareSelfcheckFail | levelRecompute | batteryTimeout | queueCancel | syncWait |
    syncCancelWait | heartbeatSend | heartbeatRx | partnerLoss | tailstockLinkLoss | seekTimeout | mirrorRx | handover |
    silentLogicExpiry | groupSupplyLost | groupSupplyReturned | groupOverload | pointOverload | streamTailWrite | blockWrite |
    unitFlush | unitControllerReady | unitTrainingTimeout | unitVerifyDone | unitShutdownDone | unitRemoved | storageLinkDown |
    unitWriteError | unitFormat | recordRead | recordReadAbort | recordReadDone | replanDue | replan | coreOffsetStep |
    holdupTestStart | holdupTestEnd | referenceCheck | cellCheck | hostLinkUp | wakeFrameRx | releaseDone | calOverdue |
    storageLinkRecovered | netLinkChange | edivoSessionOpen | keyRemoved | stage | verify | stepDelayExpiry | stepTimeout |
    standstillInputChange | motionJudgement | touchStuck | evtClaim | commitGroupDone | programRestart | programStop | replayEnd
    | pairSelftest | queuePush | queueComplete | descriptorReadDone | dispatchRound | domainIdleTimeout | lckAcquire |
    syncSignal | syncTimerSignal | barAccessError | partnerCommand | fieldSample | unitPresent | unitRelease | unitAdmit |
    loadEstimateSample | hostWdgService | hostWdgExpiry | spindleWdgExpiry | wdgDisableArm | wdgDisableConfirm | perstAssert |
    hostFunctionReset | netRailCommand | speedReportRx | locationRx | statusTelegram | presenceTimeout | releaseForReturn |
    girdleBreach =>
    dsimp only [execSupplyStartThreshold, execSupplyLossDeclared, execVinReturn, execPfwAssert, execInternalRailFault,
      execHoldupEnergyUpdate, execHoldupChargeStalled, execKeyLoadComplete, execSlowdownMeasure, execTimeBaseCheck,
      execCmdSeqLoRead, execPtpAnnounceRx, execPtpSyncRx, execUtcHoldover, execLeapSecond, execKeyInserted, execStageWriteDone,
      execStageVerifyDone, execStageAbort, execSwitch, execSelectorWriteDone, execTake, execTakePrepared,
      execComparatorCrossing, execRampDelayEnd, execRampDeadline, execPgDelayExpiry, execPgFilterExpiry, execDischargeTimeout,
      execScanSlotEnd, execTrimClipped, execCasInAccepted, execRetryPauseEnd, execRerun, execStandstillConfirmed,
      execStabledFlushEnd, execTouchSample, execTouchForceOff, execTouchRundownOff, execTouchPowerupRelease, execMrstPress,
      execMrstRelease, execMrstRestartPress, execMrstStuck, execMrstHeldEnd, execHostResetEnd, execMarginSlewStep,
      execHoldExpired, execProbeStepApply, execProbeHoldEnd, execCalibrationDone, execConverterOut, execConverterIn,
      execConverterCalibrate, execSnapshotTriggerCmd, execAlertAccepted, execEvtComplete, execGatherTimeout, execNvsRead,
      execNvsWrite, execNvsUnlockRead, execNvsUnlockWrite, execNvsReadInc, execNvsReadLfl, execNvsClear, execInclusionCopyADone,
      execInclusionCopyBDone, execInclusionClearDone, execSealDone, execLastGaspFlushEnd, execLastGaspDropStep,
      execWakeTimerExpiry, execClosingTick, execInputFreeze, execMismatch, execPairSelftestStart, execPairSelftestDone,
      execPairShadowDone, execSpareSelfcheckFail, execLevelRecompute, execBatteryTimeout, execQueueCancel, execSyncWait,
      execSyncCancelWait, execHeartbeatSend, execHeartbeatRx, execPartnerLoss, execTailstockLinkLoss, execSeekTimeout,
      execMirrorRx, execHandover, execSilentLogicExpiry, execGroupSupplyLost, execGroupSupplyReturned, execGroupOverload,
      execPointOverload, execStreamTailWrite, execBlockWrite, execUnitFlush, execUnitControllerReady, execUnitTrainingTimeout,
      execUnitVerifyDone, execUnitShutdownDone, execUnitRemoved, execStorageLinkDown, execUnitWriteError, execUnitFormat,
      execRecordRead, execRecordReadAbort, execRecordReadDone, execReplanDue, execReplan, execCoreOffsetStep,
      execHoldupTestStart, execHoldupTestEnd, execReferenceCheck, execCellCheck, execHostLinkUp, execWakeFrameRx,
      execReleaseDone, execCalOverdue, execStorageLinkRecovered, execNetLinkChange, execEdivoSessionOpen, execKeyRemoved,
      execStage, execVerify, execStepDelayExpiry, execStepTimeout, execStandstillInputChange, execMotionJudgement,
      execTouchStuck, execEvtClaim, execCommitGroupDone, execProgramRestart, execProgramStop, execReplayEnd, execPairSelftest,
      execQueuePush, execQueueComplete, execDescriptorReadDone, execDispatchRound, execDomainIdleTimeout, execLckAcquire,
      execSyncSignal, execSyncTimerSignal, execBarAccessError, execPartnerCommand, execFieldSample, execUnitPresent,
      execUnitRelease, execUnitAdmit, execLoadEstimateSample, execHostWdgService, execHostWdgExpiry, execSpindleWdgExpiry,
      execWdgDisableArm, execWdgDisableConfirm, execPerstAssert, execHostFunctionReset, execNetRailCommand, execSpeedReportRx,
      execLocationRx, execStatusTelegram, execPresenceTimeout, execReleaseForReturn, execGirdleBreach]
    repeat' (split <;> try with_reducible exact Out.completes_next _)
  all_goals nomatch hc

/-! ### The writes of host software and of sessions -/

section
variable {s : State} {w : Word} {o : Nat}

theorem nvsCommand_completes {p : Owner} : (nvsCommand p w s).Completes := by
  unfold nvsCommand
  split
  · exact exec_simple_completes (c := .nvsRead p) rfl s
  · exact exec_simple_completes (c := .nvsWrite p _) rfl s
  · exact exec_simple_completes (c := .nvsCommitNow p) rfl s
  · exact exec_simple_completes (c := .nvsUnlockRead p) rfl s
  · exact exec_simple_completes (c := .nvsUnlockWrite p) rfl s
  · exact exec_simple_completes (c := .nvsUnlockClear p) rfl s
  · exact exec_simple_completes (c := .nvsLock p) rfl s
  · exact exec_simple_completes (c := .nvsReadInc p) rfl s
  · exact exec_simple_completes (c := .nvsReadLfl p) rfl s
  · exact exec_simple_completes (c := .nvsClear p _ _ _) rfl s
  · exact Out.completes_next s

theorem stgCommand_completes {p : Owner} : (stgCommand p w s).Completes := by
  unfold stgCommand
  split
  · exact exec_simple_completes (c := .stage p _) rfl s
  · exact exec_simple_completes (c := .verify p) rfl s
  · exact exec_simple_completes (c := .stageAbort p) rfl s
  · exact exec_simple_completes (c := .switch p) rfl s
  · exact Out.completes_next s

theorem wdgDisable_completes {p : Owner} : (wdgDisable p w s).Completes := by
  unfold wdgDisable
  split
  · exact exec_simple_completes (c := .wdgDisableArm p) rfl s
  · exact exec_simple_completes (c := .wdgDisableConfirm p _) rfl s
  · exact Out.completes_next s

theorem lckCommand_completes {t : TgtN} : (lckCommand t w s).Completes := by
  unfold lckCommand
  dsimp only
  split
  · exact exec_simple_completes (c := .lckAcquire t _) rfl s
  · exact exec_simple_completes (c := .lckRelease t _) rfl s
  · exact exec_simple_completes (c := .lckReleaseClearPoison t _) rfl s
  · exact exec_simple_completes (c := .syncSignal t _) rfl s
  · exact exec_simple_completes (c := .syncWait t _ _ _) rfl s
  · exact exec_simple_completes (c := .syncCancelWait t) rfl s
  · exact exec_simple_completes (c := .resetEpoch t) rfl s
  · exact Out.completes_next s

theorem unitCommand_completes {k : Fin 8} : (unitCommand k w s).Completes := by
  unfold unitCommand
  split
  · exact exec_simple_completes (c := .unitRelease k _) rfl s
  · exact exec_simple_completes (c := .unitAdmit k) rfl s
  · exact exec_simple_completes (c := .unitFormat k _) rfl s
  · exact Out.completes_next s

theorem glbWrite_completes : (glbWrite o w s).Completes := by
  unfold glbWrite
  refine Out.completes_ite (Out.completes_next _) (Out.completes_ite ?_ (Out.completes_ite (Out.completes_next _)
    (Out.completes_ite (Out.completes_next _) (Out.completes_ite ?_ (Out.completes_ite (Out.completes_next _)
    (Out.completes_ite (Out.completes_next _) (Out.completes_ite (Out.completes_next _) (Out.completes_next s))))))))
  · exact onlyIf_completes (exec_simple_completes (c := .hostRestart) rfl s)
  · split
    · exact exec_simple_completes (c := .hostOffRequest) rfl s
    · exact exec_simple_completes (c := .hostOnRequest) rfl s
    · exact Out.completes_next s

theorem probeControl_completes : (probeControl w s).Completes :=
  andThen_completes (onlyIf_completes (exec_simple_completes (c := .probeAbortAll) rfl _))
    (fun t => onlyIf_completes (exec_simple_completes (c := .probeRequest _) rfl t))

theorem railWrite_completes {n : RailN} : (railWrite n w s).Completes := by
  unfold railWrite
  split <;> exact Out.completes_next _

theorem marginWrite_completes {n : RailN} : (marginWrite n w s).Completes := by
  unfold marginWrite
  split
  · exact exec_simple_completes (c := .marginHold n _) rfl s
  · exact exec_simple_completes (c := .marginEnd n) rfl s
  · exact Out.completes_next s

theorem rsqWrite_completes : (rsqWrite o w s).Completes :=
  Out.completes_ite (onlyIf_completes (exec_simple_completes (c := .rerun) rfl s))
    (Out.completes_ite probeControl_completes (atSlot_completes (fun _ => railWrite_completes)
      (atSlot_completes (fun _ => marginWrite_completes) (Out.completes_next s))))

theorem convWrite_completes {c : ConvN} : (convWrite c w s).Completes := by
  unfold convWrite
  split
  · exact exec_simple_completes (c := .converterOut c) rfl s
  · exact exec_simple_completes (c := .converterIn c) rfl s
  · exact exec_simple_completes (c := .converterCalibrate c) rfl s
  · exact Out.completes_next s

theorem scnWrite_completes : (scnWrite o w s).Completes :=
  Out.completes_ite (Out.completes_next _)
    (Out.completes_ite (onlyIf_completes (exec_simple_completes (c := .snapshotTriggerCmd) rfl s))
      (atSlot_completes (fun _ => convWrite_completes)
        (atSlot_completes (fun _ => Out.completes_next _) (Out.completes_next s))))

theorem trpWrite_completes : (trpWrite o w s).Completes :=
  atSlot_completes (fun _ => Out.completes_next _) (atSlot_completes (fun _ => Out.completes_next _) (Out.completes_next s))

theorem evtWrite_completes : (evtWrite o w s).Completes :=
  Out.completes_ite (Out.completes_next _) (Out.completes_ite (Out.completes_next _)
    (atSlot_completes (fun _ => exec_simple_completes (c := .evtPendWrite _ w) rfl s)
    (atSlot_completes (fun _ => exec_simple_completes (c := .evtMaskWrite _ w) rfl s)
    (atSlot_completes (fun _ => Out.completes_next _)
    (atSlot_completes (fun _ => exec_simple_completes (c := .evtPrioWrite _ _) rfl s)
    (atSlot_completes (fun _ => exec_simple_completes (c := .evtComplete _ _) rfl s)
    (atSlot_completes (fun _ => Out.completes_next _)
    (atSlot_completes (fun _ => Out.completes_next _)
    (atSlot_completes (fun _ => Out.completes_next _) (Out.completes_next s))))))))))

theorem wdgWrite_completes : (wdgWrite o w s).Completes :=
  Out.completes_ite (Out.completes_next _) (Out.completes_ite (exec_simple_completes (c := .hostWdgService w) rfl s)
    (Out.completes_ite wdgDisable_completes (atSlot_completes (fun _ => Out.completes_next _) (Out.completes_next s))))

theorem progWrite_completes {n : ProgN} : (progWrite n w s).Completes := by
  unfold progWrite
  split
  · exact exec_simple_completes (c := .programRestart n) rfl s
  · exact exec_simple_completes (c := .programStop n) rfl s
  · exact Out.completes_next s

theorem physWrite_completes {q : PPairN} : (physWrite q w s).Completes := by
  unfold physWrite
  split
  · exact exec_simple_completes (c := .pairSelftest q) rfl s
  · exact exec_simple_completes (c := .pairInject q) rfl s
  · exact Out.completes_next s

theorem spnWrite_completes : (spnWrite o w s).Completes :=
  Out.completes_ite (Out.completes_next _) (atSlot_completes (fun _ => physWrite_completes)
    (atSlot_completes (fun _ => progWrite_completes) (Out.completes_next s)))

theorem queueWrite_completes : (queueWrite w s).Completes :=
  onlyIf_completes (exec_simple_completes (c := .queueFlush) rfl _)

theorem hdsWrite_completes : (hdsWrite o w s).Completes :=
  Out.completes_ite (Out.completes_next _) (Out.completes_ite (exec_simple_completes (c := .batteryWrite w) rfl s)
    (Out.completes_ite (Out.completes_next _) (Out.completes_ite (Out.completes_next _)
    (Out.completes_ite queueWrite_completes (Out.completes_ite (Out.completes_next _)
    (Out.completes_ite (Out.completes_next _) (Out.completes_ite (Out.completes_next _)
    (Out.completes_ite (Out.completes_next _) (atSlot_completes (fun _ => Out.completes_next _)
    (atSlot_completes (fun _ => Out.completes_next _)
    (atSlot_completes (fun _ => Out.completes_next _) (Out.completes_next s))))))))))))

theorem nvsWrite_completes : (nvsWrite o w s).Completes :=
  Out.completes_ite (Out.completes_next _) (Out.completes_ite (Out.completes_next _)
    (Out.completes_ite nvsCommand_completes (Out.completes_ite (Out.completes_next _)
    (Out.completes_ite (Out.completes_next _) (atSlot_completes (fun _ => Out.completes_next _)
    (atSlot_completes (fun _ => Out.completes_next _) (Out.completes_next s)))))))

theorem recWrite_completes : (recWrite o w s).Completes := by
  unfold recWrite
  refine Out.completes_ite (Out.completes_next _) (Out.completes_ite (Out.completes_next _)
    (Out.completes_ite (Out.completes_next _) (Out.completes_ite (Out.completes_next _)
    (Out.completes_ite (Out.completes_next _) (Out.completes_ite (Out.completes_next _) (Out.completes_ite ?_
    (atSlot_completes (fun _ => Out.completes_next _) (atSlot_completes (fun _ => unitCommand_completes)
    (atSlot_completes (fun _ => Out.completes_next _) (atSlot_completes (fun _ => Out.completes_next _)
    (atSlot_completes (fun _ => Out.completes_next _) (atSlot_completes ?_ (Out.completes_next s)))))))))))))
  · split
    · exact exec_simple_completes (c := .recordRead _) rfl s
    · exact exec_simple_completes (c := .recordReadAbort) rfl s
    · exact Out.completes_next s
  · exact fun _ => exec_simple_completes (c := .streamTailWrite _ _) rfl s

theorem mtrWrite_completes : (mtrWrite o w s).Completes :=
  Out.completes_ite (Out.completes_next _)
    (Out.completes_ite (exec_simple_completes (c := .meterDsSelect w) rfl s) (Out.completes_next s))

theorem fioWrite_completes : (fioWrite o w s).Completes :=
  atSlot_completes (fun _ => Out.completes_next _)
    (atSlot_completes (fun _ => onlyIf_completes (exec_simple_completes (c := .fieldGroupReset _) rfl s))
      (atSlot_completes (fun _ => Out.completes_next _) (Out.completes_next s)))

theorem ageWrite_completes : (ageWrite o w s).Completes :=
  Out.completes_ite (Out.completes_next _)
    (Out.completes_ite (onlyIf_completes (exec_simple_completes (c := .replan) rfl s))
      (Out.completes_ite (exec_simple_completes (c := .ageHistSelect _) rfl s) (Out.completes_next s)))

theorem lnkWrite_completes : (lnkWrite o w s).Completes :=
  Out.completes_ite (Out.completes_next _) (Out.completes_ite (Out.completes_next _) (Out.completes_next s))

theorem secCommand_completes : (secCommand w s).Completes :=
  andThen_completes (onlyIf_completes (exec_simple_completes (c := .releaseForReturn .host _) rfl s))
    (fun _ => Out.completes_next _)

theorem secWrite_completes : (secWrite o w s).Completes :=
  Out.completes_ite secCommand_completes (Out.completes_ite (Out.completes_next _)
    (Out.completes_ite (Out.completes_next _) (Out.completes_ite (Out.completes_next _)
    (Out.completes_ite stgCommand_completes (Out.completes_ite (Out.completes_next _)
    (Out.completes_ite (Out.completes_next _)
    (Out.completes_ite (onlyIf_completes (exec_simple_completes (c := .take _) rfl s))
    (atSlot_completes (fun _ => Out.completes_next _)
    (atSlot_completes (fun _ => Out.completes_next _) (Out.completes_next s))))))))))

theorem hsbWrite_completes : (hsbWrite o w s).Completes :=
  Out.completes_ite (Out.completes_next _)
    (Out.completes_ite (onlyIf_completes (exec_simple_completes (c := .handover) rfl s))
      (Out.completes_ite (exec_simple_completes (c := .partnerCommand _ _) rfl s) (Out.completes_next s)))

theorem lckWrite_completes : (lckWrite o w s).Completes :=
  atSlot_completes (fun _ => lckCommand_completes) (Out.completes_next s)

/-- A register write completes, in whatever block's window it falls. -/
theorem State.regWrite_completes {a : Nat} : (s.regWrite a w).Completes := by
  unfold State.regWrite
  dsimp only
  split
  · exact glbWrite_completes
  · exact rsqWrite_completes
  · exact scnWrite_completes
  · exact trpWrite_completes
  · exact evtWrite_completes
  · exact wdgWrite_completes
  · exact spnWrite_completes
  · exact hdsWrite_completes
  · exact nvsWrite_completes
  · exact recWrite_completes
  · exact mtrWrite_completes
  · exact fioWrite_completes
  · exact ageWrite_completes
  · exact lnkWrite_completes
  · exact secWrite_completes
  · exact hsbWrite_completes
  · exact lckWrite_completes
  · exact Out.completes_next s

theorem execRegisterWrite_completes {b : Bool} {a : Nat} {l : BitVec 4} : (execRegisterWrite b a l w s).Completes := by
  unfold execRegisterWrite
  refine Out.completes_ite (Out.completes_next s) (Out.completes_ite (Out.completes_next _)
    (Out.completes_ite (Out.completes_ite (Out.completes_next _) (Out.completes_next _)) ?_))
  split
  · exact Out.completes_next _
  · exact Out.completes_next s
  · exact Out.completes_ite State.regWrite_completes (Out.completes_next _)
  · exact State.regWrite_completes

variable {n : Fin 4}

theorem edivoGlobal_completes : (edivoGlobal n o w s).Completes := by
  unfold edivoGlobal
  refine Out.completes_ite ?_ (Out.completes_ite (Out.completes_next _) (Out.completes_next _))
  split <;> exact Out.completes_next _

theorem edivoSequencer_completes : (edivoSequencer n o w s).Completes := by
  unfold edivoSequencer
  refine Out.completes_ite (Out.completes_next _) (atSlot_completes (fun _ => ?_)
    (atSlot_completes (fun _ => ?_) (Out.completes_next _)))
  · split <;> exact Out.completes_next _
  · split <;> exact Out.completes_next _

theorem edivoStore_completes : (edivoStore n o w s).Completes :=
  Out.completes_ite (Out.completes_next _) (Out.completes_ite nvsCommand_completes
    (atSlot_completes (fun _ => Out.completes_next _) (atSlot_completes (fun _ => Out.completes_next _) (Out.completes_next _))))

theorem edivoUnit_completes {k : Fin 8} : (edivoUnit n k w s).Completes :=
  andThen_completes unitCommand_completes (fun _ => Out.completes_next _)

/-- A write of a session completes, at whatever register that COMMAND can name. -/
theorem edivoWrite_completes {a : Nat} : (edivoWrite n a w s).Completes := by
  unfold edivoWrite
  dsimp only
  split
  · exact edivoGlobal_completes
  · exact edivoSequencer_completes
  · exact Out.completes_ite wdgDisable_completes (Out.completes_next _)
  · exact edivoStore_completes
  · exact atSlot_completes (fun _ => edivoUnit_completes) (Out.completes_next _)
  · exact atSlot_completes (fun _ => Out.completes_ite (Out.completes_next _) (Out.completes_next _)) (Out.completes_next _)
  · exact Out.completes_ite (andThen_completes stgCommand_completes (fun _ => Out.completes_next _)) (Out.completes_next _)
  · exact Out.completes_next _

theorem execEdivoCommand_completes {a : Nat} : (execEdivoCommand n a w s).Completes := by
  unfold execEdivoCommand
  split
  · exact Out.completes_next s
  · exact Out.completes_ite (Out.completes_next _) edivoWrite_completes
end

/-! ### Every command -/

theorem execInternalTempMeasure_completes {l : List Int} (h : l.length = 6) (s : State) :
    (execInternalTempMeasure l s).Completes := by
  unfold execInternalTempMeasure
  split
  · exact Out.completes_ite (Out.completes_next s) (Out.completes_next _)
  · rename_i hne
    match l, h with
    | [a, b, c, d, e, f], _ => exact absurd rfl (hne a b c d e f)

/-- A command whose operand lists have their lengths completes: past the guard of its lengths it is as any other. -/
theorem exec_completes {c : Instr} (hc : c.wellFormed = true) (s : State) : Out.Completes (exec c s) := by
  by_cases hs : Instr.simple c = true
  · exact exec_simple_completes hs s
  · cases c
    case internalTempMeasure l => exact execInternalTempMeasure_completes (by simpa [Instr.wellFormed] using hc) s
    case registerWrite => exact execRegisterWrite_completes
    case edivoCommand => exact execEdivoCommand_completes
    case selftestComplete | replanEnd =>
      dsimp only [exec, execSelftestComplete, execReplanEnd]
      refine Out.completes_guard (ReplanIn.rightLengths hc) ?_
      repeat' (split <;> try with_reducible exact Out.completes_next _)
    case probeSnapshotEnd | meterBurst | snapshotBurstEnd | sampledSampling | lineJudgement | systemClassify |
        streamPayloadAdmitted =>
      dsimp only [exec, execProbeSnapshotEnd, execMeterBurst, execSnapshotBurstEnd, execSampledSampling, execLineJudgement,
        execSystemClassify, execStreamPayloadAdmitted]
      refine Out.completes_guard (by simp [Instr.wellFormed] at hc ⊢; omega) ?_
      repeat' (split <;> try with_reducible exact Out.completes_next _)
    case edivoStageData =>
      exact Out.completes_guard (by simpa [Instr.wellFormed] using hc) (Out.completes_next _)
    all_goals exact absurd rfl hs

theorem execInternalTempMeasure_refused {l : List Int} (h : l.length ≠ 6) (s : State) :
    execInternalTempMeasure l s = .refused .illFormed := by
  unfold execInternalTempMeasure
  split
  · exact absurd rfl h
  · rfl

/-- A command with an operand list of another length is refused at its guard. -/
theorem exec_illFormed {c : Instr} (hc : c.wellFormed = false) (s : State) : exec c s = .refused .illFormed := by
  cases c
  case internalTempMeasure l => exact execInternalTempMeasure_refused (by simpa [Instr.wellFormed] using hc) s
  case selftestComplete | replanEnd | probeSnapshotEnd | meterBurst | snapshotBurstEnd | sampledSampling | lineJudgement |
      systemClassify | edivoStageData | streamPayloadAdmitted =>
    exact if_pos (by simp [Instr.wellFormed, ReplanIn.wellFormed] at hc ⊢; omega)
  all_goals nomatch hc

/-- Settles O6: a command refused for nothing but its operand lists completes where these have their lengths. -/
theorem wellFormedCommandsComplete : Obligations.WellFormedCommandsComplete := by
  unfold Obligations.WellFormedCommandsComplete
  exact fun _ s hc => exec_completes hc s

/-- Settles O7: a well-formed command answers a next state, so what is refused is ill-formed, and nothing faults. -/
theorem illFormedCommandsAreRefused : Obligations.IllFormedCommandsAreRefused := by
  unfold Obligations.IllFormedCommandsAreRefused
  refine ⟨fun _ s hc => exec_illFormed hc s, fun c s r hr => ?refused, fun c s f hf => ?fault⟩
  case refused =>
    cases hc : c.wellFormed with
    | true =>
      obtain ⟨t, ht⟩ := exec_completes hc s
      cases ht.symm.trans hr
    | false =>
      cases (exec_illFormed hc s).symm.trans hr
      exact ⟨rfl, rfl⟩
  case fault =>
    cases hc : c.wellFormed with
    | true =>
      obtain ⟨t, ht⟩ := exec_completes hc s
      cases ht.symm.trans hf
    | false => cases (exec_illFormed hc s).symm.trans hf

end Sys2Proof.Machine
end

section
/-!
# What an instruction of a spindle does with its operand (R300, R301, R312)

A row acts through `State.instr`; its operand reaches it through `withWord` or `withBit` and leaves it through `setWord`,
`setBit` and `storeThen`. One rule for each way these can go.
-/
namespace Sys2Proof.Machine
open Sys2Proof

/-! ### The word at the program counter -/

/-- The row of the instruction fetched acts, and what it leaves is put into effect. -/
theorem State.instr_at {s : State} {l : LPairN} {n : ProgN} {w : Word} {op : BitVec 8}
    (act : State → ProgN → BitVec 24 → Act) (hf : s.fetched l = some (n, w)) (ho : w.extractLsb' 24 8 = op)
    (hl : listedOps.contains op.toNat = true) :
    s.instr l op.toNat act = .next (State.finish l n (act s n (w.extractLsb' 0 24))) := by
  simp only [State.instr, hf, ho, hl, Bool.not_true, Bool.false_eq_true, if_false, if_true]

/-- A word that R301 does not list is ILLEGAL_OPCODE, whichever row looks at it. -/
theorem State.instr_unlisted {s : State} {l : LPairN} {n : ProgN} {w : Word} {op : Nat}
    (act : State → ProgN → BitVec 24 → Act) (hf : s.fetched l = some (n, w))
    (hl : listedOps.contains (w.extractLsb' 24 8).toNat = false) :
    s.instr l op act = .next (s.programFault l n .illegalOpcode).afterEnd := by
  simp only [State.instr, hf, hl, Bool.not_false, if_true]

/-- Nothing is fetched: the row does nothing. -/
theorem State.instr_idle {s : State} {l : LPairN} {op : Nat} (act : State → ProgN → BitVec 24 → Act)
    (hf : s.fetched l = none) : s.instr l op act = .next s := by
  simp only [State.instr, hf]

/-! ### Operands loaded -/

section
variable {s u : State} {l : LPairN} {w : BitVec 24} {i a : Nat} {k b : Fin 32}

theorem State.withWord_reg (f : State → Word → Act) (h : s.wordAt l w i = some (.reg k)) :
    s.withWord l w i f = f s (s.regs l).w[k] := by simp only [State.withWord, h]

theorem State.withWord_none (f : State → Word → Act) (h : s.wordAt l w i = none) :
    s.withWord l w i f = .fault s .addressRange := by simp only [State.withWord, h]

theorem State.withWord_mem {y : List Byte} (f : State → Word → Act) (h : s.wordAt l w i = some (.mem a))
    (hl : s.loadBytes l a 4 0xFF = (u, some y)) : s.withWord l w i f = f u (BitVec.ofNat 32 (leNat y)) := by
  simp only [State.withWord, h, hl]

theorem State.withWord_ecc (f : State → Word → Act) (h : s.wordAt l w i = some (.mem a))
    (hl : s.loadBytes l a 4 0xFF = (u, none)) : s.withWord l w i f = .fault u .imageEcc := by
  simp only [State.withWord, h, hl]

theorem State.withBit_reg (f : State → Bool → Act) (h : s.bitAt l w = some (.reg k b)) :
    s.withBit l w f = f s (((s.regs l).w[k]).getLsbD b.val) := by simp only [State.withBit, h]

theorem State.withBit_ovf (f : State → Bool → Act) (h : s.bitAt l w = some .ovf) :
    s.withBit l w f = f s (s.regs l).ovf := by simp only [State.withBit, h]

theorem State.withBit_none (f : State → Bool → Act) (h : s.bitAt l w = none) :
    s.withBit l w f = .fault s .addressRange := by simp only [State.withBit, h]

theorem State.withBit_mem {b : Fin 8} {y : List Byte} (f : State → Bool → Act) (h : s.bitAt l w = some (.mem a b))
    (hl : s.loadBytes l a 1 (1#8 <<< b.val) = (u, some y)) : s.withBit l w f = f u ((y.headD 0).getLsbD b.val) := by
  simp only [State.withBit, h, hl]

/-! ### Operands stored -/

theorem State.setWord_reg {n : ProgN} {v : Word} (f : State → Act) (h : s.wordAt l w i = some (.reg k)) :
    s.setWord l n w i v f = f (s.modRegs l (fun r => r.setW k v)) := by simp only [State.setWord, h]

theorem State.setBit_reg {n : ProgN} {v : Bool} (f : State → Act) (h : s.bitAt l w = some (.reg k b)) :
    s.setBit l n w v f = f (s.modRegs l (fun r => r.setW k
      (if v then r.w[k] ||| (1#32 <<< b.val) else r.w[k] &&& ~~~ (1#32 <<< b.val)))) := by simp only [State.setBit, h]

theorem State.storeThen_done {n : ProgN} {m : Word} {y : List (Nat × Byte × Byte)} {p : CProg} (f : State → Act)
    (hp : s.cfg.prog[n] = some p) (hm : s.mayStore p a m = true) (hi : s.injected l = none) :
    s.storeThen l n a m y f = f (s.doStore l y) := by
  simp only [State.storeThen, hp, hm, hi, Bool.not_true, Bool.false_eq_true, if_false]

theorem State.storeThen_protected {n : ProgN} {m : Word} {y : List (Nat × Byte × Byte)} {p : CProg} (f : State → Act)
    (hp : s.cfg.prog[n] = some p) (hm : s.mayStore p a m = false) :
    s.storeThen l n a m y f = .fault s .storeProtected := by
  simp only [State.storeThen, hp, hm, Bool.not_false, if_true]

/-- A word stored in memory that the program may store to. -/
theorem State.setWord_mem {n : ProgN} {v : Word} {p : CProg} (f : State → Act) (h : s.wordAt l w i = some (.mem a))
    (hp : s.cfg.prog[n] = some p) (hm : s.mayStore p a 0xFFFFFFFF = true) (hi : s.injected l = none) :
    s.setWord l n w i v f = f (s.doStore l (wordBytes a v)) := by
  simp only [State.setWord, h]
  exact State.storeThen_done f hp hm hi

/-- A word that the program may not store. -/
theorem State.setWord_protected {n : ProgN} {v : Word} {p : CProg} (f : State → Act)
    (h : s.wordAt l w i = some (.mem a)) (hp : s.cfg.prog[n] = some p) (hm : s.mayStore p a 0xFFFFFFFF = false) :
    s.setWord l n w i v f = .fault s .storeProtected := by
  simp only [State.setWord, h]
  exact State.storeThen_protected f hp hm

/-- An operand in a word register stands there whatever the state holds: only the register-indirect form reads it. -/
theorem State.wordAt_reg_any (h : s.wordAt l w i = some (.reg k)) (u : State) : u.wordAt l w i = some (.reg k) := by
  unfold State.wordAt at h ⊢
  split at h <;> simp_all
end

/-! ### Instructions with a word operand -/

/-- The twelve rows that combine the registers with a word operand, with their opcodes. -/
def wordRows : List (BitVec 8 × (LPairN → Instr) × (Regs → Word → Regs)) :=
  [(0x20#8, Instr.iLdw, fun r v => r.setAcc v), (0x24#8, Instr.iAdd, fun r v => r.setSat (r.acc.toInt + v.toInt)),
    (0x25#8, Instr.iSub, fun r v => r.setSat (r.acc.toInt - v.toInt)),
    (0x26#8, Instr.iMul, fun r v => r.setSat (r.acc.toInt * v.toInt)), (0x27#8, Instr.iDiv, fun r v => r.divide v),
    (0x28#8, Instr.iAndw, fun r v => r.setAcc (r.acc &&& v)), (0x29#8, Instr.iOrw, fun r v => r.setAcc (r.acc ||| v)),
    (0x2A#8, Instr.iXorw, fun r v => r.setAcc (r.acc ^^^ v)), (0x30#8, Instr.iCmpeq, fun r v => r.setBa (r.acc == v)),
    (0x31#8, Instr.iCmpne, fun r v => r.setBa (r.acc != v)),
    (0x32#8, Instr.iCmpgt, fun r v => r.setBa (decide (v.toInt < r.acc.toInt))),
    (0x33#8, Instr.iCmplt, fun r v => r.setBa (decide (r.acc.toInt < v.toInt)))]

section
variable {op : BitVec 8} {i : LPairN → Instr} {l : LPairN} {n : ProgN} {w : Word} {s : State}

/-- A row of `wordRows` at the program counter is a word operation. -/
theorem exec_wordRow {f : Regs → Word → Regs} (h : (op, i, f) ∈ wordRows) (hf : s.fetched l = some (n, w))
    (ho : w.extractLsb' 24 8 = op) :
    exec (i l) s = .next (State.finish l n (s.wordOp l (w.extractLsb' 0 24) f)) := by
  simp only [wordRows, List.mem_cons, Prod.mk.injEq, List.not_mem_nil, or_false] at h
  rcases h with ⟨rfl, rfl, rfl⟩ | ⟨rfl, rfl, rfl⟩ | ⟨rfl, rfl, rfl⟩ | ⟨rfl, rfl, rfl⟩ | ⟨rfl, rfl, rfl⟩ |
    ⟨rfl, rfl, rfl⟩ | ⟨rfl, rfl, rfl⟩ | ⟨rfl, rfl, rfl⟩ | ⟨rfl, rfl, rfl⟩ | ⟨rfl, rfl, rfl⟩ | ⟨rfl, rfl, rfl⟩ |
    ⟨rfl, rfl, rfl⟩ <;> exact State.instr_at (fun s _ w => s.wordOp l w _) hf ho rfl

/-- Settles O48: each of the twelve rows hands its operand to `withWord`, whose four outcomes are the four clauses. -/
theorem wordOperandInstructions : Obligations.WordOperandInstructions := by
  unfold Obligations.WordOperandInstructions
  refine ⟨?reg, ?mem, ?range, ?ecc⟩
  case reg =>
    intro op i f l n w s k h hf ho hw
    rw [exec_wordRow h hf ho, State.wordOp, State.withWord_reg _ hw]
    rfl
  case mem =>
    intro op i f l n w s a u b h hf ho hw hl
    rw [exec_wordRow h hf ho, State.wordOp, State.withWord_mem _ hw hl]
    rfl
  case range =>
    intro op i f l n w s h hf ho hw
    rw [exec_wordRow h hf ho, State.wordOp, State.withWord_none _ hw]
    rfl
  case ecc =>
    intro op i f l n w s a u h hf ho hw hl
    rw [exec_wordRow h hf ho, State.wordOp, State.withWord_ecc _ hw hl]
    rfl

/-! ### Instructions on the registers alone -/

/-- The eleven rows that change the registers from the operand bits, with their opcodes. -/
def registerRows : List (BitVec 8 × (LPairN → Instr) × (BitVec 24 → Regs → Regs)) :=
  [(0x0B#8, Instr.iNot, fun _ r => r.setBa (!r.ba)), (0x21#8, Instr.iLdi, fun o r => r.setAcc (o.signExtend 32)),
    (0x22#8, Instr.iLdih, fun o r => r.setAcc (o.extractLsb' 0 16 ++ r.acc.extractLsb' 0 16)),
    (0x2B#8, Instr.iShl, fun o r => r.setAcc (r.acc <<< field o 0 5)),
    (0x2C#8, Instr.iShr, fun o r => r.setAcc (r.acc.sshiftRight (field o 0 5))),
    (0x2D#8, Instr.iMova, fun o r => r.setW (regField o 0) r.acc),
    (0x2E#8, Instr.iMovw, fun o r => r.setAcc r.w[regField o 0]),
    (0x2F#8, Instr.iAddi, fun o r => r.setSat (r.acc.toInt + o.toInt)),
    (0x34#8, Instr.iLim, fun o r => r.limit (regField o 5) (regField o 0)),
    (0x35#8, Instr.iScale, fun o r => r.scale (regField o 10) (regField o 5) (regField o 0)),
    (0x36#8, Instr.iAbs, fun _ r => r.setSat r.acc.toInt.natAbs)]

/-- A row of `registerRows` at the program counter changes the registers and goes on. -/
theorem exec_registerRow {f : BitVec 24 → Regs → Regs} (h : (op, i, f) ∈ registerRows) (hf : s.fetched l = some (n, w))
    (ho : w.extractLsb' 24 8 = op) :
    exec (i l) s = .next (State.finish l n (s.go l (f (w.extractLsb' 0 24)))) := by
  have key := State.instr_at (fun s _ o => s.go l (f o)) hf ho
  simp only [registerRows, List.mem_cons, Prod.mk.injEq, List.not_mem_nil, or_false] at h
  rcases h with ⟨rfl, rfl, rfl⟩ | ⟨rfl, rfl, rfl⟩ | ⟨rfl, rfl, rfl⟩ | ⟨rfl, rfl, rfl⟩ | ⟨rfl, rfl, rfl⟩ |
    ⟨rfl, rfl, rfl⟩ | ⟨rfl, rfl, rfl⟩ | ⟨rfl, rfl, rfl⟩ | ⟨rfl, rfl, rfl⟩ | ⟨rfl, rfl, rfl⟩ | ⟨rfl, rfl, rfl⟩ <;> exact key rfl

theorem exec_iNop_eq : exec (.iNop l) s = s.instr l 0x5F (fun s _ _ => .next s) := rfl

theorem exec_iAdd_eq : exec (.iAdd l) s =
    s.instr l 0x24 (fun s _ w => s.wordOp l w (fun r v => r.setSat (r.acc.toInt + v.toInt))) := rfl

theorem exec_iBend_idle (hf : s.fetched l = none) : exec (.iBend l) s = .next s := by
  show execBend l s = .next s
  rw [execBend, State.instr_idle _ hf]
end

/-- Settles O49: the rows on the registers, NOP, the unlisted opcodes and the pair that fetches nothing. -/
theorem registerInstructions : Obligations.RegisterInstructions := by
  unfold Obligations.RegisterInstructions
  exact ⟨fun _ _ _ _ _ _ _ h hf ho => exec_registerRow h hf ho,
    fun _ _ _ _ hf ho => State.instr_at (fun s _ _ => .next s) hf ho rfl,
    fun _ _ _ _ hf hl => ⟨exec_iNop_eq.trans (State.instr_unlisted _ hf hl),
      exec_iAdd_eq.trans (State.instr_unlisted _ hf hl)⟩,
    fun _ _ hf => ⟨exec_iNop_eq.trans (State.instr_idle _ hf), exec_iBend_idle hf⟩⟩

/-! ### Instructions on bits -/

/-- The seven rows that combine BA with a bit operand, with their opcodes. -/
def bitRows : List (BitVec 8 × (LPairN → Instr) × (Bool → Bool → Bool)) :=
  [(0x01#8, Instr.iLd, fun _ b => b), (0x02#8, Instr.iLdn, fun _ b => !b), (0x03#8, Instr.iAnd, fun a b => a && b),
    (0x04#8, Instr.iAndn, fun a b => a && !b), (0x05#8, Instr.iOr, fun a b => a || b),
    (0x06#8, Instr.iOrn, fun a b => a || !b), (0x07#8, Instr.iXor, fun a b => a != b)]

section
variable {op : BitVec 8} {i : LPairN → Instr} {l : LPairN} {n : ProgN} {w : Word} {s : State}

/-- A row of `bitRows` at the program counter is a bit operation. -/
theorem exec_bitRow {f : Bool → Bool → Bool} (h : (op, i, f) ∈ bitRows) (hf : s.fetched l = some (n, w))
    (ho : w.extractLsb' 24 8 = op) :
    exec (i l) s = .next (State.finish l n (s.bitOp l (w.extractLsb' 0 24) f)) := by
  simp only [bitRows, List.mem_cons, Prod.mk.injEq, List.not_mem_nil, or_false] at h
  rcases h with ⟨rfl, rfl, rfl⟩ | ⟨rfl, rfl, rfl⟩ | ⟨rfl, rfl, rfl⟩ | ⟨rfl, rfl, rfl⟩ | ⟨rfl, rfl, rfl⟩ |
    ⟨rfl, rfl, rfl⟩ | ⟨rfl, rfl, rfl⟩ <;> exact State.instr_at (fun s _ w => s.bitOp l w _) hf ho rfl

theorem exec_bitRow_reg {f : Bool → Bool → Bool} {k b : Fin 32} (h : (op, i, f) ∈ bitRows)
    (hf : s.fetched l = some (n, w)) (ho : w.extractLsb' 24 8 = op)
    (hb : s.bitAt l (w.extractLsb' 0 24) = some (.reg k b)) :
    exec (i l) s = .next (State.finish l n
      (s.go l (fun r => r.setBa (f r.ba (((s.regs l).w[k]).getLsbD b.val))))) := by
  rw [exec_bitRow h hf ho, State.bitOp, State.withBit_reg _ hb]

theorem exec_bitRow_ovf {f : Bool → Bool → Bool} (h : (op, i, f) ∈ bitRows)
    (hf : s.fetched l = some (n, w)) (ho : w.extractLsb' 24 8 = op)
    (hb : s.bitAt l (w.extractLsb' 0 24) = some .ovf) :
    exec (i l) s = .next (State.finish l n (s.go l (fun r => r.setBa (f r.ba (s.regs l).ovf)))) := by
  rw [exec_bitRow h hf ho, State.bitOp, State.withBit_ovf _ hb]

theorem exec_bitRow_mem {f : Bool → Bool → Bool} {a : Nat} {b : Fin 8} {u : State} {y : List Byte}
    (h : (op, i, f) ∈ bitRows) (hf : s.fetched l = some (n, w)) (ho : w.extractLsb' 24 8 = op)
    (hb : s.bitAt l (w.extractLsb' 0 24) = some (.mem a b)) (hl : s.loadBytes l a 1 (1#8 <<< b.val) = (u, some y)) :
    exec (i l) s = .next (State.finish l n
      (u.go l (fun r => r.setBa (f r.ba ((y.headD 0).getLsbD b.val))))) := by
  rw [exec_bitRow h hf ho, State.bitOp, State.withBit_mem _ hb hl]

theorem exec_bitRow_none {f : Bool → Bool → Bool} (h : (op, i, f) ∈ bitRows)
    (hf : s.fetched l = some (n, w)) (ho : w.extractLsb' 24 8 = op) (hb : s.bitAt l (w.extractLsb' 0 24) = none) :
    exec (i l) s = .next (State.finish l n (.fault s .addressRange)) := by
  rw [exec_bitRow h hf ho, State.bitOp, State.withBit_none _ hb]

/-- An edge on a bit of a word register: BA is computed from the bit as it was, and the bit takes the former BA. -/
theorem State.edgeOf_reg {o : BitVec 24} {k b : Fin 32} (f : Bool → Bool → Bool)
    (hb : s.bitAt l o = some (.reg k b)) :
    s.edgeOf l n o f = (s.modRegs l (fun r => r.setW k (if (s.regs l).ba then r.w[k] ||| (1#32 <<< b.val)
      else r.w[k] &&& ~~~ (1#32 <<< b.val)))).go l
        (fun r => r.setBa (f (s.regs l).ba (((s.regs l).w[k]).getLsbD b.val))) := by
  rw [State.edgeOf, State.withBit_reg _ hb, State.setBit_reg _ hb]

theorem State.pushBit_room (h : (s.regs l).bits.length < 8) :
    s.pushBit l = s.go l (fun r => { r with bits := r.ba :: r.bits }) := if_pos h

theorem State.popBit_cons {b : Bool} {z : List Bool} (f : Bool → Bool → Bool) (h : (s.regs l).bits = b :: z) :
    s.popBit l f = s.go l (fun r => { r with ba := f r.ba b, bits := z }) := by simp only [State.popBit, h]

theorem State.popBit_nil (f : Bool → Bool → Bool) (h : (s.regs l).bits = []) :
    s.popBit l f = s.tickFree.go l (fun r => r.setBa (f r.ba ((freeNat s.free).testBit 0))) := by
  simp only [State.popBit, h]

theorem exec_iSt (hf : s.fetched l = some (n, w)) (ho : w.extractLsb' 24 8 = 0x08#8) :
    exec (.iSt l) s = .next (State.finish l n (s.setBit l n (w.extractLsb' 0 24) (s.regs l).ba .next)) :=
  State.instr_at (fun s n w => s.setBit l n w (s.regs l).ba .next) hf ho rfl

theorem exec_iSet (hf : s.fetched l = some (n, w)) (ho : w.extractLsb' 24 8 = 0x09#8) :
    exec (.iSet l) s = .next (State.finish l n
      (if (s.regs l).ba then s.setBit l n (w.extractLsb' 0 24) true .next else .next s)) :=
  State.instr_at (fun s n w => if (s.regs l).ba then s.setBit l n w true .next else .next s) hf ho rfl

theorem exec_iRst (hf : s.fetched l = some (n, w)) (ho : w.extractLsb' 24 8 = 0x0A#8) :
    exec (.iRst l) s = .next (State.finish l n
      (if (s.regs l).ba then s.setBit l n (w.extractLsb' 0 24) false .next else .next s)) :=
  State.instr_at (fun s n w => if (s.regs l).ba then s.setBit l n w false .next else .next s) hf ho rfl

theorem exec_iRe (hf : s.fetched l = some (n, w)) (ho : w.extractLsb' 24 8 = 0x10#8) :
    exec (.iRe l) s = .next (State.finish l n (s.edgeOf l n (w.extractLsb' 0 24) (fun a m => a && !m))) :=
  State.instr_at (fun s n w => s.edgeOf l n w (fun a m => a && !m)) hf ho rfl

theorem exec_iFe (hf : s.fetched l = some (n, w)) (ho : w.extractLsb' 24 8 = 0x11#8) :
    exec (.iFe l) s = .next (State.finish l n (s.edgeOf l n (w.extractLsb' 0 24) (fun a m => !a && m))) :=
  State.instr_at (fun s n w => s.edgeOf l n w (fun a m => !a && m)) hf ho rfl

theorem exec_iBpush (hf : s.fetched l = some (n, w)) (ho : w.extractLsb' 24 8 = 0x0C#8) :
    exec (.iBpush l) s = .next (State.finish l n (s.pushBit l)) :=
  State.instr_at (fun s _ _ => s.pushBit l) hf ho rfl

theorem exec_iBpopand (hf : s.fetched l = some (n, w)) (ho : w.extractLsb' 24 8 = 0x0D#8) :
    exec (.iBpopand l) s = .next (State.finish l n (s.popBit l (fun a b => a && b))) :=
  State.instr_at (fun s _ _ => s.popBit l (fun a b => a && b)) hf ho rfl

theorem exec_iBpopor (hf : s.fetched l = some (n, w)) (ho : w.extractLsb' 24 8 = 0x0E#8) :
    exec (.iBpopor l) s = .next (State.finish l n (s.popBit l (fun a b => a || b))) :=
  State.instr_at (fun s _ _ => s.popBit l (fun a b => a || b)) hf ho rfl
end

/-- Settles O51: each row through the rule of its operation. -/
theorem bitInstructions : Obligations.BitInstructions := by
  unfold Obligations.BitInstructions
  refine ⟨fun _ _ _ _ _ _ _ _ _ h hf ho hb => exec_bitRow_reg h hf ho hb,
    fun _ _ _ _ _ _ _ h hf ho hb => exec_bitRow_ovf h hf ho hb,
    ?mem,
    ?range,
    fun _ _ _ _ hf ho => exec_iSt hf ho, fun _ _ _ _ hf ho => exec_iSet hf ho, fun _ _ _ _ hf ho => exec_iRst hf ho,
    ?edges, ?push, ?pops, ?empty⟩
  case mem =>
    intro op i f l n w s a b u y h hf ho hb hl
    rw [exec_bitRow_mem h hf ho hb hl]
    rfl
  case range =>
    intro op i f l n w s h hf ho hb
    rw [exec_bitRow_none h hf ho hb]
    rfl
  case edges =>
    intro l n w s k b hf hb
    refine ⟨fun ho => ?_, fun ho => ?_⟩
    · rw [exec_iRe hf ho, State.edgeOf_reg _ hb]
      rfl
    · rw [exec_iFe hf ho, State.edgeOf_reg _ hb]
      rfl
  case push =>
    intro l n w s hf ho hr
    rw [exec_iBpush hf ho, State.pushBit_room hr]
    rfl
  case pops =>
    intro l n w s b z hf hb
    refine ⟨fun ho => ?_, fun ho => ?_⟩
    · rw [exec_iBpopand hf ho, State.popBit_cons _ hb]
      rfl
    · rw [exec_iBpopor hf ho, State.popBit_cons _ hb]
      rfl
  case empty =>
    intro l n w s hf ho hb
    rw [exec_iBpopand hf ho, State.popBit_nil _ hb]
    rfl

end Sys2Proof.Machine
end

section
/-!
# Arithmetic, counters, timers and word stores of the spindles (R299, R301-R303)
-/
namespace Sys2Proof.Machine
open Sys2Proof

/-! ### Saturation (R301) -/

theorem satWord_within {x : Int} (hl : -2147483648 ≤ x) (hu : x ≤ 2147483647) : satWord x = (BitVec.ofInt 32 x, false) := by
  rw [satWord, if_neg (by omega), if_neg (by omega)]

theorem satWord_above {x : Int} (h : 2147483647 < x) : satWord x = (0x7FFFFFFF, true) := if_pos h

theorem satWord_below {x : Int} (h : x < -2147483648) : satWord x = (0x80000000, true) := by
  rw [satWord, if_neg (by omega), if_pos h]

theorem toInt_ofInt_within {x : Int} (hl : -2147483648 ≤ x) (hu : x ≤ 2147483647) : (BitVec.ofInt 32 x).toInt = x :=
  BitVec.toInt_ofInt_eq_self (by decide) hl (by omega)

/-- A word read as a signed number lies within the bounds. -/
theorem word_toInt_bounds (v : Word) : -2147483648 ≤ v.toInt ∧ v.toInt ≤ 2147483647 :=
  ⟨BitVec.le_toInt v, Int.le_of_lt_add_one BitVec.toInt_lt⟩

section
variable {r : Regs} {x : Int}

theorem Regs.setSat_within (hl : -2147483648 ≤ x) (hu : x ≤ 2147483647) :
    r.setSat x = { r with acc := BitVec.ofInt 32 x } := by
  rw [Regs.setSat, satWord_within hl hu, Bool.or_false]

theorem Regs.setSat_above (h : 2147483647 < x) : r.setSat x = { r with acc := 0x7FFFFFFF, ovf := true } := by
  rw [Regs.setSat, satWord_above h, Bool.or_true]

theorem Regs.setSat_below (h : x < -2147483648) : r.setSat x = { r with acc := 0x80000000, ovf := true } := by
  rw [Regs.setSat, satWord_below h, Bool.or_true]

theorem Regs.setSat_fits (hl : -2147483648 ≤ x) (hu : x ≤ 2147483647) :
    (r.setSat x).acc.toInt = x ∧ (r.setSat x).ovf = r.ovf ∧ (r.setSat x).ba = r.ba ∧ (r.setSat x).w = r.w := by
  rw [Regs.setSat_within hl hu]
  exact ⟨toInt_ofInt_within hl hu, rfl, rfl, rfl⟩

theorem Regs.divide_zero_neg (h : r.acc.toInt < 0) : r.divide 0 = { r with acc := 0x80000000 } := by
  rw [Regs.divide, if_pos rfl, if_neg (by omega)]
  rfl

theorem Regs.divide_zero_nonneg (h : 0 ≤ r.acc.toInt) : r.divide 0 = { r with acc := 0x7FFFFFFF } := by
  rw [Regs.divide, if_pos rfl, if_pos h]
  rfl

theorem Regs.divide_nonzero {v : Word} (h : v ≠ 0#32) : r.divide v = r.setSat (r.acc.toInt.tdiv v.toInt) := if_neg h

/-- The one quotient that does not fit: the most negative number by -1. -/
theorem Regs.divide_overflow (h : r.acc = 0x80000000#32) :
    r.divide 0xFFFFFFFF = { r with acc := 0x7FFFFFFF, ovf := true } := by
  rw [Regs.divide_nonzero (by decide), h]
  exact Regs.setSat_above (by decide)

theorem Regs.limit_acc (a b : Fin 32) :
    (r.limit a b).acc.toInt = min (max r.acc.toInt r.w[a].toInt) r.w[b].toInt := by
  have hacc := word_toInt_bounds r.acc
  have ha := word_toInt_bounds r.w[a]
  have hb := word_toInt_bounds r.w[b]
  exact toInt_ofInt_within (by omega) (by omega)
end

/-- Settles O50: each clause is the rule of its operation. -/
theorem arithmeticOfTheSpindles : Obligations.ArithmeticOfTheSpindles := by
  unfold Obligations.ArithmeticOfTheSpindles
  exact ⟨fun _ _ hl hu => Regs.setSat_fits hl hu, fun _ _ h => Regs.setSat_above h, fun _ _ h => Regs.setSat_below h,
    fun _ h => Regs.divide_zero_neg h, fun _ h => Regs.divide_zero_nonneg h, fun _ _ h => Regs.divide_nonzero h,
    fun _ h => Regs.divide_overflow h, fun _ a b _ => ⟨Regs.limit_acc a b, rfl⟩⟩

/-! ### Counters (R303) -/

section
variable {count : Word}

theorem countUp_below_max (h : count.toInt < 2147483647) : (countUp count true false).toInt = count.toInt + 1 := by
  have hb := word_toInt_bounds count
  show (satWord (count.toInt + 1)).1.toInt = _
  rw [satWord_within (by omega) (by omega)]
  exact toInt_ofInt_within (by omega) (by omega)

theorem countUp_at_max (h : count.toInt = 2147483647) : countUp count true false = count := by
  show (satWord (count.toInt + 1)).1 = count
  rw [satWord_above (by omega)]
  exact BitVec.eq_of_toInt_eq (h ▸ rfl)

theorem countDown_above_min (h : -2147483648 < count.toInt) :
    (countDown count true false).toInt = count.toInt - 1 := by
  have hb := word_toInt_bounds count
  show (satWord (count.toInt - 1)).1.toInt = _
  rw [satWord_within (by omega) (by omega)]
  exact toInt_ofInt_within (by omega) (by omega)

theorem countDown_at_min (h : count.toInt = -2147483648) : countDown count true false = count := by
  show (satWord (count.toInt - 1)).1 = count
  rw [satWord_below (by omega)]
  exact BitVec.eq_of_toInt_eq (h ▸ rfl)

theorem count_without_edge {ba edge : Bool} (h : (ba && !edge) = false) :
    countUp count ba edge = count ∧ countDown count ba edge = count := by
  simp only [countUp, countDown, h, Bool.false_eq_true, if_false, and_self]
end

/-- The edge memory of a counter block after BA. -/
def edgeWord (ba : Bool) (st : Word) : Word := if ba then st ||| 1#32 else st &&& ~~~ 1#32

section
variable {l : LPairN} {n : ProgN} {w : Word} {o : BitVec 24} {s : State} {k j : Fin 32}
  {f : Word → Bool → Bool → Word} {out : Word → Word → Bool}

theorem exec_iCtu (hf : s.fetched l = some (n, w)) (ho : w.extractLsb' 24 8 = 0x1C#8) :
    exec (.iCtu l) s = .next (State.finish l n
      (s.counter l n (w.extractLsb' 0 24) countUp (fun c acc => decide (acc.toInt ≤ c.toInt)))) :=
  State.instr_at (fun s n w => s.counter l n w countUp (fun c acc => decide (acc.toInt ≤ c.toInt))) hf ho rfl

theorem exec_iCtd (hf : s.fetched l = some (n, w)) (ho : w.extractLsb' 24 8 = 0x1D#8) :
    exec (.iCtd l) s = .next (State.finish l n
      (s.counter l n (w.extractLsb' 0 24) countDown (fun c _ => decide (c.toInt ≤ 0)))) :=
  State.instr_at (fun s n w => s.counter l n w countDown (fun c _ => decide (c.toInt ≤ 0))) hf ho rfl

theorem State.counter_range (h : s.wordAt l o 1 = none) : s.counter l n o f out = .fault s .addressRange := by
  rw [State.counter, if_pos (by rw [h]; rfl)]

/-- A counter in word registers whose count stays stores its edge memory only. -/
theorem State.counter_reg_same (hk : s.wordAt l o 0 = some (.reg k)) (hj : s.wordAt l o 1 = some (.reg j))
    (hc : f (s.regs l).w[k] (s.regs l).ba (((s.regs l).w[j]).getLsbD 0) = (s.regs l).w[k]) :
    s.counter l n o f out = (s.modRegs l (fun r => r.setW j (edgeWord (s.regs l).ba (s.regs l).w[j]))).go l
      (fun r => r.setBa (out (s.regs l).w[k] r.acc)) := by
  rw [State.counter, if_neg (by rw [hj]; exact Bool.false_ne_true), State.withWord_reg _ hk, State.withWord_reg _ hj]
  simp only [hc, if_true]
  rw [State.setWord_reg _ hj]
  rfl

/-- A counter in word registers whose count changes stores the count, then its edge memory. -/
theorem State.counter_reg_changed (hk : s.wordAt l o 0 = some (.reg k)) (hj : s.wordAt l o 1 = some (.reg j))
    (hc : f (s.regs l).w[k] (s.regs l).ba (((s.regs l).w[j]).getLsbD 0) ≠ (s.regs l).w[k]) :
    s.counter l n o f out =
      ((s.modRegs l (fun r => r.setW k (f (s.regs l).w[k] (s.regs l).ba (((s.regs l).w[j]).getLsbD 0)))).modRegs l
        (fun r => r.setW j (edgeWord (s.regs l).ba (s.regs l).w[j]))).go l
      (fun r => r.setBa (out (f (s.regs l).w[k] (s.regs l).ba (((s.regs l).w[j]).getLsbD 0)) r.acc)) := by
  rw [State.counter, if_neg (by rw [hj]; exact Bool.false_ne_true), State.withWord_reg _ hk, State.withWord_reg _ hj]
  simp only [hc, if_false]
  rw [State.setWord_reg _ hk, State.setWord_reg _ (State.wordAt_reg_any hj _)]
  rfl

/-- Settles O57: the count by cases of R303, then the block through the rules of its operand form. -/
theorem counterBlocks : Obligations.CounterBlocks := by
  unfold Obligations.CounterBlocks
  refine ⟨fun _ h => countUp_below_max h, fun _ h => countUp_at_max h, fun _ h => countDown_above_min h,
    fun _ h => countDown_at_min h, fun _ _ _ h => count_without_edge h, ?up, ?down, ?changed, ?upRange, ?downRange⟩
  case up =>
    intro l n w s hf ho h
    rw [exec_iCtu hf ho, State.counter, if_neg (by rw [h]; decide)]
  case down =>
    intro l n w s hf ho h
    rw [exec_iCtd hf ho, State.counter, if_neg (by rw [h]; decide)]
  case changed =>
    intro l n w s k j c hf ho hk hj hc hne
    subst hc
    rw [exec_iCtu hf ho, State.counter_reg_changed hk hj hne]
    rfl
  case upRange =>
    intro l n w s hf ho h
    rw [exec_iCtu hf ho, State.counter_range h]
    rfl
  case downRange =>
    intro l n w s hf ho h
    rw [exec_iCtd hf ho, State.counter_range h]
    rfl
end

/-! ### Timers (R302) -/

/-- A timer block from its start word and its state word. -/
def timerOf (start st : Word) : Timer := { start := start, q := st.getLsbD 0, prev := st.getLsbD 1 }

/-- The block after a timer in a state: `y` as R302 states it, with a free Q where the preset is negative. -/
def State.timerOut (s : State) (l : LPairN) (y : Timer) : Timer :=
  if (s.regs l).acc.toInt < 0 then { y with q := (freeNat s.free).testBit 0 } else y

/-- The state after the choice of a free Q. -/
def State.timerDraw (s : State) (l : LPairN) : State := if (s.regs l).acc.toInt < 0 then s.tickFree else s

section
variable {l : LPairN} {n : ProgN} {w : Word} {o : BitVec 24} {s u v x : State} {k j m : Fin 32} {y : Timer}
  {f : Timer → Bool → Word → Word → Timer}

theorem State.timerOut_start : (s.timerOut l y).start = y.start := by
  unfold State.timerOut
  split <;> rfl

theorem State.timerOut_nonneg (h : 0 ≤ (s.regs l).acc.toInt) : s.timerOut l y = y := if_neg (by omega)

theorem State.timerDraw_nonneg (h : 0 ≤ (s.regs l).acc.toInt) : s.timerDraw l = s := if_neg (by omega)

theorem State.timer_range (h : s.wordAt l o 3 = none) : s.timer l n o f = .fault s .addressRange := by
  rw [State.timer, if_pos (by rw [h]; rfl)]

/-- What a timer stores once its block is loaded: the start word where it changed, the state word, and BA. -/
def State.timerStore (s : State) (l : LPairN) (n : ProgN) (o : BitVec 24) (start : Word) (y : Timer) : Act :=
  if y.start = start then s.setWord l n o 1 y.word (fun s => s.go l (fun r => r.setBa y.q))
  else s.setWord l n o 0 y.start (fun s => s.setWord l n o 1 y.word (fun s => s.go l (fun r => r.setBa y.q)))

theorem State.timer_eq (h : (s.wordAt l o 3).isSome = true) :
    s.timer l n o f = s.withWord l o 0 (fun s start => s.withWord l o 1 (fun s st =>
      (s.timerDraw l).timerStore l n o start
        (s.timerOut l (f (timerOf start st) (s.regs l).ba s.spn.lpair[l].t (s.regs l).acc)))) := by
  rw [State.timer, if_neg (by rw [Option.isNone_eq_false_iff.mpr h]; exact Bool.false_ne_true)]
  simp only [decide_eq_true_eq]
  rfl

/-- A timer in word registers. -/
theorem State.timer_reg (hk : s.wordAt l o 0 = some (.reg k)) (hj : s.wordAt l o 1 = some (.reg j))
    (hm : s.wordAt l o 3 = some (.reg m))
    (hy : y = f (timerOf (s.regs l).w[k] (s.regs l).w[j]) (s.regs l).ba s.spn.lpair[l].t (s.regs l).acc)
    (hv : v = if y.start = (s.regs l).w[k] then s.timerDraw l
      else (s.timerDraw l).modRegs l (fun r => r.setW k y.start)) :
    s.timer l n o f = (v.modRegs l (fun r => r.setW j (s.timerOut l y).word)).go l
      (fun r => r.setBa (s.timerOut l y).q) := by
  subst hy hv
  rw [State.timer_eq (by rw [hm]; rfl), State.withWord_reg _ hk, State.withWord_reg _ hj, State.timerStore,
    State.timerOut_start]
  split
  · rw [State.setWord_reg _ (State.wordAt_reg_any hj _)]
  · rw [State.setWord_reg _ (State.wordAt_reg_any hk _), State.setWord_reg _ (State.wordAt_reg_any hj _)]

/-- A timer in memory that the program may store to, with a preset that is not negative. -/
theorem State.timer_mem {a e d : Nat} {b c : List Byte} {p : CProg} (ha : s.wordAt l o 0 = some (.mem a))
    (hm : (s.wordAt l o 3).isSome = true) (hla : s.loadBytes l a 4 0xFF = (u, some b))
    (he : u.wordAt l o 1 = some (.mem e)) (hle : u.loadBytes l e 4 0xFF = (v, some c))
    (hy : y = f (timerOf (BitVec.ofNat 32 (leNat b)) (BitVec.ofNat 32 (leNat c))) (v.regs l).ba v.spn.lpair[l].t
      (v.regs l).acc) (hn : 0 ≤ (v.regs l).acc.toInt) (hav : v.wordAt l o 0 = some (.mem a))
    (hpv : v.cfg.prog[n] = some p) (hmv : v.mayStore p a 0xFFFFFFFF = true) (hiv : v.injected l = none)
    (hx : x = if y.start = BitVec.ofNat 32 (leNat b) then v else v.doStore l (wordBytes a y.start))
    (hd : x.wordAt l o 1 = some (.mem d)) (hpx : x.cfg.prog[n] = some p) (hmx : x.mayStore p d 0xFFFFFFFF = true)
    (hix : x.injected l = none) :
    s.timer l n o f = (x.doStore l (wordBytes d y.word)).go l (fun r => r.setBa y.q) := by
  rw [State.timer_eq hm, State.withWord_mem _ ha hla, State.withWord_mem _ he hle, ← hy, State.timerDraw_nonneg hn,
    State.timerOut_nonneg hn, State.timerStore]
  split at hx
  · rw [if_pos ‹_›, ← hx, State.setWord_mem _ hd hpx hmx hix]
  · rw [if_neg ‹_›, State.setWord_mem _ hav hpv hmv hiv, ← hx, State.setWord_mem _ hd hpx hmx hix]

/-- The three timer rows, with their opcodes. -/
def timerRows : List (BitVec 8 × (LPairN → Instr) × (Timer → Bool → Word → Word → Timer)) :=
  [(0x18#8, Instr.iTon, Timer.ton), (0x19#8, Instr.iTof, Timer.tof), (0x1A#8, Instr.iTp, Timer.tp)]

theorem exec_timerRow {op : BitVec 8} {i : LPairN → Instr} (h : (op, i, f) ∈ timerRows)
    (hf : s.fetched l = some (n, w)) (ho : w.extractLsb' 24 8 = op) :
    exec (i l) s = .next (State.finish l n (s.timer l n (w.extractLsb' 0 24) f)) := by
  have key := State.instr_at (fun s n o => s.timer l n o f) hf ho
  simp only [timerRows, List.mem_cons, Prod.mk.injEq, List.not_mem_nil, or_false] at h
  rcases h with ⟨rfl, rfl, rfl⟩ | ⟨rfl, rfl, rfl⟩ | ⟨rfl, rfl, rfl⟩ <;> exact key rfl

theorem ton_mem_timerRows : (0x18#8, Instr.iTon, Timer.ton) ∈ timerRows := .head _
theorem tof_mem_timerRows : (0x19#8, Instr.iTof, Timer.tof) ∈ timerRows := .tail _ (.head _)
theorem tp_mem_timerRows : (0x1A#8, Instr.iTp, Timer.tp) ∈ timerRows := .tail _ (.tail _ (.head _))

/-- A timer row whose block stands in word registers. -/
theorem exec_timerRow_reg {op : BitVec 8} {i : LPairN → Instr} {z : Timer} (h : (op, i, f) ∈ timerRows)
    (hf : s.fetched l = some (n, w)) (ho : w.extractLsb' 24 8 = op)
    (hk : s.wordAt l (w.extractLsb' 0 24) 0 = some (.reg k)) (hj : s.wordAt l (w.extractLsb' 0 24) 1 = some (.reg j))
    (hm : s.wordAt l (w.extractLsb' 0 24) 3 = some (.reg m))
    (hy : y = f (timerOf (s.regs l).w[k] (s.regs l).w[j]) (s.regs l).ba s.spn.lpair[l].t (s.regs l).acc)
    (hz : z = s.timerOut l y) (hu : u = s.timerDraw l)
    (hv : v = if y.start = (s.regs l).w[k] then u else u.modRegs l (fun r => r.setW k y.start)) :
    exec (i l) s = .next (State.finish l n
      ((v.modRegs l (fun r => r.setW j z.word)).go l (fun r => r.setBa z.q))) := by
  subst hz hu
  rw [exec_timerRow h hf ho, State.timer_reg hk hj hm hy hv]

/-- A timer row with a preset that is not negative and a start that stays stores its state word only. -/
theorem exec_timerRow_reg_same {op : BitVec 8} {i : LPairN → Instr} (h : (op, i, f) ∈ timerRows)
    (hf : s.fetched l = some (n, w)) (ho : w.extractLsb' 24 8 = op)
    (hk : s.wordAt l (w.extractLsb' 0 24) 0 = some (.reg k)) (hj : s.wordAt l (w.extractLsb' 0 24) 1 = some (.reg j))
    (hm : s.wordAt l (w.extractLsb' 0 24) 3 = some (.reg m)) (hn : 0 ≤ (s.regs l).acc.toInt)
    (hy : y = f (timerOf (s.regs l).w[k] (s.regs l).w[j]) (s.regs l).ba s.spn.lpair[l].t (s.regs l).acc)
    (hs : y.start = (s.regs l).w[k]) :
    exec (i l) s = .next (State.finish l n
      ((s.modRegs l (fun r => r.setW j y.word)).go l (fun r => r.setBa y.q))) :=
  exec_timerRow_reg h hf ho hk hj hm hy (State.timerOut_nonneg hn).symm (State.timerDraw_nonneg hn).symm (if_pos hs).symm

theorem exec_timerRow_range {op : BitVec 8} {i : LPairN → Instr} (h : (op, i, f) ∈ timerRows)
    (hf : s.fetched l = some (n, w)) (ho : w.extractLsb' 24 8 = op) (hw : s.wordAt l (w.extractLsb' 0 24) 3 = none) :
    exec (i l) s = .next (s.programFault l n .addressRange).afterEnd := by
  rw [exec_timerRow h hf ho, State.timer_range hw]
  rfl

/-! ### Word stores and CRST (R301, R303) -/

theorem exec_iStw (hf : s.fetched l = some (n, w)) (ho : w.extractLsb' 24 8 = 0x23#8) :
    exec (.iStw l) s = .next (State.finish l n (s.setWord l n (w.extractLsb' 0 24) 0 (s.regs l).acc .next)) :=
  State.instr_at (fun s n w => s.setWord l n w 0 (s.regs l).acc .next) hf ho rfl

theorem exec_iStw_reg (hf : s.fetched l = some (n, w)) (ho : w.extractLsb' 24 8 = 0x23#8)
    (hk : s.wordAt l (w.extractLsb' 0 24) 0 = some (.reg k)) :
    exec (.iStw l) s = .next (State.finish l n (s.go l (fun r => r.setW k (s.regs l).acc))) := by
  rw [exec_iStw hf ho, State.setWord_reg _ hk]
  rfl

theorem exec_iStw_mem {a : Nat} {p : CProg} (hf : s.fetched l = some (n, w)) (ho : w.extractLsb' 24 8 = 0x23#8)
    (ha : s.wordAt l (w.extractLsb' 0 24) 0 = some (.mem a)) (hp : s.cfg.prog[n] = some p)
    (hm : s.mayStore p a 0xFFFFFFFF = true) (hi : s.injected l = none) :
    exec (.iStw l) s = .next (State.finish l n (.next (s.doStore l (wordBytes a (s.regs l).acc)))) := by
  rw [exec_iStw hf ho, State.setWord_mem _ ha hp hm hi]

theorem exec_iStw_protected {a : Nat} {p : CProg} (hf : s.fetched l = some (n, w)) (ho : w.extractLsb' 24 8 = 0x23#8)
    (ha : s.wordAt l (w.extractLsb' 0 24) 0 = some (.mem a)) (hp : s.cfg.prog[n] = some p)
    (hm : s.mayStore p a 0xFFFFFFFF = false) :
    exec (.iStw l) s = .next (s.programFault l n .storeProtected).afterEnd := by
  rw [exec_iStw hf ho, State.setWord_protected _ ha hp hm]
  rfl

/-- What CRST does: without BA nothing; with BA it stores 0, once its block has been checked. -/
def State.countReset (s : State) (l : LPairN) (n : ProgN) (o : BitVec 24) : Act :=
  if !(s.regs l).ba then .next s
  else if (s.wordAt l o 1).isNone then .fault s .addressRange else s.setWord l n o 0 0 .next

theorem exec_iCrst (hf : s.fetched l = some (n, w)) (ho : w.extractLsb' 24 8 = 0x1E#8) :
    exec (.iCrst l) s = .next (State.finish l n (s.countReset l n (w.extractLsb' 0 24))) :=
  State.instr_at (fun s n w => s.countReset l n w) hf ho rfl

theorem State.countReset_idle (h : (s.regs l).ba = false) : s.countReset l n o = .next s := if_pos (by rw [h]; rfl)

theorem State.countReset_act (h : (s.regs l).ba = true) (hw : (s.wordAt l o 1).isSome = true) :
    s.countReset l n o = s.setWord l n o 0 0 .next := by
  rw [State.countReset, h, Option.isNone_eq_false_iff.mpr hw]
  rfl

theorem exec_iCrst_idle (hf : s.fetched l = some (n, w)) (ho : w.extractLsb' 24 8 = 0x1E#8)
    (hb : (s.regs l).ba = false) : exec (.iCrst l) s = .next (State.finish l n (.next s)) := by
  rw [exec_iCrst hf ho, State.countReset_idle hb]

theorem exec_iCrst_reg (hf : s.fetched l = some (n, w)) (ho : w.extractLsb' 24 8 = 0x1E#8) (hb : (s.regs l).ba = true)
    (hk : s.wordAt l (w.extractLsb' 0 24) 0 = some (.reg k)) (hj : s.wordAt l (w.extractLsb' 0 24) 1 = some (.reg j)) :
    exec (.iCrst l) s = .next (State.finish l n (s.go l (fun r => r.setW k 0))) := by
  rw [exec_iCrst hf ho, State.countReset_act hb (by rw [hj]; rfl), State.setWord_reg _ hk]
  rfl

theorem exec_iCrst_mem {a : Nat} {p : CProg} (hf : s.fetched l = some (n, w)) (ho : w.extractLsb' 24 8 = 0x1E#8)
    (hb : (s.regs l).ba = true) (ha : s.wordAt l (w.extractLsb' 0 24) 0 = some (.mem a))
    (hw : (s.wordAt l (w.extractLsb' 0 24) 1).isSome = true) (hp : s.cfg.prog[n] = some p)
    (hm : s.mayStore p a 0xFFFFFFFF = true) (hi : s.injected l = none) :
    exec (.iCrst l) s = .next (State.finish l n (.next (s.doStore l (wordBytes a 0)))) := by
  rw [exec_iCrst hf ho, State.countReset_act hb hw, State.setWord_mem _ ha hp hm hi]
end

/-- Settles O52: the stores, the timers in registers and in memory, and the counters whose count stays. -/
theorem timerCounterAndStoreInstructions : Obligations.TimerCounterAndStoreInstructions := by
  unfold Obligations.TimerCounterAndStoreInstructions
  refine ⟨fun _ _ _ _ _ hf ho hk => exec_iStw_reg hf ho hk,
    fun _ _ _ _ _ _ hf ho ha hp hm hi => exec_iStw_mem hf ho ha hp hm hi,
    fun _ _ _ _ _ _ hf ho ha hp hm => exec_iStw_protected hf ho ha hp hm,
    fun _ _ _ _ _ _ hf ho hb hk hj => exec_iCrst_reg hf ho hb hk hj,
    fun _ _ _ _ _ _ _ _ _ _ _ h hf ho hk hj hm hn hy hs => exec_timerRow_reg_same h hf ho hk hj hm hn hy hs,
    ?ctu, ?ctd,
    fun _ _ _ _ _ _ _ _ _ _ _ hf ho hk hj hm hy hz hu hv =>
      exec_timerRow_reg ton_mem_timerRows hf ho hk hj hm hy hz hu hv, ?tonMem,
    fun _ _ _ _ _ _ _ _ _ _ _ hf ho hk hj hm hy hz hu hv =>
      exec_timerRow_reg tof_mem_timerRows hf ho hk hj hm hy hz hu hv, ?tofMem,
    fun _ _ _ _ _ _ _ _ _ _ _ hf ho hk hj hm hy hz hu hv =>
      exec_timerRow_reg tp_mem_timerRows hf ho hk hj hm hy hz hu hv, ?tpMem,
    fun _ _ _ _ _ _ hf ho hb ha hw hp hm hi => exec_iCrst_mem hf ho hb ha hw hp hm hi,
    fun _ _ _ _ hf ho hb => exec_iCrst_idle hf ho hb,
    fun _ _ _ _ _ hf hw => ⟨fun ho => exec_timerRow_range ton_mem_timerRows hf ho hw,
      fun ho => exec_timerRow_range tof_mem_timerRows hf ho hw, fun ho => exec_timerRow_range tp_mem_timerRows hf ho hw⟩⟩
  case ctu =>
    intro l n w s k j c hf ho hk hj hc hs
    rw [exec_iCtu hf ho, State.counter_reg_same hk hj (hc ▸ hs), hs]
    rfl
  case ctd =>
    intro l n w s k j c hf ho hk hj hc hs
    rw [exec_iCtd hf ho, State.counter_reg_same hk hj (hc ▸ hs), hs]
    rfl
  case tonMem =>
    intro l n w s a e d y u v x b c p hf ho ha hm hla he hle hy hn hav hpv hmv hiv hx hd hpx hmx hix
    rw [exec_timerRow ton_mem_timerRows hf ho, State.timer_mem ha hm hla he hle hy hn hav hpv hmv hiv hx hd hpx hmx hix]
    rfl
  case tofMem =>
    intro l n w s a e d y u v x b c p hf ho ha hm hla he hle hy hn hav hpv hmv hiv hx hd hpx hmx hix
    rw [exec_timerRow tof_mem_timerRows hf ho, State.timer_mem ha hm hla he hle hy hn hav hpv hmv hiv hx hd hpx hmx hix]
    rfl
  case tpMem =>
    intro l n w s a e d y u v x b c p hf ho ha hm hla he hle hy hn hav hpv hmv hiv hx hd hpx hmx hix
    rw [exec_timerRow tp_mem_timerRows hf ho, State.timer_mem ha hm hla he hle hy hn hav hpv hmv hiv hx hd hpx hmx hix]
    rfl

end Sys2Proof.Machine
end

section
/-!
# Jumps, calls, bead ends and the objects that programs share (R301, R304-R307, R313, R317, R318, R369)
-/
namespace Sys2Proof.Machine
open Sys2Proof

section
variable {l : LPairN} {n : ProgN} {w : Word} {o : BitVec 24} {s : State}

/-! ### Jumps, loops and calls -/

theorem exec_iJmp (hf : s.fetched l = some (n, w)) (ho : w.extractLsb' 24 8 = 0x50#8) :
    exec (.iJmp l) s = .next (State.finish l n (s.jump l n (w.extractLsb' 0 24))) :=
  State.instr_at (fun s n w => s.jump l n w) hf ho rfl

theorem exec_iJc (hf : s.fetched l = some (n, w)) (ho : w.extractLsb' 24 8 = 0x51#8) :
    exec (.iJc l) s = .next (State.finish l n
      (if (s.regs l).ba then s.jump l n (w.extractLsb' 0 24) else .next s)) :=
  State.instr_at (fun s n w => if (s.regs l).ba then s.jump l n w else .next s) hf ho rfl

theorem exec_iJnc (hf : s.fetched l = some (n, w)) (ho : w.extractLsb' 24 8 = 0x52#8) :
    exec (.iJnc l) s = .next (State.finish l n
      (if (s.regs l).ba then .next s else s.jump l n (w.extractLsb' 0 24))) :=
  State.instr_at (fun s n w => if (s.regs l).ba then .next s else s.jump l n w) hf ho rfl

theorem State.jump_zero (h : field o 0 16 = 0) : s.jump l n o = .fault s .jumpRange := if_pos h

theorem State.jumpTo_within {a : Nat} (hl : (s.extent l n).1 ≤ a) (hu : a < (s.extent l n).2) :
    s.jumpTo l n a = .jumped (s.modRegs l (fun r => { r with pc := a })) := by
  simp only [State.jumpTo, hl, hu, decide_true, Bool.and_true, if_true]

theorem State.jump_within {a : Nat} (h : 0 < field o 0 16) (ha : a = (s.regs l).pc + field o 0 16)
    (hl : (s.extent l n).1 ≤ a) (hu : a < (s.extent l n).2) :
    s.jump l n o = .jumped (s.modRegs l (fun r => { r with pc := a })) := by
  rw [State.jump, if_neg (by omega), ← ha]
  exact State.jumpTo_within hl hu

/-- What LOOP does: the count of Wn goes down, and the jump back is taken while it is above 0 and not yet used up. -/
def State.loopBack (s : State) (l : LPairN) (n : ProgN) (o : BitVec 24) : Act :=
  let r := s.regs l
  let k := regField o 16
  let v := r.w[k] - 1
  let d := r.calls.length
  let mine (e : Nat × Nat × Nat × Nat) : Bool := e.1 == r.pc && e.2.2.1 == d
  let taken := match r.loops.find? mine with | some e => e.2.2.2 | none => 0
  let others := r.loops.filter (fun e => !mine e)
  let s1 : State := s.modRegs l (fun x => x.setW k v)
  if 0 < v.toInt && taken < field o 8 8 then
    if r.pc < field o 0 8 then .fault s .jumpRange
    else
      let target := r.pc - field o 0 8
      (s1.modRegs l (fun x => { x with loops := (r.pc, target, d, taken + 1) :: others })).jumpTo l n target
  else s1.go l (fun x => { x with loops := others })

theorem exec_iLoop (hf : s.fetched l = some (n, w)) (ho : w.extractLsb' 24 8 = 0x53#8) :
    exec (.iLoop l) s = .next (State.finish l n (s.loopBack l n (w.extractLsb' 0 24))) :=
  State.instr_at (fun s n w => s.loopBack l n w) hf ho rfl

/-- The count has run out: the entry of this LOOP is forgotten and the program goes on. -/
theorem State.loopBack_done {k : Fin 32} {v : Word} (hk : k = regField o 16) (hv : v = (s.regs l).w[k] - 1)
    (h : v.toInt ≤ 0) :
    s.loopBack l n o = (s.modRegs l (fun x => x.setW k v)).go l (fun x => { x with
      loops := (s.regs l).loops.filter (fun e => !(e.1 == (s.regs l).pc && e.2.2.1 == (s.regs l).calls.length)) }) := by
  subst hk hv
  have hc : ¬ (0 < ((s.regs l).w[regField o 16] - 1).toInt) := by omega
  simp only [State.loopBack, hc, decide_false, Bool.false_and, Bool.false_eq_true, if_false]

/-- The first jump back of an entry from above. -/
theorem State.loopBack_first {k : Fin 32} {v : Word} {a : Nat} (hk : k = regField o 16)
    (hv : v = (s.regs l).w[k] - 1) (h : 0 < v.toInt) (hl : (s.regs l).loops = []) (hm : 0 < field o 8 8)
    (ha : a + field o 0 8 = (s.regs l).pc) :
    s.loopBack l n o = ((s.modRegs l (fun x => x.setW k v)).modRegs l (fun x =>
      { x with loops := [((s.regs l).pc, a, (s.regs l).calls.length, 1)] })).jumpTo l n a := by
  subst hk hv
  have hpc : ¬ (s.regs l).pc < field o 0 8 := by omega
  have hsub : (s.regs l).pc - field o 0 8 = a := by omega
  simp only [State.loopBack, h, hl, hm, hpc, hsub, List.find?_nil, List.filter_nil, decide_true, Bool.and_self, if_true,
    if_false, Nat.zero_add]

/-- What CALL does. -/
def State.callSub (s : State) (l : LPairN) (n : ProgN) (o : BitVec 24) : Act :=
  if 8 ≤ (s.regs l).calls.length then .fault s .stack
  else match s.cfg.prog[n] with
  | none => .fault s .jumpRange
  | some p => (match p.subs[field o 0 16]? with
    | some e => .jumped (s.modRegs l (fun r => { r with calls := (r.pc + 1) :: r.calls, pc := e.1 }))
    | none => .fault s .jumpRange)

theorem execCall_eq : execCall l s = s.instr l 0x54 (fun s n w => s.callSub l n w) := by
  unfold execCall State.callSub
  rfl

theorem exec_iCall (hf : s.fetched l = some (n, w)) (ho : w.extractLsb' 24 8 = 0x54#8) :
    exec (.iCall l) s = .next (State.finish l n (s.callSub l n (w.extractLsb' 0 24))) :=
  execCall_eq.trans (State.instr_at (op := 0x54#8) (fun s n w => s.callSub l n w) hf ho rfl)

theorem State.callSub_full (h : 8 ≤ (s.regs l).calls.length) : s.callSub l n o = .fault s .stack := if_pos h

theorem State.callSub_room {p : CProg} {e : Nat × Nat} (h : (s.regs l).calls.length < 8) (hp : s.cfg.prog[n] = some p)
    (he : p.subs[field o 0 16]? = some e) :
    s.callSub l n o = .jumped (s.modRegs l (fun r => { r with calls := (r.pc + 1) :: r.calls, pc := e.1 })) := by
  rw [State.callSub, if_neg (by omega)]
  simp only [hp, he]

/-- What RET does. -/
def State.retSub (s : State) (l : LPairN) : Act :=
  match (s.regs l).calls with
  | a :: rest => .jumped (s.modRegs l (fun r => { r with calls := rest, pc := a }))
  | [] => .fault s .stack

theorem execRet_eq : execRet l s = s.instr l 0x55 (fun s _ _ => s.retSub l) := by
  unfold execRet State.retSub
  rfl

theorem exec_iRet (hf : s.fetched l = some (n, w)) (ho : w.extractLsb' 24 8 = 0x55#8) :
    exec (.iRet l) s = .next (State.finish l n (s.retSub l)) :=
  execRet_eq.trans (State.instr_at (op := 0x55#8) (fun s _ _ => s.retSub l) hf ho rfl)

theorem State.retSub_cons {a : Nat} {z : List Nat} (h : (s.regs l).calls = a :: z) :
    s.retSub l = .jumped (s.modRegs l (fun r => { r with calls := z, pc := a })) := by simp only [State.retSub, h]

theorem State.retSub_nil (h : (s.regs l).calls = []) : s.retSub l = .fault s .stack := by simp only [State.retSub, h]

/-! ### Bead ends -/

/-- The bead that BEND names. -/
def State.nextBead (s : State) (l : LPairN) (o : BitVec 24) : Nat :=
  if field o 0 16 = 0xFFFF then s.spn.lpair[l].bead + 1 else field o 0 16

/-- What BEND does. -/
def State.bend (s : State) (l : LPairN) (n : ProgN) (o : BitVec 24) : Act :=
  if !(s.regs l).calls.isEmpty then .fault s .stack
  else if s.beadCount n ≤ s.nextBead l o then .fault s .beadRange
  else .ended (s.endBead l n (s.nextBead l o) none)

theorem exec_iBend (hf : s.fetched l = some (n, w)) (ho : w.extractLsb' 24 8 = 0x56#8) :
    exec (.iBend l) s = .next (State.finish l n (s.bend l n (w.extractLsb' 0 24))) :=
  State.instr_at (fun s n w => s.bend l n w) hf ho rfl

theorem State.bend_within (hc : (s.regs l).calls = []) (h : s.nextBead l o < s.beadCount n) :
    s.bend l n o = .ended (s.endBead l n (s.nextBead l o) none) := by
  rw [State.bend, hc, if_neg (by decide), if_neg (by omega)]

theorem State.bend_beyond (hc : (s.regs l).calls = []) (h : s.beadCount n ≤ s.nextBead l o) :
    s.bend l n o = .fault s .beadRange := by
  rw [State.bend, hc, if_neg (by decide), if_pos h]

/-- What PEND does. -/
def State.pend (s : State) (l : LPairN) (n : ProgN) : Act :=
  if !(s.regs l).calls.isEmpty then .fault s .stack
  else .ended ((s.modProg n (fun p => { p with consecutive := 0, refreshed := true })).endRun l n .done 1)

theorem exec_iPend (hf : s.fetched l = some (n, w)) (ho : w.extractLsb' 24 8 = 0x57#8) :
    exec (.iPend l) s = .next (State.finish l n (s.pend l n)) :=
  State.instr_at (fun s n _ => s.pend l n) hf ho rfl

theorem State.pend_outermost (hc : (s.regs l).calls = []) :
    s.pend l n = .ended ((s.modProg n (fun p => { p with consecutive := 0, refreshed := true })).endRun l n .done 1) := by
  rw [State.pend, hc, if_neg (by decide)]
end

/-- Settles O54: each clause is a branch of its row. -/
theorem flowInstructions : Obligations.FlowInstructions := by
  unfold Obligations.FlowInstructions
  refine ⟨?jmp, fun _ _ _ _ hf => ⟨fun ho => exec_iJc hf ho, fun ho => exec_iJnc hf ho, ?zero⟩, ?loopDone, ?loopFirst,
    ?call, ?callFull, ?ret, ?retEmpty, ?bend, ?bendBeyond, ?pend⟩
  case jmp =>
    intro l n w s a hf ho h ha hl hu
    rw [exec_iJmp hf ho, State.jump_within h ha hl hu]
    rfl
  case zero =>
    intro ho h
    rw [exec_iJmp hf ho, State.jump_zero h]
    rfl
  case loopDone =>
    intro l n w s k v hf ho hk hv h
    rw [exec_iLoop hf ho, State.loopBack_done hk hv h]
    rfl
  case loopFirst =>
    intro l n w s k v a hf ho hk hv h hl hm ha
    rw [exec_iLoop hf ho, State.loopBack_first hk hv h hl hm ha]
  case call =>
    intro l n w s p e hf ho h hp he
    rw [exec_iCall hf ho, State.callSub_room h hp he]
    rfl
  case callFull =>
    intro l n w s hf ho h
    rw [exec_iCall hf ho, State.callSub_full h]
    rfl
  case ret =>
    intro l n w s a z hf ho h
    rw [exec_iRet hf ho, State.retSub_cons h]
    rfl
  case retEmpty =>
    intro l n w s hf ho h
    rw [exec_iRet hf ho, State.retSub_nil h]
    rfl
  case bend =>
    intro l n w s k hf ho hc hk h
    subst hk
    rw [exec_iBend hf ho, State.bend_within hc h]
    rfl
  case bendBeyond =>
    intro l n w s k hf ho hc hk h
    subst hk
    rw [exec_iBend hf ho, State.bend_beyond hc h]
    rfl
  case pend =>
    intro l n w s hf ho hc
    rw [exec_iPend hf ho, State.pend_outermost hc]
    rfl

/-! ### Requests, events, sync objects and locks -/

section
variable {l : LPairN} {n : ProgN} {w : Word} {o : BitVec 24} {s : State}

/-- Without a replay every operation of a pair acts and is recorded. -/
theorem State.matchOp_live (same : JOp → Bool) (h : s.spn.lpair[l].replay = none) : s.matchOp l same = .live := by
  simp only [State.matchOp, h]

theorem State.request_live {j : JOp} (act : State → State) (h : s.spn.lpair[l].replay = none) :
    s.request l j act = act (s.record l j) := by
  simp only [State.request, State.matchOp_live _ h]

/-- What RESC does. -/
def State.takeResult (s : State) (l : LPairN) (o : BitVec 24) : Act :=
  let r := s.loadBytes l (0x2000 + 4 * field o 0 10) 4 0xFF
  match r.2 with
  | none => .fault r.1 .imageEcc
  | some bytes =>
    let v : Word := BitVec.ofNat 32 (leNat bytes)
    r.1.go l (fun x => { x with acc := (v.extractLsb' 0 16).signExtend 32, ba := (v.extractLsb' 16 3) == 0#3 })

theorem execResc_eq : execResc l s = s.instr l 0x37 (fun s _ w => s.takeResult l w) := by
  unfold execResc State.takeResult
  rfl

theorem exec_iResc {u : State} {b : List Byte} (hf : s.fetched l = some (n, w)) (ho : w.extractLsb' 24 8 = 0x37#8)
    (hl : s.loadBytes l (0x2000 + 4 * field (w.extractLsb' 0 24) 0 10) 4 0xFF = (u, some b)) :
    exec (.iResc l) s = .next (State.finish l n (u.go l (fun x =>
      { x with acc := ((BitVec.ofNat 32 (leNat b)).extractLsb' 0 16).signExtend 32,
               ba := ((BitVec.ofNat 32 (leNat b)).extractLsb' 16 3) == 0#3 }))) := by
  show execResc l s = _
  rw [execResc_eq]
  refine (State.instr_at (op := 0x37#8) (fun s _ w => s.takeResult l w) hf ho rfl).trans ?_
  simp only [State.takeResult, hl]

/-- What RAIL does. -/
def State.railInstr (s : State) (l : LPairN) (o : BitVec 24) : Act :=
  if !(s.regs l).ba then .next s
  else match railBit (field o 8 4) with
  | none => .fault s .illegalOpcode
  | some b =>
    let n : RailN := Fin.ofNat 256 (field o 0 8)
    let m : Byte := 1#8 <<< b
    .next (s.request l (.rail n (field o 8 4)) (fun s => s.putStore l [(0x10000 + 4 * n.val, m, m)]))

theorem execRail_eq : execRail l s = s.instr l 0x40 (fun s _ w => s.railInstr l w) := by
  unfold execRail State.railInstr
  rfl

theorem exec_iRail (hf : s.fetched l = some (n, w)) (ho : w.extractLsb' 24 8 = 0x40#8) :
    exec (.iRail l) s = .next (State.finish l n (s.railInstr l (w.extractLsb' 0 24))) :=
  execRail_eq.trans (State.instr_at (op := 0x40#8) (fun s _ w => s.railInstr l w) hf ho rfl)

theorem State.railInstr_idle (hb : (s.regs l).ba = false) : s.railInstr l o = .next s := if_pos (by rw [hb]; rfl)

theorem State.railInstr_up (hb : (s.regs l).ba = true) (hr : s.spn.lpair[l].replay = none) (hc : field o 8 4 = 1) :
    s.railInstr l o = .next ((s.record l (.rail (Fin.ofNat 256 (field o 0 8)) 1)).putStore l
      [(0x10000 + 4 * (Fin.ofNat 256 (field o 0 8)).val, 1, 1)]) := by
  rw [State.railInstr, hb, if_neg (by decide), hc]
  simp only [railBit, State.request_live _ hr]
  rfl

/-- What MRG does. -/
def State.marginInstr (s : State) (l : LPairN) (o : BitVec 24) : Act :=
  if !(s.regs l).ba then .next s
  else
    let n : RailN := Fin.ofNat 256 (field o 0 8)
    let a := 0x10000 + 4 * n.val
    .next (s.request l (.mrg n (BitVec.ofNat 9 (field o 8 9))) (fun s =>
      { s with mem := Memory.putWord s.mem a (mergeMargin (Memory.word s.mem a) (o.getLsbD 16) (o.extractLsb' 8 8)) }))

theorem exec_iMrg (hf : s.fetched l = some (n, w)) (ho : w.extractLsb' 24 8 = 0x41#8) :
    exec (.iMrg l) s = .next (State.finish l n (s.marginInstr l (w.extractLsb' 0 24))) :=
  State.instr_at (fun s _ w => s.marginInstr l w) hf ho rfl

theorem State.marginInstr_idle (hb : (s.regs l).ba = false) : s.marginInstr l o = .next s :=
  if_pos (by rw [hb]; rfl)

theorem State.marginInstr_act {u : State} (hb : (s.regs l).ba = true) (hr : s.spn.lpair[l].replay = none)
    (hu : u = s.record l (.mrg (Fin.ofNat 256 (field o 0 8)) (BitVec.ofNat 9 (field o 8 9)))) :
    s.marginInstr l o = .next { u with
      mem := Memory.putWord u.mem (0x10000 + 4 * (Fin.ofNat 256 (field o 0 8)).val)
        (mergeMargin (Memory.word u.mem (0x10000 + 4 * (Fin.ofNat 256 (field o 0 8)).val)) (o.getLsbD 16)
          (o.extractLsb' 8 8)) } := by
  subst hu
  rw [State.marginInstr, hb, if_neg (by decide)]
  exact congrArg Act.next (State.request_live _ hr)

/-- What EVT does. -/
def State.programEvent (s : State) (l : LPairN) (n : ProgN) (o : BitVec 24) : Act :=
  let e : Fin 256 := Fin.ofNat 256 (field o 0 8)
  let m : Byte := 1#8 <<< (e.val % 8)
  if !(s.regs l).ba then .next s
  else if s.ownsEvent n e then .next (s.request l (.evt e) (fun s => s.putStore l [(0x10420 + e.val / 8, m, m)]))
  else .fault s .storeProtected

theorem exec_iEvt (hf : s.fetched l = some (n, w)) (ho : w.extractLsb' 24 8 = 0x43#8) :
    exec (.iEvt l) s = .next (State.finish l n (s.programEvent l n (w.extractLsb' 0 24))) :=
  State.instr_at (fun s n w => s.programEvent l n w) hf ho rfl

theorem State.programEvent_idle (hb : (s.regs l).ba = false) : s.programEvent l n o = .next s :=
  if_pos (by rw [hb]; rfl)

theorem State.programEvent_owned {e : Fin 256} (hb : (s.regs l).ba = true) (hr : s.spn.lpair[l].replay = none)
    (he : e = Fin.ofNat 256 (field o 0 8)) (h : s.ownsEvent n e = true) :
    s.programEvent l n o = .next ((s.record l (.evt e)).putStore l
      [(0x10420 + e.val / 8, 1#8 <<< (e.val % 8), 1#8 <<< (e.val % 8))]) := by
  subst he
  rw [State.programEvent, hb, if_neg (by decide), if_pos h, State.request_live _ hr]

theorem State.programEvent_foreign {e : Fin 256} (hb : (s.regs l).ba = true)
    (he : e = Fin.ofNat 256 (field o 0 8)) (h : s.ownsEvent n e = false) :
    s.programEvent l n o = .fault s .storeProtected := by
  subst he
  rw [State.programEvent, hb, if_neg (by decide), if_neg (by rw [h]; decide)]

/-- What SIGSYNC does. -/
def State.sigsync (s : State) (l : LPairN) (n : ProgN) (o : BitVec 24) : Act :=
  if !(s.regs l).ba then .next s
  else
    let o : Fin 1024 := Fin.ofNat 1024 (field o 0 10)
    let s1 : State := s.drain l
    match s1.matchOp l (fun x => x == .sigsync o) with
    | .same _ => .next (s1.popOp l)
    | .live => .next ((s1.record l (.sigsync o)).progSignal l n o)
    | .differs => .next (((s1.diverge l).record l (.sigsync o)).progSignal l n o)

theorem execSigsync_eq : execSigsync l s = s.instr l 0x48 (fun s n w => s.sigsync l n w) := by
  unfold execSigsync State.sigsync
  rfl

theorem exec_iSigsync (hf : s.fetched l = some (n, w)) (ho : w.extractLsb' 24 8 = 0x48#8) :
    exec (.iSigsync l) s = .next (State.finish l n (s.sigsync l n (w.extractLsb' 0 24))) :=
  execSigsync_eq.trans (State.instr_at (op := 0x48#8) (fun s n w => s.sigsync l n w) hf ho rfl)

theorem State.sigsync_idle (hb : (s.regs l).ba = false) : s.sigsync l n o = .next s := if_pos (by rw [hb]; rfl)

theorem State.sigsync_live (hb : (s.regs l).ba = true) (hr : (s.drain l).spn.lpair[l].replay = none) :
    s.sigsync l n o = .next (((s.drain l).record l (.sigsync (Fin.ofNat 1024 (field o 0 10)))).progSignal l n
      (Fin.ofNat 1024 (field o 0 10))) := by
  rw [State.sigsync, hb, if_neg (by decide)]
  simp only [State.matchOp_live _ hr]

theorem exec_iLock {k : Fin 256} (hf : s.fetched l = some (n, w)) (ho : w.extractLsb' 24 8 = 0x4A#8)
    (hr : s.spn.lpair[l].replay = none) (hk : k = Fin.ofNat 256 (field (w.extractLsb' 0 24) 0 8)) :
    exec (.iLock l) s = .next (State.finish l n (.next (s.liveLock l k))) := by
  subst hk
  show execLock l s = _
  rw [execLock]
  refine (State.instr_at (op := 0x4A#8) _ hf ho rfl).trans ?_
  simp only [State.matchOp_live _ hr]

theorem exec_iUnlock {k : Fin 256} (hf : s.fetched l = some (n, w)) (ho : w.extractLsb' 24 8 = 0x4B#8)
    (hr : (s.drain l).spn.lpair[l].replay = none) (hk : k = Fin.ofNat 256 (field (w.extractLsb' 0 24) 0 8)) :
    exec (.iUnlock l) s = .next (State.finish l n
      (.next ((s.drain l).liveUnlock l n k ((w.extractLsb' 0 24).getLsbD 12)))) := by
  subst hk
  show execUnlock l s = _
  rw [execUnlock]
  refine (State.instr_at (op := 0x4B#8) _ hf ho rfl).trans ?_
  simp only [State.matchOp_live _ hr]

/-- WAITSYNC as the last word of a bead that has a next one. -/
theorem exec_iWaitsync (hf : s.fetched l = some (n, w)) (ho : w.extractLsb' 24 8 = 0x49#8)
    (hc : (s.regs l).calls = []) (hp : (s.regs l).pc + 1 = (s.extent l n).2)
    (hb : s.spn.lpair[l].bead + 1 < s.beadCount n) :
    exec (.iWaitsync l) s = .next (State.finish l n (.ended (s.endBead l n (s.spn.lpair[l].bead + 1)
      (some (Fin.ofNat 1024 (field (w.extractLsb' 0 24) 0 10)))))) := by
  have hcalls : s.spn.lpair[l].regs.calls = [] := hc
  have hpc : s.spn.lpair[l].regs.pc + 1 = (s.extent l n).2 := hp
  show execWaitsync l s = _
  rw [execWaitsync]
  refine (State.instr_at (op := 0x49#8) _ hf ho rfl).trans ?_
  simp [-Fin.getElem_fin, hcalls, hpc, Nat.not_le.mpr hb]
end

/-- Settles O53: each clause is a branch of its row. -/
theorem sharedObjectInstructions : Obligations.SharedObjectInstructions := by
  unfold Obligations.SharedObjectInstructions
  refine ⟨fun _ _ _ _ _ _ hf ho hl => exec_iResc hf ho hl, ?rail, ?mrg, ?evt, ?evtForeign, ?idle, ?sig,
    fun _ _ _ _ _ hf ho hr hk => exec_iLock hf ho hr hk, fun _ _ _ _ _ hf ho hr hk => exec_iUnlock hf ho hr hk,
    ?wait⟩
  case rail =>
    intro l n w s hf ho hb hr hc
    rw [exec_iRail hf ho, State.railInstr_up hb hr hc]
    rfl
  case mrg =>
    intro l n w s hf ho hb hr
    rw [exec_iMrg hf ho, State.marginInstr_act hb hr rfl]
    rfl
  case evt =>
    intro l n w s e hf ho hb hr he h
    rw [exec_iEvt hf ho, State.programEvent_owned hb hr he h]
    rfl
  case evtForeign =>
    intro l n w s e hf ho hb he h
    rw [exec_iEvt hf ho, State.programEvent_foreign hb he h]
    rfl
  case idle =>
    intro l n w s hf hb
    refine ⟨fun ho => ?_, fun ho => ?_, fun ho => ?_, fun ho => ?_⟩
    · rw [exec_iRail hf ho, State.railInstr_idle hb]
      rfl
    · rw [exec_iMrg hf ho, State.marginInstr_idle hb]
      rfl
    · rw [exec_iEvt hf ho, State.programEvent_idle hb]
      rfl
    · rw [exec_iSigsync hf ho, State.sigsync_idle hb]
      rfl
  case sig =>
    intro l n w s hf ho hb hr
    rw [exec_iSigsync hf ho, State.sigsync_live hb hr]
    rfl
  case wait =>
    intro l n w s hf ho hc hp hb
    rw [exec_iWaitsync hf ho hc hp hb]
    rfl

end Sys2Proof.Machine
end

section
/-!
# Locks, sync objects, captured low words and the host watchdog (R361, R366, R368-R373, R460-R463)
-/
namespace Sys2Proof.Machine
open Sys2Proof

/-! ### The rows of the lock table (R369) -/

section
variable {s : State} {k : Fin 256} {w : LockOwner} {clear : Bool}

theorem State.acquire_free (h : s.lck.lock[k].st = .free) :
    s.acquire k w = (s.modLock k (fun y => { y with st := .held, owner := w, epoch := s.epochOf w }),
      ⟨true, s.lck.lock[k].poisoned, false⟩) := by simp only [State.acquire, h]

theorem State.acquire_own (h : s.lck.lock[k].st = .held) (ho : s.lck.lock[k].owner = w) :
    s.acquire k w = (s, ⟨true, s.lck.lock[k].poisoned, true⟩) := by simp only [State.acquire, h, ho, if_true]

theorem State.acquire_busy (h : s.lck.lock[k].st = .held) (ho : s.lck.lock[k].owner ≠ w) :
    s.acquire k w = (s, ⟨false, false, false⟩) := by simp only [State.acquire, h, ho, if_false]

theorem State.acquire_orphaned (h : s.lck.lock[k].st = .orphaned) :
    s.acquire k w =
      (s.modLock k (fun y => { y with st := .held, poisoned := true, owner := w, epoch := s.epochOf w }),
        ⟨true, true, false⟩) := by simp only [State.acquire, h]

theorem State.release_own (h : s.lck.lock[k].st = .held) (ho : s.lck.lock[k].owner = w) :
    s.release k w clear = (s.modLock k (fun y => { y with st := .free, poisoned := y.poisoned && !clear }), true) :=
  if_pos (by rw [h, ho]; simp)

theorem State.release_foreign (h : s.lck.lock[k].st ≠ .held ∨ s.lck.lock[k].owner ≠ w) :
    s.release k w clear = (s, false) :=
  if_neg (by rw [Bool.and_eq_true, decide_eq_true_eq, decide_eq_true_eq, not_and_or]; exact h)
end

/-! ### The rise of an owner's epoch (R368) -/

/-- A lock is held by `w`: the locks that the rise of its epoch orphans. -/
def LockSt.heldBy (w : LockOwner) (x : LockSt) : Bool := decide (x.st = .held) && decide (x.owner = w)

theorem LockSt.heldBy_iff {w : LockOwner} {x : LockSt} : x.heldBy w = true ↔ x.st = .held ∧ x.owner = w := by
  rw [LockSt.heldBy, Bool.and_eq_true, decide_eq_true_eq, decide_eq_true_eq]

@[simp] theorem tmap_get {α β : Type} {n : Nat} (f : α → β) (v : Vector α n) (i : Fin n) : (tmap f v)[i] = f v[i] := by
  simp [tmap, Fin.getElem_fin]

theorem State.orphan_of_none {s : State} {w : LockOwner} (h : ∀ k : Fin 256, (s.lck.lock[k]).heldBy w = false) :
    s.orphan w = s := by
  refine if_pos (List.length_eq_zero_iff.mpr (List.filter_eq_nil_iff.mpr fun x hx => ?_))
  obtain ⟨i, hi, rfl⟩ := List.getElem_of_mem hx
  have hk := h ⟨i, by simpa using hi⟩
  exact fun hc => Bool.false_ne_true (hk.symm.trans hc)

theorem State.orphan_lock {s : State} {w : LockOwner} (k : Fin 256) :
    (s.orphan w).lck.lock[k] =
      if (s.lck.lock[k]).heldBy w then { s.lck.lock[k] with st := .orphaned } else s.lck.lock[k] := by
  by_cases h : ∀ k : Fin 256, (s.lck.lock[k]).heldBy w = false
  · rw [State.orphan_of_none h, h k, if_neg Bool.false_ne_true]
  · have hn : ¬ (s.lck.lock.toList.filter (LockSt.heldBy w)).length = 0 := fun hz => h fun j => by
      have hmem : s.lck.lock[j] ∈ s.lck.lock.toList := by simp [Fin.getElem_fin]
      exact Bool.eq_false_of_not_eq_true (List.filter_eq_nil_iff.mp (List.length_eq_zero_iff.mp hz) _ hmem)
    refine (congrArg (fun u : State => u.lck.lock[k]) (if_neg hn : s.orphan w = _)).trans ?_
    simp only [State.laterFault_others]
    exact tmap_get _ _ k

/-- Settles O60: the rows of the lock table, and the locks that the rise of an epoch orphans. -/
theorem lockTableRows : Obligations.LockTableRows := by
  unfold Obligations.LockTableRows
  refine ⟨fun _ _ _ h => State.acquire_free h, fun _ _ _ h ho => State.acquire_own h ho, fun _ _ _ h ho => ?busy,
    fun _ _ _ h => State.acquire_orphaned h, fun _ _ _ _ h ho => State.release_own h ho,
    fun _ _ _ _ h => State.release_foreign h, fun _ _ h => State.orphan_of_none fun k => ?none, fun _ _ k => ?rise⟩
  case busy => exact State.acquire_busy h ho ▸ ⟨rfl, rfl⟩
  case none => exact Bool.eq_false_of_not_eq_true fun hc => not_and_or.mpr (h k) (LockSt.heldBy_iff.mp hc)
  case rise => rw [State.orphan_lock]; simp only [LockSt.heldBy_iff]

/-! ### Operations of the host targets (R368-R373) -/

section
variable {t : TgtN} {o : Fin 1024} {k : Fin 256} {s : State} {i : Fin 32} {p : BitVec 8} {r : CSync}

theorem execLckAcquire_lock (h : lockOf o = some k) :
    execLckAcquire t o s = .next ((s.acquire k (.host t)).1.lckDone t
      (if (s.acquire k (.host t)).2.acquired then .accepted else .busy) (s.acquire k (.host t)).2) := by
  simp only [execLckAcquire, h]

theorem execLckAcquire_range (h : lockOf o = none) : execLckAcquire t o s = .next (s.lckDone t .refusedRange) := by
  simp only [execLckAcquire, h]

theorem State.hostRelease_lock {clear : Bool} (h : lockOf o = some k) :
    s.hostRelease t o clear = (s.release k (.host t) clear).1.lckDone t
      (if (s.release k (.host t) clear).2 then .accepted else .notOwner) := by
  simp only [State.hostRelease, h]

theorem State.hostRelease_range {clear : Bool} (h : lockOf o = none) :
    s.hostRelease t o clear = s.lckDone t .refusedRange := by
  simp only [State.hostRelease, h]

theorem lockOf_beyond (h : 256 ≤ o.val) : lockOf o = none := dif_neg (by omega)

theorem execSyncSignal_allowed (h : s.syncRec o = some r) (hr : r.hosts.getLsbD t.val = true) :
    execSyncSignal t o s = .next ((s.lckDone t .accepted).signal o) := by
  simp only [execSyncSignal, h, hr, if_true]

theorem execSyncSignal_unknown (h : s.syncRec o = none) :
    execSyncSignal t o s = .next (s.lckDone t .notSignaller) := by simp only [execSyncSignal, h]

theorem execSyncWait_counted (hw : s.lck.tgt[t].wait = none) (hc : 0 < s.lck.sync[o].count) :
    execSyncWait t o i p s = .next
      (((s.modSync o (fun x => { x with count := x.count - 1 })).lckDone t .signalled).raise (736 + i.val)) :=
  (if_neg (by rw [hw]; decide)).trans (if_pos hc)

theorem execSyncWait_registers (hw : s.lck.tgt[t].wait = none) (hc : s.lck.sync[o].count = 0) :
    execSyncWait t o i p s = .next
      (((s.lckDone t .pending).register o (.host t)).modLckTgt t (fun x => { x with wait := some (o, p.toNat, i) })) :=
  (if_neg (by rw [hw]; decide)).trans (if_neg (by omega))

theorem execSyncCancelWait_waiting (hw : s.lck.tgt[t].wait.isSome = true) :
    execSyncCancelWait t s = .next ((s.lckDone t .cancelled).cancelWait t) := if_pos hw

theorem execSyncTimerSignal_timer (h : s.syncRec o = some r) (ht : r.timer = true) :
    execSyncTimerSignal o s = .next (s.signal o) := by simp only [execSyncTimerSignal, h, ht, if_true]
end

/-- Settles O37: each clause is the rule of its operation. -/
theorem locksAndSyncsAct : Obligations.LocksAndSyncsAct := by
  unfold Obligations.LocksAndSyncsAct
  exact ⟨fun _ _ _ _ h => ⟨execLckAcquire_lock h, congrArg Host.Outcome.next (State.hostRelease_lock h),
      congrArg Host.Outcome.next (State.hostRelease_lock h)⟩,
    fun _ _ _ h => ⟨execLckAcquire_range (lockOf_beyond h), congrArg Host.Outcome.next (State.hostRelease_range (lockOf_beyond h)),
      congrArg Host.Outcome.next (State.hostRelease_range (lockOf_beyond h))⟩,
    fun _ _ _ _ h hr => execSyncSignal_allowed h hr, fun _ _ _ h => execSyncSignal_unknown h,
    fun _ _ _ _ _ hw hc => execSyncWait_counted hw hc, fun _ _ _ _ _ hw hc => execSyncWait_registers hw hc,
    fun _ _ hw => execSyncCancelWait_waiting hw, fun _ _ => rfl, fun _ _ _ h ht => execSyncTimerSignal_timer h ht⟩

/-! ### Captured high words (R361, R366) -/

theorem execCmdSeqLoRead_issued {s : State} {src : Fin 64} {i : Fin 5} (h : src.val = i.val) :
    execCmdSeqLoRead src true s = .next { s with cmd := { s.cmd with
      issuedHi := tset s.cmd.issuedHi i ((s.issued i).extractLsb' 32 32) } } := by
  obtain rfl : src = ⟨i.val, i.isLt.trans (by decide)⟩ := Fin.ext h
  exact (dif_pos i.isLt).trans (if_pos rfl)

theorem execCmdSeqLoRead_applied {s : State} {src : Fin 64} {i : Fin 5} (h : src.val = i.val) :
    execCmdSeqLoRead src false s = .next { s with cmd := { s.cmd with
      appliedHi := tset s.cmd.appliedHi i (s.cmd.applied[i].extractLsb' 32 32) } } := by
  obtain rfl : src = ⟨i.val, i.isLt.trans (by decide)⟩ := Fin.ext h
  exact (dif_pos i.isLt).trans (if_neg Bool.false_ne_true)

theorem execCmdSeqLoRead_beyond {s : State} {src : Fin 64} {issued : Bool} (h : 5 ≤ src.val) :
    execCmdSeqLoRead src issued s = .next s := dif_neg (by omega)

/-- Settles O13: the three fixed registers by definition, the command sequences by the number of the source. -/
theorem lowWordReadsCaptureHighWord : Obligations.LowWordReadsCaptureHighWord := by
  unfold Obligations.LowWordReadsCaptureHighWord
  exact ⟨fun _ => rfl, fun _ => rfl, fun _ => rfl, fun _ _ _ h => execCmdSeqLoRead_issued h,
    fun _ _ _ h => execCmdSeqLoRead_applied h, fun _ _ _ h => execCmdSeqLoRead_beyond h⟩

/-! ### The host watchdog (R460-R463) -/

section
variable {w : Word} {s : State}

/-- The service noted. -/
def State.wdgServed (s : State) (w : Word) : State := { s with wdg := { s.wdg with last := w, time := s.time.mtime } }

/-- A service that is in time opens a window and clears the count of expiries. -/
def State.wdgReopened (s : State) (w : Word) : State :=
  { s with wdg := { s.wdg with
      last := w, time := s.time.mtime, st := .window, since := s.tickUs, started := true, expiries := 0 } }

theorem execHostWdgService_first (h : s.wdg.st = .first) (hs : s.wdg.started = true) :
    execHostWdgService w s = .next (s.wdgReopened w) := by
  simp only [execHostWdgService, State.wdgReopened, h, hs, if_true]

theorem execHostWdgService_idle
    (h : s.wdg.st ∈ [WdgSt.disabled, .stopped] ∨ (s.wdg.st = .first ∧ s.wdg.started = false)) :
    execHostWdgService w s = .next (s.wdgServed w) := by
  simp only [List.mem_cons, List.not_mem_nil, or_false] at h
  rcases h with (h | h) | ⟨h, hs⟩
  · simp only [execHostWdgService, State.wdgServed, h]
  · simp only [execHostWdgService, State.wdgServed, h]
  · simp only [execHostWdgService, State.wdgServed, h, hs, Bool.false_eq_true, if_false]

theorem execHostWdgService_open (h : s.wdg.st = .window) (ho : s.wdg.since + s.wdgCfg.openMs * 1000000 ≤ s.now) :
    execHostWdgService w s = .next (s.wdgReopened w) := by
  simp only [execHostWdgService, State.wdgReopened, h, Nat.not_lt.mpr ho, if_false]

theorem execHostWdgService_early (h : s.wdg.st = .window) (ho : s.now < s.wdg.since + s.wdgCfg.openMs * 1000000) :
    execHostWdgService w s = .next ((s.wdgServed w).wdgExpire false) := by
  simp only [execHostWdgService, State.wdgServed, h, ho, if_true]

theorem execHostWdgExpiry_window (h : s.wdg.st = .window) : execHostWdgExpiry s = .next (s.wdgExpire true) := by
  simp only [execHostWdgExpiry, h]

theorem execHostWdgExpiry_first (h : s.wdg.st = .first) (hs : s.wdg.started = true) :
    execHostWdgExpiry s = .next (s.wdgExpire true) := by
  simp only [execHostWdgExpiry, h, hs, if_true]
end

section
variable {s : State} {which : BitVec 2} {t : Ns} (ha : s.wdg.armed = some t) (hn : s.now ≤ t + 1000000)
include ha hn

theorem execWdgDisableConfirm_lock (hl : s.nv.cur.wdgLock = true) :
    execWdgDisableConfirm .host which s = .next
      (({ s with wdg := { s.wdg with armed := none } }).wdgAnswer .host .refusedLock) := by
  simp only [execWdgDisableConfirm, ha, Nat.not_lt.mpr hn, hl, if_false, if_true]

theorem execWdgDisableConfirm_state (hl : s.nv.cur.wdgLock = false) (hd : s.wdgMayDisable = false) :
    execWdgDisableConfirm .host which s = .next
      (({ s with wdg := { s.wdg with armed := none } }).wdgAnswer .host .refusedState) := by
  simp only [execWdgDisableConfirm, ha, Nat.not_lt.mpr hn, hl, hd, Bool.false_eq_true, Bool.not_false, if_false, if_true]

theorem execWdgDisableConfirm_accepted (hl : s.nv.cur.wdgLock = false) (hd : s.wdgMayDisable = true) :
    execWdgDisableConfirm .host which s = .next (({ s with wdg := { s.wdg with
      armed := none
      st := if which.getLsbD 0 && s.wdg.st != WdgSt.stopped then .disabled else s.wdg.st
      spn := tmap (fun (w : SpnWdg) => if which.getLsbD 1 then { w with enabled := false } else w) s.wdg.spn } }).wdgAnswer
        .host .accepted) := by
  simp only [execWdgDisableConfirm, ha, Nat.not_lt.mpr hn, hl, hd, Bool.false_eq_true, Bool.not_true, if_false]
end

/-- Settles O28: each clause is the rule of its write or of the expiry. -/
theorem hostWatchdogActs : Obligations.HostWatchdogActs := by
  unfold Obligations.HostWatchdogActs
  exact ⟨fun _ _ h hs => execHostWdgService_first h hs, fun _ _ h => execHostWdgService_idle h,
    fun _ _ h ho => execHostWdgService_open h ho, fun _ _ h ho => execHostWdgService_early h ho,
    fun _ h => execHostWdgExpiry_window h, fun _ h hs => execHostWdgExpiry_first h hs, fun _ => rfl,
    fun _ _ _ ha hn hl hd => execWdgDisableConfirm_accepted ha hn hl hd,
    fun _ _ _ ha hn hl => execWdgDisableConfirm_lock ha hn hl,
    fun _ _ _ ha hn hl hd => execWdgDisableConfirm_state ha hn hl hd⟩

end Sys2Proof.Machine
end

section
/-!
# The bead cycle, program commands and physical pairs (R291, R306, R313, R318-R331, R462)
-/
namespace Sys2Proof.Machine
open Sys2Proof

/-! ### INPUT_FREEZE and CLOSING_TICK (R291, R306, R326) -/

section
variable {s : State}

/-- What an INPUT_FREEZE does once its cycle has its closing tick and its placements. -/
def State.freezeRest (s : State) : State :=
  let u : State := { s with cyc := { s.cyc with
    num := s.cyc.num + 1, first := decide (s.cyc.num = 0), freezeAt := s.now, phase := 1 } }
  ((List.finRange 8).foldl State.pick ((List.finRange 8).foldl State.armPair u.takeImage)).afterEnd

theorem execInputFreeze_first (hr : s.g.st.cycleRuns = true) (hp : s.cyc.phase = 0) :
    execInputFreeze s =
      .next (({ s with cyc := { s.cyc with closeAt := s.now + s.cycleNs } }).replaceAtFreeze).freezeRest := by
  rw [execInputFreeze, if_neg (by simp [hr, hp]), if_pos hp]
  rfl

theorem execInputFreeze_next (hr : s.g.st.cycleRuns = true) (hp : s.cyc.phase = 3) :
    execInputFreeze s = .next s.nextTick.replaceAtFreeze.freezeRest := by
  rw [execInputFreeze, if_neg (by simp [hr, hp]), if_neg (by rw [hp]; decide)]
  rfl

theorem execInputFreeze_idle (h : s.g.st.cycleRuns = false ∨ s.cyc.phase = 1 ∨ s.cyc.phase = 2) :
    execInputFreeze s = .next s := by
  refine if_pos ?_
  rcases h with h | h | h <;> simp [h]

/-- A program whose wait expires at a closing tick. -/
def State.waitEnds (s : State) (n : ProgN) : Bool :=
  s.waitsOpen n && (match s.cfg.prog[n] with | some p => !s.pairsLanding.contains p.pair | none => false)

/-- The cycle at its closing tick, with the waits that expire and the beads cut short. -/
def State.cutAtTick (s : State) (ends : ProgN → Bool) : State :=
  let u := ((List.finRange 256).filter ends).foldl State.waitExpired s
  (u.cutPairs.foldl State.cutShort u).timePairs

/-- The COMMIT at a closing tick, or a late cycle. -/
def State.commitOrLate (s : State) : State :=
  if s.executeDone then s.commit else { s with cyc := { s.cyc with late := true } }

theorem next_commitOrLate : (.next s.commitOrLate : Out) =
    if s.executeDone then .next s.commit else .next { s with cyc := { s.cyc with late := true } } :=
  apply_ite Host.Outcome.next _ _ _

/-- The waits that expire may be written by any predicate that agrees with `State.waitEnds`. -/
theorem State.cutAtTick_congr {u v : State} {ends : ProgN → Bool} (h : ∀ n, ends n = s.waitEnds n)
    (hu : u = ((List.finRange 256).filter ends).foldl State.waitExpired s)
    (hv : v = (u.cutPairs.foldl State.cutShort u).timePairs) : v = s.cutAtTick s.waitEnds := by
  rw [hv, hu, funext h]
  rfl

/-- The branches of a closing tick, its waits written as `ends`. -/
theorem State.commitOrLate_congr {u v : State} {ends : ProgN → Bool} (h : ∀ n, ends n = s.waitEnds n)
    (hu : u = ((List.finRange 256).filter ends).foldl State.waitExpired s)
    (hv : v = (u.cutPairs.foldl State.cutShort u).timePairs) :
    (if v.executeDone then (.next v.commit : Out) else .next { v with cyc := { v.cyc with late := true } }) =
      .next (s.cutAtTick s.waitEnds).commitOrLate := by
  rw [next_commitOrLate, ← State.cutAtTick_congr h hu hv]

theorem execClosingTick_running {t : State} (hr : s.g.st.cycleRuns = true) (hl : s.cyc.late = false)
    (hp : s.cyc.phase = 1 ∨ s.cyc.phase = 2) (ht : t = { s with cyc := { s.cyc with closeAt := s.now } }) :
    execClosingTick s = .next (t.cutAtTick t.waitEnds).commitOrLate := by
  have hg : ¬ (!s.g.st.cycleRuns || s.cyc.late || !(s.cyc.phase = 1 || s.cyc.phase = 2)) = true := by
    rcases hp with hp | hp <;> simp [hr, hl, hp]
  rw [execClosingTick, if_neg hg, ← ht]
  exact State.commitOrLate_congr (fun n => rfl) rfl rfl
end

/-! ### RESTART and STOP of a program (R313) -/

section
variable {n : ProgN} {s : State}

theorem execProgramRestart_stopped (h : s.spn.prog[n].st = .stopped) : execProgramRestart n s =
    .next (s.modProg n (fun p => { p with st := .inactive, initDue := true, consecutive := 0, cmdAns := .accepted })) := by
  simp only [execProgramRestart, h]

theorem execProgramRestart_refused (h : s.spn.prog[n].st ≠ .stopped) :
    execProgramRestart n s = .next (s.modProg n (fun p => { p with cmdAns := .refusedState })) := by
  unfold execProgramRestart
  split
  · exact absurd ‹_› h
  · rfl

theorem execProgramStop_stopped (h : s.spn.prog[n].st = .stopped) :
    execProgramStop n s = .next (s.modProg n (fun p => { p with cmdAns := .noChange })) := by
  simp only [execProgramStop, h]

theorem execProgramStop_taken (h : s.spn.prog[n].st ∉ [PSt.stopped, .absent, .dropped]) : execProgramStop n s =
    .next ((s.modProg n (fun p => { p with cmdAns := .accepted, stopDue := true })).stopNow n) := by
  simp only [List.mem_cons, List.not_mem_nil, or_false, not_or] at h
  obtain ⟨hs, ha, hd⟩ := h
  unfold execProgramStop
  split
  · exact absurd ‹_› hs
  · exact absurd ‹_› ha
  · exact absurd ‹_› hd
  · rfl
end

/-- Settles O35: the two starts of a cycle, its closing tick, and the program commands by the program's state. -/
theorem cycleAndProgramsAct : Obligations.CycleAndProgramsAct := by
  unfold Obligations.CycleAndProgramsAct
  refine ⟨?first, ?next, fun _ h => execInputFreeze_idle h, ?close,
    fun _ _ h => ⟨execProgramRestart_stopped h, execProgramStop_stopped h⟩,
    fun _ _ h => execProgramRestart_refused h, fun _ _ h => execProgramStop_taken h⟩
  case first =>
    intro s t u hr hp ht hu
    subst ht hu
    exact execInputFreeze_first hr hp
  case next =>
    intro s t u hr hp ht hu
    subst ht hu
    exact execInputFreeze_next hr hp
  case close =>
    intro s t u v hr hl hp ht hu hv
    rw [← State.commitOrLate, State.cutAtTick_congr (fun n => rfl) hu hv]
    exact execClosingTick_running hr hl hp ht

/-! ### Mismatches and replays (R318-R323) -/

section
variable {q : PPairN} {l : LPairN} {s : State}

theorem execMismatch_active {kind : MKind} {ok : Bool} (h : s.spn.phys[q].st = .active) (ho : s.g.st.operating = true) :
    execMismatch q kind ok s = .next (s.mismatchFirst q kind ok).afterEnd :=
  if_pos (by rw [h, ho]; rfl)

/-- The end of a replay, once what diverged has been reconciled. -/
def State.replayOver (s : State) (l : LPairN) (r : Replay) (now : Nat) : State :=
  (((s.modPair l (fun x => { x with replay := none })).modRepl
    (fun x => { x with duration := min 255 ((now - r.since) / 1000) })).pickNext l).afterEnd

theorem execReplayEnd_same {r : Replay} (hr : s.spn.lpair[l].replay = some r) (hc : s.spn.lpair[l].cur = none)
    (hd : r.diverged = false) (he : r.rest = []) : execReplayEnd l s = .next (s.replayOver l r s.now) := by
  simp only [execReplayEnd, hr, hc, hd, he, List.isEmpty_nil, Bool.not_true, Bool.or_false, Bool.false_eq_true, if_false]
  rfl

theorem execReplayEnd_diverged {r : Replay} (hr : s.spn.lpair[l].replay = some r) (hc : s.spn.lpair[l].cur = none)
    (hd : r.diverged = true) : execReplayEnd l s = .next ((s.reconcile l r).replayOver l r s.now) := by
  simp only [execReplayEnd, hr, hc, hd, Bool.true_or, if_true]
  rfl

/-! ### Self-test, injection and shadowing (R328-R331) -/

theorem execPairSelftest_retired (h : s.spn.phys[q].st = .retired) : execPairSelftest q s =
    .next ((s.modPhys q (fun x => { x with cmdAns := .accepted, st := .selftest })).updDegraded) := by
  simp only [execPairSelftest, h]

theorem execPairSelftest_refused (hr : s.spn.phys[q].st ≠ .retired) (ht : s.spn.phys[q].st ≠ .selftest) :
    execPairSelftest q s = .next (s.modPhys q (fun x => { x with cmdAns := .refusedState })) := by
  unfold execPairSelftest
  split
  · exact absurd ‹_› hr
  · exact absurd ‹_› ht
  · rfl

theorem execPairInject_accepted (hm : s.motion.moving = false)
    (hs : s.spn.phys.toList.any (fun x => decide (x.st = .spare)) = true) (ha : s.spn.phys[q].st = .active)
    (hi : s.spn.phys[q].inject = false) : execPairInject q s =
      .next (s.modPhys q (fun x => { x with cmdAns := .accepted, inject := x.inject || true })) := by
  simp only [execPairInject, hm, hs, ha, hi, bne_self_eq_false, Bool.not_true, Bool.false_eq_true, if_false,
    beq_self_eq_true]

theorem execPairInject_moving (hm : s.motion.moving = true) : execPairInject q s =
    .next (s.modPhys q (fun x => { x with cmdAns := .refusedMoving, inject := x.inject || false })) := by
  simp only [execPairInject, hm, if_true]
  rfl

theorem execPairSelftestStart_housekeep (h : s.spn.phys[q].st = .retired) (hr : s.g.st.cycleRuns = true)
    (hp : s.cyc.phase = 2) : execPairSelftestStart q s = .next (s.modPhys q (fun x => { x with st := .selftest })) :=
  if_pos (by rw [h, hr, hp]; rfl)

section
variable (h : s.spn.phys[q].st = .selftest) (hr : s.g.st.cycleRuns = true) (hp : s.cyc.phase = 2)
include h hr hp

theorem execPairSelftestDone_pass :
    execPairSelftestDone q true s = .next (s.modPhys q (fun x => { x with st := .shadowing })) :=
  (if_neg (by rw [h, hr, hp]; decide)).trans (if_pos rfl)

theorem execPairSelftestDone_fail :
    execPairSelftestDone q false s = .next ((s.modPhys q (fun x => { x with st := .retired })).nvWrite 4
      (fun d => { d with physSelfFails := tmod d.physSelfFails q (satInc 65535) })) :=
  (if_neg (by rw [h, hr, hp]; decide)).trans (if_neg Bool.false_ne_true)
end

section
variable (h : s.spn.phys[q].st = .shadowing) (hr : s.g.st.cycleRuns = true)
include h hr

theorem execPairShadowDone_agree : execPairShadowDone q true s =
    .next (((s.modPhys q (fun x => { x with st := .spare })).raise (608 + q.val) 32).updDegraded) :=
  (if_neg (by rw [h, hr]; decide)).trans (if_pos rfl)

theorem execPairShadowDone_disagree :
    execPairShadowDone q false s = .next ((s.retire q (some .shadow)).noteRetired q .shadow) :=
  (if_neg (by rw [h, hr]; decide)).trans (if_neg Bool.false_ne_true)
end

theorem execSpareSelfcheckFail_spare (h : s.spn.phys[q].st = .spare) (ho : s.g.st.operating = true)
    (hl : s.g.st ≠ .lastGasp) : execSpareSelfcheckFail q s = .next (s.retire q none) :=
  if_pos (by simp [-Fin.getElem_fin, h, ho, hl])

/-- The watchdog of a pair that serves a running bead: the bead noted, source and fault, then the mismatch. -/
theorem execSpindleWdgExpiry_running {n : ProgN} (hs : s.spn.phys[q].serves.find? (fun l => s.spn.lpair[l].cur.isSome) = some l)
    (he : s.wdg.spn[q].enabled = true) (ha : s.spn.phys[q].st = .active) (hr : s.g.st.cycleRuns = true)
    (hc : s.spn.lpair[l].cur = some n) {t : State}
    (ht : t = { s with wdg := { s.wdg with spn := tmod s.wdg.spn q (fun w => { w with
      expiredSeen := true, expiries := satInc 65535 w.expiries
      word := min 65535 s.spn.lpair[l].regs.pc, prog := n.val, bead := s.spn.lpair[l].bead }) } }) :
    execSpindleWdgExpiry q s = .next ((((t.raise (617 + q.val)).faultLogged 13 (617 + q.val) "SPINDLE_WATCHDOG"
      [n.val, s.spn.lpair[l].bead, s.spn.lpair[l].regs.pc]).mismatch q .timeout true).afterEnd) := by
  subst ht
  simp only [execSpindleWdgExpiry, hs, he, ha, hr, hc, bne_self_eq_false, Bool.not_true, Bool.or_self, Bool.false_eq_true,
    if_false]
end

/-- Settles O36: each clause is the rule of its command. -/
theorem physicalPairCommandsAct : Obligations.PhysicalPairCommandsAct := by
  unfold Obligations.PhysicalPairCommandsAct
  exact ⟨fun _ _ _ _ h ho => execMismatch_active h ho, fun _ _ _ hr hc hd he => execReplayEnd_same hr hc hd he,
    fun _ _ _ hr hc hd => execReplayEnd_diverged hr hc hd, fun _ _ h => execPairSelftest_retired h,
    fun _ _ hr ht => execPairSelftest_refused hr ht, fun _ _ hm hs ha hi => execPairInject_accepted hm hs ha hi,
    fun _ _ hm => execPairInject_moving hm, fun _ _ h hr hp => execPairSelftestStart_housekeep h hr hp,
    fun _ _ h hr hp => ⟨execPairSelftestDone_pass h hr hp, execPairSelftestDone_fail h hr hp⟩,
    fun _ _ h hr => ⟨execPairShadowDone_agree h hr, execPairShadowDone_disagree h hr⟩,
    fun _ _ h ho hl => execSpareSelfcheckFail_spare h ho hl,
    fun _ _ _ _ _ hs he ha hr hc ht => execSpindleWdgExpiry_running hs he ha hr hc ht⟩

end Sys2Proof.Machine
end

section
/-!
# The headstock: levels, battery, queues, dispatch and idle domains (R334-R355)
-/
namespace Sys2Proof.Machine
open Sys2Proof

/-! ### LEVEL_RECOMPUTE (R334-R342) -/

section
variable {p : Nat} {s t u : State} (hc : s.g.st.computes = true)
  (ht : t = { s with hds := { s.hds with supplyOk := s.supplyCounts, line := s.lineCounts, fans := s.fansRun } }.sampleLoad)
include hc ht

/-- Without a HEADSTOCK section only P_MOD is kept. -/
theorem execLevelRecompute_bare (hs : s.cfg.hds = none)
    (hu : u = t.judgeLevel (t.targetLevel t.pMeas p 0) (t.targetLevel t.pMeas p 0) 0) (hk : u.cfg.hds = none) :
    execLevelRecompute () p s = .next { u with hds := { u.hds with pMod := p } } := by
  rw [execLevelRecompute, if_neg (by rw [hc]; decide)]
  dsimp only
  rw [← ht]
  simp only [hs]
  rw [← hu]
  simp only [hk]

/-- With a HEADSTOCK section the horizon, the tokens, the thermal domains and the energy follow. -/
theorem execLevelRecompute_full {h k : CHds} (hs : s.cfg.hds = some h)
    (hu : u = t.judgeLevel (t.targetLevel t.pMeas p 0) (t.targetLevel t.pMeas p h.hyst) h.upHold)
    (hk : u.cfg.hds = some k) :
    execLevelRecompute () p s = .next ((List.finRange 16).foldl State.shareEnergy
      ((List.finRange 8).foldl State.thermStep (u.showHorizon k t.pMeas p).refill)) := by
  rw [execLevelRecompute, if_neg (by rw [hc]; decide)]
  dsimp only
  rw [← ht]
  simp only [hs]
  rw [← hu]
  simp only [hk]
end

/-! ### Battery and queues (R338, R343-R346, R355) -/

section
variable {q : QueueN} {s : State} {c : CQueue} {i : BitVec 16}

theorem execBatteryTimeout_valid (h : s.hds.battValid = true) : execBatteryTimeout s =
    .next (({ s with hds := { s.hds with battValid := false, battStale := true } }).laterFault none none "BATTERY_STALE") :=
  if_pos h

theorem execQueuePush_enabled {w : Word} (hq : s.queueCfg q = some c) (he : s.hds.queue[q].enable = true) :
    execQueuePush q w s = .next (if c.dom.isNone then s.pushTask q c w else s.pushHost q w) := by
  simp only [execQueuePush, hq, he, Bool.not_true, Bool.false_eq_true, if_false]

theorem execQueueComplete_found {a : Bool} {x : Item} (hq : s.queueCfg q = some c) (he : s.hds.queue[q].enable = true)
    (hd : c.dom.isSome = true)
    (hx : s.hds.queue[q].items.find? (fun x => x.index == i.toNat && decide (x.st ≠ ItemSt.queued)) = some x) :
    execQueueComplete q i a s = .next (s.complete q x (if a then 3 else 1) x.measHost) := by
  simp only [execQueueComplete, hq, he, Option.isNone_eq_false_iff.mpr hd, hx, Bool.not_true, Bool.or_false,
    Bool.false_eq_true, if_false]

theorem execQueueCancel_enabled (hq : (s.queueCfg q).isSome = true) (he : s.hds.queue[q].enable = true) :
    execQueueCancel q i s = .next (s.modQueue q (fun u => { u with cancels := u.cancels ++ [i.toNat] })) :=
  if_pos (by rw [hq, he]; rfl)

theorem execDescriptorReadDone_head {est : Word} {x : Item} (hq : s.queueCfg q = some c)
    (hx : s.hds.queue[q].headItem = some x) (hd : c.dom.isSome = true) (hn : x.desc = none) :
    execDescriptorReadDone q est s = .next
      ((s.modQueue q (fun u => u.modItem x.index (fun y => { y with desc := some est.toNat }))).withdrawDown q) := by
  simp only [execDescriptorReadDone, hq, hx, Option.isNone_eq_false_iff.mpr hd, hn, Option.isSome_none, Bool.or_false,
    Bool.false_eq_true, if_false]
end

/-! ### The dispatch round and idle domains (R347-R355) -/

section
variable {s : State}

theorem execDispatchRound_bare (hs : s.cfg.hds = none) (hr : s.g.st.cycleRuns = true) :
    execDispatchRound s = .next s.detect.endRound := by
  simp only [execDispatchRound, hs, hr, if_true]

theorem execDispatchRound_idle (hr : s.g.st.cycleRuns = false) : execDispatchRound s = .next s.endRound := by
  unfold execDispatchRound
  rw [hr]
  split <;> rfl

/-- The best of the items that may be dispatched, dispatched. -/
def State.dispatchBest (s : State) (l : List Judged) : State :=
  match (l.filter (fun j => j.deny.isNone)).foldl Judged.better none with
  | some j => s.dispatch j
  | none => s

theorem execDispatchRound_full {t u v : State} {h : CHds} (hs : s.cfg.hds = some h) (hr : s.g.st.cycleRuns = true)
    (ht : t = (s.applyCancels h.queues).noteMissed h.queues) (hu : u = t.noteDenials (t.judgeQueues h.queues))
    (hv : v = { u with hds := { u.hds with reserving := u.reservation (t.judgeQueues h.queues) } }) :
    execDispatchRound s = .next
      ((List.finRange 16).foldl State.domWake (v.dispatchBest (t.judgeQueues h.queues))).detect.endRound := by
  simp only [execDispatchRound, hs, hr, Bool.not_true, Bool.false_eq_true, if_false, ← ht, ← hu]
  rw [← hv]
  rfl

theorem execDomainIdleTimeout_idle {d : Fin 16} {k : CDom} {t : State} (hd : s.domCfg d = some k)
    (ho : s.hds.dom[d].st = .on) (ha : k.alwaysOn = false) (hi : s.hds.dom[d].inflight = 0)
    (hq : (s.domQueues d).any (fun y => s.hds.queue[y.1].enable && (s.hds.queue[y.1].readyItem y.2).isSome) = false)
    (hr : s.g.st.cycleRuns = true) (ht : t = s.modDom d (fun y => { y with st := .reqDown })) :
    execDomainIdleTimeout d s = .next
      (({ t with seq := { t.seq with domReqs := t.seq.domReqs ++ [DomReq.mk d false] } }).raise (576 + d.val) 2) := by
  subst ht
  simp only [execDomainIdleTimeout, hd, ho, ha, hi, hq, hr, decide_true, Bool.not_false, Bool.and_self, if_true]
end

/-- Settles O39: each clause is the rule of its command. -/
theorem headstockCommandsAct : Obligations.HeadstockCommandsAct := by
  unfold Obligations.HeadstockCommandsAct
  exact ⟨fun _ _ _ _ hc ht _ hs hu hk => execLevelRecompute_bare hc ht hs hu hk,
    fun _ _ _ _ _ _ hc hs ht hu hk => execLevelRecompute_full hc ht hs hu hk, fun _ _ => rfl,
    fun _ h => execBatteryTimeout_valid h, fun _ _ _ _ hq he => execQueuePush_enabled hq he,
    fun _ _ _ _ _ _ hq he hd hx => execQueueComplete_found hq he hd hx,
    fun _ _ _ hq he => execQueueCancel_enabled hq he, fun _ => rfl,
    fun _ _ _ _ _ hq hx hd hn => execDescriptorReadDone_head hq hx hd hn,
    fun _ hs hr => execDispatchRound_bare hs hr, fun _ hr => execDispatchRound_idle hr,
    fun _ _ _ _ _ hs hr ht hu hv => execDispatchRound_full hs hr ht hu hv,
    fun _ _ _ _ hd ho ha hi hq hr ht => execDomainIdleTimeout_idle hd ho ha hi hq hr ht⟩

end Sys2Proof.Machine
end

section
/-!
# The tailstock, field groups and points (R378-R401)
-/
namespace Sys2Proof.Machine
open Sys2Proof

/-! ### Heartbeats and losses (R380, R381) -/

section
variable {k : Fin 2} {b : Heartbeat} {s t : State}

theorem execHeartbeatRx_lost (h : s.noRetrain (716 + k.val) = true) : execHeartbeatRx k b s = .next s :=
  if_pos (by rw [h, Bool.or_true])

section
variable (hr : s.hsbRuns = true) (he : s.tailEn k = true) (hn : s.noRetrain (716 + k.val) = false)
include hr he hn

theorem execHeartbeatRx_crc (hc : b.crcOk = false) : execHeartbeatRx k b s =
    .next (s.modHsb (fun h => { h with crcErr := tmod h.crcErr k (satInc 65535) })) :=
  (if_neg (by rw [hr, he, hn]; decide)).trans (if_pos (by rw [hc]; rfl))

theorem execHeartbeatRx_valid (hc : b.crcOk = true)
    (ht : t = s.modHsb (fun h => { h with
      linkSerial := tset h.linkSerial k b.serial
      linkNo := if b.link = 0 then h.linkNo &&& ~~~ (1#2 <<< k.val) else h.linkNo ||| (1#2 <<< k.val) })) :
    execHeartbeatRx k b s = .next
      (if s.hsb.linkSerial[1 - k] != 0 && s.hsb.linkSerial[1 - k] != b.serial then t.miswire
        else ((t.linkFound (716 + k.val)).modHsb
          (fun h => { h with miswired := false, up := h.up ||| (1#2 <<< k.val) })).beatValid b) := by
  rw [execHeartbeatRx, if_neg (by rw [hr, he, hn]; decide), if_neg (by rw [hc]; decide), apply_ite Host.Outcome.next, ht]
end

theorem execHeartbeatSend_sends (hr : s.hsbRuns = true) (h : s.g.st.cycleRuns = true ∨ s.hsb.st = .seeking) :
    execHeartbeatSend s = .next s.sendBeats :=
  if_pos (by rcases h with h | h <;> simp [hr, h])

theorem execPartnerLoss_runs (hr : s.hsbRuns = true) : execPartnerLoss s = .next
    ((if s.hsb.eligible || ((s.tailDown 0).tailDown 1).standby then ((s.tailDown 0).tailDown 1).partnerLost
      else (s.tailDown 0).tailDown 1).modHsb (fun h => { h with partner := none, eligible := false })) :=
  if_neg (by rw [hr]; decide)

theorem execSeekTimeout_alone (hr : s.hsbRuns = true) (hs : s.hsb.st = .seeking) (hc : s.g.st.cycleRuns = true)
    (he : s.hsb.eligible = false) : execSeekTimeout s = .next s.primaryAlone :=
  if_pos (by simp only [hr, hs, hc, he, decide_true, Bool.not_false, Bool.and_self])

/-! ### Handover, partner commands and mirrors (R378, R382, R386, R390) -/

theorem execHandover_accepted (hs : s.hsb.st = .primary) (hp : s.partnerIn .standbyReady = true) :
    execHandover s = .next (s.modHsb (fun h => { h with cmdAns := .accepted, handover := true })) :=
  if_pos (by simp only [hs, hp, decide_true, Bool.and_self])

theorem execHandover_refused (hs : s.hsb.st ≠ .primary) :
    execHandover s = .next (s.modHsb (fun h => { h with cmdAns := .refusedState })) :=
  if_neg (by simp only [hs, decide_false, Bool.false_and, Bool.false_eq_true, not_false_eq_true])

/-- A partner command that names `x`, queued by a PRIMARY with an arbitrated partner and nothing queued. -/
theorem execPartnerCommand_queued {n : RailN} {code : BitVec 4} {x : PCmd}
    (hx : (if code = 0xF then some PCmd.on else (railCodeOf code.toNat).map (fun y => .rail n y)) = some x)
    (hs : s.hsb.st = .primary) (he : s.hsb.eligible = true) (ha : s.hsb.arbitrated = true) (hq : s.hsb.queue = []) :
    execPartnerCommand n code s = .next (s.modHsb (fun h => { h with pcmdAns := .queued, queue := h.queue ++ [x] })) := by
  simp only [execPartnerCommand, hx, hs, he, ha, hq, bne_self_eq_false, Bool.not_true, Bool.or_self, Bool.false_eq_true,
    List.contains_nil, List.filter_nil, List.length_nil, Bool.and_false, Nat.reduceLeDiff, decide_false,
    if_false]

section
variable {m : Mirror} (hs : s.standby = true) (ha : s.hsb.arbitrated = true) (hg : s.hsb.got = none)
  (hl : s.hsb.lastApplied = 0)
include hs ha hg hl

theorem execMirrorRx_kept (h : s.hsb.aligned = false ∨ s.cyc.num ≤ m.cycle + 1) :
    execMirrorRx m s = .next (s.modHsb (fun h => { h with got := some m })) := by
  have hlate : (s.hsb.aligned && decide (m.cycle + 1 < s.cyc.num)) = false := by
    rcases h with h | h
    · rw [h, Bool.false_and]
    · rw [decide_eq_false (BitVec.not_lt.mpr h), Bool.and_false]
  simp only [execMirrorRx, hs, ha, hg, hl, hlate, bne_self_eq_false, Bool.not_true, Bool.or_self, Bool.and_false,
    Bool.false_eq_true, if_false]

theorem execMirrorRx_late (hal : s.hsb.aligned = true) (hc : m.cycle + 1 < s.cyc.num) :
    execMirrorRx m s = .next (s.modHsb (fun h => { h with late := satInc 65535 h.late })) := by
  simp only [execMirrorRx, hs, ha, hg, hl, hal, hc, bne_self_eq_false, Bool.not_true, Bool.or_self, Bool.and_false,
    Bool.false_eq_true, decide_true, Bool.and_self, if_false, if_true]
end
end

/-- Settles O40: each clause is the rule of its command. -/
theorem tailstockCommandsAct : Obligations.TailstockCommandsAct := by
  unfold Obligations.TailstockCommandsAct
  exact ⟨fun _ _ _ hr he hn hc => execHeartbeatRx_crc hr he hn hc,
    fun _ _ _ _ hr he hn hc ht => execHeartbeatRx_valid hr he hn hc ht, fun _ _ _ h => execHeartbeatRx_lost h,
    fun _ hr h => execHeartbeatSend_sends hr h, fun _ _ hr => if_pos hr, fun _ hr => execPartnerLoss_runs hr,
    fun _ hr hs hc he => execSeekTimeout_alone hr hs hc he, fun _ hs hp => execHandover_accepted hs hp,
    fun _ hs => execHandover_refused hs,
    fun n _ hs he ha hq => ⟨execPartnerCommand_queued (n := n) (code := 0xF) rfl hs he ha hq,
      execPartnerCommand_queued (n := n) (code := 1) rfl hs he ha hq,
      execPartnerCommand_queued (n := n) (code := 2) rfl hs he ha hq⟩,
    fun _ _ hs ha hg hl h => execMirrorRx_kept hs ha hg hl h,
    fun _ _ hs ha hg hl hal hc => execMirrorRx_late hs ha hg hl hal hc⟩

/-! ### Field groups and points (R394-R401) -/

section
variable {g : Fin 8} {x : BitVec 16} {i : Nat} {s : State} {p : PointN}

/-- The contacts of a group's input points sampled. -/
def State.sampleContacts (s : State) (g : Fin 8) (c : CField) (x : BitVec 16) : State :=
  (List.range 16).foldl (fun (s : State) (i : Nat) => match c.points[i]? with
    | some k => if isInput k.mode then s.modPoint (groupPoint g i) (fun y => y.sample (x.getLsbD i) k.debounceUs s.now)
        else s
    | none => s) s

section
variable {c : CField} (hc : s.fieldCfg g = some c) (hp : s.cmpPowered = true)
include hc hp

theorem execFieldSample_supplied (hs : s.fio.group[g].supplyOk = true) : execFieldSample g x i s =
    .next ((s.modFGroup g (fun y => { y with current := i })).sampleContacts g c x).settle := by
  simp only [execFieldSample, hc, hp, hs, Bool.not_true, Bool.false_eq_true, if_false]
  rfl

theorem execFieldSample_unsupplied (hs : s.fio.group[g].supplyOk = false) : execFieldSample g x i s =
    .next (s.modFGroup g (fun y => { y with current := i })) := by
  simp only [execFieldSample, hc, hp, hs, Bool.not_true, Bool.not_false, Bool.false_eq_true, if_false, if_true]
end

theorem execSilentLogicExpiry_running (ho : s.isOutput p = true) (ht : s.fio.point[p].timerAt.isSome = true)
    (hf : s.fio.outputsOff = false) (hs : s.fio.point[p].inSafe = false) : execSilentLogicExpiry p s =
      .next (((s.modPoint p (fun x => { x with
        timerAt := none, inSafe := true, hold := if x.inSafe then x.hold else s.switched p })).raise
          (376 + p.val / 16) 3).laterFault (some (376 + p.val / 16)) none "SILENT_LOGIC" [p.val]) := by
  simp only [execSilentLogicExpiry, ho, ht, hf, hs, Bool.not_false, Bool.and_self, Bool.false_eq_true, if_false, if_true]

section
variable (hc : (s.fieldCfg g).isSome = true) (hp : s.cmpPowered = true)
include hc hp

theorem execGroupSupplyLost_used (hs : s.fio.group[g].supplyOk = true) : execGroupSupplyLost g s =
    .next ((((s.modFGroup g (fun x => { x with supplyOk := false, lostSeen := true })).clearInputs g).raise
      (376 + g.val) 0).settle) :=
  if_pos (by rw [hc, hp, hs]; rfl)

theorem execGroupSupplyReturned_used (hs : s.fio.group[g].supplyOk = false) : execGroupSupplyReturned g s = .next
    ((if s.fio.group[g].everOk then
        ((s.modFGroup g (fun x => { x with supplyOk := true, waiting := true, everOk := true })).clearInputs g).raise
          (376 + g.val) 1
      else (s.modFGroup g (fun x => { x with supplyOk := true, waiting := true, everOk := true })).clearInputs g).settle) :=
  if_pos (by rw [hc, hp, hs]; rfl)

theorem execGroupOverload_used : execGroupOverload g s = .next ((s.modFGroup g (fun x => { x with
    latched := true, overSeen := true, overloads := satInc 65535 x.overloads })).raise (376 + g.val) 4) :=
  if_pos (by rw [hc, hp]; rfl)
end

theorem execPointOverload_first {t : Bool} (hp : s.cmpPowered = true) (ho : s.isOutput p = true)
    (hv : s.fio.point[p].ovl = false) : execPointOverload p t s =
      .next ((s.modPoint p (fun x => { x with ovl := true, ovlSeen := true, thermal := t })).raise
        (376 + p.val / 16) 2) := by
  simp only [execPointOverload, hp, ho, hv, Bool.and_self, Bool.false_eq_true, if_false, if_true]

theorem execFieldGroupReset_accepted (hl : s.fio.group[g].latched = true) (hs : s.fio.group[g].supplyOk = true)
    (hr : s.g.st.cycleRuns = true) : execFieldGroupReset g s =
      .next ((s.modFGroup g (fun x => { x with latched := false, waiting := true })).modFGroup g
        (fun x => { x with cmdAns := .accepted })) := by
  simp only [execFieldGroupReset, State.fieldReset, hl, hs, hr, Bool.not_true, Bool.false_eq_true, if_false]

theorem execFieldGroupReset_unsupplied (hl : s.fio.group[g].latched = true) (hs : s.fio.group[g].supplyOk = false) :
    execFieldGroupReset g s = .next (s.modFGroup g (fun x => { x with cmdAns := .refusedSupply })) := by
  simp only [execFieldGroupReset, State.fieldReset, hl, hs, Bool.not_true, Bool.not_false, Bool.false_eq_true, if_false,
    if_true]
end

/-- Settles O41: each clause is the rule of its command. -/
theorem fieldCommandsAct : Obligations.FieldCommandsAct := by
  unfold Obligations.FieldCommandsAct
  exact ⟨fun _ _ _ _ _ hc hp hs => execFieldSample_supplied hc hp hs,
    fun _ _ _ _ _ hc hp hs => execFieldSample_unsupplied hc hp hs,
    fun _ _ ho ht hf hs => execSilentLogicExpiry_running ho ht hf hs,
    fun _ _ hc hp hs => execGroupSupplyLost_used hc hp hs, fun _ _ hc hp hs => execGroupSupplyReturned_used hc hp hs,
    fun _ _ hp hc => execGroupOverload_used hc hp, fun _ _ _ hp ho hv => execPointOverload_first hp ho hv,
    fun _ _ => rfl, fun _ _ hl hs hr => execFieldGroupReset_accepted hl hs hr,
    fun _ _ hl hs => execFieldGroupReset_unsupplied hl hs⟩

end Sys2Proof.Machine
end

section
/-!
# The meter: bursts, line judgement, classification, signing and selecting a data set (R405-R419)
-/
namespace Sys2Proof.Machine
open Sys2Proof

section
variable {samples : List MeterSample} {wins : List (Option MeterWin)} {s t u : State}

/-- One set of a burst: its sample integrated, its window's results kept where one ends. -/
def State.burstSet (s : State) (samples : List MeterSample) (wins : List (Option MeterWin)) (m : Fin 4) : State :=
  match s.setCfg m, samples[m.val]? with
  | some c, some a => (match (wins[m.val]?).getD none with
    | some w => (s.modSet m (fun x => x.integrate c a)).modSet m
        (fun x => x.window w (match nominal (s.systemOf m) with | some n => n.2 | none => false))
    | none => s.modSet m (fun x => x.integrate c a))
  | _, _ => s

/-- The period that a burst falls in: the first one opened, or the next one where the slot has ended. -/
def State.burstPeriod (s : State) : State :=
  if !s.mtr.open_ then s.openPeriod 1
  else if !s.mtr.untimed && s.mtr.slotEnd.toNat ≤ s.time.utc.toNat then (s.closePeriod 0).openPeriod 0 else s

/-- What a burst notes once its samples have been integrated. -/
def State.burstNoted (s : State) (samples : List MeterSample) : State :=
  { s with mtr := { s.mtr with
      flags := s.mtr.flags ||| s.burstFlags samples, shadowRole := s.standby
      sysTime := tmod s.mtr.sysTime (Fin.ofNat 16 s.mtr.system) (· + 1) } }

theorem execMeterBurst_metering (hs : samples.length = 4) (hw : wins.length = 4) (hm : s.metering = true) :
    execMeterBurst samples wins s = .next
      (((List.finRange 4).foldl (fun (s : State) m => s.burstSet samples wins m) s.burstPeriod).burstNoted samples) := by
  rw [execMeterBurst, if_neg (by simp [hs, hw]), if_neg (by rw [hm]; decide)]
  rfl

theorem execLineJudgement_judges {levels : List Nat} {c : CMeter} (hl : levels.length = 4) (hc : s.cfg.meter = some c)
    (hj : s.judgesLine = true) : execLineJudgement levels s = .next ((s.senseSets.foldl
      (fun (s : State) (m : Fin 4) => if lost c.lossPct s.mtr.sets[m].system ((levels[m.val]?).getD 0) then
        s.modSet m (fun x => { x with system := 0 }) else s) s).lineSync) := by
  rw [execLineJudgement, if_neg (not_not.mpr hl)]
  simp only [hc, hj, Bool.not_true, Bool.false_eq_true, if_false]

/-- One LINE_SENSE set's window classified. -/
def State.classifySet (s : State) (c : CMeter) (wins : List LineWin) (m : Fin 4) : State :=
  match wins[m.val]? with | some w => s.classify c.lossPct m w | none => s

theorem execSystemClassify_judges {wins : List LineWin} {c : CMeter} (hl : wins.length = 4) (hc : s.cfg.meter = some c)
    (hj : s.judgesLine = true) (ht : t = s.senseSets.foldl (fun (s : State) m => s.classifySet c wins m) s) :
    execSystemClassify wins s = .next ({ t with mtr := { t.mtr with classified := true } }.lineSync) := by
  subst ht
  rw [execSystemClassify, if_neg (not_not.mpr hl)]
  simp only [hc, hj, Bool.not_true, Bool.false_eq_true, if_false]
  rfl

/-! ### Signing and selecting (R413, R418, R419) -/

/-- The oldest waiting data set as it is stored: numbered, with its flags, signed. -/
def State.signedSet (s : State) (d : DataSet) : DataSet :=
  let d1 : DataSet := { d with dsSeq := s.nv.cur.dsSeq + 1 }
  { d1 with signature := meterSign (d1.body s.fac.serial) }

theorem State.signOne_stored {d : DataSet} {l : List DataSet} (hu : s.mtr.unsigned_ = d :: l) (hc : s.canSign = true)
    (h1 : (s.streamCfg 1).isSome = true) {x : DataSet} (hx : x = s.signedSet d) :
    s.signOne = ((({ s with mtr := { s.mtr with unsigned_ := l } }).nvWrite 256 (fun k =>
      if k.dataSets.length < 9216 then { k with dsSeq := s.nv.cur.dsSeq + 1, dataSets := k.dataSets ++ [x] }
      else { k with
        dsSeq := s.nv.cur.dsSeq + 1, dataSets := k.dataSets.drop 1 ++ [x]
        overwritten := satInc 65535 k.overwritten })).raise 28).streamSets := by
  subst hx
  simp only [State.signOne, State.signedSet, hu, hc, h1, if_true]

theorem execMeterDsSelect_found {ds : Word} {d : DataSet}
    (h : s.nv.cur.dataSets.find? (fun d => d.dsSeq == ds) = some d) : execMeterDsSelect ds s =
      .next { s with mtr := { s.mtr with dsSel := ds, dsAns := .found, dsData := d.bytes s.fac.serial } } := by
  simp only [execMeterDsSelect, h, Option.isSome_some, if_true]

theorem execMeterDsSelect_missing {ds : Word} (h : s.nv.cur.dataSets.find? (fun d => d.dsSeq == ds) = none) :
    execMeterDsSelect ds s = .next { s with mtr := { s.mtr with dsSel := ds, dsAns := .notFound } } := by
  simp only [execMeterDsSelect, h, Option.isSome_none, Bool.false_eq_true, if_false]
end

/-- Settles O30: each clause is the rule of its command. -/
theorem meterCommandsAct : Obligations.MeterCommandsAct := by
  unfold Obligations.MeterCommandsAct
  refine ⟨?burst, fun _ _ _ hl hc hj => execLineJudgement_judges hl hc hj,
    fun _ _ _ _ hl hc hj ht => execSystemClassify_judges hl hc hj ht, fun _ => rfl,
    fun s d _ hu hc _ h1 => ⟨s.signedSet d, rfl, rfl, rfl, State.signOne_stored hu hc h1 rfl⟩,
    fun _ _ _ h => execMeterDsSelect_found h, fun _ _ h => execMeterDsSelect_missing h⟩
  case burst =>
    intro samples wins s t u hs hw hm ht hu
    subst ht hu
    exact execMeterBurst_metering hs hw hm

end Sys2Proof.Machine
end

section
/-!
# Record streams and storage units (R429-R442)
-/
namespace Sys2Proof.Machine
open Sys2Proof

/-! ### Host streams (R431, R437) -/

section
variable {i : Fin 64} {tail : BitVec 16} {s : State}

theorem execStreamTailWrite_within (hi : 3 ≤ i.val)
    (h : (tail - s.reng.stream[i].head).toNat ≤ 2 ^ s.reng.stream[i].ringLog2.toNat) :
    execStreamTailWrite i tail s = .next (s.modStream i (fun y => { y with tail := tail })) :=
  (if_neg (by omega)).trans (if_neg (Nat.not_lt.mpr h))

theorem execStreamTailWrite_beyond (hi : 3 ≤ i.val)
    (h : 2 ^ s.reng.stream[i].ringLog2.toNat < (tail - s.reng.stream[i].head).toNat) :
    execStreamTailWrite i tail s = .next (s.accessErr 7 0 (0x091024 + 64 * i.val)) :=
  (if_neg (by omega)).trans (if_pos h)

section
variable {len : Word} {typ : Byte} {sync : Bool} {b : List Byte} (hi : 3 ≤ i.val) (hc : (s.streamCfg i).isSome = true)
  (he : s.reng.stream[i].enable = true) (ht : s.reng.stream[i].head ≠ s.reng.stream[i].tail)
  (hs : s.reng.hostStopped = false) (hr : s.recState = 1)
include hi hc he ht hs hr

theorem execStreamPayloadAdmitted_recorded (hb : b.length = len.toNat) (h1 : 1 ≤ len.toNat)
    (h2 : len.toNat ≤ 1048512) (h3 : 16 ≤ typ.toNat) (hm : s.hasRoom i (64 + (len.toNat + 15) / 16 * 16) = true) :
    execStreamPayloadAdmitted i len typ sync b s = .next ((s.putEntry i typ b len.toNat s.edge.mtime s.stampUtc
      s.time.utcQual s.nv.cur.poweron sync).modStream i (fun y => { y with head := y.head + 1 })) := by
  simp only [execStreamPayloadAdmitted, hb, h1, h2, h3, Nat.not_lt.mpr hi, Option.isNone_eq_false_iff.mpr hc, he, ht, hs,
    hr, hm, bne_self_eq_false, ne_eq, not_true, decide_true, decide_false, Bool.not_true, Bool.and_self, Bool.and_false,
    Bool.or_self, Bool.false_eq_true, if_false]

theorem execStreamPayloadAdmitted_skipped (h : len.toNat = 0 ∨ 1048512 < len.toNat ∨ typ.toNat < 16) :
    execStreamPayloadAdmitted i len typ sync b s = .next ((s.modStream i (fun y =>
      { y with head := y.head + 1, dropped := satInc 0xFFFFFFFF y.dropped })).raise (640 + i.val) 2) := by
  have hok : (decide (1 ≤ len.toNat) && decide (len.toNat ≤ 1048512) && decide (16 ≤ typ.toNat)) = false := by
    rw [Bool.and_eq_false_iff, Bool.and_eq_false_iff, decide_eq_false_iff_not, decide_eq_false_iff_not,
      decide_eq_false_iff_not]
    omega
  simp only [execStreamPayloadAdmitted, hok, Nat.not_lt.mpr hi, Option.isNone_eq_false_iff.mpr hc, he, ht, hs, hr, ne_eq,
    not_true, decide_false, Bool.not_true, Bool.not_false, Bool.false_and, Bool.or_self, Bool.false_eq_true, if_false,
    if_true]
end

/-! ### Blocks and flushes (R429, R432-R434) -/

theorem execBlockWrite_noChunk (hw : s.writesUnits = true)
    (hb : s.reng.stream[i].buf.any (fun r => decide (0 < r.left)) = true) (hc : (s.ensureChunks i).2 = false) :
    execBlockWrite i s = .next (s.ensureChunks i).1 :=
  (if_neg (by rw [hw, hb]; decide)).trans (if_pos (by rw [hc]; rfl))

/-- The next block of a stream whose copies have their chunks. -/
theorem execBlockWrite_written {t u : State} {b : List BufRec × List Rec} (hw : s.writesUnits = true)
    (hb : s.reng.stream[i].buf.any (fun r => decide (0 < r.left)) = true) (hc : (s.ensureChunks i).2 = true)
    (ht : t = (s.ensureChunks i).1)
    (hf : b = fillBlock 4096 (t.reng.stream[i].units.foldl (fun b k => b ||| (1#8 <<< k.val)) 0) t.reng.stream[i].buf)
    (hu : u = t.reng.stream[i].units.foldl (fun (s : State) k => s.modUnit k (fun u =>
      { u with chunks := u.chunks.map (fun c => if c.stream = i && c.open_ then chunkBlock c b.2 else c) }))
        (t.modStream i (fun x => { x with buf := b.1 }))) :
    execBlockWrite i s = .next (u.modStream i (fun x => { x with
      units := x.units.filter (fun k => u.reng.unit[k].chunks.any (fun c => c.stream = i && c.open_)) })) := by
  subst ht hf hu
  exact (if_neg (by rw [hw, hb]; decide)).trans (if_neg (by rw [hc]; decide))

theorem execUnitFlush_writes {w n : Nat} (hw : s.writesUnits = true) : execUnitFlush w n s =
    .next { s with reng := { s.reng with writeMbs := w, inMbs := n, stream := tmap (fun x : Stream =>
      { x with buf := x.buf.map (fun r => { r with flushing := r.written }) }) s.reng.stream } } :=
  if_neg (by rw [hw]; decide)

/-! ### Reading back (R441) -/

theorem execRecordRead_starts (h : s.reng.rdState ≠ 1) : execRecordRead i s =
    .next { s with reng := { s.reng with rdState := 1, rdAns := .none, rdStream := i, rdKib := 0 } } := if_neg h

theorem execRecordRead_busy (h : s.reng.rdState = 1) :
    execRecordRead i s = .next { s with reng := { s.reng with rdAns := .refusedBusy } } := if_pos h

theorem execRecordReadAbort_running (h : s.reng.rdState = 1) :
    execRecordReadAbort s = .next { s with reng := { s.reng with rdState := 0 } } := if_pos h

theorem execRecordReadDone_hostError {d : Option Nat} (h : s.reng.rdState = 1) : execRecordReadDone true d s =
    .next { s with reng := { s.reng with rdState := 2, rdAns := .hostWriteError } } :=
  (if_neg (not_not.mpr h)).trans (if_pos rfl)

theorem execRecordReadDone_missing (h : s.reng.rdState = 1)
    (hr : s.readRecs s.reng.rdStream s.reng.rdSeq.toNat s.reng.rdLen.toNat none = ([], false)) :
    execRecordReadDone false none s = .next { s with reng := { s.reng with
      rdState := 2, rdAns := .notFound, rdKib := 0, rdNext := dw s.reng.rdNext.toNat } } := by
  rw [execRecordReadDone, if_neg (not_not.mpr h), if_neg Bool.false_ne_true, hr]
  rfl

theorem execRecordReadDone_found {l : List Rec} {r : Rec} (h : s.reng.rdState = 1)
    (hr : s.readRecs s.reng.rdStream s.reng.rdSeq.toNat s.reng.rdLen.toNat none = (l, false)) (hl : l.getLast? = some r)
    (hb : l.flatMap recBytes ≠ []) : execRecordReadDone false none s =
      .next { s.toHost s.reng.rdAddr (l.flatMap recBytes) with reng := { s.reng with
        rdState := 2, rdAns := .found, rdKib := (l.flatMap recBytes).length / 1024, rdNext := dw (r.seq + 1) } } := by
  have hne : l.isEmpty = false := by
    cases l with
    | nil => exact absurd rfl hb
    | cons => rfl
  have hbe : (l.flatMap recBytes).isEmpty = false := by rwa [List.isEmpty_eq_false_iff]
  rw [execRecordReadDone, if_neg (not_not.mpr h), if_neg Bool.false_ne_true, hr]
  simp only [hl, hne, hbe, Bool.false_eq_true, if_false]
  rfl
end

/-- Settles O42: each clause is the rule of its command. -/
theorem recordStreamsAct : Obligations.RecordStreamsAct := by
  unfold Obligations.RecordStreamsAct
  exact ⟨fun _ _ _ hi h => execStreamTailWrite_within hi h, fun _ _ _ hi h => execStreamTailWrite_beyond hi h,
    fun _ _ _ _ _ _ hb h1 h2 h3 hi hc he ht hs hr hm =>
      execStreamPayloadAdmitted_recorded hi hc he ht hs hr hb h1 h2 h3 hm,
    fun _ _ _ _ _ _ h hi hc he ht hs hr => execStreamPayloadAdmitted_skipped hi hc he ht hs hr h,
    fun _ _ _ hw hb hc ht => ht ▸ execBlockWrite_noChunk hw hb hc,
    fun _ _ _ _ _ hw hb hc ht hf hu => execBlockWrite_written hw hb hc ht hf hu,
    fun _ _ _ hw => execUnitFlush_writes hw, fun _ _ => ⟨rfl, rfl⟩, fun _ _ h => execRecordRead_starts h,
    fun _ _ h => ⟨execRecordRead_busy h, execRecordReadAbort_running h⟩, fun _ h hr => execRecordReadDone_missing h hr,
    fun _ _ _ h hr hl hb => execRecordReadDone_found h hr hl hb, fun _ _ h => execRecordReadDone_hostError h⟩

/-! ### Units in and out of service (R436, R438-R440, R442, R481) -/

section
variable {k : Fin 8} {s : State}

theorem execUnitPresent_trains (ho : s.g.st ≠ .off) (hs : s.g.st ≠ .stabled) (ha : s.reng.unit[k].st = .absent)
    (he : s.storageOn k = true) : execUnitPresent k s =
      .next (s.modUnit k (fun u => { u with st := .training, present := true, perst := false })) := by
  unfold execUnitPresent
  split
  · exact absurd ‹_› ho
  · exact absurd ‹_› hs
  · exact if_pos (by rw [ha, he]; rfl)

theorem execUnitControllerReady_training {met : Bool} {c w : Nat} (ht : s.reng.unit[k].st = .training)
    (hn : s.noRetrain (704 + k.val) = false) : execUnitControllerReady k met c w s =
      .next ((s.linkFound (704 + k.val)).modUnit k (fun u => { u with
        st := if met then .verifying else .failed, failCause := if met then u.failCause else some .unsupported
        capChunks := c, wearPct := w })) :=
  if_pos (by rw [ht, hn]; rfl)

theorem execUnitTrainingTimeout_training (ht : s.reng.unit[k].st = .training) : execUnitTrainingTimeout k s =
    .next (s.modUnit k (fun u => { u with st := .failed, failCause := some .noLink })) := if_pos ht

section
variable (hv : s.reng.unit[k].st = .verifying)
include hv

section
variable (hs : s.g.st ≠ .safeHold) (hu : s.g.st ≠ .unprovisioned) (hl : s.g.loadOk = true)
include hs hu hl

theorem execUnitVerifyDone_good {l : List Chunk} : execUnitVerifyDone k (.good l) s = .next
    ((s.modUnit k (fun u => { u with st := .inService, chunks := s.takeChunks l })).raise (704 + k.val)) :=
  (if_neg (not_not.mpr hv)).trans (if_neg (by simp [hs, hu, hl]))

theorem execUnitVerifyDone_blank : execUnitVerifyDone k .blank s =
    .next (s.modUnit k (fun u => { u with st := .blank, chunks := [] })) :=
  (if_neg (not_not.mpr hv)).trans (if_neg (by simp [hs, hu, hl]))

theorem execUnitVerifyDone_badIndex : execUnitVerifyDone k .badIndex s =
    .next (s.modUnit k (fun u => { u with st := .failed, failCause := some .indexBad, chunks := [] })) :=
  (if_neg (not_not.mpr hv)).trans (if_neg (by simp [hs, hu, hl]))

omit hs hu in
theorem execUnitVerifyDone_foreign : execUnitVerifyDone k .foreign s =
    .next (s.modUnit k (fun u => { u with st := .foreign })) :=
  (if_neg (not_not.mpr hv)).trans (if_pos (by rw [hl]; rfl))
end

section
variable (hs : s.g.st = .safeHold)
include hs

theorem execUnitVerifyDone_goodHeld {l : List Chunk} : execUnitVerifyDone k (.good l) s =
    .next (s.modUnit k (fun u => { u with chunks := l })) :=
  (if_neg (not_not.mpr hv)).trans (if_pos (by rw [hs]; rfl))

theorem execUnitVerifyDone_blankHeld : execUnitVerifyDone k .blank s = .next s :=
  (if_neg (not_not.mpr hv)).trans (if_pos (by rw [hs]; rfl))

theorem execUnitVerifyDone_badIndexHeld : execUnitVerifyDone k .badIndex s = .next s :=
  (if_neg (not_not.mpr hv)).trans (if_pos (by rw [hs]; rfl))
end
end

theorem execUnitShutdownDone_releasing (hr : s.reng.unit[k].st = .releasing) (hg : s.g.st ≠ .lastGasp) :
    execUnitShutdownDone k s = .next (s.modUnit k (fun u => { u with st := .removable, perst := true })) :=
  if_pos (by simp only [hr, hg, ne_eq, not_false_eq_true, decide_true, Bool.and_self])

theorem execUnitRemoved_removable {t : State} (hr : s.reng.unit[k].st = .removable)
    (ht : t = s.modUnit k (fun u => { u with
      st := .absent, present := false, perst := true, failCause := none, linkDown := false, chunks := []
      capChunks := 0 })) :
    execUnitRemoved k s = .next ((t.raise (704 + k.val) 1).unitGone k) := by
  subst ht
  simp only [execUnitRemoved, hr, reduceCtorEq, ne_eq, not_true, decide_false, Bool.or_false, Bool.false_eq_true, if_false]

theorem execUnitRemoved_surprise {t : State} (hr : s.reng.unit[k].st = .inService)
    (ht : t = (s.unwrite k).modUnit k (fun u => { u with
      st := .absent, present := false, perst := true, failCause := none, linkDown := false, chunks := []
      capChunks := 0, surpriseSeen := true })) :
    execUnitRemoved k s = .next ((t.raise (704 + k.val) 1).unitGone k) := by
  subst ht
  simp only [execUnitRemoved, hr, reduceCtorEq, ne_eq, not_false_eq_true, decide_true, Bool.or_true, if_false, if_true]

/-- A write error, or a link lost for 1 s, fails a unit in service with its cause. -/
theorem execUnitWriteError_fails {b : Bool} (h : s.reng.unit[k].st = .inService) : execUnitWriteError k b s =
    .next ((((s.unwrite k).modUnit k (fun u => { u with
      st := .failed, failCause := some (if b then .linkLost else .writeError), linkDown := false })).raise
        (704 + k.val) 2).unitGone k) := if_pos h

theorem execStorageLinkDown_inService {t : State} (h : s.reng.unit[k].st = .inService)
    (hd : s.reng.unit[k].linkDown = false) (ht : t = s.modUnit k (fun u => { u with linkDown := true })) :
    execStorageLinkDown k s = .next (if s.time.tbFault then t.linkLost (704 + k.val) else t.noteLost (704 + k.val)) := by
  subst ht
  exact if_pos (by rw [h, hd]; rfl)

theorem execStorageLinkRecovered_down (hd : s.reng.unit[k].linkDown = true) (hf : s.time.tbFault = false) :
    execStorageLinkRecovered k s = .next ((s.linkFound (704 + k.val)).modUnit k
      (fun u => { u with linkDown := false, recoveredSeen := true })) :=
  if_pos (by rw [hd, hf]; rfl)

/-- RELEASE of a unit that is not the only one of stream 0, or with FORCE. -/
theorem execUnitRelease_released {f : Bool} {t : State} (h : s.reng.unit[k].st = .inService)
    (hf : s.unitsOf 0 ≠ [k] ∨ f = true)
    (ht : t = s.modUnit k (fun u => { u with
      st := .releasing, chunks := u.chunks.map (fun c => { c with open_ := false }) })) :
    execUnitRelease k f s = .next ((({ t with
      reng := { t.reng with
        stream := tmap (fun x : Stream => { x with units := x.units.filter (· != k) }) t.reng.stream } }).unitAnswer
          k .accepted).unitGone k) := by
  subst ht
  have hg : (decide (s.unitsOf 0 = [k]) && !f) = false := by
    rcases hf with hf | hf <;> simp [hf]
  simp only [execUnitRelease, h, hg, Bool.false_eq_true, if_false]

theorem execUnitRelease_juridical (h : s.reng.unit[k].st = .inService) (hk : s.unitsOf 0 = [k]) :
    execUnitRelease k false s = .next (s.unitAnswer k .refusedJuridical) := by
  simp only [execUnitRelease, h, hk, decide_true, Bool.not_false, Bool.and_self, if_true]

theorem execUnitAdmit_failed (h : s.reng.unit[k].st = .failed) : execUnitAdmit k s =
    .next ((s.modUnit k (fun u => { u with st := .training, failCause := none, perst := false })).unitAnswer k
      .accepted) := by
  simp only [execUnitAdmit, h]

theorem execUnitFormat_blank {f : Bool} (hr : s.recState = 1) (h : s.reng.unit[k].st = .blank) :
    execUnitFormat k f s = .next (((s.modUnit k (fun u =>
      { u with st := .inService, failCause := none, chunks := [] })).unitAnswer k .accepted).raise (704 + k.val)) := by
  rw [execUnitFormat, if_neg (not_not.mpr hr)]
  simp only [h]
end

/-- Settles O43: each clause is the rule of its command. -/
theorem storageUnitsAct : Obligations.StorageUnitsAct := by
  unfold Obligations.StorageUnitsAct
  exact ⟨fun _ _ ho hs ha he => execUnitPresent_trains ho hs ha he,
    fun _ _ _ _ _ ht hn => ⟨execUnitControllerReady_training ht hn, execUnitTrainingTimeout_training ht⟩,
    fun _ _ _ hv hs hu hl => ⟨execUnitVerifyDone_good hv hs hu hl, execUnitVerifyDone_blank hv hs hu hl,
      execUnitVerifyDone_foreign hv hl, execUnitVerifyDone_badIndex hv hs hu hl⟩,
    fun _ _ _ hv hs => ⟨execUnitVerifyDone_goodHeld hv hs, execUnitVerifyDone_blankHeld hv hs,
      execUnitVerifyDone_badIndexHeld hv hs⟩,
    fun _ _ hr hg => execUnitShutdownDone_releasing hr hg, fun _ _ _ hr ht => execUnitRemoved_removable hr ht,
    fun _ _ _ hr ht => execUnitRemoved_surprise hr ht,
    fun _ _ h => ⟨execUnitWriteError_fails h, execUnitWriteError_fails h⟩,
    fun _ _ _ h hd ht => execStorageLinkDown_inService h hd ht, fun _ _ hd hf => execStorageLinkRecovered_down hd hf,
    fun _ _ _ _ h hf ht => execUnitRelease_released h hf ht, fun _ _ h hk => execUnitRelease_juridical h hk,
    fun _ _ h => execUnitAdmit_failed h, fun _ _ _ hr h => execUnitFormat_blank hr h⟩

end Sys2Proof.Machine
end
